-- ==== Sys2Proof/Word.lean ====
section
/-!
DEFINITION. The machine words: a byte, a 32-bit register, a 64-bit scalar or command word, a 16-bit
counter (spec 00 R7, R8; 10 R204).
-/
namespace Sys2Proof

/-- One byte of memory (00 R8). -/
abbrev Byte := BitVec 8

/-- One register of the control space (22 R475). -/
abbrev W32 := BitVec 32

/-- One scalar register, or one word of a command (10 R204). -/
abbrev W64 := BitVec 64

/-- One core counter (10 R214). -/
abbrev W16 := BitVec 16

end Sys2Proof
end

