-- ==== Sys2Proof/Syntax.lean ====
section
/-!
DEFINITION. The commands of the block: one constructor per row of the opcode table. A stream command
names the core and context it runs on and carries the fields of its four words (spec 10, the command
format); the other commands carry what the rule of their row names.
-/
namespace Sys2Proof

/-- One wait of a command (10, command words W0 and W1). -/
structure Wait where
  ctr : BitVec 8 := 0
  cond : BitVec 2 := 0
  val : BitVec 16 := 0
  deriving DecidableEq, Repr

/-- The fields of a stream command: those of W0 and W1 that every command has, its operand field OPA
and its words W2 and W3 (10, the command format). The operation and its engine are the row's own. -/
structure CmdFields where
  pred : BitVec 3 := 0
  psense : Bool := false
  waitA : Wait := {}
  sigCtr : BitVec 8 := 0
  sigDelta : BitVec 8 := 0
  sigMode : BitVec 3 := 0
  waitB : Wait := {}
  opa : BitVec 38 := 0
  w2 : W64 := 0
  w3 : W64 := 0
  deriving DecidableEq, Repr

/-- What stands around a service frame on the wire (15 R318 to R320): the Ethernet frame with its destination address and the control
word of its 802.1Q tag, the IP packet, the UDP datagram. -/
structure Envelope where
  fcs : Bool := true          -- the frame check sequence is correct
  pause : Bool := false       -- a PAUSE or PFC frame
  mac : Nat := 0              -- destination MAC address
  vlan : Option Nat := none   -- tag control word; none: untagged
  v6 : Bool := true
  ipOk : Bool := true         -- the IP header is correct
  frag : Bool := false        -- an IP fragment
  opts : Bool := false        -- IPv4 options, or IPv6 extension headers
  df : Bool := true           -- DF of an IPv4 packet
  ipSrc : Nat := 0
  ipDst : Nat := 0
  srcPort : Nat := 0
  dstPort : Nat := 0x1CAC
  udpLen : Nat := 60          -- the UDP length field
  udpSum : Nat := 0           -- the UDP checksum field; 0: none
  deriving DecidableEq, Repr

/-- A service frame (15, the service frame): its port, what it travels in, the four header words, payload, tag and trailer. -/
structure SvcFrame where
  port : Nat := 0
  env : Envelope := {}
  h0 : W64 := 0
  h1 : W64 := 0
  h2 : W64 := 0
  h3 : W64 := 0
  payload : List Byte := []
  tag : List Byte := []
  crc : W32 := 0
  deriving DecidableEq, Repr

/-- A fabric packet (14 R299): four header words and payload. -/
structure Packet where
  f0 : W64 := 0
  f1 : W64 := 0
  f2 : W64 := 0
  f3 : W64 := 0
  payload : List Byte := []
  deriving DecidableEq, Repr

/-- The commands, one constructor per row of the opcode table. -/
inductive Instr where
  /-- NOP (R239). Control-core command that does nothing and exists only for its waits and signal. -/
  | nop (core ctx : Nat) (f : CmdFields)
  /-- END (R231). End of stream; completes when every earlier command of the context has completed, then sets the context IDLE and ends a placed job. -/
  | endStream (core ctx : Nat) (f : CmdFields)
  /-- MOVI (R239). Loads the 64-bit immediate into a scalar register. -/
  | movi (core ctx : Nat) (f : CmdFields)
  /-- MOV (R239). Copies one scalar register to another. -/
  | mov (core ctx : Nat) (f : CmdFields)
  /-- ADD (R239). Adds operand B to a scalar register modulo 2^64. -/
  | add (core ctx : Nat) (f : CmdFields)
  /-- SUB (R239). Subtracts operand B from a scalar register modulo 2^64. -/
  | sub (core ctx : Nat) (f : CmdFields)
  /-- MUL (R239). Writes the low 64 bits of a scalar product. -/
  | mul (core ctx : Nat) (f : CmdFields)
  /-- AND (R239). Bitwise AND of a scalar register and operand B. -/
  | andOp (core ctx : Nat) (f : CmdFields)
  /-- OR (R239). Bitwise OR of a scalar register and operand B. -/
  | orOp (core ctx : Nat) (f : CmdFields)
  /-- XOR (R239). Bitwise XOR of a scalar register and operand B. -/
  | xor (core ctx : Nat) (f : CmdFields)
  /-- SHL (R239). Shifts a scalar register left by B[5:0]. -/
  | shl (core ctx : Nat) (f : CmdFields)
  /-- SHR (R239). Logical right shift of a scalar register by B[5:0]. -/
  | shr (core ctx : Nat) (f : CmdFields)
  /-- SAR (R239). Arithmetic right shift of a scalar register, copying bit 63. -/
  | sar (core ctx : Nat) (f : CmdFields)
  /-- PSET (R239). Sets a predicate register from a comparison of scalars. -/
  | pset (core ctx : Nat) (f : CmdFields)
  /-- PLOG (R239). Sets a predicate register from a logic function of two predicates. -/
  | plog (core ctx : Nat) (f : CmdFields)
  /-- BRA (R219). Branches to an immediate address, faulting ST_ALIGN on a bad target. -/
  | bra (core ctx : Nat) (f : CmdFields)
  /-- BRR (R219). Branches to the address in a scalar register. -/
  | brr (core ctx : Nat) (f : CmdFields)
  /-- HRD (R221). Reads one header field of a drawer's header slot into a scalar after any pending writer of that slot completes. -/
  | hrd (core ctx : Nat) (f : CmdFields)
  /-- HSET (R240). Writes one header field, fixes VERSION, LAYOUT, BODY_LEN and HCRC, and refuses un-tarnishing or a budget raise on a live header. -/
  | hset (core ctx : Nat) (f : CmdFields)
  /-- HCOPY (R239). Copies one header slot to another. -/
  | hcopy (core ctx : Nat) (f : CmdFields)
  /-- HDROP (R241). Drops a header in place to fewer limbs after the R52 checks, keeping BUDGET. -/
  | hdrop (core ctx : Nat) (f : CmdFields)
  /-- CADD (R239). Adds an immediate to a core counter modulo 65,536. -/
  | cadd (core ctx : Nat) (f : CmdFields)
  /-- CRD (R239). Reads a core counter into a scalar register. -/
  | crd (core ctx : Nat) (f : CmdFields)
  /-- RSIG (R256). Posts a remote signal to a core, die, device or remote-device counter and completes at issue plus one. -/
  | rsig (core ctx : Nat) (f : CmdFields)
  /-- BARRIER (R262). Arrives at a die, device or fabric barrier and waits for the phase release. -/
  | barrier (core ctx : Nat) (f : CmdFields)
  /-- DESCWR (R249). Writes a 320-bit stream descriptor from five scalar registers. -/
  | descwr (core ctx : Nat) (f : CmdFields)
  /-- DRTAG (R191). Sets a run of the context's drawers EMPTY or FULL after claims and pending consumes are released. -/
  | drtag (core ctx : Nat) (f : CmdFields)
  /-- LSDECIDE (R154). Decides a training step from the overflow flag, sets the predicate and halves or doubles the loss scale. -/
  | lsdecide (core ctx : Nat) (f : CmdFields)
  /-- LRPICK (R157). Sets a layer's learning-rate shift from its histogram slot and clears the slot. -/
  | lrpick (core ctx : Nat) (f : CmdFields)
  /-- NTTO (R72). Forward NTT of every limb of an object, inverting DOMAIN in the result header. -/
  | ntto (core ctx : Nat) (f : CmdFields)
  /-- INTTO (R72). Inverse NTT of every limb of an object. -/
  | intto (core ctx : Nat) (f : CmdFields)
  /-- NTTL (R73). Forward transform of a run of limbs using consecutive table entries. -/
  | nttl (core ctx : Nat) (f : CmdFields)
  /-- INTTL (R73). Inverse transform of a run of limbs. -/
  | inttl (core ctx : Nat) (f : CmdFields)
  /-- AUTOL (R70). Applies the Galois automorphism to a run of NTT-domain limbs. -/
  | autol (core ctx : Nat) (f : CmdFields)
  /-- DBCHAIN (R162). Runs one drawbench pass of a chain entry through its stations. -/
  | dbchain (core ctx : Nat) (f : CmdFields)
  /-- DBREDUCE (R176). Runs a clear chain to the mask station and reduces the survivors to one scalar. -/
  | dbreduce (core ctx : Nat) (f : CmdFields)
  /-- HADD (R177). Adds two ciphertexts and sets the result header by the budget rules. -/
  | hadd (core ctx : Nat) (f : CmdFields)
  /-- HSUB (R177). Subtracts two ciphertexts. -/
  | hsub (core ctx : Nat) (f : CmdFields)
  /-- HADDP (R177). Adds a plaintext to a ciphertext. -/
  | haddp (core ctx : Nat) (f : CmdFields)
  /-- HSUBP (R177). Subtracts a plaintext from a ciphertext. -/
  | hsubp (core ctx : Nat) (f : CmdFields)
  /-- HMULP (R177). Multiplies a ciphertext by a plaintext. -/
  | hmulp (core ctx : Nat) (f : CmdFields)
  /-- HMULC (R177). Multiplies two ciphertexts into a three-polynomial result. -/
  | hmulc (core ctx : Nat) (f : CmdFields)
  /-- HMULI (R177). Multiplies a ciphertext by plus or minus a power of two, keeping SCALE. -/
  | hmuli (core ctx : Nat) (f : CmdFields)
  /-- TCFG (R125). Waits for earlier anvil commands, then sets tile shapes, zeroes tiles and invalidates the reuse latch. -/
  | tcfg (core ctx : Nat) (f : CmdFields)
  /-- TLOAD (R127). Loads one tile and its side-file from the scratchpad. -/
  | tload (core ctx : Nat) (f : CmdFields)
  /-- TMUL (R120). Multiplies two tiles into an FP32 accumulator tile. -/
  | tmul (core ctx : Nat) (f : CmdFields)
  /-- TZERO (R130). Zeroes an accumulator tile and clears its flags. -/
  | tzero (core ctx : Nat) (f : CmdFields)
  /-- TDRAIN (R130). Converts accumulator rows to an output format and writes them to the scratchpad. -/
  | tdrain (core ctx : Nat) (f : CmdFields)
  /-- BCONV (R135). Converts residues from one prime set to another on the anvil. -/
  | bconv (core ctx : Nat) (f : CmdFields)
  /-- MMULM (R136). Multiplies limb ranges by a plaintext residue matrix modulo one prime. -/
  | mmulm (core ctx : Nat) (f : CmdFields)
  /-- XFER (R243). Streams data between HBM, scratchpad groups and windows, locally or across the fabric. -/
  | xfer (core ctx : Nat) (f : CmdFields)
  /-- XOBJ (R245). Moves a ciphertext object between HBM and the scratchpad with its header. -/
  | xobj (core ctx : Nat) (f : CmdFields)
  /-- QREAD (R197). Reads drawers of another core of the quad over the crossbar. -/
  | qread (core ctx : Nat) (f : CmdFields)
  /-- XPUT (R304). Relaxed or bulk put to a global address, signalling a completion counter. -/
  | xput (core ctx : Nat) (f : CmdFields)
  /-- XGET (R304). Relaxed or bulk get from a global address, signalling a completion counter. -/
  | xget (core ctx : Nat) (f : CmdFields)
  /-- KSRELIN (R93). Die macro that relinearises a three-polynomial ciphertext. -/
  | ksrelin (core ctx : Nat) (f : CmdFields)
  /-- KSROT (R93). Die macro that rotates a ciphertext by a step-table entry. -/
  | ksrot (core ctx : Nat) (f : CmdFields)
  /-- KSCONJ (R93). Die macro that conjugates a ciphertext. -/
  | ksconj (core ctx : Nat) (f : CmdFields)
  /-- KSHOIST (R93). Die macro that makes up to 16 rotations sharing one ModUp, optionally summed. -/
  | kshoist (core ctx : Nat) (f : CmdFields)
  /-- ANNEAL (R103). Die macro that bootstraps one or two CKKS ciphertexts by the published sequence. -/
  | anneal (core ctx : Nat) (f : CmdFields)
  /-- HRESCALE (R247). Die macro that rescales or modulus-switches a ciphertext, dropping its top limb. -/
  | hrescale (core ctx : Nat) (f : CmdFields)
  /-- COMMAND_ARRIVAL (R210). A command reaches the head of its queue and the decode and share checks are made. `ctx`: the context, and
  whether the control-core storage it reads has wrong parity (R404). -/
  | commandArrival (core : Nat) (ctx : Nat × Bool)
  /-- COMMAND_ISSUE (R214). A waiting command's waits hold in the per-cycle counter resolution, CLAIMs are taken and issue checks and latches are made. `core`: the core, and the
  counters found with wrong parity (R404). -/
  | commandIssue (core : Nat × List Nat)
  /-- COMMAND_START (R189). An issued command's drawer tags, hazards and leases permit it to start, and it claims its destinations. -/
  | commandStart (core ctx eng : Nat)
  /-- COMMAND_COMMIT (R191). A command reaches its commit point, sets destinations FULL, consumes sources and completes with its status and signal. `nth`: its
  place among the started commands, and whether a byte it received over an internal link has wrong parity (R404). -/
  | commandCommit (core ctx eng : Nat) (nth : Nat × Bool)
  /-- CORE_WATCHDOG_EXPIRY (R232). A command's watchdog count expires and it ends with ST_TIMEOUT. -/
  | coreWatchdogExpiry (core pos : Nat)
  /-- CTX_START (R231). CTX_CTRL START sets an IDLE context RUNNING at CTX_PC. -/
  | ctxStart (core ctx req : Nat)
  /-- CTX_PREEMPT (R227). CTX_CTRL PREEMPT stops dispatch of a RUNNING context and begins its save. -/
  | ctxPreempt (core ctx req : Nat)
  /-- PREEMPT_SAVE_DONE (R227). Started commands have completed and the save record is written; the context becomes PREEMPTED or a held abort or reset applies. -/
  | preemptSaveDone (core ctx : Nat)
  /-- CTX_RESUME (R228). CTX_CTRL RESUME restores a PREEMPTED context's save record and sets it RUNNING. -/
  | ctxResume (core ctx req : Nat)
  /-- CTX_ABORT (R224). CTX_CTRL ABORT decides every command of the context as aborted or late. -/
  | ctxAbort (core ctx req : Nat)
  /-- ABORT_DONE (R226). Every command of an aborting context has been decided and the context becomes IDLE. -/
  | abortDone (core ctx : Nat)
  /-- CTX_RESET (R230). CTX_CTRL RESET aborts the context and clears its registers, counters, queues, drawers and header slots. -/
  | ctxReset (core ctx req : Nat)
  /-- CORE_MODE_WRITE (R205). A write of CORE_MODE while every context is IDLE resets every context and changes the mode. -/
  | coreModeWrite (core req : Nat) (modeM : Bool)
  /-- WINDOW_OPEN (R192). A WIN_CFG write of OPEN 1 opens a window after its checks. -/
  | windowOpen (core w ctx first count req : Nat)
  /-- WINDOW_CLOSE (R196). A WIN_CFG write of OPEN 0 closes a window, tearing partly written drawers. -/
  | windowClose (core w req : Nat)
  /-- WINDOW_WRITE (R193). A window write arrives at the owner and is accepted or refused, recording granules. -/
  | windowWrite (owner off dev core id : Nat) (data : List Byte) (bad : Bool)
  /-- WINDOW_WRITE_RESUME (R193). A window write back-pressured at a FULL drawer lands when the drawer becomes EMPTY. -/
  | windowWriteResume (i : Nat)
  /-- REMOTE_READ_SERVE (R306). A fabric load or get waiting at a non-FULL window drawer is served when the drawer becomes FULL. -/
  | remoteReadServe (i : Nat)
  /-- SP_INJECT_ARM (R203). A key-guarded SP_INJECT write arms a parity inversion on a drawer's next write. -/
  | spInjectArm (core drawer req : Nat)
  /-- HIST_CLEAR (R151). A HIST_CFG CLEAR write zeroes all bins of a histogram slot. -/
  | histClear (core slot : Nat)
  /-- ALLOY_BUILD (R62). An ALLOY_BUILD START builds a table slot's shadow bank from its alloy record. -/
  | alloyBuild (slot : Nat) (commit : Bool) (req : Nat)
  /-- ALLOY_BUILD_DONE (R60). A build finishes its checks and derivations, setting SHADOW 2 or 3 and committing at once with COMMIT 1. -/
  | alloyBuildDone
  /-- KEY_CHUNK_ARRIVAL (R97). A key record's first chunk arrives and its header is compared with the command. -/
  | keyChunkArrival (core pos j n : Nat)
  /-- GROUP_LINE_EXPIRY (R92). A key-stream group's LAST line is discarded 2^16 NOC cycles after its first delivery. -/
  | groupLineExpiry (granule : Nat)
  /-- SIGNAL_ARRIVAL (R257). A posted remote signal or notification reaches its counter. -/
  | signalArrival (i : Nat)
  /-- DIE_COUNTER_FIRE (R259). An armed die or device counter at or above its threshold notifies its cores and steps its threshold. -/
  | dieCounterFire (key : Nat)
  /-- BARRIER_WATCHDOG (R265). A barrier's watchdog fires and poisons it, releasing waiters with ST_TIMEOUT. -/
  | barrierWatchdog (key : Nat)
  /-- BAR_CFG_WRITE (R269). A pair-written BAR_CFG or CTR_CFG write arms or disarms a barrier or counter, clearing state on arming. -/
  | barCfgWrite (counter : Bool) (key : Nat) (v : W32) (req : Nat)
  /-- HBM_READ_RESPONSE (R277). A stack read returns and its ECC severity decides delivery, correction or poisoning. -/
  | hbmReadResponse (addr severity link : Nat)
  /-- HBM_WRITE (R276). A write granule is parity-checked and written through to the stack. -/
  | hbmWrite (addr hint : Nat) (data : List Byte) (bad : Bool) (link core id : Nat)
  /-- HBM_TEMP_READ (R282). Each 100 µs a controller reads its stack temperature and sets throttle step and refresh rate. -/
  | hbmTempRead (stack temp rate : Nat) (cat : Bool)
  /-- HBM_RECALIBRATION (R285). A controller recentres its PHY in a refresh window at most once per interval. -/
  | hbmRecalibration (stack : Nat) (fail : Bool)
  /-- DROP_KEEP (R281). A CACHE_CTRL DROP_KEEP write releases every KEEP line of a cache. -/
  | dropKeep (stack : Nat)
  /-- OFFLINE (R286). MT_CTRL OFFLINE takes a stack offline once its queues are empty. -/
  | offline (stack req : Nat)
  /-- ONLINE (R286). MT_CTRL ONLINE returns a stack to service. -/
  | online (stack req : Nat)
  /-- SOFT_PPR (R286). MT_CTRL soft PPR repairs a row of an offline stack. -/
  | softPpr (stack req : Nat)
  /-- HARD_PPR (R286). MT_CTRL hard PPR blows a stack's repair fuse for a row. -/
  | hardPpr (stack req : Nat)
  /-- LANE_REMAP (R286). MT_CTRL lane remap moves a failing lane to a spare. -/
  | laneRemap (stack req : Nat)
  /-- LINK_FRAME_RECEIVE (R300). A link frame is CRC- and sequence-checked and retransmitted from the replay buffer on failure. `frame`: whether its
  CRC matches, and the frame of this side that it asks for again. -/
  | linkFrameReceive (port seq : Nat) (frame : Bool × Option Nat)
  /-- PACKET_FORWARD (R296). A packet for another device is routed onward or discarded as unreachable. -/
  | packetForward (port : Nat) (p : Packet)
  /-- STORE (R306). A shelf-level window write packet is applied at the target. -/
  | store (port : Nat) (p : Packet)
  /-- LOAD_REQ (R306). A shelf-level window read request is served from a FULL window drawer. -/
  | loadReq (port : Nat) (p : Packet)
  /-- LOAD_DATA (R304). Load data returns to the requester and completes its transfer. -/
  | loadData (port : Nat) (p : Packet)
  /-- PUT (R306). A put packet is written into a window at the target and acknowledged. -/
  | put (port : Nat) (p : Packet)
  /-- GET_REQ (R306). A get request is served from a window at the target. -/
  | getReq (port : Nat) (p : Packet)
  /-- GET_DATA (R304). Get data is written locally, completing an XGET. -/
  | getData (port : Nat) (p : Packet)
  /-- ACK (R304). An acknowledgement with status completes or ends a remote operation. -/
  | ack (port : Nat) (p : Packet)
  /-- SIGNAL (R308). A fabric signal packet is applied to a core counter, subject to grants. -/
  | signal (port : Nat) (p : Packet)
  /-- BAR_ARRIVE (R311). A member's arrival or poison reaches the home of a fabric barrier. -/
  | barArrive (port : Nat) (p : Packet)
  /-- BAR_RELEASE (R311). A fabric barrier release or poison reaches a member and releases its waiters. -/
  | barRelease (port : Nat) (p : Packet)
  /-- FABRIC_BARRIER_WATCHDOG (R312). The home's watchdog fires and poisons the fabric barrier for every member. -/
  | fabricBarrierWatchdog (b : Nat) (home : Bool)
  /-- TIME (R313). A TIME message trims the child's device time rate and phase. -/
  | time (port offset stamp : Nat)
  /-- TIME_SEND (R313). Every 2^16 CTRL cycles a time parent sends TIME. -/
  | timeSend
  /-- TIME_LOSS (R313). Four missed TIME messages clear SYNCED. -/
  | timeLoss
  /-- JOIN (R314). A JOIN packet is checked against the wiring rule, making the port UP or MISWIRED. -/
  | join (port peerDev peerPort role level : Nat)
  /-- RESYNC (R301). A RESYNC sets the expected alive value of a broken pair stream. -/
  | resync (port : Nat) (p : Packet)
  /-- PORT_TRAINING (R314). An enabled port trains, deskews and locks FEC, or fails as DOWN. -/
  | portTraining (port : Nat) (ok : Bool) (width : Nat)
  /-- TRAINING_RETRY (R314). A DOWN port retries training every 100 ms. -/
  | trainingRetry (port : Nat)
  /-- ALIVE_ENTRY_AGE (R397). A receive alive entry idle for 2^AGE_LOG2 CTRL cycles becomes UNSET. `dev`: its device, and whether the entry has wrong parity
  (R404). -/
  | aliveEntryAge (dev : Nat × Bool)
  /-- FAB_GRANT_WRITE (R307). A FAB_GRANT write sets or clears a hall-level grant, closing windows it no longer covers. -/
  | fabGrantWrite (g : Nat) (v : W32)
  /-- PORT_CTRL_WRITE (R317). A PORT_CTRL write enables or disables a fabric port. -/
  | portCtrlWrite (port : Nat) (enable : Bool)
  /-- ARP_REQUEST (R319). A service port answers an ARP request for its address. -/
  | arpRequest (port addr : Nat)
  /-- NEIGHBOUR_SOLICITATION (R319). A service port answers an IPv6 neighbour solicitation. -/
  | neighbourSolicitation (port addr : Nat)
  /-- ECHO_REQUEST (R319). A service port answers an ICMP or ICMPv6 echo request. -/
  | echoRequest (port addr : Nat) (v6 : Bool) (data : List Byte)
  /-- HELLO (R329). A client HELLO allocates or resumes a session and the device answers REPLY. `f`: the frame, and what befalls the touchstone: 1 a fault
  that its countermeasure finds, 2 wrong parity. -/
  | hello (f : SvcFrame × Nat)
  /-- FINISH (R330). A FINISH is checked through the touchstone and the session opens with READY or fails with ERROR. `f`: as for HELLO. -/
  | finish (f : SvcFrame × Nat)
  /-- KEYSET (R335). A KEYSET fragment is written to the key chest and mirrored; the last runs the upload checks. -/
  | keyset (f : SvcFrame)
  /-- JOB (R337). A JOB fragment is reassembled into the staging area and mirrored to the witness. -/
  | job (f : SvcFrame)
  /-- RESULT_ACK (R358). A client acknowledgement releases retained records up to a job number. -/
  | resultAck (f : SvcFrame)
  /-- RESULT_GAP (R339). A client asks for listed result fragments to be sent again at once. -/
  | resultGap (f : SvcFrame)
  /-- MODEL (R341). An operator model image is journalled and accepted as a job, usable after its signatures verify. -/
  | model (f : SvcFrame)
  /-- REKEY (R333). A REKEY moves a session direction to the next traffic key phase. -/
  | rekey (f : SvcFrame)
  /-- KEEPALIVE (R320). A KEEPALIVE refreshes a session's address and idle time. -/
  | keepalive (f : SvcFrame)
  /-- CLOSE (R334). A CLOSE closes a session without retained work, releasing it at the witness. -/
  | close (f : SvcFrame)
  /-- SETUP_TIMEOUT (R330). A set-up whose FINISH has not arrived whole in time is discarded. -/
  | setupTimeout (n : Nat)
  /-- GAP_HOLD_EXPIRY (R337). No progress on an incomplete job for GAP_HOLD sends JOB_GAP. -/
  | gapHoldExpiry (i : Nat)
  /-- REASM_TIMEOUT (R337). An incomplete job is discarded with JOB_REFUSE INCOMPLETE. -/
  | reasmTimeout (i : Nat)
  /-- RESULT_RETRY (R339). An unacknowledged result and receipt are retransmitted under new SEQ values. -/
  | resultRetry (slot : Nat)
  /-- IDLE_TIMEOUT (R334). A session idle for IDLE_TIMEOUT without retained work closes. -/
  | idleTimeout (n : Nat)
  /-- SERVICE_LINK_UP (R343). A service port gains PCS lock and FEC alignment. -/
  | serviceLinkUp (port : Nat)
  /-- SERVICE_LINK_DOWN (R325). A service port loses its link; sessions keep their state. -/
  | serviceLinkDown (port : Nat)
  /-- PAIR (R349). A PAIR message is compared with local state and answered, pairing the witness. -/
  | pair (dev base count : Nat) (highs taken : List Nat)
  /-- PAIR_ACK (R349). A PAIR_ACK completes pairing and triggers recovery exchanges. -/
  | pairAck (dev base count : Nat) (highs taken : List Nat)
  /-- HEARTBEAT (R350). A partner heartbeat with free-context counts is recorded. -/
  | heartbeat (free : List Nat)
  /-- HEARTBEAT_SEND (R350). A paired device sends HEARTBEAT every HB, resending MIRROR_END for jobs in DOUBT. -/
  | heartbeatSend
  /-- WITNESS_LOSS (R350). MISS missed heartbeats set the partner LOST, making DOUBT jobs HELD. `fails`: none for missed heartbeats; where a message
  ended with a fabric status, the jobs (session and number) whose MIRROR or only MIRROR_END it was (R353). -/
  | witnessLoss (fails : Option (List (Nat × Nat)))
  /-- MIRROR (R351). The witness writes mirrored body data into its journal. -/
  | mirror (session job kind off : Nat) (data : List Byte)
  /-- MIRROR_END (R352). The witness checks a mirrored body and answers CONFIRM or NOT_HELD. -/
  | mirrorEnd (session job kind gen len crc : Nat)
  /-- CONFIRM (R346). A CONFIRM accepts the job, writing its record ACCEPTED and sending JOB_ACK. -/
  | confirm (session job kind : Nat)
  /-- NOT_HELD (R352). A NOT_HELD causes a remirror or refuses the job. -/
  | notHeld (session job kind st : Nat)
  /-- DOUBT_TIMEOUT (R354). No answer to MIRROR_END within CONFIRM puts the record in DOUBT. -/
  | doubtTimeout (slot : Nat)
  /-- ABANDON (R353). The witness discards a STAGED mirror of a refused job. -/
  | abandon (session job : Nat)
  /-- RELEASE (R358). The witness frees its records of a session up to a job number. -/
  | release (session job : Nat)
  /-- SESSION_CLOSE (R351). The witness releases a closed session's key set and records. -/
  | sessionClose (session : Nat)
  /-- RESTORE (R359). A partner's returned records are written as own records in their states. `status`: the record's STATUS and TIME. -/
  | restore (session kind job st gen : Nat) (status : Nat × Nat) (body result : List Byte)
  /-- HANDOVER (R360). The witness verifies a journal seal and takes over the partner's sessions. `sessions`: their numbers, and the digest of the records. -/
  | handover (sessions : List Nat × List Byte) (sg : List Byte)
  /-- TAKEN (R361). A re-paired device frees the records of sessions its witness took over. -/
  | taken (sessions : List Nat)
  /-- PARTNER_RESULT (R365). Result objects of a job run at the partner return for sealing and delivery. -/
  | partnerResult (session job status : Nat) (data : List Byte)
  /-- CONCUR_REQ (R406). The witness decides a decision request from its own state and answers CONCUR. -/
  | concurReq (action session job unit ctx status : Nat)
  /-- CONCUR (R406). A grant executes the pending decision and a denial ends it DENIED. -/
  | concur (action reason : Nat)
  /-- WIT_CFG_WRITE (R349). A WIT_CFG write names the partner and starts pairing. -/
  | witCfgWrite (valid : Bool) (partner : Nat)
  /-- WIT_TAKEOVER_GO (R360). An operator grant takes over a LOST partner's sessions and re-runs their jobs. -/
  | witTakeoverGo (req : Nat)
  /-- JOB_PLACEMENT (R365). An accepted job is started on its key die's placeable cores, sent to the partner or queued. `slots`: journal slots, and whether the table read has wrong
  parity (R404). -/
  | jobPlacement (slots : List Nat × Bool)
  /-- PLACEMENT_REBUILD_DONE (R362). The shadow placement table finishes building. -/
  | placementRebuildDone
  /-- EPOCH_COMMIT (R363). The shadow placement table becomes active, committing pending alloy builds and key generations. -/
  | epochCommit
  /-- COMMIT_NOW (R363). PLC_CTRL COMMIT_NOW requests an epoch commit at the end of the current build. -/
  | commitNow
  /-- JOURNAL_RECOVERY (R359). After reset, journal records are read, checked and recovered with the partner. -/
  | journalRecovery
  /-- MODEXP (R378). Touchstone modular exponentiation. -/
  | modexp (who tag a b c dst req : Nat)
  /-- EC_KEYGEN (R378). Generates an elliptic-curve key pair. -/
  | ecKeygen (who alg tag dst req : Nat)
  /-- ECDSA_SIGN (R381). Signs a digest by ECDSA and verifies before release. -/
  | ecdsaSign (who alg tag : Nat) (idkey : Bool) (a c dst mlen req : Nat)
  /-- ECDSA_VERIFY (R378). Verifies an ECDSA signature. -/
  | ecdsaVerify (who alg tag a b c mlen req : Nat)
  /-- ECDH (R382). Elliptic-curve agreement on twin datapaths. -/
  | ecdh (who alg tag a b dst req : Nat)
  /-- X_KEYGEN (R378). Generates an X25519 or X448 key pair. -/
  | xKeygen (who alg tag dst req : Nat)
  /-- X_AGREE (R382). X25519 or X448 agreement on twin datapaths. -/
  | xAgree (who alg tag a b dst req : Nat)
  /-- ED_KEYGEN (R378). Generates an EdDSA key pair. -/
  | edKeygen (who alg tag dst req : Nat)
  /-- ED_SIGN (R381). Signs a message by EdDSA and verifies before release. -/
  | edSign (who alg tag a c dst mlen req : Nat)
  /-- ED_VERIFY (R378). Verifies an EdDSA signature. -/
  | edVerify (who alg tag a b c mlen req : Nat)
  /-- KEM_KEYGEN (R378). Generates an ML-KEM key pair. -/
  | kemKeygen (who alg tag dst req : Nat)
  /-- KEM_ENCAPS (R378). ML-KEM encapsulation on twin datapaths. -/
  | kemEncaps (who alg tag a dst req : Nat)
  /-- KEM_DECAPS (R378). ML-KEM decapsulation with implicit rejection on twin datapaths. -/
  | kemDecaps (who alg tag a b dst req : Nat)
  /-- DSA_KEYGEN (R378). Generates an ML-DSA key pair. -/
  | dsaKeygen (who alg tag dst req : Nat)
  /-- DSA_SIGN (R381). Signs a message by ML-DSA and verifies before release. -/
  | dsaSign (who alg tag a c dst mlen req : Nat)
  /-- DSA_VERIFY (R378). Verifies an ML-DSA signature. -/
  | dsaVerify (who alg tag a b c mlen req : Nat)
  /-- CURVE_LOAD (R384). Loads and sanity-checks a curve into a curve slot. -/
  | curveLoad (who alg tag a req : Nat)
  /-- CURVE_CLEAR (R384). Marks a loaded curve not loaded. -/
  | curveClear (who alg tag req : Nat)
  /-- HASH (R373). SHA-384 or SHAKE on the hash unit. -/
  | hash (who alg tag c dst mlen olen req : Nat)
  /-- TS_REQUEST_START (R373). The next queued touchstone request starts after the previous scrub. -/
  | tsRequestStart (hash : Bool)
  /-- TS_REQUEST_LATCH (R385). A touchstone request completes at its result latch, then its state is scrubbed. -/
  | tsRequestLatch (hash : Bool) (fault : Nat)
  /-- TS_DONE_POP (R389). Removes the shown management completion. -/
  | tsDonePop
  /-- TS_ABORT_TAG (R385). Aborts management touchstone requests with a TAG. -/
  | tsAbortTag (tag : Nat)
  /-- TS_ABORT_ALL (R385). Aborts every management touchstone request. -/
  | tsAbortAll
  /-- TS_SLOT_ZERO (R377). Zeroes a selected slot that is not BUSY. -/
  | tsSlotZero
  /-- TS_SLOT_DATA_WRITE (R377). Writes a word of the selected management slot, setting VALID. -/
  | tsSlotDataWrite (word : Nat) (v : W32) (req : Nat)
  /-- TS_CFG_WRITE (R376). A TS_CFG or TS_PART write repartitions the operand memory, zeroing every slot. -/
  | tsCfgWrite (part : Bool) (value req : Nat)
  /-- ENTROPY_TEST_CHANGE (R383). The random source's health test fails or recovers. -/
  | entropyTestChange (bad : Bool)
  /-- CV_START (R393). CV_CTRL START sets a unit's RUN to INIT. -/
  | cvStart (u : Nat)
  /-- CV_FINISH (R393). CV_CTRL FINISH writes the value of RUN to CV_CHECK. -/
  | cvFinish (u : Nat)
  /-- CV_APPLY (R393). CV_CTRL APPLY computes the check value of the profile. -/
  | cvApply (u : Nat)
  /-- CV_FEED (R398). Feeds one to four bytes into a free unit. -/
  | cvFeed (u : Nat) (v : W32) (req : Nat)
  /-- CV_RUN_WRITE (R398). Restores a unit's running value, refused while BUSY. -/
  | cvRunWrite (u : Nat) (high : Bool) (v : W32) (req : Nat)
  /-- EVENT_ROUTE (R411). The router passes a queued record to the ring and destinations in its slot. -/
  | eventRoute (bad : Bool)
  /-- LOG_WINDOW_CLOSE (R414). A LOG window closes and writes a summary of suppressed records. -/
  | logWindowClose (code unit : Nat)
  /-- SUPERVISOR_BATCH_SEND (R415). A batch of records is sent to a fabric supervisor. -/
  | supervisorBatchSend (k : Nat) (ok : Bool)
  /-- SUPERVISOR_ACK (R415). A supervisor acknowledgement advances its position and optionally EV_HELD_ACK. -/
  | supervisorAck (k n : Nat)
  /-- EV_HELD_ACK_WRITE (R412). Acknowledges held records, letting the hold buffer drain into freed slots. -/
  | evHeldAckWrite (v : W32) (req : Nat)
  /-- EV_MGMT_POP (R415). Removes the shown record from the management FIFO. -/
  | evMgmtPop
  /-- RERUN_JOB (R406). Decision resetting a job's contexts and placing it again. -/
  | rerunJob (session job : Nat) (grant : Bool) (req : Nat)
  /-- DISCARD_JOB (R406). Decision resetting a job's contexts and sealing a failed receipt. -/
  | discardJob (session job status : Nat) (grant : Bool) (req : Nat)
  /-- MIGRATE_JOB (R406). Decision resetting a job's contexts and running it at the partner. -/
  | migrateJob (session job : Nat) (grant : Bool) (req : Nat)
  /-- ABORT_CTX (R406). Decision aborting a context. -/
  | abortCtx (unit ctx : Nat) (grant : Bool) (req : Nat)
  /-- RESET_CTX (R406). Decision resetting a context. -/
  | resetCtx (unit ctx : Nat) (grant : Bool) (req : Nat)
  /-- START_CTX (R406). Decision starting a context at a given address. -/
  | startCtx (unit ctx addr : Nat) (grant : Bool) (req : Nat)
  /-- FENCE (R406). Decision excluding a core or die or disabling a fabric port. -/
  | fence (unit : Nat) (grant : Bool) (req : Nat)
  /-- UNFENCE (R406). Decision restoring a fenced core, die or port. -/
  | unfence (unit : Nat) (grant : Bool) (req : Nat)
  /-- EXIT_STRONGBOX (R421). Decision clearing the strongbox latch and making a warm reset. -/
  | exitStrongbox (grant : Bool) (req : Nat)
  /-- DECISION_TIMEOUT (R407). No CONCUR within 10 × CONFIRM ends the decision NO_ANSWER. -/
  | decisionTimeout
  /-- SB_ENTER (R417). SB_CMD ENTER latches the operator strongbox cause. -/
  | sbEnter
  /-- CUSTODY_SEAL (R420). The ORIGIN 0 records have been hashed over the custody path and the sealed HANDOVER is sent. -/
  | custodySeal (readable : Bool)
  /-- AVS_LOOP_STEP (R425). Every 100 µs each rail's voltage is stepped from its margin monitors. -/
  | avsLoopStep (rail margin : Nat) (neg stepping acked : Bool)
  /-- CURRENT_READ (R426). Every 100 µs rail currents are read and over-current throttles a die. -/
  | currentRead (rail amps : Nat)
  /-- VR_ALERT (R430). VR_ALERT_N is read out over AVSBus and the faulted rail loses its die or latches a cause. -/
  | vrAlert (rail status : Nat) (abrupt junction : Bool)
  /-- JUNCTION_READ (R441). Every 10 µs junction sensors throttle, lose a die or latch a hub trip. -/
  | junctionRead (i temp : Nat) (rail : Bool)
  /-- THERMTRIP (R442). At 115 °C THERMTRIP_N is driven low until PWRGD falls. -/
  | thermtrip
  /-- CLOCK_MONITOR (R435). Every 10 µs a domain's clock is checked against the reference. -/
  | clockMonitor (domain : Nat) (bad : Bool)
  /-- PLL_UNLOCK (R435). Root PLL loss of lock switches the control island to BYPASS. -/
  | pllUnlock
  /-- CLOCK_STOP (R437). A stoppable idle domain stops its clock after 1,024 cycles. -/
  | clockStop (domain : Nat)
  /-- CLOCK_WAKE (R437). A crossing into a stopped domain wakes its clock. -/
  | clockWake (domain : Nat)
  /-- PWRGD_RISE (R443). PWRGD rising makes a power-on reset. -/
  | pwrgdRise (vaon : Bool) (strap : Nat)
  /-- PWRGD_FALL (R428). PWRGD falling stops dispatch and places the stacks in self-refresh. -/
  | pwrgdFall
  /-- RESET_N_LOW (R444). RESET_N low beyond the filter starts a warm reset. -/
  | resetNLow (ns : Nat)
  /-- WARM (R444). RST_CMD WARM starts a warm reset. -/
  | warm
  /-- SNAP (R485). SNAP_CMD requests a capture of every RO-S counter at an alignment edge. -/
  | snap (req : Nat)
  /-- SNAPSHOT_CAPTURE (R440). At the target alignment edge every domain copies its counters to holding registers. -/
  | snapshotCapture
  /-- STARTUP_BEGIN (R462). RESET_N rising after reset begins start-up with the hallmark sense. -/
  | startupBegin (ok : Bool) (corrected : Nat)
  /-- PLL_LOCK (R431). The root PLL locks and image reading begins. -/
  | pllLock
  /-- SLOT_VERIFY_DONE (R456). Both slots are verified and the image slot chosen or NO_IMAGE entered. -/
  | slotVerifyDone (mib : Nat) (a b : List Byte)
  /-- FLASH_READ_TIMEOUT (R452). A flash read with no DQS edge in 10 µs ends as a digest failure. -/
  | flashReadTimeout
  /-- RECORD_WAIT_TIMEOUT (R458). A register-write wait record that does not match in 10 ms rejects the slot. -/
  | recordWaitTimeout
  /-- HBM_TRAINING_DONE (R464). Stack training completes after seeds are applied. -/
  | hbmTrainingDone
  /-- SECTION_LOAD (R457). An image section is read, hashed and applied, or re-read and the slot rejected. -/
  | sectionLoad (data : List Byte)
  /-- ASSAY_DONE (R469). The start-up assay finishes, failing cores or stopping in FAILED. -/
  | assayDone (fails : List Nat) (hub : Nat)
  /-- PAIR_WAIT_EXPIRY (R465). Pairing does not complete within PAIR_WAIT and start-up continues unpaired. -/
  | pairWaitExpiry
  /-- SERVICE_OPEN (R462). Start-up ends by opening service on the ports. -/
  | serviceOpen
  /-- HALLMARK_RESENSE (R451). Every second the hallmark is sensed again and an integrity failure latches cause 3. -/
  | hallmarkResense (ok : Bool) (corrected : Nat)
  /-- ASSAY_WHOLE (R470). ASSAY_REQ WHOLE requests a whole-device assay in FAILED or NO_SERVICE. -/
  | assayWhole (req : Nat)
  /-- ASSAY_CORE (R470). ASSAY_REQ queues a per-core assay. -/
  | assayCore (core req : Nat)
  /-- ASSAY_CORE_RUN (R471). A queued core is drained by pre-emption, saved and tested. -/
  | assayCoreRun
  /-- ASSAY_CORE_DONE (R472). A per-core assay ends, restoring the core and resuming or holding its contexts. -/
  | assayCoreDone (test : Nat) (ok : Bool) (torn : List Nat)
  /-- READ (R487). Management command returning one register's data and status. -/
  | read (body : List Byte)
  /-- WRITE (R487). Management command writing one register. -/
  | write (body : List Byte)
  /-- WRITE_PAIR (R487). Management compound command writing a value and its complement. -/
  | writePair (body : List Byte)
  /-- WRITE_KEYED (R487). Management compound command arming LOCK then writing. -/
  | writeKeyed (body : List Byte)
  /-- WRITE_KEYED_PAIR (R487). Management compound command arming LOCK, writing and completing the pair. -/
  | writeKeyedPair (body : List Byte)
  /-- REPEAT (R488). Management command returning the last response again. -/
  | repeatCmd (body : List Byte)
  /-- ENTDAA (R486). I3C common command assigning a dynamic address. -/
  | entdaa (addr : Nat)
  /-- SETDASA (R486). I3C common command setting the dynamic address from the static one. -/
  | setdasa (static addr : Nat)
  /-- RSTDAA (R486). I3C common command returning the target to legacy mode. -/
  | rstdaa
  /-- ENEC (R486). I3C common command enabling in-band interrupts. -/
  | enec
  /-- DISEC (R486). I3C common command disabling in-band interrupts. -/
  | disec
  /-- GETPID (R486). I3C common command returning the provisional ID. -/
  | getpid
  /-- GETBCR (R486). I3C common command returning the bus characteristics. -/
  | getbcr
  /-- GETDCR (R486). I3C common command returning the device characteristics. -/
  | getdcr
  /-- GETSTATUS (R486). I3C common command returning target status. -/
  | getstatus
  /-- GETMWL (R486). I3C common command returning the maximum write length. -/
  | getmwl
  /-- GETMRL (R486). I3C common command returning the maximum read length. -/
  | getmrl
  /-- IBI_REPEAT (R489). Every 1 ms an in-band interrupt is requested again while selected records remain unread. -/
  | ibiRepeat
  /-- LOCK_WRITE (R481). A write of a block's LOCK arms or disarms the requester's key. -/
  | lockWrite (block value req : Nat)
  /-- PAIR_COMPLEMENT (R482). A complement write completes or refuses a pending pair-written write. -/
  | pairComplement (block value req : Nat)
  /-- PAIR_WINDOW_EXPIRY (R482). A pending pair's 64-cycle window expires and the value is refused. -/
  | pairWindowExpiry (block : Nat)
  /-- POSTED_WRITE_ARRIVAL (R483). A posted write reaches its block, takes effect or is refused late, and clears BUSY. -/
  | postedWriteArrival (block : Nat)
  /-- REGISTER_WRITE (R11). A write to a register with no behaviour of its own, under its access type and guards. -/
  | registerWrite (addr value req : Nat)
  /-- PW_ENTER (R501). ENTER requests pewter mode on core 0 of a die, draining it and zeroing its scratchpad. -/
  | pwEnter (die req : Nat)
  /-- PEWTER_ENTRY_DRAINED (R501). Core 24d's contexts are IDLE and pewter mode begins, or the drain fails. -/
  | pewterEntryDrained (die : Nat) (expired : Bool)
  /-- PW_EXIT (R503). EXIT leaves pewter mode when the running pewter job completes. -/
  | pwExit (die : Nat)
  /-- PW_LO_WRITE (R508). A pewter window LO write is staged, discarding any earlier staged LO. -/
  | pwLoWrite (v : W32)
  /-- PW_STATUS_READ (R509). A read of PW_STATUS returns and clears its bits. -/
  | pwStatusRead (req : Nat)
  /-- PEWTER_JOB_START (R505). A queued pewter job starts on a die in pewter mode and loads its inputs. -/
  | pewterJobStart (die : Nat)
  /-- PEWTER_GATE (R499). A gate's bootstrap completes and writes its wire. -/
  | pewterGate (die : Nat) (fault : Bool)
  /-- TAP_RESET (R511). TRST_N low or five TMS-high cycles reset the TAP to IDCODE. -/
  | tapReset
  /-- EXTEST (R513). Boundary scan drives pins from the register while RESET_N is low. -/
  | extest (pins cells : Nat)
  /-- SAMPLE_PRELOAD (R511). Samples and preloads the boundary scan register. -/
  | samplePreload (pins cells : Nat)
  /-- IDCODE (R512). Selects the 32-bit IDCODE register. -/
  | idcode
  /-- CLAMP (R513). Holds pins from the boundary register with bypass selected. -/
  | clamp
  /-- HIGHZ (R513). Floats the pins with bypass selected. -/
  | highz
  /-- EXTEST_PULSE (R513). IEEE 1149.6 pulse test of the AC-coupled lanes. -/
  | extestPulse (pins cells : Nat)
  /-- EXTEST_TRAIN (R513). IEEE 1149.6 train test of the AC-coupled lanes. -/
  | extestTrain (pins cells : Nat)
  /-- DBG_ACCESS (R515). A debug register update submits one register access to the hub within the debug level's rights. -/
  | dbgAccess (cmd addr key data compl : Nat)
  /-- STACK_SEL (R516). Selects a stack and SelectWIR for the IEEE 1500 wrapper. -/
  | stackSel (stack : Nat) (wir : Bool)
  /-- HBM_1500 (R517). Connects the TAP to the selected stack's wrapper serial port. -/
  | hbm1500 (kind row : Nat)
  /-- BYPASS (R511). Selects the one-bit bypass register. -/
  | bypass
  /-- PEEN_ARM (R523). A PN_CFG write arms or disarms a perturbation slot. -/
  | peenArm (k : Nat) (v : W32) (req : Nat)
  /-- PEEN_ENABLE (R518). A PEEN_CTRL write enables or disables every armed slot. -/
  | peenEnable (enable : Bool) (req : Nat)
  /-- PEEN_TALLY (R522). A 1 ms window with perturbations ends with a tally event. -/
  | peenTally (k : Nat)
  /-- TS_PUSH (R374). A request is pushed into the touchstone queue, is checked at push and either completes at once with ST_REQUEST or marks its slots BUSY. -/
  | tsPush (req : Nat)
  /-- PARTNER_JOB (R365). The partner receives a job sent to it to run and starts it on its key die from the inputs and keys it already holds. -/
  | partnerJob (session job : Nat)
  /-- PW_HI_WRITE (R508). A HI write in the pewter window commits the staged LO of its pair, or is discarded with LONE_HI set when no LO of that pair is staged. -/
  | pwHiWrite (req : Nat)
  /-- PORT_WIDTH_CHANGE (R290). A fabric port's usable lanes change, so it moves between full width, half width and down, raises EV_FAB_DEGRADED and retrains. -/
  | portWidthChange (port width : Nat)
  /-- HUB_LINK_LOSS (R417). A compute die's hub link goes down, and the die is lost. -/
  | hubLinkLoss (die : Nat)
  /-- CUSTODY_STACK_IDLE (R418). A stack brought out of self-refresh for custody access returns to self-refresh after 1 ms with no access. -/
  | custodyStackIdle (stack : Nat)
  deriving DecidableEq, Repr

end Sys2Proof
end

