-- ==== Sys2Proof/Decode.lean ====
section
/-!
DEFINITION. The command a table word spells. No row of the opcode table gives bits: the block's commands are events and register
accesses, not words of an instruction memory, so no word spells one. (The command words of the streams, spec 10, are read by
Machine/Operands.lean.)
-/
namespace Sys2Proof

/-- The command spelled by a word of the table's bits: none. -/
def decodeTableWord (_nbits _w : Nat) : Option Instr := none

end Sys2Proof
end

