-- ==== Sys2Proof/Machine/Bits.lean ====
section
/-!
DEFINITION. Bit fields, byte order and small list helpers. A field `[hi:lo]` includes both ends
(spec 00 R7); multi-byte values are little-endian (00 R8).
-/
namespace Sys2Proof.Machine

/-- Field `[hi:lo]` of a natural number (00 R7). -/
def natBits (v hi lo : Nat) : Nat := (v / 2 ^ lo) % 2 ^ (hi + 1 - lo)

/-- Field `[hi:lo]` of a word (00 R7). -/
def bits {n : Nat} (v : BitVec n) (hi lo : Nat) : Nat := natBits v.toNat hi lo

/-- Bit `i` of a word. -/
def bitOf {n : Nat} (v : BitVec n) (i : Nat) : Bool := v.getLsbD i

/-- Bit `i` of a natural number. -/
def natBit (v i : Nat) : Bool := (v / 2 ^ i) % 2 == 1

/-- A natural number with field `[hi:lo]` replaced by `x`. -/
def natPut (v hi lo x : Nat) : Nat :=
  v % 2 ^ lo + (x % 2 ^ (hi + 1 - lo)) * 2 ^ lo + (v / 2 ^ (hi + 1)) * 2 ^ (hi + 1)

/-- A word with field `[hi:lo]` replaced by `x`. -/
def putBits {n : Nat} (v : BitVec n) (hi lo x : Nat) : BitVec n :=
  BitVec.ofNat n (natPut v.toNat hi lo x)

/-- 1 for true. -/
def b2n (b : Bool) : Nat := if b then 1 else 0

/-- The low `n` bits of `v` as a signed number. -/
def signed (n v : Nat) : Int :=
  if v % 2 ^ n < 2 ^ (n - 1) then (v % 2 ^ n : Nat) else ((v % 2 ^ n : Nat) : Int) - (2 ^ n : Nat)

/-- The `n`-bit pattern of an integer. -/
def toBits (n : Nat) (x : Int) : Nat := (x % ((2 ^ n : Nat) : Int)).toNat

/-- The value of bytes in little-endian order (00 R8). -/
def leNat : List Byte → Nat
  | [] => 0
  | b :: bs => b.toNat + 256 * leNat bs

/-- `n` bytes of a value in little-endian order (00 R8). -/
def natLE : Nat → Nat → List Byte
  | 0, _ => []
  | n + 1, v => BitVec.ofNat 8 v :: natLE n (v / 256)

/-- The value of bytes in big-endian order (pewter records, 00 R8). -/
def beNat (bs : List Byte) : Nat := leNat bs.reverse

/-- `n` bytes of a value in big-endian order. -/
def natBE (n v : Nat) : List Byte := (natLE n v).reverse

/-- Bits set in a mask, in ascending order, among the first `n`. -/
def setBits (n mask : Nat) : List Nat := (List.range n).filter (fun i => natBit mask i)

/-- Round up division. -/
def ceilDiv (a b : Nat) : Nat := if b = 0 then 0 else (a + b - 1) / b

/-- Saturating addition at `2^n - 1`. -/
def satAdd (n a b : Nat) : Nat := if a + b < 2 ^ n then a + b else 2 ^ n - 1

/-- Add an element to a list that holds no repeats. -/
def addOnce {α : Type} [DecidableEq α] (x : α) (l : List α) : List α :=
  if x ∈ l then l else l ++ [x]

/-- Apply a function to the first element that satisfies `p`. -/
def modFirst {α : Type} (p : α → Bool) (f : α → α) : List α → List α
  | [] => []
  | x :: xs => if p x then f x :: xs else x :: modFirst p f xs

/-- Remove the first element that satisfies `p`. -/
def dropFirst {α : Type} (p : α → Bool) : List α → List α
  | [] => []
  | x :: xs => if p x then xs else x :: dropFirst p xs

end Sys2Proof.Machine
end

