-- ==== Sys2Proof/Machine/Keccak.lean ====
section
/-!
DEFINITION. SHAKE128 and SHAKE256, as FIPS 202 gives them: the spec names the functions (04 R82, 17 R378) and
leaves their definition to that standard (PRESUMED, assumption 97); SHA3-256 and SHA3-512, which FIPS 203 uses.
-/
namespace Sys2Proof.Machine

/-- One step of the shift register that makes the round constants: polynomial x^8 + x^6 + x^5 + x^4 + 1. -/
def rcStep (r : Nat) : Nat := if r < 128 then 2 * r else (2 * r - 256) ^^^ 0x71

/-- Bits of one round constant: output j of the register stands at bit 2^j - 1. Answers the constant and the register after it. -/
def rcWord (r : Nat) : Nat × Nat :=
  (List.range 7).foldl (fun (e : Nat × Nat) j => let r := rcStep e.2; (e.1 + r / 2 % 2 * 2 ^ (2 ^ j - 1), r)) (0, r)

/-- The constants of `n` rounds, the register standing at `r`. -/
def rcWords : Nat → Nat → List W64
  | 0, _ => []
  | n + 1, r => BitVec.ofNat 64 (rcWord r).1 :: rcWords n (rcWord r).2

/-- Round constants of Keccak-f[1600]. -/
def keccakRC : List W64 := rcWords 24 1

/-- Places x + 5·y that the rotation walk visits, from (1, 0): (x, y) goes to (y, 2x + 3y). -/
def rotWalk : Nat → Nat → Nat → List Nat
  | 0, _, _ => []
  | n + 1, x, y => (x + 5 * y) :: rotWalk n y ((2 * x + 3 * y) % 5)

/-- Rotation offsets of lane x + 5·y: step t of the walk turns by (t + 1)(t + 2) / 2, lane 0 by none. -/
def keccakRot : List Nat :=
  let w := rotWalk 24 1 0
  (List.range 25).map (fun i => match w.findIdx? (· == i) with
    | some t => (t + 1) * (t + 2) / 2 % 64
    | none => 0)

/-- Lane x + 5·y of a state. -/
def lane (a : List W64) (x y : Nat) : W64 := (a[x % 5 + 5 * (y % 5)]?).getD 0

/-- One round. -/
def keccakRound (a : List W64) (rc : W64) : List W64 :=
  let col := fun x => lane a x 0 ^^^ lane a x 1 ^^^ lane a x 2 ^^^ lane a x 3 ^^^ lane a x 4
  let cs := (List.range 5).map col
  let cx := fun x => (cs[x % 5]?).getD 0
  let t := (List.range 25).map (fun i => lane a i (i / 5) ^^^ cx (i + 4) ^^^ (cx (i + 1)).rotateLeft 1)
  -- lane (y, 2x + 3y) takes lane (x, y), rotated: lane (u, v) comes from x = u + 3v, y = u
  let b := (List.range 25).map (fun i =>
    let u := i % 5
    let v := i / 5
    let x := (u + 3 * v) % 5
    (lane t x u).rotateLeft ((keccakRot[x + 5 * u]?).getD 0))
  ((List.range 25).map (fun i =>
    let y := i / 5
    lane b i y ^^^ (~~~(lane b (i + 1) y) &&& lane b (i + 2) y))).zipIdx.map (fun e => if e.2 = 0 then e.1 ^^^ rc else e.1)

/-- Keccak-f[1600]. -/
def keccakF (a : List W64) : List W64 := keccakRC.foldl keccakRound a

/-- Absorb blocks of `rate` bytes. -/
def absorb (rate : Nat) : Nat → List Byte → List W64 → List W64
  | 0, _, a => a
  | n + 1, bs, a =>
    let blk := bs.take rate
    let a := (List.range 25).map (fun i =>
      if i < rate / 8 then lane a i (i / 5) ^^^ BitVec.ofNat 64 (leNat ((blk.drop (8 * i)).take 8)) else lane a i (i / 5))
    absorb rate n (bs.drop rate) (keccakF a)

/-- Squeeze `n` blocks. -/
def squeeze (rate : Nat) : Nat → List W64 → List Byte
  | 0, _ => []
  | n + 1, a => (a.flatMap (fun w => natLE 8 w.toNat)).take rate ++ squeeze rate n (keccakF a)

/-- Padding to a multiple of the rate: the suffix byte of the function, zeros, and the top bit of the last byte. -/
def spongePad (suffix : Byte) (rate : Nat) (m : List Byte) : List Byte :=
  let z := rate - m.length % rate - 1
  if z = 0 then m ++ [suffix ||| 0x80] else m ++ [suffix] ++ List.replicate (z - 1) 0 ++ [0x80]

/-- `n` bytes of the sponge with a suffix and rate. -/
def sponge (suffix : Byte) (rate : Nat) (m : List Byte) (n : Nat) : List Byte :=
  let p := spongePad suffix rate m
  (squeeze rate (ceilDiv n rate) (absorb rate (p.length / rate) p (List.replicate 25 0))).take n

/-- `n` bytes of SHAKE with a rate: 168 for SHAKE128, 136 for SHAKE256. -/
def shake (rate : Nat) (m : List Byte) (n : Nat) : List Byte := sponge 0x1F rate m n

def shake128 (m : List Byte) (n : Nat) : List Byte := shake 168 m n
def shake256 (m : List Byte) (n : Nat) : List Byte := shake 136 m n

/-- SHA3-256 and SHA3-512. -/
def sha3x256 (m : List Byte) : List Byte := sponge 0x06 136 m 32
def sha3x512 (m : List Byte) : List Byte := sponge 0x06 72 m 64

end Sys2Proof.Machine
end

