-- ==== Sys2Proof/Config.lean ====
section
/-!
DEFINITION. What the spec leaves open: free values, constants with no body. Nothing can evaluate
them, and a claim about them holds for every value (the assumption log names each).
-/
namespace Sys2Proof.Config

/-- A byte of stacked memory that nothing has written since power-on: the spec gives no contents
(13 R271). Free. -/
opaque freeByte : Nat → BitVec 8

/-- The sign and payload of a NaN the machine makes: the spec says only "NaN" (07 R142, 08 R172). Free. -/
opaque nanPattern : BitVec 32

/-- Bits of the random source (17 R383), by the number of the request. Free. -/
opaque randomBits : Nat → Nat → Nat

/-- The residues that phase 4 of an Anneal leaves of one part, real or imaginary (05 R103, S10 to S12): constants in units of the scale and a
Chebyshev series by Paterson and Stockmeyer, whose roundings and order no rule gives. Arguments: an input code (the part, the relinearisation
key, the set and the primes), the limb, polynomial and position. Free. -/
opaque annealResidue : List Nat → Nat → Nat → Nat → Nat

/-- A residue of a diagonal of an Anneal's linear transforms (05 R103, R108): the matrices that they factor are not given. Arguments: the
table's primes and the set's words, the factor's place in the order of R103, the diagonal's rank by offset, the limb, the position. Free. -/
opaque diagonal : List Nat → Nat → Nat → Nat → Nat → Nat

/-- Relinearisations of an Anneal's Chebyshev series at each of its levels, highest first: given for degree 31 at five levels alone (05 R103).
Arguments: CHEB_DEG, the step. Free. -/
opaque chebRelins : Nat → Nat → Nat

/-- The multiple of the dropped prime in the representative that HRESCALE subtracts (11 R247): the spec names the
operation and gives no rounding. Arguments: the dropped prime, t (0 for CKKS), the residue. Free. -/
opaque rescaleMultiple : Nat → Nat → Nat → Int

/-- The private identity key of the hallmark, which nothing reads (21 R448). Free. -/
opaque idKey : Nat

/-- The identity public key of another device, as its REPLY would give it: no rule says how a witness holds it (16 R360). Argument: the
device ID. Free. -/
opaque peerKey : Nat → List (BitVec 8)

/-- MSG of the two messages of a job run at the partner, and the first byte of a supervisor's packets: no rule numbers them (16 R365,
19 R415). Argument: 0 the job, 1 its result, 2 a batch, 3 its acknowledgement. Free. -/
opaque hubCode : Nat → Nat

/-- The offset to its parent that a device measures from a TIME packet, in 1/16 ns: the link delay is measured at training (14 R313).
Arguments: the parent's stamp, device time. Free. -/
opaque measured : Nat → Nat → Nat

/-- The new trim of the rate, and the step of the phase in units of 2^-32 cycle, that follow a measured offset (14 R313). Arguments: the
offset in 1/16 ns, the trim before. Free. -/
opaque timeRate : Int → Int → Int
opaque timePhase : Int → Int → Int

/-- Where the assay vectors hold what the pewter adder uses, as an offset in them: the spec leaves their layout to the image's builder
(21 R460, R468). Argument: 0 the records of a, 1 those of b, 2 those of the 65 outputs. Free. -/
opaque vectorAt : Nat → Nat

/-- The set of a memory-side cache that serves a granule: 16,384 sets of 16 ways, and no rule gives the index (13 R279). Argument: the
granule's number. Free. -/
opaque cacheSet : Nat → Nat

/-- How many result objects a service program leaves: no rule says where a program declares it (16 R355, 21 R460). Free. -/
opaque outputs : Nat → Nat

/-- SCALE in the header of a product tarnished because the sum of its operands' SCALE does not fit the field (02 R45: it neither wraps
nor saturates, and no value is given). Arguments: the operands' SCALE. Free. -/
opaque scaleOver : Nat → Nat → Nat

/-- Values of a run that the spec leaves open and that change from use to use, by a count in State. Free. -/
opaque freeValue : Nat → Nat

end Sys2Proof.Config
end

