-- ==== Sys2Proof/Machine/Num.lean ====
section
/-!
DEFINITION. Clear-mode numbers: the element formats (spec 07 R142), reading (R143), IEEE 754 FP32
arithmetic to nearest, ties to even, subnormals kept (08 R172, 06 R128), conversion on write (07 R145,
R146) and histogram bins (R150). A finite value is an exact dyadic number `m × 2^e`.
-/
namespace Sys2Proof.Machine


/-- A value of a floating-point format; zero keeps its sign. -/
inductive FVal where
  | nan
  | inf (neg : Bool)
  | zero (neg : Bool)
  | num (neg : Bool) (m : Nat) (e : Int)   -- m × 2^e, m > 0
  deriving DecidableEq, Repr

/-- An element format: exponent bits, mantissa bits, bias, and which special codes it has (R142). -/
structure FFormat where
  eb : Nat
  mb : Nat
  bias : Nat
  hasInf : Bool      -- exponent all ones, mantissa 0 is infinity
  hasNan : Bool
  fnNan : Bool       -- E4M3: only the all-ones code is NaN
  deriving DecidableEq, Repr

def fFp32 : FFormat := ⟨8, 23, 127, true, true, false⟩
def fBf16 : FFormat := ⟨8, 7, 127, true, true, false⟩
def fE4M3 : FFormat := ⟨4, 3, 7, false, true, true⟩
def fE5M2 : FFormat := ⟨5, 2, 15, true, true, false⟩
def fE3M2 : FFormat := ⟨3, 2, 3, false, false, false⟩
def fE2M3 : FFormat := ⟨2, 3, 1, false, false, false⟩
def fE2M1 : FFormat := ⟨2, 1, 1, false, false, false⟩

/-- Bits of an element. -/
def FFormat.bits (f : FFormat) : Nat := 1 + f.eb + f.mb

/-- Decode an element (R142). -/
def FFormat.decode (f : FFormat) (v : Nat) : FVal :=
  let neg := natBit v (f.eb + f.mb)
  let e := natBits v (f.eb + f.mb - 1) f.mb
  let m := v % 2 ^ f.mb
  let top := 2 ^ f.eb - 1
  if f.fnNan && e == top && m == 2 ^ f.mb - 1 then .nan
  else if f.hasInf && e == top then (if m = 0 then .inf neg else .nan)
  else if e = 0 then
    (if m = 0 then .zero neg else .num neg m (1 - (f.bias : Int) - f.mb))
  else .num neg (2 ^ f.mb + m) ((e : Int) - f.bias - f.mb)

/-- ⌊log2⌋ of a positive dyadic. -/
def log2Dy (m : Nat) (e : Int) : Int := (Nat.log2 m : Int) + e

/-- `m × 2^e` in units of 2^u, rounded to nearest, ties to even. -/
def roundUnits (m : Nat) (e u : Int) : Nat :=
  if u ≤ e then m * 2 ^ (e - u).toNat
  else
    let d := (u - e).toNat
    let q := m / 2 ^ d
    let r := m % 2 ^ d
    if 2 * r > 2 ^ d ∨ (2 * r = 2 ^ d ∧ q % 2 = 1) then q + 1 else q

/-- Round a positive dyadic to a format's precision with no limit on range: `(m', e')`, m' possibly 0. -/
def FFormat.round (f : FFormat) (m : Nat) (e : Int) : Nat × Int :=
  let u := max (log2Dy m e - f.mb) (1 - (f.bias : Int) - f.mb)
  (roundUnits m e u, u)

/-- Largest finite magnitude of a format as a dyadic (R142). -/
def FFormat.maxFinite (f : FFormat) : Nat × Int :=
  let top := 2 ^ f.eb - 1
  if f.fnNan then (2 ^ (f.mb + 1) - 2, (top : Int) - f.bias - f.mb)
  else if f.hasInf then (2 ^ (f.mb + 1) - 1, (top : Int) - 1 - f.bias - f.mb)
  else (2 ^ (f.mb + 1) - 1, (top : Int) - f.bias - f.mb)

/-- Compare two non-negative dyadics: is `a` less than `b`? -/
def dyLt (a : Nat × Int) (b : Nat × Int) : Bool :=
  let l := min a.2 b.2
  decide (a.1 * 2 ^ (a.2 - l).toNat < b.1 * 2 ^ (b.2 - l).toNat)

/-- Encode a magnitude that the format holds exactly. -/
def FFormat.encodeMag (f : FFormat) (neg : Bool) (m : Nat) (u : Int) : Nat :=
  let s := b2n neg * 2 ^ (f.eb + f.mb)
  if m < 2 ^ f.mb then s + m
  else if m = 2 ^ (f.mb + 1) then s + (u + f.mb + f.bias + 1).toNat * 2 ^ f.mb
  else s + (u + f.mb + f.bias).toNat * 2 ^ f.mb + (m - 2 ^ f.mb)

/-- The code of infinity. -/
def FFormat.infCode (f : FFormat) (neg : Bool) : Nat :=
  b2n neg * 2 ^ (f.eb + f.mb) + (2 ^ f.eb - 1) * 2 ^ f.mb

/-- The code of the format's NaN: E4M3 has one; in the others the payload is free, and the sign of an
E5M2 NaN is 0 (R143). -/
def FFormat.nanCode (f : FFormat) : Nat :=
  if f.fnNan then 2 ^ (f.eb + f.mb) - 1
  else
    let p := Config.nanPattern.toNat % 2 ^ f.mb
    let sgn := if f.mb = 2 then 0 else natBits Config.nanPattern.toNat 31 31
    sgn * 2 ^ (f.eb + f.mb) + (2 ^ f.eb - 1) * 2 ^ f.mb + (if p = 0 then 1 else p)

/-- Round a value to FP32 (R172). -/
def toFp32 : FVal → Nat
  | .nan => fFp32.nanCode
  | .inf n => fFp32.infCode n
  | .zero n => b2n n * 2 ^ 31
  | .num n m e =>
    let r := fFp32.round m e
    if dyLt fFp32.maxFinite r then fFp32.infCode n else fFp32.encodeMag n r.1 r.2

def ofFp32 (v : Nat) : FVal := fFp32.decode v

/-- A value from a sign and an exact integer multiple of 2^e. -/
def FVal.ofInt (zeroNeg : Bool) (m e : Int) : FVal :=
  if m = 0 then .zero zeroNeg else .num (decide (m < 0)) m.natAbs e

/-- Signed mantissa of a finite value. -/
def FVal.sm : FVal → Int
  | .num n m _ => if n then -(m : Int) else (m : Int)
  | _ => 0

/-- Exponent of a finite value; 0 for zero. -/
def FVal.ex : FVal → Int
  | .num _ _ e => e
  | _ => 0

def FVal.isNan (v : FVal) : Bool := v == .nan
def FVal.isInf : FVal → Bool
  | .inf _ => true
  | _ => false
def FVal.isZero : FVal → Bool
  | .zero _ => true
  | _ => false
def FVal.neg : FVal → Bool
  | .inf n => n
  | .zero n => n
  | .num n _ _ => n
  | .nan => false
def FVal.finite (v : FVal) : Bool := !v.isNan && !v.isInf

/-- Negation. -/
def FVal.negate : FVal → FVal
  | .nan => .nan
  | .inf n => .inf !n
  | .zero n => .zero !n
  | .num n m e => .num (!n) m e

/-- Exact product. -/
def FVal.mul (a b : FVal) : FVal :=
  match a, b with
  | .nan, _ => .nan
  | _, .nan => .nan
  | .inf n, .zero _ => .nan
  | .zero _, .inf n => .nan
  | .inf n, y => .inf (n != y.neg)
  | x, .inf n => .inf (n != x.neg)
  | .zero n, y => .zero (n != y.neg)
  | x, .zero n => .zero (n != x.neg)
  | .num n m e, .num n' m' e' => .num (n != n') (m * m') (e + e')

/-- Exact sum; an exact zero of operands of unlike sign is +0 (IEEE 754, to nearest). -/
def FVal.add (a b : FVal) : FVal :=
  match a, b with
  | .nan, _ => .nan
  | _, .nan => .nan
  | .inf n, .inf n' => if n == n' then .inf n else .nan
  | .inf n, _ => .inf n
  | _, .inf n => .inf n
  | .zero n, .zero n' => .zero (n && n')
  | .zero _, y => y
  | x, .zero _ => x
  | x, y =>
    let l := min x.ex y.ex
    FVal.ofInt false (x.sm * ((2 ^ (x.ex - l).toNat : Nat) : Int) + y.sm * ((2 ^ (y.ex - l).toNat : Nat) : Int)) l

/-- Numerical order of non-NaN values; −0 lies below +0. -/
def FVal.lt (a b : FVal) : Bool :=
  match a, b with
  | .nan, _ => false
  | _, .nan => false
  | .inf n, .inf n' => n && !n'
  | .inf n, _ => n
  | _, .inf n => !n
  | x, y =>
    let l := min x.ex y.ex
    let p := x.sm * ((2 ^ (x.ex - l).toNat : Nat) : Int)
    let q := y.sm * ((2 ^ (y.ex - l).toNat : Nat) : Int)
    decide (p < q)

/-- FP32 operations on bit patterns, one rounding each (R172). -/
def fadd (a b : Nat) : Nat := toFp32 ((ofFp32 a).add (ofFp32 b))
def fsub (a b : Nat) : Nat := toFp32 ((ofFp32 a).add (ofFp32 b).negate)
def fmul (a b : Nat) : Nat := toFp32 ((ofFp32 a).mul (ofFp32 b))
def ffma (a b c : Nat) : Nat := toFp32 (((ofFp32 a).mul (ofFp32 b)).add (ofFp32 c))
def fneg (a : Nat) : Nat := if natBit a 31 then a - 2 ^ 31 else a + 2 ^ 31

/-- Comparisons with a NaN operand give false (11, PSET functions). -/
def fltB (a b : Nat) : Bool := (ofFp32 a).lt (ofFp32 b)
def feqB (a b : Nat) : Bool :=
  let x := ofFp32 a
  let y := ofFp32 b
  !x.isNan && !y.isNan && !x.lt y && !y.lt x
def fgeB (a b : Nat) : Bool := !(ofFp32 a).isNan && !(ofFp32 b).isNan && !fltB a b

/-- Maximum and minimum: NaN with a NaN operand; +0 above −0. -/
def fmax (a b : Nat) : Nat :=
  let x := ofFp32 a
  let y := ofFp32 b
  if x.isNan || y.isNan then fFp32.nanCode
  else if x.lt y || (x.isZero && y.isZero && x.neg) then b else a
def fmin (a b : Nat) : Nat :=
  let x := ofFp32 a
  let y := ofFp32 b
  if x.isNan || y.isNan then fFp32.nanCode
  else if y.lt x || (x.isZero && y.isZero && y.neg) then b else a

/-- Multiply by 2^k, exactly before the one rounding. -/
def FVal.scale2 (v : FVal) (k : Int) : FVal :=
  match v with
  | .num n m e => .num n m (e + k)
  | x => x
def fscale (a : Nat) (k : Int) : Nat := toFp32 ((ofFp32 a).scale2 k)

/-! ### Element formats by code (R142; 06, tile element formats; 08 R166) -/

/-- How an element of a code is stored. -/
inductive ElemKind where
  | flt (f : FFormat)
  | int8
  deriving DecidableEq, Repr

/-- Element kind of a format code 0x1 to 0xB. -/
def elemKind : Nat → Option ElemKind
  | 0x1 => some (.flt fE4M3)
  | 0x2 => some (.flt fE5M2)
  | 0x3 => some (.flt fE4M3)
  | 0x4 => some (.flt fE5M2)
  | 0x5 => some (.flt fE3M2)
  | 0x6 => some (.flt fE2M3)
  | 0x7 => some (.flt fE2M1)
  | 0x8 => some .int8
  | 0x9 => some (.flt fBf16)
  | 0xA => some (.flt fE2M1)
  | 0xB => some (.flt fFp32)
  | _ => none

/-- Bits of an element of a format code. -/
def fmtBits : Nat → Nat
  | 0x0 => 48
  | 0x5 | 0x6 => 6
  | 0x7 | 0xA => 4
  | 0x9 => 16
  | 0xB => 32
  | _ => 8

/-- Scaled formats: 0x3 to 0x8. -/
def fmtScaled (f : Nat) : Bool := decide (3 ≤ f ∧ f ≤ 8)

/-- Unit of a descriptor of a format, in bytes (12 R250). -/
def fmtUnit : Nat → Nat
  | 0x0 => 6
  | 0x9 => 2
  | 0xB => 4
  | _ => 1

/-- E_MAX of a format code (R142). -/
def fmtEmax : Nat → Int
  | 0x1 | 0x3 => 8
  | 0x2 | 0x4 => 15
  | 0x5 => 4
  | 0x6 | 0x7 | 0xA => 2
  | 0x8 => 0
  | _ => 127

/-- Decode an element of a kind. -/
def ElemKind.decode : ElemKind → Nat → FVal
  | .flt f, v => f.decode v
  | .int8, v => FVal.ofInt false (signed 8 v) (-6)

/-- An element with its block scale (R143): scale 0xFF is NaN. -/
def readElem (fmt v scale : Nat) : FVal :=
  match elemKind fmt with
  | none => .nan
  | some k =>
    if fmtScaled fmt then
      (if scale = 0xFF then .nan else (k.decode v).scale2 ((scale : Int) - 127))
    else k.decode v

/-- Block size of a BLK code: 16, 32, 64, 128. -/
def blkSize (b : Nat) : Nat := 16 * 2 ^ b

/-- Conversion to an unscaled format (R145): the code and whether it saturated. -/
def convertUnscaled (f : FFormat) (ovfInf : Bool) (v : FVal) : Nat × Bool :=
  match v with
  | .nan =>
    if f.hasNan then (f.nanCode, false) else (f.encodeMag false f.maxFinite.1 f.maxFinite.2, false)
  | .inf n =>
    if f.hasInf then (f.infCode n, false) else (f.encodeMag n f.maxFinite.1 f.maxFinite.2, false)
  | .zero n => (b2n n * 2 ^ (f.eb + f.mb), false)
  | .num n m e =>
    let r := f.round m e
    if dyLt f.maxFinite r then
      (if ovfInf && f.hasInf && f.mb != 23 then (f.infCode n, false)
       else (f.encodeMag n f.maxFinite.1 f.maxFinite.2, true))
    else (f.encodeMag n r.1 r.2, false)

/-- round_elem of R146 as a dyadic. -/
def ElemKind.roundElem : ElemKind → Nat → Int → Nat × Int
  | .flt f, m, e => f.round m e
  | .int8, m, e => (roundUnits m e (-6), -6)

/-- Largest finite element. -/
def ElemKind.maxFinite : ElemKind → Nat × Int
  | .flt f => f.maxFinite
  | .int8 => (127, -6)

/-- Code of a rounded, saturated magnitude; the device never writes 0x80 (R143). -/
def ElemKind.encode : ElemKind → Bool → Nat → Int → Nat
  | .flt f, n, m, u => f.encodeMag n m u
  | .int8, n, m, _ => if n then (256 - m) % 256 else m

/-- sat(round_elem(v)) as a code (R146). -/
def ElemKind.convert (k : ElemKind) (v : FVal) : Nat :=
  match v with
  | .num n m e =>
    let r := k.roundElem m e
    if dyLt k.maxFinite r then k.encode n k.maxFinite.1 k.maxFinite.2 else k.encode n r.1 r.2
  | .zero n => (match k with
    | .flt f => b2n n * 2 ^ (f.eb + f.mb)
    | .int8 => 0)
  | _ => 0

/-- Largest magnitude of a block of finite values; none where all are zero. -/
def blockAmax (vs : List FVal) : Option (Nat × Int) :=
  vs.foldl (fun a v => match v with
    | .num _ m e => (match a with
      | none => some (m, e)
      | some b => if dyLt b (m, e) then some (m, e) else a)
    | _ => a) none

/-- One block in a scaled format (R146): scale byte, elements, and whether x was clamped at 127. -/
def convertBlock (k : ElemKind) (emax : Int) (strict : Bool) (vs : List FVal) : Nat × List Nat × Bool :=
  if vs.any (fun v => !v.finite) then (0xFF, vs.map (fun _ => 0), false)
  else
    let x0 : Int := match blockAmax vs with
      | none => -127
      | some a =>
        let x := log2Dy a.1 a.2 - emax
        if !strict && dyLt k.maxFinite (k.roundElem a.1 (a.2 - x)) then x + 1 else x
    let x := min (max x0 (-127)) 127
    ((x + 127).toNat, vs.map (fun v => k.convert (v.scale2 (-x))), decide (127 < x0))

/-- Histogram bin of a value (R150); `sat` says whether its conversion saturated. -/
def histBin (hbase : Int) (sat : Bool) (v : FVal) : Nat :=
  match v with
  | .nan => 63
  | .inf _ => 63
  | .zero _ => 0
  | .num _ m e =>
    let x := log2Dy m e
    if sat || decide (hbase + 59 < x) then 62
    else if x < hbase then 1
    else (x - hbase + 2).toNat

/-- Pack elements of a row to bytes (R148): low nibble first, 6-bit four to three bytes. -/
def packElems (bitsPer : Nat) (vs : List Nat) : List Byte :=
  let v := (vs.foldr (fun x acc => x % 2 ^ bitsPer + acc * 2 ^ bitsPer) 0)
  natLE (ceilDiv (vs.length * bitsPer) 8) v

/-- Element `i` of packed bytes. -/
def unpackElem (bitsPer : Nat) (bs : List Byte) (i : Nat) : Nat :=
  (leNat bs / 2 ^ (bitsPer * i)) % 2 ^ bitsPer

end Sys2Proof.Machine
end

