-- ==== Sys2Proof/Machine/Crc.lean ====
section
/-!
DEFINITION. The check-value procedure (spec 18 R390) and the check values the chapters name: CRC-32C
(02 R40), CRC-16 of a key tag (02 R42), CRC-8 of the management port (22 R487).
-/
namespace Sys2Proof.Machine

/-- Reverse the low `n` bits of a value. -/
def reflect : Nat → Nat → Nat
  | 0, _ => 0
  | n + 1, v => (v % 2) * 2 ^ n + reflect n (v / 2)

/-- The parameters of a profile of a check-value unit (18 R390). -/
structure CrcProfile where
  width : Nat
  poly : Nat
  init : Nat
  xorout : Nat
  refin : Bool
  refout : Bool
  deriving DecidableEq, Repr

/-- One bit into the running value: the bit meets the top bit, and the polynomial is subtracted where
they differ. -/
def crcBit (p : CrcProfile) (run : Nat) (b : Bool) : Nat :=
  let top := natBit run (p.width - 1)
  let sh := (2 * run) % 2 ^ p.width
  if top != b then sh.xor (p.poly % 2 ^ p.width) else sh

/-- The bits of a byte in the order a profile takes them. -/
def crcByteBits (p : CrcProfile) (b : Byte) : List Bool :=
  let v := if p.refin then reflect 8 b.toNat else b.toNat
  [7, 6, 5, 4, 3, 2, 1, 0].map (fun i => natBit v i)

/-- One byte into the running value. -/
def crcByte (p : CrcProfile) (run : Nat) (b : Byte) : Nat := (crcByteBits p b).foldl (crcBit p) run

/-- Bytes into the running value. -/
def crcFeed (p : CrcProfile) (run : Nat) (bs : List Byte) : Nat := bs.foldl (crcByte p) run

/-- The value of a running value. -/
def crcValue (p : CrcProfile) (run : Nat) : Nat :=
  ((if p.refout then reflect p.width run else run).xor p.xorout) % 2 ^ p.width

/-- The check value of bytes. -/
def crc (p : CrcProfile) (bs : List Byte) : Nat := crcValue p (crcFeed p (p.init % 2 ^ p.width) bs)

/-- CRC-32C (02 R40). -/
def crc32cProfile : CrcProfile := ⟨32, 0x1EDC6F41, 0xFFFFFFFF, 0xFFFFFFFF, true, true⟩
def crc32c (bs : List Byte) : Nat := crc crc32cProfile bs

/-- CRC-64 (14 R301). -/
def crc64Profile : CrcProfile := ⟨64, 0x42F0E1EBA9EA3693, 0xFFFFFFFFFFFFFFFF, 0xFFFFFFFFFFFFFFFF, true, true⟩
def crc64 (bs : List Byte) : Nat := crc crc64Profile bs

/-- CRC-16 of a key tag (02 R42). -/
def crc16Profile : CrcProfile := ⟨16, 0x1021, 0xFFFF, 0, false, false⟩
def crc16 (bs : List Byte) : Nat := crc crc16Profile bs

/-- CRC-8 of the management port (22 R487). -/
def crc8Profile : CrcProfile := ⟨8, 0x07, 0, 0, false, false⟩
def crc8 (bs : List Byte) : Nat := crc crc8Profile bs

end Sys2Proof.Machine
end

