-- ==== Sys2Proof/Machine/Modular.lean ====
section
/-!
DEFINITION. Sparse primes, alloy tables and the transforms: the shape of a prime (spec 03 R56), fold
depth (R58), the table checks (R60), the constants a build derives (R61), the NTT order (R67, R68),
the automorphism (R70, R71) and exact logarithms (02 R45, R49). Every modular result is the exact
residue in [0, q) (R57).
-/
namespace Sys2Proof.Machine

/-- `b^e mod q` by squaring, on the bits of the exponent. -/
def powModAux (q : Nat) : Nat → Nat → Nat → Nat → Nat
  | 0, _, _, acc => acc % q
  | fuel + 1, b, e, acc =>
    if e = 0 then acc % q
    else powModAux q fuel (b * b % q) (e / 2) (if e % 2 = 1 then acc * b % q else acc)

/-- `b^e mod q` for exponents below 2^64. -/
def powMod (q b e : Nat) : Nat := powModAux q 64 (b % q) e (1 % q)

/-- The inverse of a residue modulo a prime. -/
def invMod (q x : Nat) : Nat := powMod q x (q - 2)

/-- Modular addition, subtraction and product on reduced residues (R57). -/
def addMod (q x y : Nat) : Nat := (x + y) % q
def subMod (q x y : Nat) : Nat := (x % q + (q - y % q)) % q
def mulMod (q x y : Nat) : Nat := x * y % q

/-- One prime entry of an alloy record (R59): E0 then E1. -/
structure PrimeEntry where
  q : Nat
  a : Nat
  b : Nat
  c : Nat
  sb : Bool
  sc : Bool
  two : Bool
  psi : Nat
  reserved : Bool
  deriving DecidableEq, Repr

/-- Read an entry from its two words (R59). -/
def PrimeEntry.ofWords (e0 e1 : Nat) : PrimeEntry :=
  { q := natBits e0 47 0, a := natBits e0 53 48, b := natBits e0 61 56, c := natBits e1 53 48,
    sb := natBit e1 56, sc := natBit e1 57, two := natBit e1 58, psi := natBits e1 47 0,
    reserved := natBits e0 55 54 != 0 || natBits e0 63 62 != 0 || natBits e1 55 54 != 0
      || natBits e1 63 59 != 0 }

/-- A signed power of two: sign 1 is minus (R59). -/
def signedPow (neg : Bool) (e : Nat) : Int := if neg then -((2 ^ e : Nat) : Int) else ((2 ^ e : Nat) : Int)

/-- The value of a form (R56). -/
def PrimeEntry.value (e : PrimeEntry) : Int :=
  ((2 ^ e.a : Nat) : Int) + signedPow e.sb e.b + (if e.two then 0 else signedPow e.sc e.c) + 1

/-- Check 3 of R60: a form allowed by R56, whose value is Q. -/
def PrimeEntry.formOk (e : PrimeEntry) : Bool :=
  (if e.two then decide (18 ≤ e.b ∧ e.b < e.a ∧ e.a ≤ 48 ∧ e.c = 0) && !e.sc
   else decide (e.a ≤ 48 ∧ 18 ≤ e.c ∧ e.c < e.b ∧ e.b < e.a))
  && decide (e.value = (e.q : Int)) && decide (e.q < 2 ^ 48)

/-- The loop of R58, with fuel above its bound of 17 rounds. -/
def foldLoop (a d : Nat) : Nat → Nat → Nat → Nat
  | 0, _, folds => folds
  | fuel + 1, w, folds =>
    if a + 2 < w ∧ folds ≤ 16 then foldLoop a d fuel (max a (w + 1 - d) + 1) (folds + 1) else folds

/-- Fold depth of a prime (R58). -/
def foldDepth (a b : Nat) : Nat := foldLoop a (a - b) 20 (2 * a + 2) 0

/-- `n = d * 2^s` with `d` odd, by division with fuel. -/
def oddPart : Nat → Nat → Nat → Nat × Nat
  | 0, n, s => (n, s)
  | fuel + 1, n, s => if n % 2 = 0 ∧ 0 < n then oddPart fuel (n / 2) (s + 1) else (n, s)

/-- Does one of the `s` squarings of `x` reach `q - 1`? -/
def reachesMinusOne (q : Nat) : Nat → Nat → Bool
  | 0, _ => false
  | s + 1, x => x == q - 1 || reachesMinusOne q s (x * x % q)

/-- One Miller–Rabin base. -/
def millerRabinBase (q base : Nat) : Bool :=
  let ds := oddPart 64 (q - 1) 0
  let x := powMod q base ds.1
  base % q == 0 || x == 1 || reachesMinusOne q ds.2 x

/-- Check 6 of R60: Miller–Rabin with seven bases. -/
def isPrime48 (q : Nat) : Bool :=
  decide (2 ≤ q) && (q == 2 || q % 2 == 1) && [2, 3, 5, 7, 11, 13, 17].all (fun b => millerRabinBase q b)

/-- The first failing check of R60 among checks 3 to 8 for one entry, `earlier` being the primes of the
entries before it; none where all pass. -/
def PrimeEntry.check (e : PrimeEntry) (earlier : List Nat) : Option Nat :=
  if !e.formOk then some 3
  else if (e.q - 1) % 2 ^ 18 ≠ 0 then some 4
  else if 16 < foldDepth e.a e.b then some 5
  else if !isPrime48 e.q then some 6
  else if e.q ∈ earlier then some 7
  else if ¬(2 ≤ e.psi ∧ e.psi < e.q ∧ powMod e.q e.psi (2 ^ 17) = e.q - 1) then some 8
  else none

/-- Checks 3 to 8 over the entries in turn: the index and check of the first failure. -/
def checkEntries : List PrimeEntry → Nat → List Nat → Option (Nat × Nat)
  | [], _, _ => none
  | e :: es, i, earlier =>
    match e.check earlier with
    | some c => some (i, c)
    | none => checkEntries es (i + 1) (earlier ++ [e.q])

/-- One prime of a resident table, with its root of unity. -/
structure Prime where
  q : Nat
  psi : Nat
  deriving DecidableEq, Repr

/-- One table bank: its primes in entry order and the raw words of its Anneal sets (R59, R62). -/
structure Bank where
  primes : List Prime := []
  anneal : List (List Nat) := []
  deriving DecidableEq, Repr

/-- COUNT of a bank. -/
def Bank.count (b : Bank) : Nat := b.primes.length

/-- The prime of an entry; 0 where the entry is not in the bank. -/
def Bank.q (b : Bank) (i : Nat) : Nat := ((b.primes[i]?).map (·.q)).getD 0

/-- The root ψ of an entry. -/
def Bank.psi (b : Bank) (i : Nat) : Nat := ((b.primes[i]?).map (·.psi)).getD 0

/-- ψ_N = ψ^(2^17 ÷ N) for N = 2^n (R61). -/
def psiN (q psi n : Nat) : Nat := powMod q psi (2 ^ (17 - n))

/-- Reverse the low `n` bits of `k` (R67). -/
def revBits : Nat → Nat → Nat
  | 0, _ => 0
  | n + 1, k => (k % 2) * 2 ^ n + revBits n (k / 2)

/-- Value of a polynomial at a point. -/
def evalAt (q x : Nat) (cs : List Nat) : Nat := cs.foldr (fun c acc => (c + x * acc) % q) 0

/-- The forward transform of a limb of 2^n residues, by R67: residue k is the limb polynomial at
ψ_N^(2·rev(k)+1). -/
def nttLimb (q psi n : Nat) (a : List Nat) : List Nat :=
  (List.range (2 ^ n)).map (fun k => evalAt q (powMod q (psiN q psi n) (2 * revBits n k + 1)) a)

/-- Powers of the inverse evaluation points times the residues, summed: one output of the inverse. -/
def inttSum (q psi n j : Nat) (a : List Nat) : Nat :=
  (a.zipIdx).foldl
    (fun acc e => (acc + e.1 * powMod q (powMod q (invMod q (psiN q psi n)) (2 * revBits n e.2 + 1)) j) % q) 0

/-- The inverse transform (R68): N^−1 times the sum with ψ_N^−1; INTT(NTT(x)) = x. -/
def inttLimb (q psi n : Nat) (a : List Nat) : List Nat :=
  (List.range (2 ^ n)).map (fun j => mulMod q (invMod q (2 ^ n)) (inttSum q psi n j a))

/-- Source residue of output residue k under σ_g (R70): 2·rev(k')+1 ≡ g·(2·rev(k)+1) mod 2N. -/
def autSource (n g k : Nat) : Nat := revBits n ((g * (2 * revBits n k + 1) % 2 ^ (n + 1)) / 2)

/-- The Galois element a command carries (R70): GHALF is used modulo N. -/
def galoisOf (n ghalf : Nat) : Nat := 2 * (ghalf % 2 ^ n) + 1

/-- σ_g on one NTT-domain limb. -/
def autLimb (n g : Nat) (a : List Nat) : List Nat :=
  (List.range (2 ^ n)).map (fun k => (a[autSource n g k]?).getD 0)

/-- The Galois element of a rotation by r (R71). -/
def rotationElement (n r : Nat) : Nat := powMod (2 ^ (n + 1)) 5 (r % 2 ^ (n - 1))

/-- The Galois element of conjugation (R71). -/
def conjugationElement (n : Nat) : Nat := 2 ^ (n + 1) - 1

/-- Drawers of one limb (R69): max(1, N ÷ 2^14). -/
def limbDrawers (n : Nat) : Nat := max 1 (2 ^ n / 2 ^ 14)

/-! ### Exact logarithms: log2 values are compared and rounded through powers, with no fraction. -/

/-- ⌊k · log2 x⌋ for x ≥ 1. -/
def floorLog2 (k x : Nat) : Nat := Nat.log2 (x ^ k)

/-- ⌈k · log2 x⌉ for x ≥ 1. -/
def ceilLog2 (k x : Nat) : Nat := if 2 ^ floorLog2 k x = x ^ k then floorLog2 k x else floorLog2 k x + 1

/-- round(256 · log2 q), the SCALE a rescale takes away (02 R45). -/
def scaleOfPrime (q : Nat) : Nat := (floorLog2 512 q + 1) / 2

/-- ⌊8 · log2 of a product of primes⌋, the M of 02 R49 in 1/8 bit. -/
def eighthsOf (qs : List Nat) : Nat := floorLog2 8 (qs.foldl (· * ·) 1)

end Sys2Proof.Machine
end

