-- ==== Sys2Proof/Machine/Header.lean ====
section
/-!
DEFINITION. Ciphertext headers and the noise budget: the 64-byte header and its fields (spec 02 R39),
HCRC (R40), the header checks (R41), key tags (R42, R43), profiles (R35, R36), scale (R45) and budget
rules (R47 to R50).
-/
namespace Sys2Proof.Machine

/-- A 64-byte header: eight words, W0 at byte 0 (R39). -/
structure Header where
  w0 : W64 := 0
  w1 : W64 := 0
  w2 : W64 := 0
  w3 : W64 := 0
  w4 : W64 := 0
  w5 : W64 := 0
  w6 : W64 := 0
  w7 : W64 := 0
  deriving DecidableEq, Repr


/-- The words in order. -/
def Header.words (h : Header) : List W64 := [h.w0, h.w1, h.w2, h.w3, h.w4, h.w5, h.w6, h.w7]

/-- The 64 bytes in address order. -/
def Header.bytes (h : Header) : List Byte := h.words.flatMap (fun w => natLE 8 w.toNat)

/-- A header from its bytes. -/
def Header.ofBytes (bs : List Byte) : Header :=
  let w := fun i => BitVec.ofNat 64 (leNat ((bs.drop (8 * i)).take 8))
  ⟨w 0, w 1, w 2, w 3, w 4, w 5, w 6, w 7⟩

/-- The header as sixteen 32-bit words (R38), and the header with one of them written. -/
def Header.word32 (h : Header) (w : Nat) : Nat := leNat ((h.bytes.drop (4 * w)).take 4)
def Header.setWord32 (h : Header) (w : Nat) (v : W32) : Header :=
  Header.ofBytes (h.bytes.take (4 * w) ++ natLE 4 v.toNat ++ h.bytes.drop (4 * w + 4))

def Header.version (h : Header) : Nat := bits h.w0 7 0
def Header.kind (h : Header) : Nat := bits h.w0 15 8
def Header.profile (h : Header) : Nat := bits h.w0 23 16
def Header.log2n (h : Header) : Nat := bits h.w0 28 24
def Header.limbs (h : Header) : Nat := bits h.w0 39 32
def Header.polys (h : Header) : Nat := bits h.w0 41 40
def Header.domain (h : Header) : Nat := bits h.w0 42 42
def Header.tarnish (h : Header) : Bool := bitOf h.w0 43
def Header.scale (h : Header) : Nat := bits h.w1 15 0
def Header.budget (h : Header) : Nat := bits h.w1 25 16
def Header.slots (h : Header) : Nat := bits h.w1 63 32
def Header.keytag (h : Header) : Nat := h.w2.toNat
def Header.bodyLen (h : Header) : Nat := bits h.w3 47 0
def Header.layout (h : Header) : Nat := bits h.w3 55 48
def Header.owner (h : Header) : Nat := bits h.w4 33 0
def Header.ownerValid (h : Header) : Bool := bitOf h.w4 63
def Header.ptmod (h : Header) : Nat := bits h.w5 47 0
def Header.hcrc (h : Header) : Nat := bits h.w7 63 32

/-- The ring dimension a header names. -/
def Header.n (h : Header) : Nat := 2 ^ h.log2n

/-- A ciphertext kind (R39). -/
def Header.isCt (h : Header) : Bool := h.kind == 0x01 || h.kind == 0x02

/-- A plaintext kind (R39). -/
def Header.isPt (h : Header) : Bool := h.kind == 0x11 || h.kind == 0x12

/-- A CKKS kind (R39). -/
def Header.isCkks (h : Header) : Bool := h.kind == 0x01 || h.kind == 0x11

/-- CRC-32C over bytes 0 to 59 (R40). -/
def Header.computeCrc (h : Header) : Nat := crc32c (h.bytes.take 60)

/-- The header with its HCRC recomputed: every header the device writes carries a correct one (R40). -/
def Header.seal (h : Header) : Header := { h with w7 := putBits h.w7 63 32 h.computeCrc }

/-- Body length by R34 and R41 check 4. -/
def bodyLength (polys limbs n : Nat) : Nat := polys * limbs * n * 6

/-- A live header (11 R240). -/
def Header.live (h : Header) : Bool := h.version == 0x01 && h.hcrc == h.computeCrc

/-- The header with TARNISH 1 and BUDGET 0, its CRC recomputed (R51). -/
def Header.tarnished (h : Header) : Header :=
  { h with w0 := putBits h.w0 43 43 1, w1 := putBits h.w1 25 16 0 }.seal

/-- LIMBS and BODY_LEN for fewer limbs. -/
def Header.withLimbs (h : Header) (l : Nat) : Header :=
  { h with w0 := putBits h.w0 39 32 l, w3 := putBits h.w3 47 0 (bodyLength h.polys l h.n) }

def Header.withDomain (h : Header) (d : Nat) : Header := { h with w0 := putBits h.w0 42 42 d }
def Header.withPolys (h : Header) (p : Nat) : Header :=
  { h with w0 := putBits h.w0 41 40 p, w3 := putBits h.w3 47 0 (bodyLength p h.limbs h.n) }
def Header.withScale (h : Header) (x : Nat) : Header := { h with w1 := putBits h.w1 15 0 x }
def Header.withBudget (h : Header) (x : Nat) : Header := { h with w1 := putBits h.w1 25 16 x }

/-- A profile (R35 to R37; the record of 21 R459). Noise constants and the floor are in 1/8 bit. -/
structure Profile where
  scheme : Nat              -- 1 CKKS, 2 BGV
  log2n : Nat
  slot : Nat                -- alloy table slot
  qFirst : Nat              -- table entry of q_0
  pFirst : Nat              -- table entry of p_0
  numQ : Nat                -- L
  numP : Nat                -- K
  dnum : Nat
  scale : Nat               -- default scale, 1/256 bit (CKKS)
  ptmod : Nat               -- t (BGV)
  floor : Nat
  aRs : Nat
  aKs : Nat
  eMs : Nat
  eKs : Nat
  anneal : Nat              -- Anneal set 0-3 of the table; 7 none
  deriving DecidableEq, Repr

/-- Table entries of q_0 ... q_(L-1). -/
def Profile.qIdx (p : Profile) : List Nat := (List.range p.numQ).map (· + p.qFirst)

/-- Table entries of p_0 ... p_(K-1). -/
def Profile.pIdx (p : Profile) : List Nat := (List.range p.numP).map (· + p.pFirst)

/-- P16 (R37; 21 R459). -/
def profileP16 : Profile :=
  { scheme := 1, log2n := 16, slot := 0, qFirst := 0, pFirst := 28, numQ := 28, numP := 8, dnum := 4,
    scale := 10240, ptmod := 0, floor := 96, aRs := 80, aKs := 88, eMs := 0, eKs := 0, anneal := 0 }

/-- α = ⌈L ÷ dnum⌉ (R36). -/
def Profile.alpha (p : Profile) : Nat := ceilDiv p.numQ p.dnum

/-- The Q primes of the first `l` limbs, from a bank. -/
def Profile.qs (p : Profile) (b : Bank) (l : Nat) : List Nat := (p.qIdx.take l).map b.q

/-- The P primes, from a bank. -/
def Profile.ps (p : Profile) (b : Bank) : List Nat := p.pIdx.map b.q

/-- SESSION, GENERATION, INDEX and TCRC of a key tag (R42). -/
def tagSession (t : Nat) : Nat := natBits t 63 40
def tagGeneration (t : Nat) : Nat := natBits t 39 32
def tagIndex (t : Nat) : Nat := natBits t 31 16
def tagCrc (t : Nat) : Nat := natBits t 15 0

/-- CRC-16 over bits [63:16], most significant byte first (R42). -/
def computeTagCrc (t : Nat) : Nat := crc16 (natBE 6 (natBits t 63 16))

/-- A key tag made of its fields. -/
def makeTag (session gen idx : Nat) : Nat :=
  let hi := (session % 2 ^ 24) * 2 ^ 24 + (gen % 256) * 2 ^ 16 + idx % 2 ^ 16
  hi * 2 ^ 16 + computeTagCrc (hi * 2 ^ 16)

/-- Same key: equal SESSION and GENERATION (R43). -/
def sameKey (a b : Nat) : Bool := natBits a 63 32 == natBits b 63 32

/-- Which failure a header check reports. -/
inductive HdrFail where
  | header   -- ST_HEADER
  | profile  -- ST_PROFILE
  deriving DecidableEq, Repr

/-- Reserved bits of a header are zero (check 2 of R41). -/
def Header.reservedZero (h : Header) : Bool :=
  bits h.w0 63 44 == 0 && bits h.w0 31 29 == 0 && bits h.w1 31 26 == 0 && bits h.w3 63 56 == 0
  && bits h.w4 62 34 == 0 && bits h.w5 63 48 == 0 && h.w6 == 0 && bits h.w7 31 0 == 0

/-- A power of two. -/
def isPow2 (x : Nat) : Bool := x != 0 && 2 ^ Nat.log2 x == x

/-- SLOTS legal for KIND (check 6 of R41; R39): CKKS a power of two from 1 to N/2; BGV N or 1. -/
def Header.slotsOk (h : Header) : Bool :=
  if h.isCkks then isPow2 h.slots && decide (h.slots ≤ h.n / 2) else h.slots == h.n || h.slots == 1

/-- Checks 1 to 4 of R41; a PROFILE outside 0 to 15 is left to check 5. -/
def Header.checks1to4 (h : Header) : Bool :=
  h.live
  && (h.isCt || h.isPt) && h.reservedZero && h.layout == 0x01
  && (if h.isCkks then h.ptmod == 0 else h.scale == 0)
  && (if h.isPt then h.polys == 1 else h.polys == 2 || h.polys == 3)
  && h.bodyLen == bodyLength h.polys h.limbs h.n

/-- Check 5 of R41, with the resident profile the header names and the latched bank. -/
def Header.check5 (h : Header) (p : Option Profile) (b : Bank) : Bool :=
  match p with
  | none => false
  | some p =>
    (p.scheme == if h.isCkks then 1 else 2) && h.log2n == p.log2n
    && decide (1 ≤ h.limbs ∧ h.limbs ≤ p.numQ) && (h.isCkks || h.ptmod == p.ptmod)
    && (p.qIdx ++ p.pIdx).all (fun i => decide (i < b.count))

/-- Check 6 of R41. -/
def Header.check6 (h : Header) : Bool :=
  h.slotsOk
  && (if h.isPt then h.keytag == 0 else tagCrc h.keytag == computeTagCrc h.keytag && tagIndex h.keytag == 0)

/-- The header checks in order; none where all pass (R41). -/
def Header.check (h : Header) (p : Option Profile) (b : Bank) : Option HdrFail :=
  if !h.checks1to4 then some .header
  else if !h.check5 p b then some .profile
  else if !h.check6 then some .header
  else none

/-- Checks 1 to 5 only, as XOBJ makes them (11 R245). -/
def Header.check1to5 (h : Header) (p : Option Profile) (b : Bank) : Option HdrFail :=
  if !h.checks1to4 then some .header else if !h.check5 p b then some .profile else none

/-! ### The noise budget, in 1/8 bit -/

/-- Combination loss λ (R47). -/
def lossOf (d : Nat) : Nat :=
  if d ≤ 2 then 8 else if d ≤ 4 then 7 else if d ≤ 7 then 6 else if d ≤ 10 then 5
  else if d ≤ 14 then 4 else if d ≤ 19 then 3 else if d ≤ 27 then 2 else 1

/-- |a − b| of integers, as a natural number. -/
def absDiff (a b : Int) : Nat := (a - b).natAbs

/-- combine (R47). -/
def combine (a b : Int) : Int := min a b - (lossOf (absDiff a b) : Int)

/-- combine_E for BGV noise exponents (R47). -/
def combineE (a b : Int) : Int := max a b + (lossOf (absDiff a b) : Int)

/-- Clamp to 0 ... 1,023 (R48). -/
def clampBudget (x : Int) : Nat := if x < 0 then 0 else if 1023 < x then 1023 else x.toNat

/-- A result BUDGET is not below the floor (R50): a CKKS result as R48 clamps it, a BGV result as R49 gives it. -/
def budgetOk (ckks : Bool) (floor : Nat) (x : Int) : Bool := decide ((floor : Int) ≤ if ckks then (clampBudget x : Int) else x)

/-- Scale in 1/8 bit: SCALE ÷ 32, rounded down. -/
def scaleEighths (scale : Nat) : Int := ((scale / 32 : Nat) : Int)

/-- Does a SCALE exceed the modulus of `qs` less one bit, or 65,535? (R45) -/
def scaleTooLarge (scale : Nat) (qs : List Nat) : Bool :=
  decide (65535 < scale) || decide ((qs.foldl (· * ·) 1) ^ 256 < 2 ^ (scale + 256))

/-- The noise exponent E of a BGV ciphertext from its BUDGET: BUDGET = M − 1 − E (R49). -/
def bgvE (qs : List Nat) (budget : Nat) : Int := (eighthsOf qs : Int) - 8 - (budget : Int)

/-- The BUDGET of a noise exponent (R49), before clamping. -/
def bgvBudget (qs : List Nat) (e : Int) : Int := (eighthsOf qs : Int) - 8 - e

end Sys2Proof.Machine
end

