-- ==== Sys2Proof/Machine/RegMap.lean ====
section
/-!
DEFINITION. The register map: every register of the control space, its block, offset, spacing, number
and fields with access type and reset value, written from the register tables of the spec
(the rule of each is in its docstring). A value the spec leaves to the part (fuse, strap, image) has
the value that assumption 13 names. The blocks are those of 22 R476.
-/
namespace Sys2Proof.Machine

/-- Access types of register fields (00 R11). -/
inductive Access where
  | ro | rw | wo | w1c | rwk | rwp | ros
  deriving DecidableEq, Repr

/-- One field `[hi:lo]` of a register, with its access type and reset value. -/
structure RField where
  name : String
  hi : Nat
  lo : Nat
  acc : Access
  rst : Nat
  deriving DecidableEq, Repr

/-- Control-space blocks (22 R476). -/
inductive Block where
  | steward
  | hallmark
  | clk
  | power
  | reset
  | loader
  | router
  | plc
  | jrnl
  | svc
  | ts
  | cv
  | devsync
  | snap
  | peen
  | die
  | hbm
  | port
  | core
  | pewter
  deriving DecidableEq, Repr

/-- Register names, as the spec has them. -/
inductive RegName where
  /-- ALLOY_SRC_LO (03 R65) -/
  | alloySrcLo
  /-- ALLOY_SRC_HI (03 R65) -/
  | alloySrcHi
  /-- ALLOY_BUILD (03 R65) -/
  | alloyBuild
  /-- ALLOY_STATUS (03 R65) -/
  | alloyStatus
  /-- KCHEST_BASE (04 R83) -/
  | kchestBase
  /-- KCHEST_SIZE (04 R83) -/
  | kchestSize
  /-- ANNEAL_BASE (05 R109) -/
  | annealBase
  /-- ANNEAL_SECT (05 R109) -/
  | annealSect
  /-- ANVIL_STATE (06 R141) -/
  | anvilState
  /-- ANVIL_SHAPE (06 R141) -/
  | anvilShape
  /-- ANVIL_LATCH (06 R141) -/
  | anvilLatch
  /-- CLEAR_CFG (07 R160) -/
  | clearCfg
  /-- CLEAR_STATUS (07 R160) -/
  | clearStatus
  /-- LOSS_SCALE (07 R160) -/
  | lossScale
  /-- LS_COUNT (07 R160) -/
  | lsCount
  /-- HIST_CFG (07 R160) -/
  | histCfg
  /-- HIST_BIN (07 R160) -/
  | histBin
  /-- LAYER (07 R160) -/
  | layer
  /-- CHAIN_W0 (08 R165) -/
  | chainW0
  /-- CHAIN_W1 (08 R165) -/
  | chainW1
  /-- CHAIN_W2 (08 R165) -/
  | chainW2
  /-- CHAIN_W3 (08 R165) -/
  | chainW3
  /-- CONSTF_LO (08 R180) -/
  | constfLo
  /-- CONSTF_HI (08 R180) -/
  | constfHi
  /-- POLYT (08 R180) -/
  | polyt
  /-- SP_BIND (09 R203) -/
  | spBind
  /-- SP_FAULT (09 R203) -/
  | spFault
  /-- SP_INJECT (09 R203) -/
  | spInject
  /-- DRAWER_TAG (09 R203) -/
  | drawerTag
  /-- WIN_CFG (09 R203) -/
  | winCfg
  /-- WIN_BOUND (09 R203) -/
  | winBound
  /-- WIN_WDEV (09 R203) -/
  | winWdev
  /-- WIN_WCORE0 (09 R203) -/
  | winWcore0
  /-- WIN_WCORE1 (09 R203) -/
  | winWcore1
  /-- WIN_WCORE2 (09 R203) -/
  | winWcore2
  /-- WIN_STAT (09 R203) -/
  | winStat
  /-- CORE_MODE (10 R235) -/
  | coreMode
  /-- CORE_WDOG (10 R235) -/
  | coreWdog
  /-- CTX_CTRL (10 R235) -/
  | ctxCtrl
  /-- CTX_STATE (10 R235) -/
  | ctxState
  /-- CTX_PC_LO (10 R235) -/
  | ctxPcLo
  /-- CTX_PC_HI (10 R235) -/
  | ctxPcHi
  /-- CTX_SAVE (10 R235) -/
  | ctxSave
  /-- COUNTER (10 R235) -/
  | counter
  /-- DIE_BAR_CFG (12 R269) -/
  | dieBarCfg
  /-- DEV_BAR_CFG (12 R269) -/
  | devBarCfg
  /-- FBAR_CFG (12 R269) -/
  | fbarCfg
  /-- DIE_BAR_STATE (12 R269) -/
  | dieBarState
  /-- DEV_BAR_STATE (12 R269) -/
  | devBarState
  /-- FBAR_STATE (12 R269) -/
  | fbarState
  /-- DIE_CTR_CFG (12 R269) -/
  | dieCtrCfg
  /-- DEV_CTR_CFG (12 R269) -/
  | devCtrCfg
  /-- DIE_CTR_THRESH (12 R269) -/
  | dieCtrThresh
  /-- DEV_CTR_THRESH (12 R269) -/
  | devCtrThresh
  /-- DIE_CTR_NOTIFY (12 R269) -/
  | dieCtrNotify
  /-- DEV_CTR_NOTIFY (12 R269) -/
  | devCtrNotify
  /-- DIE_CTR_VAL (12 R269) -/
  | dieCtrVal
  /-- DEV_CTR_VAL (12 R269) -/
  | devCtrVal
  /-- DESC (12 R269) -/
  | desc
  /-- The words of the header slots, 16 a drawer (02 R38, R39) -/
  | headerWord
  /-- HBM_MAP (13 R288) -/
  | hbmMap
  /-- HBM_CFG (13 R288) -/
  | hbmCfg
  /-- CACHE_CFG (13 R288) -/
  | cacheCfg
  /-- CACHE_CTRL (13 R288) -/
  | cacheCtrl
  /-- CACHE_STAT (13 R288) -/
  | cacheStat
  /-- HIT_LO (13 R288) -/
  | hitLo
  /-- HIT_HI (13 R288) -/
  | hitHi
  /-- MISS_LO (13 R288) -/
  | missLo
  /-- MISS_HI (13 R288) -/
  | missHi
  /-- ECC_CORR (13 R288) -/
  | eccCorr
  /-- ECC_UNCORR (13 R288) -/
  | eccUncorr
  /-- HBM_LINK_RETRY (13 R288) -/
  | hbmLinkRetry
  /-- THERM_CFG (13 R288) -/
  | thermCfg
  /-- THERM_STATUS (13 R288) -/
  | thermStatus
  /-- RECAL_CFG (13 R288) -/
  | recalCfg
  /-- RECAL_STATUS (13 R288) -/
  | recalStatus
  /-- HBM_FAULT (13 R288) -/
  | hbmFault
  /-- HBM_FAULT_ADDR_LO (13 R288) -/
  | hbmFaultAddrLo
  /-- HBM_FAULT_ADDR_HI (13 R288) -/
  | hbmFaultAddrHi
  /-- MT_CTRL (13 R288) -/
  | mtCtrl
  /-- MT_ROW (13 R288) -/
  | mtRow
  /-- MT_LANE (13 R288) -/
  | mtLane
  /-- MT_STATUS (13 R288) -/
  | mtStatus
  /-- PORT_CTRL (14 R317) -/
  | portCtrl
  /-- PORT_STATUS (14 R317) -/
  | portStatus
  /-- PORT_LINK_RETRY (14 R317) -/
  | portLinkRetry
  /-- PORT_CRC_ERR (14 R317) -/
  | portCrcErr
  /-- PORT_DOWN_COUNT (14 R317) -/
  | portDownCount
  /-- FAB_ID (14 R317) -/
  | fabId
  /-- FAB_CFG (14 R317) -/
  | fabCfg
  /-- FAB_GRANT (14 R317) -/
  | fabGrant
  /-- TIME_LO (14 R317) -/
  | timeLo
  /-- TIME_HI (14 R317) -/
  | timeHi
  /-- TIME_STATUS (14 R317) -/
  | timeStatus
  /-- ALIVE_REPEAT (14 R317) -/
  | aliveRepeat
  /-- ALIVE_GAP (14 R317) -/
  | aliveGap
  /-- E2E_FAIL (14 R317) -/
  | e2eFail
  /-- FBAR_HOME (14 R317) -/
  | fbarHome
  /-- FBAR_LIST_LO (14 R317) -/
  | fbarListLo
  /-- FBAR_LIST_HI (14 R317) -/
  | fbarListHi
  /-- FBAR_DEVS (14 R317) -/
  | fbarDevs
  /-- SVC_CTRL (15 R344) -/
  | svcCtrl
  /-- SVC_STATUS (15 R344) -/
  | svcStatus
  /-- SVC_MAC_LO (15 R344) -/
  | svcMacLo
  /-- SVC_GW_MAC_LO (15 R344) -/
  | svcGwMacLo
  /-- SVC_MAC_HI (15 R344) -/
  | svcMacHi
  /-- SVC_GW_MAC_HI (15 R344) -/
  | svcGwMacHi
  /-- SVC_VLAN (15 R344) -/
  | svcVlan
  /-- SVC_IPV4 (15 R344) -/
  | svcIpv4
  /-- SVC_IPV6 (15 R344) -/
  | svcIpv6
  /-- SVC_UDP (15 R344) -/
  | svcUdp
  /-- SVC_FRAG (15 R344) -/
  | svcFrag
  /-- SVC_TIMERS (15 R344) -/
  | svcTimers
  /-- SVC_IDLE (15 R344) -/
  | svcIdle
  /-- SVC_SESS (15 R344) -/
  | svcSess
  /-- SVC_SESS_CNT (15 R344) -/
  | svcSessCnt
  /-- RX_FRAMES (15 R344) -/
  | rxFrames
  /-- TX_FRAMES (15 R344) -/
  | txFrames
  /-- SVC_CRC_ERR (15 R344) -/
  | svcCrcErr
  /-- MALFORMED (15 R344) -/
  | malformed
  /-- DROPPED (15 R344) -/
  | dropped
  /-- REPEAT (15 R344) -/
  | repeatCnt
  /-- AUTH_FAIL (15 R344) -/
  | authFail
  /-- JRNL_BASE (16 R371) -/
  | jrnlBase
  /-- JRNL_SIZE (16 R371) -/
  | jrnlSize
  /-- WIT_CFG (16 R371) -/
  | witCfg
  /-- WIT_TIMERS (16 R371) -/
  | witTimers
  /-- WIT_STATUS (16 R371) -/
  | witStatus
  /-- WIT_TAKEOVER (16 R371) -/
  | witTakeover
  /-- JRNL_USED (16 R371) -/
  | jrnlUsed
  /-- ACCEPTED (16 R371) -/
  | acceptedCnt
  /-- REFUSED (16 R371) -/
  | refusedCnt
  /-- DOUBT_ENTERED (16 R371) -/
  | doubtEntered
  /-- RECOVERED (16 R371) -/
  | recovered
  /-- RECORD_BAD (16 R371) -/
  | recordBad
  /-- PLC_CTRL (16 R371) -/
  | plcCtrl
  /-- PLC_STATUS (16 R371) -/
  | plcStatus
  /-- PLC_EXCLUDE (16 R371) -/
  | plcExclude
  /-- PLC_SEL (16 R371) -/
  | plcSel
  /-- PLC_ENTRY (16 R371) -/
  | plcEntry
  /-- PLC_CORE (16 R371) -/
  | plcCore
  /-- TS_CFG (17 R389) -/
  | tsCfg
  /-- TS_PART (17 R389) -/
  | tsPart
  /-- TS_REQ0 (17 R389) -/
  | tsReq0
  /-- TS_REQ1 (17 R389) -/
  | tsReq1
  /-- TS_REQ2 (17 R389) -/
  | tsReq2
  /-- TS_REQ3 (17 R389) -/
  | tsReq3
  /-- TS_PUSH (17 R389) -/
  | tsPush
  /-- TS_DONE (17 R389) -/
  | tsDone
  /-- TS_DONE_CYC (17 R389) -/
  | tsDoneCyc
  /-- TS_DONE_POP (17 R389) -/
  | tsDonePop
  /-- TS_STATUS (17 R389) -/
  | tsStatus
  /-- TS_ABORT (17 R389) -/
  | tsAbort
  /-- TS_CURVE (17 R389) -/
  | tsCurve
  /-- TS_SLOT_SEL (17 R389) -/
  | tsSlotSel
  /-- TS_SLOT_STAT (17 R389) -/
  | tsSlotStat
  /-- TS_SLOT_CTRL (17 R389) -/
  | tsSlotCtrl
  /-- TS_MISMATCH (17 R389) -/
  | tsMismatch
  /-- TS_VERIFY_FAIL (17 R389) -/
  | tsVerifyFail
  /-- TS_CURVE_REJ (17 R389) -/
  | tsCurveRej
  /-- TS_SLOT_DATA (17 R389) -/
  | tsSlotData
  /-- CV_CFG (18 R400) -/
  | cvCfg
  /-- PCV_CFG (18 R400) -/
  | pcvCfg
  /-- CV_POLY_LO (18 R400) -/
  | cvPolyLo
  /-- PCV_POLY_LO (18 R400) -/
  | pcvPolyLo
  /-- CV_POLY_HI (18 R400) -/
  | cvPolyHi
  /-- PCV_POLY_HI (18 R400) -/
  | pcvPolyHi
  /-- CV_INIT_LO (18 R400) -/
  | cvInitLo
  /-- PCV_INIT_LO (18 R400) -/
  | pcvInitLo
  /-- CV_INIT_HI (18 R400) -/
  | cvInitHi
  /-- PCV_INIT_HI (18 R400) -/
  | pcvInitHi
  /-- CV_XOROUT_LO (18 R400) -/
  | cvXoroutLo
  /-- PCV_XOROUT_LO (18 R400) -/
  | pcvXoroutLo
  /-- CV_XOROUT_HI (18 R400) -/
  | cvXoroutHi
  /-- PCV_XOROUT_HI (18 R400) -/
  | pcvXoroutHi
  /-- CV_RUN_LO (18 R400) -/
  | cvRunLo
  /-- PCV_RUN_LO (18 R400) -/
  | pcvRunLo
  /-- CV_RUN_HI (18 R400) -/
  | cvRunHi
  /-- PCV_RUN_HI (18 R400) -/
  | pcvRunHi
  /-- CV_CTRL (18 R400) -/
  | cvCtrl
  /-- PCV_CTRL (18 R400) -/
  | pcvCtrl
  /-- CV_STAT (18 R400) -/
  | cvStat
  /-- PCV_STAT (18 R400) -/
  | pcvStat
  /-- CV_CHECK_LO (18 R400) -/
  | cvCheckLo
  /-- PCV_CHECK_LO (18 R400) -/
  | pcvCheckLo
  /-- CV_CHECK_HI (18 R400) -/
  | cvCheckHi
  /-- PCV_CHECK_HI (18 R400) -/
  | pcvCheckHi
  /-- CV_MISMATCH (18 R400) -/
  | cvMismatch
  /-- PCV_MISMATCH (18 R400) -/
  | pcvMismatch
  /-- CV_FEED (18 R400) -/
  | cvFeed
  /-- PCV_FEED (18 R400) -/
  | pcvFeed
  /-- ALIVE_CFG (18 R400) -/
  | aliveCfg
  /-- SB_STATUS (19 R422) -/
  | sbStatus
  /-- SB_CMD (19 R422) -/
  | sbCmd
  /-- DEC_ACT (19 R422) -/
  | decAct
  /-- DEC_JOB (19 R422) -/
  | decJob
  /-- DEC_TGT (19 R422) -/
  | decTgt
  /-- DEC_ADDR_LO (19 R422) -/
  | decAddrLo
  /-- DEC_ADDR_HI (19 R422) -/
  | decAddrHi
  /-- DEC_GO (19 R422) -/
  | decGo
  /-- DEC_STATUS (19 R422) -/
  | decStatus
  /-- EV_RING_BASE (19 R422) -/
  | evRingBase
  /-- EV_CFG (19 R422) -/
  | evCfg
  /-- EV_DEST (19 R422) -/
  | evDest
  /-- EV_TRACE_MASK (19 R422) -/
  | evTraceMask
  /-- EV_HELD_WR (19 R422) -/
  | evHeldWr
  /-- EV_HELD_ACK (19 R422) -/
  | evHeldAck
  /-- EV_LOG_WR (19 R422) -/
  | evLogWr
  /-- EV_SUP (19 R422) -/
  | evSup
  /-- EV_MGMT_STAT (19 R422) -/
  | evMgmtStat
  /-- EV_MGMT_POP (19 R422) -/
  | evMgmtPop
  /-- EV_MGMT_DATA (19 R422) -/
  | evMgmtData
  /-- TRACE_DROP (19 R422) -/
  | traceDrop
  /-- LOG_SUPPRESSED (19 R422) -/
  | logSuppressed
  /-- ERROR_COALESCED (19 R422) -/
  | errorCoalesced
  /-- ALARM_COALESCED (19 R422) -/
  | alarmCoalesced
  /-- MGMT_DROP (19 R422) -/
  | mgmtDrop
  /-- SUP_DROP (19 R422) -/
  | supDrop
  /-- ROUTER_PARITY (19 R422) -/
  | routerParity
  /-- LOG_DROP (19 R422) -/
  | logDrop
  /-- CLK_PLAN (20 R447) -/
  | clkPlan
  /-- CLK_SPREAD (20 R447) -/
  | clkSpread
  /-- CLK_STATUS (20 R447) -/
  | clkStatus
  /-- CLK_STOP_EN (20 R447) -/
  | clkStopEn
  /-- CLK_RUN (20 R447) -/
  | clkRun
  /-- CLK_FAIL (20 R447) -/
  | clkFail
  /-- RAIL_LIMIT (20 R447) -/
  | railLimit
  /-- RAIL_IMAX (20 R447) -/
  | railImax
  /-- RAIL_STATUS (20 R447) -/
  | railStatus
  /-- AVS_CFG (20 R447) -/
  | avsCfg
  /-- JT_CFG (20 R447) -/
  | jtCfg
  /-- JT_STATUS (20 R447) -/
  | jtStatus
  /-- RST_CAUSE (20 R447) -/
  | rstCause
  /-- RST_CMD (20 R447) -/
  | rstCmd
  /-- HM_STATUS (21 R448) -/
  | hmStatus
  /-- HM_POLICY (21 R448) -/
  | hmPolicy
  /-- HM_KGUARD (21 R448) -/
  | hmKguard
  /-- HM_PWRITE (21 R448) -/
  | hmPwrite
  /-- HM_PART (21 R448) -/
  | hmPart
  /-- HM_ROOT (21 R448) -/
  | hmRoot
  /-- HM_IDPUB (21 R448) -/
  | hmIdpub
  /-- IMG_STATUS (21 R474) -/
  | imgStatus
  /-- IMG_VER (21 R474) -/
  | imgVer
  /-- PROG_BASE (21 R474) -/
  | progBase
  /-- ASSAY_AREA (21 R474) -/
  | assayArea
  /-- PAIR_WAIT (21 R474) -/
  | pairWait
  /-- ASSAY_REQ (21 R474) -/
  | assayReq
  /-- ASSAY_STATUS (21 R474) -/
  | assayStatus
  /-- ASSAY_FAIL (21 R474) -/
  | assayFail
  /-- BOOT_STATUS (21 R474) -/
  | bootStatus
  /-- BOOT_TIME (21 R474) -/
  | bootTime
  /-- SNAP_CMD (22 R485) -/
  | snapCmd
  /-- SNAP_STATUS (22 R485) -/
  | snapStatus
  /-- SNAP_ALIGN (22 R485) -/
  | snapAlign
  /-- SNAP_TIME_LO (22 R485) -/
  | snapTimeLo
  /-- SNAP_TIME_HI (22 R485) -/
  | snapTimeHi
  /-- ID_PART (22 R492) -/
  | idPart
  /-- ID_DEVICE (22 R492) -/
  | idDevice
  /-- ID_CAPS (22 R492) -/
  | idCaps
  /-- MGMT_CFG (22 R492) -/
  | mgmtCfg
  /-- MGMT_STATUS (22 R492) -/
  | mgmtStatus
  /-- SCRATCH (22 R492) -/
  | scratch
  /-- REG_LAST_LO (22 R492) -/
  | regLastLo
  /-- REG_LAST_HI (22 R492) -/
  | regLastHi
  /-- REG_REFUSED (22 R492) -/
  | regRefused
  /-- REG_DROPPED (22 R492) -/
  | regDropped
  /-- REG_PEC_ERR (22 R492) -/
  | regPecErr
  /-- PW_CTRL_LO (23 R509) -/
  | pwCtrlLo
  /-- PW_CTRL_HI (23 R509) -/
  | pwCtrlHi
  /-- PW_STATUS (23 R509) -/
  | pwStatus
  /-- PW_STATE (23 R509) -/
  | pwState
  /-- PW_GATES_LO (23 R509) -/
  | pwGatesLo
  /-- PW_GATES_HI (23 R509) -/
  | pwGatesHi
  /-- PW_JOB_LO (23 R509) -/
  | pwJobLo
  /-- PW_JOB_HI (23 R509) -/
  | pwJobHi
  /-- PEEN_CTRL (24 R523) -/
  | peenCtrl
  /-- PEEN_STATUS (24 R523) -/
  | peenStatus
  /-- PN_CFG (24 R523) -/
  | pnCfg
  /-- PN_AMOUNT (24 R523) -/
  | pnAmount
  /-- PN_SEED (24 R523) -/
  | pnSeed
  /-- PN_APPLIED (24 R523) -/
  | pnApplied
  /-- IO_SLEW (25 R543) -/
  | ioSlew
  deriving DecidableEq, Repr

/-- The block a register lies in. -/
def RegName.block : RegName → Block
  | .alloySrcLo => .loader
  | .alloySrcHi => .loader
  | .alloyBuild => .loader
  | .alloyStatus => .loader
  | .kchestBase => .loader
  | .kchestSize => .loader
  | .annealBase => .loader
  | .annealSect => .loader
  | .anvilState => .core
  | .anvilShape => .core
  | .anvilLatch => .core
  | .clearCfg => .core
  | .clearStatus => .core
  | .lossScale => .core
  | .lsCount => .core
  | .histCfg => .core
  | .histBin => .core
  | .layer => .core
  | .chainW0 => .core
  | .chainW1 => .core
  | .chainW2 => .core
  | .chainW3 => .core
  | .constfLo => .core
  | .constfHi => .core
  | .polyt => .core
  | .spBind => .core
  | .spFault => .core
  | .spInject => .core
  | .drawerTag => .core
  | .winCfg => .core
  | .winBound => .core
  | .winWdev => .core
  | .winWcore0 => .core
  | .winWcore1 => .core
  | .winWcore2 => .core
  | .winStat => .core
  | .coreMode => .core
  | .coreWdog => .core
  | .ctxCtrl => .core
  | .ctxState => .core
  | .ctxPcLo => .core
  | .ctxPcHi => .core
  | .ctxSave => .core
  | .counter => .core
  | .dieBarCfg => .die
  | .devBarCfg => .devsync
  | .fbarCfg => .port
  | .dieBarState => .die
  | .devBarState => .devsync
  | .fbarState => .port
  | .dieCtrCfg => .die
  | .devCtrCfg => .devsync
  | .dieCtrThresh => .die
  | .devCtrThresh => .devsync
  | .dieCtrNotify => .die
  | .devCtrNotify => .devsync
  | .dieCtrVal => .die
  | .devCtrVal => .devsync
  | .desc => .core
  | .headerWord => .core
  | .hbmMap => .die
  | .hbmCfg => .hbm
  | .cacheCfg => .hbm
  | .cacheCtrl => .hbm
  | .cacheStat => .hbm
  | .hitLo => .hbm
  | .hitHi => .hbm
  | .missLo => .hbm
  | .missHi => .hbm
  | .eccCorr => .hbm
  | .eccUncorr => .hbm
  | .hbmLinkRetry => .hbm
  | .thermCfg => .hbm
  | .thermStatus => .hbm
  | .recalCfg => .hbm
  | .recalStatus => .hbm
  | .hbmFault => .hbm
  | .hbmFaultAddrLo => .hbm
  | .hbmFaultAddrHi => .hbm
  | .mtCtrl => .hbm
  | .mtRow => .hbm
  | .mtLane => .hbm
  | .mtStatus => .hbm
  | .portCtrl => .port
  | .portStatus => .port
  | .portLinkRetry => .port
  | .portCrcErr => .port
  | .portDownCount => .port
  | .fabId => .port
  | .fabCfg => .port
  | .fabGrant => .port
  | .timeLo => .port
  | .timeHi => .port
  | .timeStatus => .port
  | .aliveRepeat => .port
  | .aliveGap => .port
  | .e2eFail => .port
  | .fbarHome => .port
  | .fbarListLo => .port
  | .fbarListHi => .port
  | .fbarDevs => .port
  | .svcCtrl => .svc
  | .svcStatus => .svc
  | .svcMacLo => .svc
  | .svcGwMacLo => .svc
  | .svcMacHi => .svc
  | .svcGwMacHi => .svc
  | .svcVlan => .svc
  | .svcIpv4 => .svc
  | .svcIpv6 => .svc
  | .svcUdp => .svc
  | .svcFrag => .svc
  | .svcTimers => .svc
  | .svcIdle => .svc
  | .svcSess => .svc
  | .svcSessCnt => .svc
  | .rxFrames => .svc
  | .txFrames => .svc
  | .svcCrcErr => .svc
  | .malformed => .svc
  | .dropped => .svc
  | .repeatCnt => .svc
  | .authFail => .svc
  | .jrnlBase => .jrnl
  | .jrnlSize => .jrnl
  | .witCfg => .jrnl
  | .witTimers => .jrnl
  | .witStatus => .jrnl
  | .witTakeover => .jrnl
  | .jrnlUsed => .jrnl
  | .acceptedCnt => .jrnl
  | .refusedCnt => .jrnl
  | .doubtEntered => .jrnl
  | .recovered => .jrnl
  | .recordBad => .jrnl
  | .plcCtrl => .plc
  | .plcStatus => .plc
  | .plcExclude => .plc
  | .plcSel => .plc
  | .plcEntry => .plc
  | .plcCore => .plc
  | .tsCfg => .ts
  | .tsPart => .ts
  | .tsReq0 => .ts
  | .tsReq1 => .ts
  | .tsReq2 => .ts
  | .tsReq3 => .ts
  | .tsPush => .ts
  | .tsDone => .ts
  | .tsDoneCyc => .ts
  | .tsDonePop => .ts
  | .tsStatus => .ts
  | .tsAbort => .ts
  | .tsCurve => .ts
  | .tsSlotSel => .ts
  | .tsSlotStat => .ts
  | .tsSlotCtrl => .ts
  | .tsMismatch => .ts
  | .tsVerifyFail => .ts
  | .tsCurveRej => .ts
  | .tsSlotData => .ts
  | .cvCfg => .cv
  | .pcvCfg => .port
  | .cvPolyLo => .cv
  | .pcvPolyLo => .port
  | .cvPolyHi => .cv
  | .pcvPolyHi => .port
  | .cvInitLo => .cv
  | .pcvInitLo => .port
  | .cvInitHi => .cv
  | .pcvInitHi => .port
  | .cvXoroutLo => .cv
  | .pcvXoroutLo => .port
  | .cvXoroutHi => .cv
  | .pcvXoroutHi => .port
  | .cvRunLo => .cv
  | .pcvRunLo => .port
  | .cvRunHi => .cv
  | .pcvRunHi => .port
  | .cvCtrl => .cv
  | .pcvCtrl => .port
  | .cvStat => .cv
  | .pcvStat => .port
  | .cvCheckLo => .cv
  | .pcvCheckLo => .port
  | .cvCheckHi => .cv
  | .pcvCheckHi => .port
  | .cvMismatch => .cv
  | .pcvMismatch => .port
  | .cvFeed => .cv
  | .pcvFeed => .port
  | .aliveCfg => .cv
  | .sbStatus => .steward
  | .sbCmd => .steward
  | .decAct => .steward
  | .decJob => .steward
  | .decTgt => .steward
  | .decAddrLo => .steward
  | .decAddrHi => .steward
  | .decGo => .steward
  | .decStatus => .steward
  | .evRingBase => .router
  | .evCfg => .router
  | .evDest => .router
  | .evTraceMask => .router
  | .evHeldWr => .router
  | .evHeldAck => .router
  | .evLogWr => .router
  | .evSup => .router
  | .evMgmtStat => .router
  | .evMgmtPop => .router
  | .evMgmtData => .router
  | .traceDrop => .router
  | .logSuppressed => .router
  | .errorCoalesced => .router
  | .alarmCoalesced => .router
  | .mgmtDrop => .router
  | .supDrop => .router
  | .routerParity => .router
  | .logDrop => .router
  | .clkPlan => .clk
  | .clkSpread => .clk
  | .clkStatus => .clk
  | .clkStopEn => .clk
  | .clkRun => .clk
  | .clkFail => .clk
  | .railLimit => .power
  | .railImax => .power
  | .railStatus => .power
  | .avsCfg => .power
  | .jtCfg => .power
  | .jtStatus => .power
  | .rstCause => .reset
  | .rstCmd => .reset
  | .hmStatus => .hallmark
  | .hmPolicy => .hallmark
  | .hmKguard => .hallmark
  | .hmPwrite => .hallmark
  | .hmPart => .hallmark
  | .hmRoot => .hallmark
  | .hmIdpub => .hallmark
  | .imgStatus => .loader
  | .imgVer => .loader
  | .progBase => .loader
  | .assayArea => .loader
  | .pairWait => .loader
  | .assayReq => .loader
  | .assayStatus => .loader
  | .assayFail => .loader
  | .bootStatus => .reset
  | .bootTime => .reset
  | .snapCmd => .snap
  | .snapStatus => .snap
  | .snapAlign => .snap
  | .snapTimeLo => .snap
  | .snapTimeHi => .snap
  | .idPart => .steward
  | .idDevice => .steward
  | .idCaps => .steward
  | .mgmtCfg => .steward
  | .mgmtStatus => .steward
  | .scratch => .steward
  | .regLastLo => .steward
  | .regLastHi => .steward
  | .regRefused => .steward
  | .regDropped => .steward
  | .regPecErr => .steward
  | .pwCtrlLo => .pewter
  | .pwCtrlHi => .pewter
  | .pwStatus => .pewter
  | .pwState => .pewter
  | .pwGatesLo => .pewter
  | .pwGatesHi => .pewter
  | .pwJobLo => .pewter
  | .pwJobHi => .pewter
  | .peenCtrl => .peen
  | .peenStatus => .peen
  | .pnCfg => .peen
  | .pnAmount => .peen
  | .pnSeed => .peen
  | .pnApplied => .peen
  | .ioSlew => .steward

/-- The offset of register 0 of a family in its block. -/
def RegName.offset : RegName → Nat
  | .alloySrcLo => 0x0400
  | .alloySrcHi => 0x0404
  | .alloyBuild => 0x0408
  | .alloyStatus => 0x0410
  | .kchestBase => 0x0500
  | .kchestSize => 0x0508
  | .annealBase => 0x0580
  | .annealSect => 0x05A0
  | .anvilState => 0x0600
  | .anvilShape => 0x0610
  | .anvilLatch => 0x0630
  | .clearCfg => 0x0700
  | .clearStatus => 0x0704
  | .lossScale => 0x0710
  | .lsCount => 0x0714
  | .histCfg => 0x0780
  | .histBin => 0x2000
  | .layer => 0x0800
  | .chainW0 => 0x1000
  | .chainW1 => 0x1004
  | .chainW2 => 0x1008
  | .chainW3 => 0x100C
  | .constfLo => 0x1C00
  | .constfHi => 0x1C04
  | .polyt => 0x1800
  | .spBind => 0x0100
  | .spFault => 0x0110
  | .spInject => 0x0118
  | .drawerTag => 0x3000
  | .winCfg => 0x3400
  | .winBound => 0x3404
  | .winWdev => 0x3408
  | .winWcore0 => 0x340C
  | .winWcore1 => 0x3410
  | .winWcore2 => 0x3414
  | .winStat => 0x3418
  | .coreMode => 0x0000
  | .coreWdog => 0x0008
  | .ctxCtrl => 0x0010
  | .ctxState => 0x0040
  | .ctxPcLo => 0x0044
  | .ctxPcHi => 0x0048
  | .ctxSave => 0x0080
  | .counter => 0x4000
  | .dieBarCfg => 0x1000
  | .devBarCfg => 0x1000
  | .fbarCfg => 0x9000
  | .dieBarState => 0x1008
  | .devBarState => 0x1008
  | .fbarState => 0x9008
  | .dieCtrCfg => 0x2000
  | .devCtrCfg => 0x2000
  | .dieCtrThresh => 0x2008
  | .devCtrThresh => 0x2008
  | .dieCtrNotify => 0x200C
  | .devCtrNotify => 0x200C
  | .dieCtrVal => 0x2010
  | .devCtrVal => 0x2010
  | .desc => 0x5000
  | .headerWord => 0x8000
  | .hbmMap => 0x0080
  | .hbmCfg => 0x0000
  | .cacheCfg => 0x0010
  | .cacheCtrl => 0x0014
  | .cacheStat => 0x0018
  | .hitLo => 0x0020
  | .hitHi => 0x0024
  | .missLo => 0x0028
  | .missHi => 0x002C
  | .eccCorr => 0x0030
  | .eccUncorr => 0x0034
  | .hbmLinkRetry => 0x0038
  | .thermCfg => 0x0040
  | .thermStatus => 0x0044
  | .recalCfg => 0x0050
  | .recalStatus => 0x0054
  | .hbmFault => 0x0060
  | .hbmFaultAddrLo => 0x0064
  | .hbmFaultAddrHi => 0x0068
  | .mtCtrl => 0x0100
  | .mtRow => 0x0104
  | .mtLane => 0x0108
  | .mtStatus => 0x010C
  | .portCtrl => 0x0000
  | .portStatus => 0x0010
  | .portLinkRetry => 0x0020
  | .portCrcErr => 0x0024
  | .portDownCount => 0x0028
  | .fabId => 0x8000
  | .fabCfg => 0x8010
  | .fabGrant => 0x8100
  | .timeLo => 0x8200
  | .timeHi => 0x8204
  | .timeStatus => 0x8208
  | .aliveRepeat => 0x8300
  | .aliveGap => 0x8304
  | .e2eFail => 0x8308
  | .fbarHome => 0x900C
  | .fbarListLo => 0x9010
  | .fbarListHi => 0x9014
  | .fbarDevs => 0x9018
  | .svcCtrl => 0x0000
  | .svcStatus => 0x0010
  | .svcMacLo => 0x0020
  | .svcGwMacLo => 0x0028
  | .svcMacHi => 0x0024
  | .svcGwMacHi => 0x002C
  | .svcVlan => 0x0030
  | .svcIpv4 => 0x0040
  | .svcIpv6 => 0x0050
  | .svcUdp => 0x0060
  | .svcFrag => 0x0064
  | .svcTimers => 0x0070
  | .svcIdle => 0x0074
  | .svcSess => 0x0080
  | .svcSessCnt => 0x0088
  | .rxFrames => 0x0100
  | .txFrames => 0x0104
  | .svcCrcErr => 0x0108
  | .malformed => 0x010C
  | .dropped => 0x0110
  | .repeatCnt => 0x0114
  | .authFail => 0x0118
  | .jrnlBase => 0x0000
  | .jrnlSize => 0x0008
  | .witCfg => 0x0010
  | .witTimers => 0x0020
  | .witStatus => 0x0030
  | .witTakeover => 0x0040
  | .jrnlUsed => 0x0060
  | .acceptedCnt => 0x0100
  | .refusedCnt => 0x0104
  | .doubtEntered => 0x0108
  | .recovered => 0x010C
  | .recordBad => 0x0110
  | .plcCtrl => 0x0000
  | .plcStatus => 0x0010
  | .plcExclude => 0x0020
  | .plcSel => 0x0040
  | .plcEntry => 0x0050
  | .plcCore => 0x0100
  | .tsCfg => 0x0000
  | .tsPart => 0x0008
  | .tsReq0 => 0x0010
  | .tsReq1 => 0x0014
  | .tsReq2 => 0x0018
  | .tsReq3 => 0x001C
  | .tsPush => 0x0020
  | .tsDone => 0x0030
  | .tsDoneCyc => 0x0034
  | .tsDonePop => 0x0038
  | .tsStatus => 0x0040
  | .tsAbort => 0x0050
  | .tsCurve => 0x0080
  | .tsSlotSel => 0x0100
  | .tsSlotStat => 0x0104
  | .tsSlotCtrl => 0x0108
  | .tsMismatch => 0x0200
  | .tsVerifyFail => 0x0204
  | .tsCurveRej => 0x0208
  | .tsSlotData => 0x8000
  | .cvCfg => 0x0000
  | .pcvCfg => 0x0400
  | .cvPolyLo => 0x0008
  | .pcvPolyLo => 0x0408
  | .cvPolyHi => 0x000C
  | .pcvPolyHi => 0x040C
  | .cvInitLo => 0x0010
  | .pcvInitLo => 0x0410
  | .cvInitHi => 0x0014
  | .pcvInitHi => 0x0414
  | .cvXoroutLo => 0x0018
  | .pcvXoroutLo => 0x0418
  | .cvXoroutHi => 0x001C
  | .pcvXoroutHi => 0x041C
  | .cvRunLo => 0x0020
  | .pcvRunLo => 0x0420
  | .cvRunHi => 0x0024
  | .pcvRunHi => 0x0424
  | .cvCtrl => 0x0028
  | .pcvCtrl => 0x0428
  | .cvStat => 0x002C
  | .pcvStat => 0x042C
  | .cvCheckLo => 0x0030
  | .pcvCheckLo => 0x0430
  | .cvCheckHi => 0x0034
  | .pcvCheckHi => 0x0434
  | .cvMismatch => 0x0038
  | .pcvMismatch => 0x0438
  | .cvFeed => 0x003C
  | .pcvFeed => 0x043C
  | .aliveCfg => 0x1000
  | .sbStatus => 0x0100
  | .sbCmd => 0x0108
  | .decAct => 0x0200
  | .decJob => 0x0204
  | .decTgt => 0x0208
  | .decAddrLo => 0x020C
  | .decAddrHi => 0x0210
  | .decGo => 0x0220
  | .decStatus => 0x0228
  | .evRingBase => 0x0000
  | .evCfg => 0x0010
  | .evDest => 0x0014
  | .evTraceMask => 0x0018
  | .evHeldWr => 0x0020
  | .evHeldAck => 0x0024
  | .evLogWr => 0x0028
  | .evSup => 0x0040
  | .evMgmtStat => 0x0100
  | .evMgmtPop => 0x0104
  | .evMgmtData => 0x0110
  | .traceDrop => 0x0200
  | .logSuppressed => 0x0204
  | .errorCoalesced => 0x0208
  | .alarmCoalesced => 0x020C
  | .mgmtDrop => 0x0210
  | .supDrop => 0x0214
  | .routerParity => 0x0218
  | .logDrop => 0x021C
  | .clkPlan => 0x0000
  | .clkSpread => 0x0008
  | .clkStatus => 0x0010
  | .clkStopEn => 0x0020
  | .clkRun => 0x0030
  | .clkFail => 0x0040
  | .railLimit => 0x0000
  | .railImax => 0x0008
  | .railStatus => 0x0100
  | .avsCfg => 0x0200
  | .jtCfg => 0x0210
  | .jtStatus => 0x0220
  | .rstCause => 0x0000
  | .rstCmd => 0x0008
  | .hmStatus => 0x0000
  | .hmPolicy => 0x0010
  | .hmKguard => 0x0014
  | .hmPwrite => 0x0018
  | .hmPart => 0x0020
  | .hmRoot => 0x0040
  | .hmIdpub => 0x0080
  | .imgStatus => 0x0000
  | .imgVer => 0x0008
  | .progBase => 0x0020
  | .assayArea => 0x0028
  | .pairWait => 0x0030
  | .assayReq => 0x0100
  | .assayStatus => 0x0110
  | .assayFail => 0x0120
  | .bootStatus => 0x0100
  | .bootTime => 0x0104
  | .snapCmd => 0x0000
  | .snapStatus => 0x0010
  | .snapAlign => 0x0014
  | .snapTimeLo => 0x0018
  | .snapTimeHi => 0x001C
  | .idPart => 0x0000
  | .idDevice => 0x0004
  | .idCaps => 0x0008
  | .mgmtCfg => 0x0040
  | .mgmtStatus => 0x0048
  | .scratch => 0x0080
  | .regLastLo => 0x0090
  | .regLastHi => 0x0094
  | .regRefused => 0x00A0
  | .regDropped => 0x00A4
  | .regPecErr => 0x00A8
  | .pwCtrlLo => 0x0000
  | .pwCtrlHi => 0x0004
  | .pwStatus => 0x0010
  | .pwState => 0x0014
  | .pwGatesLo => 0x0100
  | .pwGatesHi => 0x0104
  | .pwJobLo => 0x0108
  | .pwJobHi => 0x010C
  | .peenCtrl => 0x0000
  | .peenStatus => 0x0010
  | .pnCfg => 0x0100
  | .pnAmount => 0x0108
  | .pnSeed => 0x010C
  | .pnApplied => 0x0200
  | .ioSlew => 0x0300

/-- The spacing of a numbered family. -/
def RegName.stride : RegName → Nat
  | .alloyStatus => 4
  | .kchestBase => 16
  | .kchestSize => 16
  | .annealBase => 8
  | .annealSect => 8
  | .anvilShape => 4
  | .lossScale => 8
  | .lsCount => 8
  | .histCfg => 4
  | .histBin => 4
  | .layer => 4
  | .chainW0 => 16
  | .chainW1 => 16
  | .chainW2 => 16
  | .chainW3 => 16
  | .constfLo => 8
  | .constfHi => 8
  | .polyt => 4
  | .drawerTag => 4
  | .winCfg => 32
  | .winBound => 32
  | .winWdev => 32
  | .winWcore0 => 32
  | .winWcore1 => 32
  | .winWcore2 => 32
  | .winStat => 32
  | .ctxCtrl => 8
  | .ctxState => 16
  | .ctxPcLo => 16
  | .ctxPcHi => 16
  | .ctxSave => 4
  | .counter => 4
  | .dieBarCfg => 16
  | .devBarCfg => 16
  | .fbarCfg => 32
  | .dieBarState => 16
  | .devBarState => 16
  | .fbarState => 32
  | .dieCtrCfg => 32
  | .devCtrCfg => 32
  | .dieCtrThresh => 32
  | .devCtrThresh => 32
  | .dieCtrNotify => 32
  | .devCtrNotify => 32
  | .dieCtrVal => 32
  | .devCtrVal => 32
  | .desc => 4
  | .headerWord => 4
  | .fabGrant => 8
  | .fbarHome => 32
  | .fbarListLo => 32
  | .fbarListHi => 32
  | .fbarDevs => 32
  | .svcIpv6 => 4
  | .plcExclude => 8
  | .plcEntry => 4
  | .plcCore => 4
  | .tsCurve => 4
  | .tsSlotData => 4
  | .cvCfg => 64
  | .pcvCfg => 64
  | .cvPolyLo => 64
  | .pcvPolyLo => 64
  | .cvPolyHi => 64
  | .pcvPolyHi => 64
  | .cvInitLo => 64
  | .pcvInitLo => 64
  | .cvInitHi => 64
  | .pcvInitHi => 64
  | .cvXoroutLo => 64
  | .pcvXoroutLo => 64
  | .cvXoroutHi => 64
  | .pcvXoroutHi => 64
  | .cvRunLo => 64
  | .pcvRunLo => 64
  | .cvRunHi => 64
  | .pcvRunHi => 64
  | .cvCtrl => 64
  | .pcvCtrl => 64
  | .cvStat => 64
  | .pcvStat => 64
  | .cvCheckLo => 64
  | .pcvCheckLo => 64
  | .cvCheckHi => 64
  | .pcvCheckHi => 64
  | .cvMismatch => 64
  | .pcvMismatch => 64
  | .cvFeed => 64
  | .pcvFeed => 64
  | .evSup => 4
  | .evMgmtData => 4
  | .clkStopEn => 4
  | .clkRun => 4
  | .clkFail => 4
  | .railLimit => 16
  | .railImax => 16
  | .railStatus => 8
  | .jtStatus => 4
  | .hmPart => 4
  | .hmRoot => 4
  | .hmIdpub => 4
  | .assayFail => 4
  | .pwGatesLo => 16
  | .pwGatesHi => 16
  | .pwJobLo => 16
  | .pwJobHi => 16
  | .pnCfg => 16
  | .pnAmount => 16
  | .pnSeed => 16
  | .pnApplied => 4
  | _ => 0

/-- How many registers a family has. -/
def RegName.count : RegName → Nat
  | .alloyStatus => 4
  | .kchestBase => 4
  | .kchestSize => 4
  | .annealBase => 4
  | .annealSect => 4
  | .anvilShape => 8
  | .lossScale => 4
  | .lsCount => 4
  | .histCfg => 16
  | .histBin => 1024
  | .layer => 64
  | .chainW0 => 64
  | .chainW1 => 64
  | .chainW2 => 64
  | .chainW3 => 64
  | .constfLo => 64
  | .constfHi => 64
  | .polyt => 128
  | .drawerTag => 256
  | .winCfg => 16
  | .winBound => 16
  | .winWdev => 16
  | .winWcore0 => 16
  | .winWcore1 => 16
  | .winWcore2 => 16
  | .winStat => 16
  | .ctxCtrl => 4
  | .ctxState => 4
  | .ctxPcLo => 4
  | .ctxPcHi => 4
  | .ctxSave => 4
  | .counter => 256
  | .dieBarCfg => 64
  | .devBarCfg => 32
  | .fbarCfg => 16
  | .dieBarState => 64
  | .devBarState => 32
  | .fbarState => 16
  | .dieCtrCfg => 64
  | .devCtrCfg => 64
  | .dieCtrThresh => 64
  | .devCtrThresh => 64
  | .dieCtrNotify => 64
  | .devCtrNotify => 64
  | .dieCtrVal => 64
  | .devCtrVal => 64
  | .desc => 1024
  | .headerWord => 4096
  | .fabGrant => 16
  | .fbarHome => 16
  | .fbarListLo => 16
  | .fbarListHi => 16
  | .fbarDevs => 16
  | .svcIpv6 => 4
  | .plcExclude => 3
  | .plcEntry => 4
  | .plcCore => 96
  | .tsCurve => 8
  | .tsSlotData => 256
  | .cvCfg => 32
  | .pcvCfg => 2
  | .cvPolyLo => 32
  | .pcvPolyLo => 2
  | .cvPolyHi => 32
  | .pcvPolyHi => 2
  | .cvInitLo => 32
  | .pcvInitLo => 2
  | .cvInitHi => 32
  | .pcvInitHi => 2
  | .cvXoroutLo => 32
  | .pcvXoroutLo => 2
  | .cvXoroutHi => 32
  | .pcvXoroutHi => 2
  | .cvRunLo => 32
  | .pcvRunLo => 2
  | .cvRunHi => 32
  | .pcvRunHi => 2
  | .cvCtrl => 32
  | .pcvCtrl => 2
  | .cvStat => 32
  | .pcvStat => 2
  | .cvCheckLo => 32
  | .pcvCheckLo => 2
  | .cvCheckHi => 32
  | .pcvCheckHi => 2
  | .cvMismatch => 32
  | .pcvMismatch => 2
  | .cvFeed => 32
  | .pcvFeed => 2
  | .evSup => 4
  | .evMgmtData => 8
  | .clkStopEn => 2
  | .clkRun => 2
  | .clkFail => 2
  | .railLimit => 5
  | .railImax => 5
  | .railStatus => 5
  | .jtStatus => 5
  | .hmPart => 4
  | .hmRoot => 12
  | .hmIdpub => 24
  | .assayFail => 3
  | .pwGatesLo => 4
  | .pwGatesHi => 4
  | .pwJobLo => 4
  | .pwJobHi => 4
  | .pnCfg => 8
  | .pnAmount => 8
  | .pnSeed => 8
  | .pnApplied => 8
  | _ => 1

/-- The fields of a register; bits in no field are reserved (00 R12). -/
def RegName.fields : RegName → List RField
  | .alloySrcLo => [⟨"ADDR_LO", 31, 6, .rw, 0⟩]
  | .alloySrcHi => [⟨"ADDR_HI", 7, 0, .rw, 0⟩]
  | .alloyBuild => [⟨"COMMIT", 3, 3, .rwp, 0⟩, ⟨"START", 2, 2, .rwp, 0⟩, ⟨"SLOT", 1, 0, .rwp, 0⟩]
  | .alloyStatus => [⟨"GEN", 31, 24, .ro, 0⟩, ⟨"FAIL_INDEX", 23, 16, .ro, 0⟩, ⟨"CHECK", 15, 12, .ro, 0⟩, ⟨"COUNT", 11, 5, .ro, 0⟩, ⟨"ACTIVE", 2, 2, .ro, 0⟩, ⟨"SHADOW", 1, 0, .ro, 0⟩]
  | .kchestBase => [⟨"ADDR", 23, 0, .rwp, 0⟩]
  | .kchestSize => [⟨"SIZE", 11, 0, .rwp, 0⟩]
  | .annealBase => [⟨"ADDR", 23, 0, .rwp, 0⟩]
  | .annealSect => [⟨"SIZE", 9, 0, .rwp, 0⟩]
  | .anvilState => [⟨"LATCH_VALID", 28, 28, .ro, 0⟩, ⟨"ACC_TORN", 27, 24, .ro, 0⟩, ⟨"ACC_INUSE", 23, 20, .ro, 0⟩, ⟨"ACC_OVF", 19, 16, .ro, 0⟩, ⟨"TILE_TORN", 15, 8, .ro, 0⟩, ⟨"TILE_INUSE", 7, 0, .ro, 0⟩]
  | .anvilShape => [⟨"DESC", 15, 0, .ro, 0⟩]
  | .anvilLatch => [⟨"VALID", 19, 16, .ro, 0⟩, ⟨"DESC", 15, 0, .ro, 0⟩]
  | .clearCfg => [⟨"HBASE", 15, 8, .rw, 216⟩, ⟨"OVF_INF", 1, 1, .rw, 0⟩, ⟨"STRICT_OCP", 0, 0, .rw, 0⟩]
  | .clearStatus => [⟨"LAST_SKIP", 19, 16, .ro, 0⟩, ⟨"OVF_STICKY", 3, 0, .w1c, 0⟩]
  | .lossScale => [⟨"EXP_MAX", 23, 16, .rw, 24⟩, ⟨"EXP_MIN", 15, 8, .rw, 0⟩, ⟨"EXP", 7, 0, .rw, 16⟩]
  | .lsCount => [⟨"INTERVAL", 31, 16, .rw, 2000⟩, ⟨"CLEAN", 15, 0, .rw, 0⟩]
  | .histCfg => [⟨"CLEAR", 1, 1, .wo, 0⟩, ⟨"WATCH", 0, 0, .rw, 0⟩]
  | .histBin => [⟨"COUNT", 31, 0, .ro, 0⟩]
  | .layer => [⟨"HSLOT", 19, 16, .rw, 0⟩, ⟨"FMT", 15, 12, .rw, 0⟩, ⟨"HEADROOM", 11, 8, .rw, 2⟩, ⟨"SHIFT", 7, 0, .rw, 0⟩]
  | .chainW0 => [⟨"MODE", 31, 30, .rw, 0⟩, ⟨"AFIRST", 29, 29, .rw, 0⟩, ⟨"MASKZERO", 28, 28, .rw, 0⟩, ⟨"MASKSRC", 27, 26, .rw, 0⟩, ⟨"MREG", 25, 21, .rw, 0⟩, ⟨"HIST", 20, 20, .rw, 0⟩, ⟨"HSLOT", 19, 16, .rw, 0⟩, ⟨"LAYER", 15, 10, .rw, 0⟩, ⟨"LAYOP", 9, 8, .rw, 0⟩, ⟨"LOSSOP", 7, 6, .rw, 0⟩]
  | .chainW1 => [⟨"XFMT", 31, 28, .rw, 0⟩, ⟨"YFMT", 27, 24, .rw, 0⟩, ⟨"OFMT", 23, 20, .rw, 0⟩, ⟨"IBLK", 19, 18, .rw, 0⟩, ⟨"OBLK", 17, 16, .rw, 0⟩, ⟨"YSRC", 15, 14, .rw, 0⟩, ⟨"CSRC", 13, 12, .rw, 0⟩, ⟨"CBASE", 11, 6, .rw, 0⟩, ⟨"CREG", 5, 1, .rw, 0⟩]
  | .chainW2 => [⟨"MULOP", 31, 28, .rw, 0⟩, ⟨"ADDOP", 27, 24, .rw, 0⟩, ⟨"CMPOP", 23, 20, .rw, 0⟩, ⟨"POLYOP", 19, 16, .rw, 0⟩, ⟨"CONVOP", 15, 12, .rw, 0⟩, ⟨"PDEG", 7, 4, .rw, 0⟩, ⟨"PTAB", 3, 0, .rw, 0⟩]
  | .chainW3 => [⟨"PCREG", 31, 27, .rw, 0⟩, ⟨"PSCALE", 26, 21, .rw, 0⟩, ⟨"LIFTSRC", 20, 15, .rw, 0⟩]
  | .constfLo => [⟨"VAL_LO", 31, 0, .rw, 0⟩]
  | .constfHi => [⟨"VAL_HI", 15, 0, .rw, 0⟩]
  | .polyt => [⟨"COEF", 31, 0, .rw, 0⟩]
  | .spBind => [⟨"GROUP7", 31, 28, .rwp, 6⟩, ⟨"GROUP6", 27, 24, .rwp, 5⟩, ⟨"GROUP5", 23, 20, .rwp, 5⟩, ⟨"GROUP4", 19, 16, .rwp, 4⟩, ⟨"GROUP3", 15, 12, .rwp, 3⟩, ⟨"GROUP2", 11, 8, .rwp, 2⟩, ⟨"GROUP1", 7, 4, .rwp, 1⟩, ⟨"GROUP0", 3, 0, .rwp, 1⟩]
  | .spFault => [⟨"VALID", 31, 31, .w1c, 0⟩, ⟨"OFFSET", 30, 14, .ro, 0⟩, ⟨"DRAWER", 13, 6, .ro, 0⟩, ⟨"BANK", 5, 0, .ro, 0⟩]
  | .spInject => [⟨"ARM", 8, 8, .rwk, 0⟩, ⟨"DRAWER", 7, 0, .rwk, 0⟩]
  | .drawerTag => [⟨"WAITERS", 15, 8, .ro, 0⟩, ⟨"CLAIMED", 3, 3, .ro, 0⟩, ⟨"WIN", 2, 2, .ro, 0⟩, ⟨"TAG", 1, 0, .ro, 0⟩]
  | .winCfg => [⟨"OPEN", 31, 31, .rw, 0⟩, ⟨"CTX", 30, 29, .rw, 0⟩, ⟨"FIRST", 23, 16, .rw, 0⟩, ⟨"COUNT", 5, 0, .rw, 0⟩]
  | .winBound => [⟨"BOUND64", 15, 0, .rw, 0⟩]
  | .winWdev => [⟨"LOCAL", 31, 31, .rw, 0⟩, ⟨"WDEV", 17, 0, .rw, 0⟩]
  | .winWcore0 => [⟨"MASK", 31, 0, .rw, 0⟩]
  | .winWcore1 => [⟨"MASK", 31, 0, .rw, 0⟩]
  | .winWcore2 => [⟨"MASK", 31, 0, .rw, 0⟩]
  | .winStat => [⟨"REFUSED", 31, 16, .ro, 0⟩, ⟨"FILLED", 5, 0, .ro, 0⟩]
  | .coreMode => [⟨"MODE", 0, 0, .rwp, 0⟩]
  | .coreWdog => [⟨"LIMIT_LOG2", 5, 0, .rwk, 32⟩]
  | .ctxCtrl => [⟨"ACTION", 2, 0, .rwp, 0⟩]
  | .ctxState => [⟨"LAST_OPCODE", 31, 22, .ro, 0⟩, ⟨"LAST_STATUS", 21, 14, .ro, 0⟩, ⟨"QUEUED", 11, 3, .ro, 0⟩, ⟨"STATE", 2, 0, .ro, 0⟩]
  | .ctxPcLo => [⟨"ADDR_LO", 31, 5, .rw, 0⟩]
  | .ctxPcHi => [⟨"ADDR_HI", 7, 0, .rw, 0⟩]
  | .ctxSave => [⟨"ADDR", 23, 0, .rw, 0⟩]
  | .counter => [⟨"VALUE", 15, 0, .ro, 0⟩]
  | .dieBarCfg => [⟨"ARMED", 31, 31, .rwp, 0⟩, ⟨"COUNT", 30, 22, .rwp, 0⟩, ⟨"OWNER_CTX", 21, 20, .rwp, 0⟩, ⟨"OWNER_CORE", 19, 13, .rwp, 0⟩, ⟨"WDOG_LOG2", 12, 7, .rwp, 30⟩]
  | .devBarCfg => [⟨"ARMED", 31, 31, .rwp, 0⟩, ⟨"COUNT", 30, 22, .rwp, 0⟩, ⟨"OWNER_CTX", 21, 20, .rwp, 0⟩, ⟨"OWNER_CORE", 19, 13, .rwp, 0⟩, ⟨"WDOG_LOG2", 12, 7, .rwp, 30⟩]
  | .fbarCfg => [⟨"ARMED", 31, 31, .rwp, 0⟩, ⟨"COUNT", 30, 22, .rwp, 0⟩, ⟨"OWNER_CTX", 21, 20, .rwp, 0⟩, ⟨"OWNER_CORE", 19, 13, .rwp, 0⟩, ⟨"WDOG_LOG2", 12, 7, .rwp, 30⟩]
  | .dieBarState => [⟨"POISONED", 31, 31, .ro, 0⟩, ⟨"ORPHAN", 30, 30, .ro, 0⟩, ⟨"SENSE", 29, 29, .ro, 0⟩, ⟨"ARRIVED", 28, 20, .ro, 0⟩, ⟨"EARLY", 19, 11, .ro, 0⟩, ⟨"PHASES", 10, 0, .ro, 0⟩]
  | .devBarState => [⟨"POISONED", 31, 31, .ro, 0⟩, ⟨"ORPHAN", 30, 30, .ro, 0⟩, ⟨"SENSE", 29, 29, .ro, 0⟩, ⟨"ARRIVED", 28, 20, .ro, 0⟩, ⟨"EARLY", 19, 11, .ro, 0⟩, ⟨"PHASES", 10, 0, .ro, 0⟩]
  | .fbarState => [⟨"POISONED", 31, 31, .ro, 0⟩, ⟨"ORPHAN", 30, 30, .ro, 0⟩, ⟨"SENSE", 29, 29, .ro, 0⟩, ⟨"ARRIVED", 28, 20, .ro, 0⟩, ⟨"EARLY", 19, 11, .ro, 0⟩, ⟨"PHASES", 10, 0, .ro, 0⟩]
  | .dieCtrCfg => [⟨"ARMED", 31, 31, .rwp, 0⟩, ⟨"OWNER_CTX", 30, 29, .rwp, 0⟩, ⟨"OWNER_CORE", 28, 22, .rwp, 0⟩, ⟨"NCTR", 21, 14, .rwp, 0⟩, ⟨"NDELTA", 13, 6, .rwp, 0⟩]
  | .devCtrCfg => [⟨"ARMED", 31, 31, .rwp, 0⟩, ⟨"OWNER_CTX", 30, 29, .rwp, 0⟩, ⟨"OWNER_CORE", 28, 22, .rwp, 0⟩, ⟨"NCTR", 21, 14, .rwp, 0⟩, ⟨"NDELTA", 13, 6, .rwp, 0⟩]
  | .dieCtrThresh => [⟨"STEP", 31, 16, .rw, 0⟩, ⟨"THRESH", 15, 0, .rw, 0⟩]
  | .devCtrThresh => [⟨"STEP", 31, 16, .rw, 0⟩, ⟨"THRESH", 15, 0, .rw, 0⟩]
  | .dieCtrNotify => [⟨"NDIE", 31, 28, .rw, 0⟩, ⟨"NCORE", 23, 0, .rw, 0⟩]
  | .devCtrNotify => [⟨"NDIE", 31, 28, .rw, 0⟩, ⟨"NCORE", 23, 0, .rw, 0⟩]
  | .dieCtrVal => [⟨"ORPHAN", 17, 17, .ro, 0⟩, ⟨"FIRED", 16, 16, .w1c, 0⟩, ⟨"VALUE", 15, 0, .ro, 0⟩]
  | .devCtrVal => [⟨"ORPHAN", 17, 17, .ro, 0⟩, ⟨"FIRED", 16, 16, .w1c, 0⟩, ⟨"VALUE", 15, 0, .ro, 0⟩]
  | .desc => [⟨"BITS", 31, 0, .ro, 0⟩]
  | .headerWord => [⟨"WORD", 31, 0, .rw, 0⟩]
  | .hbmMap => [⟨"GRAN", 2, 0, .rwp, 3⟩]
  | .hbmCfg => [⟨"LINKPAR", 3, 3, .rwp, 1⟩, ⟨"ECS", 2, 2, .rwp, 1⟩, ⟨"RATE", 0, 0, .rwp, 0⟩]
  | .cacheCfg => [⟨"KEEP_QUOTA", 4, 0, .rw, 12⟩]
  | .cacheCtrl => [⟨"DROP_KEEP", 0, 0, .wo, 0⟩]
  | .cacheStat => [⟨"KEEP_LINES", 18, 0, .ro, 0⟩]
  | .hitLo => [⟨"COUNT", 31, 0, .ros, 0⟩]
  | .hitHi => [⟨"COUNT", 31, 0, .ros, 0⟩]
  | .missLo => [⟨"COUNT", 31, 0, .ros, 0⟩]
  | .missHi => [⟨"COUNT", 31, 0, .ros, 0⟩]
  | .eccCorr => [⟨"COUNT", 31, 0, .ros, 0⟩]
  | .eccUncorr => [⟨"COUNT", 31, 0, .ros, 0⟩]
  | .hbmLinkRetry => [⟨"COUNT", 31, 0, .ros, 0⟩]
  | .thermCfg => [⟨"T3", 23, 16, .rw, 92⟩, ⟨"T2", 15, 8, .rw, 89⟩, ⟨"T1", 7, 0, .rw, 85⟩]
  | .thermStatus => [⟨"TEMP", 15, 8, .ro, 0⟩, ⟨"REFRATE", 5, 4, .ro, 0⟩, ⟨"STEP", 1, 0, .ro, 0⟩]
  | .recalCfg => [⟨"ENABLE", 8, 8, .rw, 1⟩, ⟨"INTERVAL", 7, 0, .rw, 1⟩]
  | .recalStatus => [⟨"COUNT", 31, 16, .ro, 0⟩, ⟨"LAST_FAIL", 0, 0, .ro, 0⟩]
  | .hbmFault => [⟨"VALID", 31, 31, .w1c, 0⟩, ⟨"KIND", 30, 28, .ro, 0⟩, ⟨"PCH", 27, 22, .ro, 0⟩]
  | .hbmFaultAddrLo => [⟨"ADDR", 31, 6, .ro, 0⟩]
  | .hbmFaultAddrHi => [⟨"ADDR", 7, 0, .ro, 0⟩]
  | .mtCtrl => [⟨"OP", 2, 0, .rwk, 0⟩]
  | .mtRow => [⟨"PCH", 27, 22, .rwk, 0⟩, ⟨"BANK", 21, 16, .rwk, 0⟩, ⟨"ROW", 15, 0, .rwk, 0⟩]
  | .mtLane => [⟨"CH", 12, 8, .rwk, 0⟩, ⟨"LANE", 7, 0, .rwk, 0⟩]
  | .mtStatus => [⟨"SPARES", 7, 4, .ro, 0⟩, ⟨"OFFLINE", 3, 3, .ro, 0⟩, ⟨"STATE", 1, 0, .ro, 0⟩]
  | .portCtrl => [⟨"ENABLE", 0, 0, .rwp, 1⟩]
  | .portStatus => [⟨"STATE", 31, 29, .ro, 0⟩, ⟨"WIDTH", 28, 27, .ro, 0⟩, ⟨"PEER_PORT", 26, 23, .ro, 0⟩, ⟨"ROLE", 22, 18, .ro, 0⟩, ⟨"PEER_DEV", 17, 0, .ro, 0⟩]
  | .portLinkRetry => [⟨"COUNT", 31, 0, .ros, 0⟩]
  | .portCrcErr => [⟨"COUNT", 31, 0, .ros, 0⟩]
  | .portDownCount => [⟨"COUNT", 31, 0, .ros, 0⟩]
  | .fabId => [⟨"DEVICE", 17, 0, .rwp, 0⟩]
  | .fabCfg => [⟨"JOINED", 9, 9, .ro, 0⟩, ⟨"E2E_NARROW", 8, 8, .rw, 1⟩, ⟨"MAX_LEVEL", 2, 0, .ro, 0⟩]
  | .fabGrant => [⟨"VALID", 31, 31, .rwp, 0⟩, ⟨"DEVICE", 17, 0, .rwp, 0⟩]
  | .timeLo => [⟨"TIME", 31, 0, .ros, 0⟩]
  | .timeHi => [⟨"TIME", 31, 0, .ros, 0⟩]
  | .timeStatus => [⟨"SYNCED", 31, 31, .ro, 0⟩, ⟨"MASTER", 30, 30, .ro, 0⟩, ⟨"PARENT", 19, 16, .ro, 0⟩, ⟨"OFFSET", 15, 0, .ro, 0⟩]
  | .aliveRepeat => [⟨"COUNT", 31, 0, .ros, 0⟩]
  | .aliveGap => [⟨"COUNT", 31, 0, .ros, 0⟩]
  | .e2eFail => [⟨"COUNT", 31, 0, .ros, 0⟩]
  | .fbarHome => [⟨"HOME", 17, 0, .rw, 0⟩]
  | .fbarListLo => [⟨"ADDR_LO", 31, 6, .rw, 0⟩]
  | .fbarListHi => [⟨"ADDR_HI", 7, 0, .rw, 0⟩]
  | .fbarDevs => [⟨"DEVCOUNT", 12, 0, .rw, 0⟩]
  | .svcCtrl => [⟨"OPERATOR_EN", 4, 4, .rwp, 0⟩, ⟨"VLAN_EN", 3, 3, .rwp, 0⟩, ⟨"IPV6_EN", 2, 2, .rwp, 1⟩, ⟨"IPV4_EN", 1, 1, .rwp, 0⟩, ⟨"ENABLE", 0, 0, .rwp, 0⟩]
  | .svcStatus => [⟨"SESSIONS", 31, 17, .ro, 0⟩, ⟨"OPEN", 2, 2, .ro, 0⟩, ⟨"FEC_ALIGNED", 1, 1, .ro, 0⟩, ⟨"PCS_LOCK", 0, 0, .ro, 0⟩]
  | .svcMacLo => [⟨"MAC", 31, 0, .rw, 0⟩]
  | .svcGwMacLo => [⟨"MAC", 31, 0, .rw, 0⟩]
  | .svcMacHi => [⟨"MAC", 15, 0, .rw, 0⟩]
  | .svcGwMacHi => [⟨"MAC", 15, 0, .rw, 0⟩]
  | .svcVlan => [⟨"PCP", 15, 13, .rw, 0⟩, ⟨"VID", 11, 0, .rw, 0⟩]
  | .svcIpv4 => [⟨"ADDR", 31, 0, .rw, 0⟩]
  | .svcIpv6 => [⟨"ADDR", 31, 0, .rw, 0⟩]
  | .svcUdp => [⟨"PORT", 15, 0, .rw, 7340⟩]
  | .svcFrag => [⟨"PAYLOAD64", 7, 0, .rw, 140⟩]
  | .svcTimers => [⟨"SETUP_TIMEOUT", 31, 24, .rw, 100⟩, ⟨"RESULT_RETRY", 23, 16, .rw, 20⟩, ⟨"REASM_TIMEOUT", 15, 8, .rw, 50⟩, ⟨"GAP_HOLD", 7, 0, .rw, 10⟩]
  | .svcIdle => [⟨"IDLE_TIMEOUT", 15, 0, .rw, 60⟩]
  | .svcSess => [⟨"SESS_BASE", 23, 0, .rwp, 1⟩]
  | .svcSessCnt => [⟨"SESS_COUNT", 14, 0, .rwp, 4096⟩]
  | .rxFrames => [⟨"COUNT", 31, 0, .ros, 0⟩]
  | .txFrames => [⟨"COUNT", 31, 0, .ros, 0⟩]
  | .svcCrcErr => [⟨"COUNT", 31, 0, .ros, 0⟩]
  | .malformed => [⟨"COUNT", 31, 0, .ros, 0⟩]
  | .dropped => [⟨"COUNT", 31, 0, .ros, 0⟩]
  | .repeatCnt => [⟨"COUNT", 31, 0, .ros, 0⟩]
  | .authFail => [⟨"COUNT", 31, 0, .ros, 0⟩]
  | .jrnlBase => [⟨"ADDR", 23, 0, .rwp, 0⟩]
  | .jrnlSize => [⟨"SIZE", 11, 0, .rwp, 0⟩]
  | .witCfg => [⟨"VALID", 31, 31, .rwp, 0⟩, ⟨"PARTNER", 17, 0, .rwp, 0⟩]
  | .witTimers => [⟨"CONFIRM", 23, 16, .rw, 10⟩, ⟨"MISS", 15, 8, .rw, 8⟩, ⟨"HB", 7, 0, .rw, 10⟩]
  | .witStatus => [⟨"DOUBT", 31, 16, .ro, 0⟩, ⟨"TAKEN", 3, 3, .ro, 0⟩, ⟨"STATE", 2, 0, .ro, 0⟩]
  | .witTakeover => [⟨"GO", 0, 0, .rwp, 0⟩]
  | .jrnlUsed => [⟨"RECORDS", 16, 0, .ro, 0⟩]
  | .acceptedCnt => [⟨"COUNT", 31, 0, .ros, 0⟩]
  | .refusedCnt => [⟨"COUNT", 31, 0, .ros, 0⟩]
  | .doubtEntered => [⟨"COUNT", 31, 0, .ros, 0⟩]
  | .recovered => [⟨"COUNT", 31, 0, .ros, 0⟩]
  | .recordBad => [⟨"COUNT", 31, 0, .ros, 0⟩]
  | .plcCtrl => [⟨"INTERVAL", 31, 16, .rwp, 100⟩, ⟨"PEER_EN", 2, 2, .rwp, 0⟩, ⟨"COMMIT_NOW", 1, 1, .rwp, 0⟩, ⟨"ENABLE", 0, 0, .rwp, 1⟩]
  | .plcStatus => [⟨"EPOCH", 31, 8, .ro, 0⟩, ⟨"SHADOW", 1, 0, .ro, 0⟩]
  | .plcExclude => [⟨"MASK", 31, 0, .rwp, 0⟩]
  | .plcSel => [⟨"PARTNER", 24, 24, .rw, 0⟩, ⟨"SESSION", 23, 0, .rw, 0⟩]
  | .plcEntry => [⟨"BITS", 31, 0, .ro, 0⟩]
  | .plcCore => [⟨"PLACEABLE", 7, 4, .ro, 0⟩, ⟨"STATE", 2, 0, .ro, 0⟩]
  | .tsCfg => [⟨"LEN64", 6, 0, .rwp, 9⟩]
  | .tsPart => [⟨"INT_COUNT", 11, 0, .rwp, 512⟩]
  | .tsReq0 => [⟨"ALG", 31, 24, .rw, 0⟩, ⟨"OP", 23, 16, .rw, 0⟩, ⟨"TAG", 15, 0, .rw, 0⟩]
  | .tsReq1 => [⟨"IDKEY", 31, 31, .rw, 0⟩, ⟨"SRC_B", 27, 16, .rw, 0⟩, ⟨"SRC_A", 11, 0, .rw, 0⟩]
  | .tsReq2 => [⟨"DST", 27, 16, .rw, 0⟩, ⟨"SRC_C", 11, 0, .rw, 0⟩]
  | .tsReq3 => [⟨"OLEN", 31, 16, .rw, 0⟩, ⟨"MLEN", 15, 0, .rw, 0⟩]
  | .tsPush => [⟨"PUSH", 0, 0, .wo, 0⟩]
  | .tsDone => [⟨"VALID", 31, 31, .ro, 0⟩, ⟨"STATUS", 23, 16, .ro, 0⟩, ⟨"TAG", 15, 0, .ro, 0⟩]
  | .tsDoneCyc => [⟨"CYCLES", 31, 0, .ro, 0⟩]
  | .tsDonePop => [⟨"POP", 0, 0, .wo, 0⟩]
  | .tsStatus => [⟨"QUEUED", 20, 16, .ro, 0⟩, ⟨"OP", 15, 8, .ro, 0⟩, ⟨"HASH_BUSY", 1, 1, .ro, 0⟩, ⟨"BUSY", 0, 0, .ro, 0⟩]
  | .tsAbort => [⟨"ALL", 16, 16, .rwp, 0⟩, ⟨"TAG", 15, 0, .rwp, 0⟩]
  | .tsCurve => [⟨"LOADED", 31, 31, .ro, 0⟩, ⟨"PBITS", 25, 16, .ro, 0⟩, ⟨"LASTCHECK", 7, 4, .ro, 0⟩, ⟨"COFACTOR", 3, 0, .ro, 0⟩]
  | .tsSlotSel => [⟨"SLOT", 11, 0, .rw, 0⟩]
  | .tsSlotStat => [⟨"BUSY", 2, 2, .ro, 0⟩, ⟨"SECRET", 1, 1, .ro, 0⟩, ⟨"VALID", 0, 0, .ro, 0⟩]
  | .tsSlotCtrl => [⟨"ZERO", 0, 0, .wo, 0⟩]
  | .tsMismatch => [⟨"COUNT", 31, 0, .ros, 0⟩]
  | .tsVerifyFail => [⟨"COUNT", 31, 0, .ros, 0⟩]
  | .tsCurveRej => [⟨"COUNT", 31, 0, .ros, 0⟩]
  | .tsSlotData => [⟨"DATA", 31, 0, .rw, 0⟩]
  | .cvCfg => [⟨"REFIN", 31, 31, .rwk, 0⟩, ⟨"REFOUT", 30, 30, .rwk, 0⟩, ⟨"ORDER", 29, 29, .rwk, 0⟩, ⟨"ALIVE", 28, 27, .rwk, 0⟩, ⟨"WIDTH", 6, 0, .rwk, 0⟩]
  | .pcvCfg => [⟨"REFIN", 31, 31, .rwk, 0⟩, ⟨"REFOUT", 30, 30, .rwk, 0⟩, ⟨"ORDER", 29, 29, .rwk, 0⟩, ⟨"ALIVE", 28, 27, .rwk, 0⟩, ⟨"WIDTH", 6, 0, .rwk, 0⟩]
  | .cvPolyLo => [⟨"VALUE", 31, 0, .rwk, 0⟩]
  | .pcvPolyLo => [⟨"VALUE", 31, 0, .rwk, 0⟩]
  | .cvPolyHi => [⟨"VALUE", 31, 0, .rwk, 0⟩]
  | .pcvPolyHi => [⟨"VALUE", 31, 0, .rwk, 0⟩]
  | .cvInitLo => [⟨"VALUE", 31, 0, .rwk, 0⟩]
  | .pcvInitLo => [⟨"VALUE", 31, 0, .rwk, 0⟩]
  | .cvInitHi => [⟨"VALUE", 31, 0, .rwk, 0⟩]
  | .pcvInitHi => [⟨"VALUE", 31, 0, .rwk, 0⟩]
  | .cvXoroutLo => [⟨"VALUE", 31, 0, .rwk, 0⟩]
  | .pcvXoroutLo => [⟨"VALUE", 31, 0, .rwk, 0⟩]
  | .cvXoroutHi => [⟨"VALUE", 31, 0, .rwk, 0⟩]
  | .pcvXoroutHi => [⟨"VALUE", 31, 0, .rwk, 0⟩]
  | .cvRunLo => [⟨"RUN", 31, 0, .rw, 0⟩]
  | .pcvRunLo => [⟨"RUN", 31, 0, .rw, 0⟩]
  | .cvRunHi => [⟨"RUN", 31, 0, .rw, 0⟩]
  | .pcvRunHi => [⟨"RUN", 31, 0, .rw, 0⟩]
  | .cvCtrl => [⟨"FEEDLEN", 5, 4, .rw, 0⟩, ⟨"FINISH", 2, 2, .wo, 0⟩, ⟨"START", 1, 1, .wo, 0⟩, ⟨"APPLY", 0, 0, .wo, 0⟩]
  | .pcvCtrl => [⟨"FEEDLEN", 5, 4, .rw, 0⟩, ⟨"FINISH", 2, 2, .wo, 0⟩, ⟨"START", 1, 1, .wo, 0⟩, ⟨"APPLY", 0, 0, .wo, 0⟩]
  | .cvStat => [⟨"OWNER", 7, 4, .ro, 0⟩, ⟨"BUSY", 0, 0, .ro, 0⟩]
  | .pcvStat => [⟨"OWNER", 7, 4, .ro, 0⟩, ⟨"BUSY", 0, 0, .ro, 0⟩]
  | .cvCheckLo => [⟨"VALUE", 31, 0, .ro, 0⟩]
  | .pcvCheckLo => [⟨"VALUE", 31, 0, .ro, 0⟩]
  | .cvCheckHi => [⟨"VALUE", 31, 0, .ro, 0⟩]
  | .pcvCheckHi => [⟨"VALUE", 31, 0, .ro, 0⟩]
  | .cvMismatch => [⟨"COUNT", 31, 0, .ros, 0⟩]
  | .pcvMismatch => [⟨"COUNT", 31, 0, .ros, 0⟩]
  | .cvFeed => [⟨"BYTES", 31, 0, .wo, 0⟩]
  | .pcvFeed => [⟨"BYTES", 31, 0, .wo, 0⟩]
  | .aliveCfg => [⟨"AGE_LOG2", 5, 0, .rwk, 27⟩]
  | .sbStatus => [⟨"ACTIVE", 31, 31, .ro, 0⟩, ⟨"CAUSE_ACTIVE", 30, 30, .ro, 0⟩, ⟨"SEALED", 29, 29, .ro, 0⟩, ⟨"CUSTODY_LOST", 28, 28, .ro, 0⟩, ⟨"DIES_DOWN", 11, 8, .ro, 0⟩, ⟨"CAUSE", 5, 0, .ro, 0⟩]
  | .sbCmd => [⟨"ENTER", 0, 0, .rwp, 0⟩]
  | .decAct => [⟨"ACTION", 31, 28, .rw, 0⟩, ⟨"SESSION", 23, 0, .rw, 0⟩]
  | .decJob => [⟨"JOB", 31, 0, .rw, 0⟩]
  | .decTgt => [⟨"STATUS", 23, 16, .rw, 0⟩, ⟨"UNIT", 15, 8, .rw, 0⟩, ⟨"CTX", 1, 0, .rw, 0⟩]
  | .decAddrLo => [⟨"ADDR", 31, 5, .rw, 0⟩]
  | .decAddrHi => [⟨"ADDR", 7, 0, .rw, 0⟩]
  | .decGo => [⟨"GRANT", 1, 1, .rwp, 0⟩, ⟨"GO", 0, 0, .rwp, 0⟩]
  | .decStatus => [⟨"COUNT", 31, 16, .ro, 0⟩, ⟨"DENY", 15, 8, .ro, 0⟩, ⟨"STATE", 2, 0, .ro, 0⟩]
  | .evRingBase => [⟨"ADDR", 23, 0, .rwp, 0⟩]
  | .evCfg => [⟨"LOG_BURST", 31, 24, .rw, 16⟩, ⟨"LOG_WINDOW", 23, 16, .rw, 10⟩, ⟨"TRACE_HIGH", 11, 8, .rw, 8⟩]
  | .evDest => [⟨"SUP_ACK_EN", 8, 8, .rw, 0⟩, ⟨"SUP_MASK", 7, 4, .rw, 3⟩, ⟨"MGMT_MASK", 3, 0, .rw, 3⟩]
  | .evTraceMask => [⟨"SRC", 14, 1, .rw, 0⟩]
  | .evHeldWr => [⟨"INDEX", 24, 0, .ro, 0⟩]
  | .evHeldAck => [⟨"INDEX", 24, 0, .rw, 0⟩]
  | .evLogWr => [⟨"WRAPPED", 31, 31, .ro, 0⟩, ⟨"INDEX", 24, 0, .ro, 2097152⟩]
  | .evSup => [⟨"VALID", 31, 31, .rw, 0⟩, ⟨"DEVICE", 17, 0, .rw, 0⟩]
  | .evMgmtStat => [⟨"VALID", 31, 31, .ro, 0⟩, ⟨"COUNT", 8, 0, .ro, 0⟩]
  | .evMgmtPop => [⟨"POP", 0, 0, .wo, 0⟩]
  | .evMgmtData => [⟨"BITS", 31, 0, .ro, 0⟩]
  | .traceDrop => [⟨"COUNT", 31, 0, .ros, 0⟩]
  | .logSuppressed => [⟨"COUNT", 31, 0, .ros, 0⟩]
  | .errorCoalesced => [⟨"COUNT", 31, 0, .ros, 0⟩]
  | .alarmCoalesced => [⟨"COUNT", 31, 0, .ros, 0⟩]
  | .mgmtDrop => [⟨"COUNT", 31, 0, .ros, 0⟩]
  | .supDrop => [⟨"COUNT", 31, 0, .ros, 0⟩]
  | .routerParity => [⟨"COUNT", 31, 0, .ros, 0⟩]
  | .logDrop => [⟨"COUNT", 31, 0, .ros, 0⟩]
  | .clkPlan => [⟨"STONE_DIV", 3, 2, .rwp, 0⟩, ⟨"CORE_DIV", 1, 0, .rwp, 0⟩]
  | .clkSpread => [⟨"SPREAD", 2, 0, .rwp, 0⟩]
  | .clkStatus => [⟨"ALIGN", 31, 16, .ro, 0⟩, ⟨"TCLK_LOCK", 2, 2, .ro, 0⟩, ⟨"BYPASS", 1, 1, .ro, 0⟩, ⟨"LOCK", 0, 0, .ro, 0⟩]
  | .clkStopEn => [⟨"MASK", 31, 0, .rw, 0⟩]
  | .clkRun => [⟨"MASK", 31, 0, .ro, 4294967295⟩]
  | .clkFail => [⟨"MASK", 31, 0, .w1c, 0⟩]
  | .railLimit => [⟨"VMAX", 25, 16, .rwp, 820⟩, ⟨"VMIN", 9, 0, .rwp, 620⟩]
  | .railImax => [⟨"IMAX", 9, 0, .rw, 800⟩]
  | .railStatus => [⟨"ENABLED", 31, 31, .ro, 1⟩, ⟨"FAULT", 30, 30, .ro, 0⟩, ⟨"ABRUPT", 29, 29, .ro, 0⟩, ⟨"AVS_FAIL", 28, 28, .ro, 0⟩, ⟨"CURRENT", 19, 10, .ro, 0⟩, ⟨"VOLTAGE", 9, 0, .ro, 750⟩]
  | .avsCfg => [⟨"MARGIN_HI", 23, 16, .rwp, 40⟩, ⟨"MARGIN_LO", 15, 8, .rwp, 15⟩, ⟨"LOOP_EN", 0, 0, .rwp, 0⟩]
  | .jtCfg => [⟨"THROT", 7, 0, .rw, 100⟩]
  | .jtStatus => [⟨"REASON", 15, 10, .ro, 0⟩, ⟨"LOST", 9, 9, .ro, 0⟩, ⟨"THROTTLED", 8, 8, .ro, 0⟩, ⟨"TEMP", 7, 0, .ro, 0⟩]
  | .rstCause => [⟨"SB_LATCHED", 8, 8, .ro, 0⟩, ⟨"THERMTRIP", 4, 4, .ro, 0⟩, ⟨"SB_EXIT", 3, 3, .ro, 0⟩, ⟨"COMMAND", 2, 2, .ro, 0⟩, ⟨"PIN", 1, 1, .ro, 0⟩, ⟨"POWER_ON", 0, 0, .ro, 0⟩]
  | .rstCmd => [⟨"WARM", 0, 0, .rwp, 0⟩]
  | .hmStatus => [⟨"SEALED", 31, 31, .ro, 1⟩, ⟨"INTACT", 30, 30, .ro, 0⟩, ⟨"CORRECTED", 15, 0, .ro, 0⟩]
  | .hmPolicy => [⟨"MAX_LEVEL", 10, 8, .ro, 4⟩, ⟨"DEBUG", 5, 4, .ro, 0⟩, ⟨"PEWTER", 2, 2, .ro, 1⟩, ⟨"PEEN", 1, 1, .ro, 1⟩, ⟨"SERVICE", 0, 0, .ro, 1⟩]
  | .hmKguard => [⟨"KINDS", 20, 0, .ro, 0⟩]
  | .hmPwrite => [⟨"KINDS", 20, 0, .ro, 0⟩]
  | .hmPart => [⟨"BYTES", 31, 0, .ro, 0⟩]
  | .hmRoot => [⟨"BYTES", 31, 0, .ro, 0⟩]
  | .hmIdpub => [⟨"BYTES", 31, 0, .ro, 0⟩]
  | .imgStatus => [⟨"REJECT_B", 11, 8, .ro, 0⟩, ⟨"REJECT_A", 7, 4, .ro, 0⟩, ⟨"FORCED", 1, 1, .ro, 0⟩, ⟨"SLOT", 0, 0, .ro, 0⟩]
  | .imgVer => [⟨"VERSION", 31, 0, .ro, 0⟩]
  | .progBase => [⟨"ADDR", 23, 0, .rwp, 0⟩]
  | .assayArea => [⟨"ADDR", 23, 0, .rwp, 0⟩]
  | .pairWait => [⟨"WAIT", 15, 0, .rw, 100⟩]
  | .assayReq => [⟨"WHOLE", 7, 7, .rwp, 0⟩, ⟨"CORE", 6, 0, .rwp, 0⟩]
  | .assayStatus => [⟨"QUEUED", 17, 14, .ro, 0⟩, ⟨"CORE", 13, 7, .ro, 0⟩, ⟨"TEST", 3, 0, .ro, 0⟩]
  | .assayFail => [⟨"MASK", 31, 0, .ro, 0⟩]
  | .bootStatus => [⟨"STATE", 3, 0, .ro, 0⟩]
  | .bootTime => [⟨"US", 31, 0, .ro, 0⟩]
  | .snapCmd => [⟨"SNAP", 0, 0, .wo, 0⟩]
  | .snapStatus => [⟨"SEQ", 31, 16, .ro, 0⟩, ⟨"STALE", 7, 4, .ro, 0⟩, ⟨"PENDING", 1, 1, .ro, 0⟩, ⟨"VALID", 0, 0, .ro, 0⟩]
  | .snapAlign => [⟨"ALIGN", 15, 0, .ro, 0⟩]
  | .snapTimeLo => [⟨"TIME", 31, 0, .ros, 0⟩]
  | .snapTimeHi => [⟨"TIME", 31, 0, .ros, 0⟩]
  | .idPart => [⟨"PART", 31, 16, .ro, 3478⟩, ⟨"REVISION", 15, 8, .ro, 0⟩, ⟨"FAMILY", 7, 0, .ro, 90⟩]
  | .idDevice => [⟨"DEVICE", 17, 0, .ro, 0⟩]
  | .idCaps => [⟨"DIES", 11, 8, .ro, 15⟩, ⟨"CORES", 7, 0, .ro, 96⟩]
  | .mgmtCfg => [⟨"I3C_DIS", 8, 8, .rwp, 0⟩, ⟨"IBI_MASK", 3, 0, .rwp, 1⟩]
  | .mgmtStatus => [⟨"STATIC_ADDR", 22, 16, .ro, 88⟩, ⟨"DYN_ADDR", 14, 8, .ro, 0⟩, ⟨"MODE", 0, 0, .ro, 0⟩]
  | .scratch => [⟨"VALUE", 31, 0, .rw, 0⟩]
  | .regLastLo => [⟨"ADDR", 31, 0, .ro, 0⟩]
  | .regLastHi => [⟨"VALID", 31, 31, .w1c, 0⟩, ⟨"REASON", 23, 20, .ro, 0⟩, ⟨"STATUS", 19, 12, .ro, 0⟩, ⟨"REQ", 11, 8, .ro, 0⟩, ⟨"ADDR_HI", 7, 0, .ro, 0⟩]
  | .regRefused => [⟨"COUNT", 31, 0, .ros, 0⟩]
  | .regDropped => [⟨"COUNT", 31, 0, .ros, 0⟩]
  | .regPecErr => [⟨"COUNT", 31, 0, .ros, 0⟩]
  | .pwCtrlLo => [⟨"EXIT", 7, 4, .rw, 0⟩, ⟨"ENTER", 3, 0, .rw, 0⟩]
  | .pwCtrlHi => []
  | .pwStatus => [⟨"LONE_HI", 15, 15, .ro, 0⟩, ⟨"LONE_LO", 14, 14, .ro, 0⟩, ⟨"DRAIN_FAIL", 13, 13, .ro, 0⟩, ⟨"GATE_FAULT", 12, 12, .ro, 0⟩, ⟨"ENTERED", 11, 8, .ro, 0⟩, ⟨"LEFT", 7, 4, .ro, 0⟩]
  | .pwState => [⟨"PEWTER", 11, 8, .ro, 0⟩, ⟨"BUSY", 7, 4, .ro, 0⟩, ⟨"ENTERING", 3, 0, .ro, 0⟩]
  | .pwGatesLo => [⟨"COUNT", 15, 0, .ros, 0⟩]
  | .pwGatesHi => [⟨"COUNT", 15, 0, .ros, 0⟩]
  | .pwJobLo => [⟨"JOB", 15, 0, .ro, 0⟩]
  | .pwJobHi => [⟨"JOB", 15, 0, .ro, 0⟩]
  | .peenCtrl => [⟨"ENABLE", 0, 0, .rwp, 0⟩]
  | .peenStatus => [⟨"PERMITTED", 9, 9, .ro, 0⟩, ⟨"ENABLED", 8, 8, .ro, 0⟩, ⟨"ARMED", 7, 0, .ro, 0⟩]
  | .pnCfg => [⟨"ARMED", 31, 31, .rwp, 0⟩, ⟨"MODE", 30, 30, .rwp, 0⟩, ⟨"KIND", 23, 20, .rwp, 0⟩, ⟨"TARGET", 19, 0, .rwp, 0⟩]
  | .pnAmount => [⟨"EVERY_LOG2", 31, 28, .rw, 0⟩, ⟨"AMOUNT", 11, 0, .rw, 0⟩]
  | .pnSeed => [⟨"SEED", 31, 0, .rw, 0⟩]
  | .pnApplied => [⟨"COUNT", 31, 0, .ros, 0⟩]
  | .ioSlew => [⟨"OD", 11, 10, .rw, 0⟩, ⟨"TDO", 9, 8, .rw, 1⟩, ⟨"AVS", 7, 6, .rw, 1⟩, ⟨"MGMT", 5, 4, .rw, 1⟩, ⟨"FLASH", 3, 2, .rw, 2⟩, ⟨"FLASH_CK", 1, 0, .rw, 2⟩]

/-! Every register name, in runs of about forty. -/

def RegName.run0 : List RegName :=
  [.alloySrcLo, .alloySrcHi, .alloyBuild, .alloyStatus, .kchestBase, .kchestSize, .annealBase, .annealSect, .anvilState, .anvilShape, .anvilLatch, .clearCfg, .clearStatus, .lossScale, .lsCount, .histCfg, .histBin, .layer, .chainW0, .chainW1, .chainW2, .chainW3, .constfLo, .constfHi, .polyt, .spBind, .spFault, .spInject, .drawerTag, .winCfg, .winBound, .winWdev, .winWcore0, .winWcore1, .winWcore2, .winStat, .coreMode, .coreWdog, .ctxCtrl, .ctxState]

def RegName.run1 : List RegName :=
  [.ctxPcLo, .ctxPcHi, .ctxSave, .counter, .dieBarCfg, .devBarCfg, .fbarCfg, .dieBarState, .devBarState, .fbarState, .dieCtrCfg, .devCtrCfg, .dieCtrThresh, .devCtrThresh, .dieCtrNotify, .devCtrNotify, .dieCtrVal, .devCtrVal, .desc, .headerWord, .hbmMap, .hbmCfg, .cacheCfg, .cacheCtrl, .cacheStat, .hitLo, .hitHi, .missLo, .missHi, .eccCorr, .eccUncorr, .hbmLinkRetry, .thermCfg, .thermStatus, .recalCfg, .recalStatus, .hbmFault, .hbmFaultAddrLo, .hbmFaultAddrHi, .mtCtrl, .mtRow]

def RegName.run2 : List RegName :=
  [.mtLane, .mtStatus, .portCtrl, .portStatus, .portLinkRetry, .portCrcErr, .portDownCount, .fabId, .fabCfg, .fabGrant, .timeLo, .timeHi, .timeStatus, .aliveRepeat, .aliveGap, .e2eFail, .fbarHome, .fbarListLo, .fbarListHi, .fbarDevs, .svcCtrl, .svcStatus, .svcMacLo, .svcGwMacLo, .svcMacHi, .svcGwMacHi, .svcVlan, .svcIpv4, .svcIpv6, .svcUdp, .svcFrag, .svcTimers, .svcIdle, .svcSess, .svcSessCnt, .rxFrames, .txFrames, .svcCrcErr, .malformed, .dropped]

def RegName.run3 : List RegName :=
  [.repeatCnt, .authFail, .jrnlBase, .jrnlSize, .witCfg, .witTimers, .witStatus, .witTakeover, .jrnlUsed, .acceptedCnt, .refusedCnt, .doubtEntered, .recovered, .recordBad, .plcCtrl, .plcStatus, .plcExclude, .plcSel, .plcEntry, .plcCore, .tsCfg, .tsPart, .tsReq0, .tsReq1, .tsReq2, .tsReq3, .tsPush, .tsDone, .tsDoneCyc, .tsDonePop, .tsStatus, .tsAbort, .tsCurve, .tsSlotSel, .tsSlotStat, .tsSlotCtrl, .tsMismatch, .tsVerifyFail, .tsCurveRej, .tsSlotData]

def RegName.run4 : List RegName :=
  [.cvCfg, .pcvCfg, .cvPolyLo, .pcvPolyLo, .cvPolyHi, .pcvPolyHi, .cvInitLo, .pcvInitLo, .cvInitHi, .pcvInitHi, .cvXoroutLo, .pcvXoroutLo, .cvXoroutHi, .pcvXoroutHi, .cvRunLo, .pcvRunLo, .cvRunHi, .pcvRunHi, .cvCtrl, .pcvCtrl, .cvStat, .pcvStat, .cvCheckLo, .pcvCheckLo, .cvCheckHi, .pcvCheckHi, .cvMismatch, .pcvMismatch, .cvFeed, .pcvFeed, .aliveCfg, .sbStatus, .sbCmd, .decAct, .decJob, .decTgt, .decAddrLo, .decAddrHi, .decGo, .decStatus]

def RegName.run5 : List RegName :=
  [.evRingBase, .evCfg, .evDest, .evTraceMask, .evHeldWr, .evHeldAck, .evLogWr, .evSup, .evMgmtStat, .evMgmtPop, .evMgmtData, .traceDrop, .logSuppressed, .errorCoalesced, .alarmCoalesced, .mgmtDrop, .supDrop, .routerParity, .logDrop, .clkPlan, .clkSpread, .clkStatus, .clkStopEn, .clkRun, .clkFail, .railLimit, .railImax, .railStatus, .avsCfg, .jtCfg, .jtStatus, .rstCause, .rstCmd, .hmStatus, .hmPolicy, .hmKguard, .hmPwrite, .hmPart, .hmRoot, .hmIdpub]

def RegName.run6 : List RegName :=
  [.imgStatus, .imgVer, .progBase, .assayArea, .pairWait, .assayReq, .assayStatus, .assayFail, .bootStatus, .bootTime, .snapCmd, .snapStatus, .snapAlign, .snapTimeLo, .snapTimeHi, .idPart, .idDevice, .idCaps, .mgmtCfg, .mgmtStatus, .scratch, .regLastLo, .regLastHi, .regRefused, .regDropped, .regPecErr, .pwCtrlLo, .pwCtrlHi, .pwStatus, .pwState, .pwGatesLo, .pwGatesHi, .pwJobLo, .pwJobHi, .peenCtrl, .peenStatus, .pnCfg, .pnAmount, .pnSeed, .pnApplied]

def RegName.run7 : List RegName :=
  [.ioSlew]

/-- Every register name. -/
def RegName.all : List RegName := RegName.run0 ++ RegName.run1 ++ RegName.run2 ++ RegName.run3 ++ RegName.run4 ++ RegName.run5 ++ RegName.run6 ++ RegName.run7

end Sys2Proof.Machine
end

