-- ==== Sys2Proof/Machine/Tab.lean ====
section
/-!
DEFINITION. Sparse tables: a list of (key, value) pairs in one canonical form, keys strictly rising
and no entry equal to the value an unlisted key reads as. Memory, the register file and every
numbered family of objects are such tables.
-/
namespace Sys2Proof.Machine

/-- A sparse table. -/
abbrev Tab (α : Type) := List (Nat × α)

/-- The entry of a key, if listed. -/
def Tab.find? {α : Type} : Tab α → Nat → Option α
  | [], _ => none
  | (k, v) :: t, j => if k = j then some v else Tab.find? t j

/-- What a key reads as; `d` is what an unlisted key reads as. -/
def Tab.get {α : Type} (d : α) (t : Tab α) (j : Nat) : α := (Tab.find? t j).getD d

/-- The table without a key. -/
def Tab.erase {α : Type} : Tab α → Nat → Tab α
  | [], _ => []
  | (k, v) :: t, j => if k = j then Tab.erase t j else (k, v) :: Tab.erase t j

/-- Insert a pair before the first larger key. -/
def Tab.insert {α : Type} : Tab α → Nat → α → Tab α
  | [], j, x => [(j, x)]
  | (k, v) :: t, j, x => if j < k then (j, x) :: (k, v) :: t else (k, v) :: Tab.insert t j x

/-- Write a key: an entry equal to what an unlisted key reads as is not listed. -/
def Tab.set {α : Type} [DecidableEq α] (d : α) (t : Tab α) (j : Nat) (x : α) : Tab α :=
  if x = d then Tab.erase t j else Tab.insert (Tab.erase t j) j x

/-- Change the value of a key. -/
def Tab.mod {α : Type} [DecidableEq α] (d : α) (t : Tab α) (j : Nat) (f : α → α) : Tab α :=
  Tab.set d t j (f (Tab.get d t j))

/-- The keys of a table are above a bound and strictly rising. -/
def Tab.rising {α : Type} : Tab α → Bool
  | [] => true
  | [_] => true
  | (k, _) :: (l, w) :: t => decide (k < l) && Tab.rising ((l, w) :: t)

/-- The canonical form, with `d j` what an unlisted key `j` reads as. -/
def Tab.wf {α : Type} [DecidableEq α] (d : Nat → α) (t : Tab α) : Bool :=
  Tab.rising t && t.all (fun e => decide (e.2 ≠ d e.1))

/-- The table restricted to keys that satisfy `p`. -/
def Tab.keep {α : Type} (p : Nat → Bool) (t : Tab α) : Tab α := t.filter (fun e => p e.1)

end Sys2Proof.Machine
end

