-- ==== Sys2Proof/Machine/RegAddr.lean ====
section
/-!
DEFINITION. Where a register lies: block bases (spec 22 R476), register addresses, reset words, and
the reading of an address back into a register (22 R477).
-/
namespace Sys2Proof.Machine

/-- One register: its name, the block instance, the number within its family. -/
structure RegKey where
  reg : RegName
  inst : Nat := 0
  idx : Nat := 0
  deriving DecidableEq, Repr

/-- Offset of a block's instance 0 in control space (22 R476). -/
def Block.base : Block → Nat
  | .steward => 0x0000000
  | .hallmark => 0x0010000
  | .clk => 0x0020000
  | .power => 0x0030000
  | .reset => 0x0040000
  | .loader => 0x0050000
  | .router => 0x0060000
  | .plc => 0x0070000
  | .jrnl => 0x0080000
  | .svc => 0x0090000
  | .ts => 0x00B0000
  | .cv => 0x00C0000
  | .devsync => 0x00D0000
  | .snap => 0x00E0000
  | .peen => 0x00F0000
  | .die => 0x0100000
  | .hbm => 0x0200000
  | .port => 0x0300000
  | .core => 0x0400000
  | .pewter => 0x0A00000

/-- How many instances a block has (22 R476). -/
def Block.instances : Block → Nat
  | .svc => 2
  | .die => 4
  | .hbm => 12
  | .port => 16
  | .core => 96
  | _ => 1

/-- Every block. -/
def Block.all : List Block :=
  [.steward, .hallmark, .clk, .power, .reset, .loader, .router, .plc, .jrnl, .svc, .ts, .cv, .devsync,
    .snap, .peen, .die, .hbm, .port, .core, .pewter]

/-- Block kind g of R450: the service ports are kinds 9 and 10 (22 R476). -/
def Block.kind (b : Block) (inst : Nat) : Nat :=
  match b with
  | .steward => 0
  | .hallmark => 1
  | .clk => 2
  | .power => 3
  | .reset => 4
  | .loader => 5
  | .router => 6
  | .plc => 7
  | .jrnl => 8
  | .svc => 9 + inst
  | .ts => 11
  | .cv => 12
  | .devsync => 13
  | .snap => 14
  | .peen => 15
  | .die => 16
  | .hbm => 17
  | .port => 18
  | .core => 19
  | .pewter => 20

/-- Blocks that take posted writes (22 R476). -/
def Block.posted : Block → Bool
  | .power | .svc | .ts | .hbm | .port => true
  | _ => false

/-- Clock domain of a block instance (22 R476). -/
def Block.domain (b : Block) (i : Nat) : Nat :=
  match b with
  | .steward => 44
  | .hallmark => 55
  | .clk => 44
  | .power => 45
  | .reset => 57
  | .loader => 44
  | .router => 58
  | .plc => 59
  | .jrnl => 49
  | .svc => 47 + i
  | .ts => 46
  | .cv => 49
  | .devsync => 49
  | .snap => 44
  | .peen => 44
  | .die => 11 * i + 6
  | .hbm => 11 * (i / 3) + 7 + i % 3
  | .port => 11 * (i / 4) + 10
  | .core => 11 * (i / 24) + (i % 24) / 4
  | .pewter => 44

/-- The die whose power a block instance depends on, if any (22 R484). -/
def Block.dieOf (b : Block) (i : Nat) : Option Nat :=
  match b with
  | .die => some i
  | .hbm => some (i / 3)
  | .port => some (i / 4)
  | .core => some (i / 24)
  | _ => none

/-- Start of control space (22 R475). -/
def controlBase : Nat := 0xFF00000000

/-- Local address of a register (22 R475, R476). -/
def RegKey.addr (k : RegKey) : Nat :=
  controlBase + k.reg.block.base + k.inst * 0x10000 + k.reg.offset + k.reg.stride * k.idx

/-- The word made of fields at their reset values. -/
def resetWord (fs : List RField) : W32 :=
  BitVec.ofNat 32 (fs.foldl (fun a f => natPut a f.hi f.lo f.rst) 0)

/-- Owner of hub check-value unit `u` in the reference image (18 R393): 0 free, 1 service, 2 acceptance, 3 journal,
4 headers. -/
def cvOwner (u : Nat) : Nat :=
  if u < 4 then 1 else if u < 12 then 2 else if u < 16 then 3 else if u < 20 then 4 else 0

/-- Parameters of the profile the reference image gives hub unit `u`, or a port channel (18 R391, R393): CV_CFG, POLY,
INIT, XOROUT. A free unit has none: zeros (assumption 13). -/
def cvImage (port : Bool) (u : Nat) : Nat × Nat × Nat × Nat :=
  let c32 := fun (alive : Nat) => (0xC0000020 + alive * 2 ^ 27, 0x1EDC6F41, 0xFFFFFFFF, 0xFFFFFFFF)
  let c64 := fun (alive : Nat) => (0xC0000040 + alive * 2 ^ 27, 0x42F0E1EBA9EA3693, 0xFFFFFFFFFFFFFFFF, 0xFFFFFFFFFFFFFFFF)
  if port then (if u = 0 then c32 0 else c64 2)
  else match cvOwner u with
    | 1 => c32 1
    | 2 => c64 0
    | 3 => c64 0
    | 4 => c32 0
    | _ => (0, 0, 0, 0)

/-- The low or the high word of a 64-bit value. -/
def loWord (v : Nat) : W32 := BitVec.ofNat 32 v
def hiWord (v : Nat) : W32 := BitVec.ofNat 32 (v / 2 ^ 32)

/-- The reset word of a register. The rail of the hub die (r = 4) and the second mask of running
domains differ from the rest of their families (20 R447); the check-value units stand as the reference image loads them. -/
def RegKey.reset (k : RegKey) : W32 :=
  match k.reg, k.idx with
  | .railLimit, 4 => 0x032002BC
  | .railImax, 4 => 150
  | .clkRun, 1 => 0x0FFFFFFF
  | .cvCfg, u => loWord (cvImage false u).1
  | .cvPolyLo, u => loWord (cvImage false u).2.1
  | .cvPolyHi, u => hiWord (cvImage false u).2.1
  | .cvInitLo, u => loWord (cvImage false u).2.2.1
  | .cvInitHi, u => hiWord (cvImage false u).2.2.1
  | .cvXoroutLo, u => loWord (cvImage false u).2.2.2
  | .cvXoroutHi, u => hiWord (cvImage false u).2.2.2
  | .cvRunLo, u => loWord (cvImage false u).2.2.1
  | .cvRunHi, u => hiWord (cvImage false u).2.2.1
  | .cvStat, u => BitVec.ofNat 32 (16 * cvOwner u)
  | .pcvCfg, u => loWord (cvImage true u).1
  | .pcvPolyLo, u => loWord (cvImage true u).2.1
  | .pcvPolyHi, u => hiWord (cvImage true u).2.1
  | .pcvInitLo, u => loWord (cvImage true u).2.2.1
  | .pcvInitHi, u => hiWord (cvImage true u).2.2.1
  | .pcvXoroutLo, u => loWord (cvImage true u).2.2.2
  | .pcvXoroutHi, u => hiWord (cvImage true u).2.2.2
  | .pcvRunLo, u => loWord (cvImage true u).2.2.1
  | .pcvRunHi, u => hiWord (cvImage true u).2.2.1
  | .pcvStat, _ => 0x50
  | r, _ => resetWord r.fields

/-- The block and instance of a control-space offset; none where no block is assigned (22 R477). -/
def blockOf (off : Nat) : Option (Block × Nat) :=
  Block.all.findSome? (fun b =>
    if b.base ≤ off ∧ off < b.base + b.instances * 0x10000 then some (b, (off - b.base) / 0x10000)
    else none)

/-- The number within its family of the register at an offset of its block, if it is one. -/
def RegName.idxAt (r : RegName) (off : Nat) : Option Nat :=
  if off < r.offset then none
  else if r.count ≤ 1 then (if off = r.offset then some 0 else none)
  else
    let d := off - r.offset
    if d % r.stride = 0 ∧ d / r.stride < r.count then
      (if r = .desc ∧ 10 ≤ d / r.stride % 16 then none else some (d / r.stride))
    else none

/-- Registers that only one instance of their block holds: the device-wide fabric registers lie in the
block of port 0 (14 R317), the session range in service port 0 (15 R344). -/
def RegName.inst0Only (r : RegName) : Bool :=
  match r with
  | .fabId | .fabCfg | .fabGrant | .timeLo | .timeHi | .timeStatus | .aliveRepeat | .aliveGap | .e2eFail
  | .fbarCfg | .fbarState | .fbarHome | .fbarListLo | .fbarListHi | .fbarDevs | .svcSess | .svcSessCnt => true
  | _ => false

/-- The register at an offset of a block; none where the offset is unassigned (00 R12). -/
def regAt (b : Block) (inst off : Nat) : Option RegKey :=
  RegName.all.findSome? (fun r =>
    if r.block = b ∧ (inst = 0 ∨ r.inst0Only = false) then (r.idxAt off).map (fun i => ⟨r, inst, i⟩) else none)

end Sys2Proof.Machine
end

