-- ==== Sys2Proof/Machine/State.lean ====
section
/-!
DEFINITION. The state of the block, as plain data: the queue of commands that wait, memory, the
register file, the cores, the synchronisation objects, the hub units. Reset values are the spec's;
what it leaves open is named in the assumption log.
-/
namespace Sys2Proof.Machine

/-- Why the machine stops. Raised by no meaning of this model: the spec reports every error as a status
or an event. Safe. -/
inductive Fault where
  /-- A command names a part the device does not have (a core above 95, a port above 15): raised by the
  commands that take a part number. Safe: no such part exists (01 R19). -/
  | noSuchPart
  deriving DecidableEq, Repr

/-- Why the machine refuses a command. -/
inductive Refusal where
  /-- No meaning yet. Safe: the machine stops. -/
  | notModelled (mnemonic : String)
  deriving DecidableEq, Repr

/-- The four words of a command (10, the command format). -/
structure Cmd where
  w0 : W64 := 0
  w1 : W64 := 0
  w2 : W64 := 0
  w3 : W64 := 0
  deriving DecidableEq, Repr

/-- Where a command stands in its life (10 R207). -/
inductive Stage where
  | queued     -- dispatched, not yet at the head of its queue
  | arrived    -- decode checks passed; waiting on its waits
  | issued     -- waits held, claims taken, issue checks passed
  | started    -- data moving
  | committed  -- commit point passed, completion not yet reported
  deriving DecidableEq, Repr

/-- What a command copies at issue and keeps until it completes (03 R63, 08 R164, 07 R150 to R156). -/
structure Latch where
  bank : Bank := {}
  prof : Option Profile := none
  chain : List W32 := []          -- the four words of the chain entry
  consts : List Nat := []         -- constants, one per limb
  poly : List W32 := []           -- polynomial table entry
  creg : W64 := 0
  pcreg : W64 := 0
  mlo : W64 := 0
  mhi : W64 := 0
  clearCfg : W32 := 0
  layer : W32 := 0
  loss : W32 := 0
  entries : List Nat := []        -- KSHOIST entries read at issue
  ovf : Bool := false             -- OVF_STICKY sampled by LSDECIDE
  outs : List (Nat × Nat × Header) := []   -- result headers: core, slot, header
  tarnish : List Nat := []        -- per output of a die macro, the status decided for it, or 0
  dirs : List Nat := []           -- key directory latched for each input of a die macro; 0 none (04 R87)
  group : Option Nat := none      -- key-stream group it joined (04 R92)
  ins : List Header := []         -- input headers of a die macro
  profs : List (Option Profile) := []   -- profile of each input of a die macro
  banks : List Bank := []         -- table bank of each input of a die macro (03 R63, 05 R115)
  slots : List (Nat × Nat) := []  -- table slots whose active bank it uses, with the GEN of each at issue (03 R63, R64)
  deriving DecidableEq, Repr

/-- Where a BARRIER command stands (12 R262). -/
inductive BarWait where
  | no                    -- not at a barrier
  | held                  -- held before arrival
  | waiting (early : Bool)   -- arrived; `early`: for the next phase
  | released (st : Nat)   -- released with a status
  deriving DecidableEq, Repr

/-- A command in a queue of a core (10 R207, R227). -/
structure QCmd where
  id : Nat                -- dispatch order on the core
  ctx : Nat
  eng : Nat
  addr : Nat
  cmd : Cmd
  descs : List (Nat × BitVec 320) := []   -- descriptor copies made at dispatch (12 R251)
  skipped : Bool := false
  stage : Stage := .queued
  arr : Nat := 0          -- arrival order on the core
  srcs : List Nat := []   -- source drawers, decided at issue
  dsts : List Nat := []   -- destination drawers; claimed from the start on
  held : List Nat := []   -- in-place and keep-mode drawers
  cons : List Nat := []   -- source drawers consumed at the commit
  peer : Option (Nat × List Nat) := none   -- QREAD: peer core and its drawers
  macroDr : List (Nat × Nat) := []         -- intermediate drawers of a die macro: core, drawer
  inDr : List (Nat × Nat) := []            -- drawers a die macro reads: those of its inputs that passed the issue checks
  inCut : Nat := 0        -- how many of them are input 0's
  mids : List (Nat × Nat × Nat) := []      -- intermediate drawers by output: output, core, drawer (05 R117, R118)
  outDr : List (List (Nat × Nat)) := []    -- destination drawers of a die macro, per output; empty where it runs in place
  lat : Latch := {}
  bar : BarWait := .no
  hazard : List Nat := []  -- anvil storage it reads or writes: tile t is t, accumulator a is 16 + a
  remote : Nat := 0       -- outstanding remote operations
  tagOk : Bool := false   -- a key record's header has been compared (04 R97)
  deriving DecidableEq, Repr

/-- Context states (10 R231). -/
inductive CtxSt where
  | idle | running | halted | preempting | preempted | aborting
  deriving DecidableEq, Repr

/-- A held ABORT or RESET (10 R226, R228). -/
inductive HeldAct where
  | none | abort | reset
  deriving DecidableEq, Repr

/-- Drawer tags (09 R188). -/
inductive Tag where
  | empty | full | torn | orphan
  deriving DecidableEq, Repr

/-- One drawer (09 R188, R191, R194). -/
structure Drawer where
  tag : Tag := .empty
  claim : Bool := false
  closing : Bool := false   -- consumed; EMPTY when the earlier readers finish
  gran : Nat := 0           -- bit g: granule g written since last EMPTY
  deriving DecidableEq, Repr

/-- A tile register with its side-file (06 R120, R131). -/
structure Tile where
  desc : BitVec 16 := 0
  bytes : List Byte := []
  side : List Byte := []
  inuse : Bool := false
  torn : Bool := false
  bad : Bool := false     -- a byte of it or of its side-file has wrong parity (06 R140)
  deriving DecidableEq, Repr

/-- An accumulator tile: FP32 patterns by 128·m + n (06 R130, R131). -/
structure Acc where
  vals : Tab (BitVec 32) := []
  inuse : Bool := false
  torn : Bool := false
  ovf : Bool := false
  bad : Bool := false     -- a byte of it has wrong parity (06 R140)
  deriving DecidableEq, Repr

/-- A reuse latch (06 R129). -/
structure RLatch where
  valid : Bool := false
  tile : Tile := {}
  deriving DecidableEq, Repr

/-- A save record of anvil storage, by its number on the core (06 R132). -/
inductive AnvilRec where
  | tile (n : Nat) (v : Tile)
  | latch (n : Nat) (v : RLatch)
  | acc (n : Nat) (v : Acc)
  deriving DecidableEq, Repr

/-- One context of a core (10 R204, R235). -/
structure Ctx where
  st : CtxSt := .idle
  lastOp : Nat := 0
  lastStatus : Nat := 0
  pc : Nat := 0
  s : Tab W64 := []       -- S0-S31
  p : BitVec 8 := 0       -- P0-P7; P0 reads as 1
  heldAct : HeldAct := .none
  resetting : Bool := false   -- the ABORTING state was entered by RESET
  fresh : Bool := true    -- reset and not yet started again (12 R258)
  saved : List AnvilRec := []   -- the anvil records of its save record, in their order (06 R132, 10 R227)
  deriving DecidableEq, Repr

/-- One core (01 R20). -/
structure Core where
  ctx : Tab Ctx := []
  counters : Tab W16 := []
  descs : Tab (BitVec 320) := []
  hdrs : Tab Header := []
  drawers : Tab Drawer := []
  q : List QCmd := []       -- commands not completed, in dispatch order
  serial : Nat := 0
  arrivals : Nat := 0
  tiles : Tab Tile := []
  accs : Tab Acc := []
  latches : Tab RLatch := []
  lastTmulCtx : Nat := 0
  lastDisp : Nat := 3       -- context that dispatched last (10 R206)
  served : Tab Nat := []    -- context that an engine served last, by engine; an unlisted one counts as 3 (10 R213)
  badCtr : List Nat := []   -- counters whose storage has wrong parity: no waiter reads them (19 R404)
  inlet : List (Nat × Nat) := []   -- key inlet, at most two halves: command and key record of the chunk held (04 R89)
  pewter : Bool := false    -- core 24d in pewter mode (23 R501)
  deriving DecidableEq, Repr

/-- A barrier's phases (12 R262). A participant is 4·core + context. -/
structure Bar where
  poisoned : Bool := false
  orphan : Bool := false
  sense : Bool := false
  cur : List Nat := []
  nxt : List Nat := []
  held : List Nat := []   -- participants whose skipped arrivals are held before arrival (12 R262, R263)
  phases : Nat := 0
  deriving DecidableEq, Repr

/-- A die or device counter (12 R259); its configuration stands in registers. -/
structure Ctr where
  value : Nat := 0
  fired : Bool := false
  orphan : Bool := false
  deriving DecidableEq, Repr

/-- A signal on its way to a counter (12 R256, R257). -/
structure PostedSig where
  sender : Nat              -- 4·core + context; 0x200 + counter key for a notification
  scope : Nat               -- 0 core counter, 1 die counter, 2 device counter, 3 core counter of another device
  unit : Nat                -- core or die
  num : Nat
  delta : Nat
  dev : Nat := 0            -- scope 3: the target device
  after : Nat := 0          -- scope 3: id of the RSIG; its context's earlier window writes complete before the packet leaves (14 R304)
  gone : Bool := false      -- scope 3: the SIGNAL packet has left
  deriving DecidableEq, Repr

/-- A window write that waits at a FULL drawer (09 R193). -/
structure WaitWrite where
  dev : Nat                 -- writer device; the own device for local writers
  core : Nat                -- writer core
  cmdId : Nat               -- the writer's command
  owner : Nat
  off : Nat
  data : List Byte
  store : Bool := false     -- a STORE packet: ordered behind every earlier one of its device (14 R304)
  ord : Nat := 0            -- order of arrival among waiting writes and reads
  arr : Nat := 0            -- order of arrival among the writers of the owner core (09 R190)
  accepted : Bool := false  -- it passed the tests of its window (09 R193, R196)
  bad : Bool := false       -- its data carries a parity error (09 R200)
  deriving DecidableEq, Repr

/-- An event record (19 R409). -/
structure Event where
  time : Nat := 0
  code : Nat
  cls : Nat                 -- 0 ALARM, 1 ERROR, 2 LOG, 3 TRACE
  unit : Nat
  session : Nat := 0
  job : Nat := 0
  detail : Nat := 0
  count : Nat := 1
  summary : Bool := false
  coalesced : Bool := false
  coarse : Bool := false
  deriving DecidableEq, Repr

/-- A LOG window of a pair of CODE and UNIT (19 R414). -/
structure LogWin where
  code : Nat
  unit : Nat
  opened : Nat
  passed : Nat
  suppressed : Nat := 0
  first : Option Event := none
  deriving DecidableEq, Repr

/-- The event router (19 R411 to R415). -/
structure Router where
  q : List Event := []          -- the router queue, oldest first
  reserved : List Event := []   -- reserved queue entries, one per code
  hold : List Event := []       -- hold buffer, general entries
  holdRes : List Event := []    -- hold buffer, reserved entries
  wins : List LogWin := []
  mgmt : List Event := []       -- management FIFO
  mgmtWait : List Event := []   -- ALARM and ERROR records that wait in the ring for room in the FIFO
  slotNo : Nat := 0             -- slots since the last reserved one (19 R411)
  early : List Event := []      -- records passed before the ring was configured; they wait for it (21 R462)
  supPos : Tab Nat := []        -- per supervisor, position in the held area
  supBatch : Tab (List Event) := []   -- records waiting to be sent to a supervisor
  deriving DecidableEq, Repr

/-- A table slot (03 R62 to R65): its banks and its status. SHADOW: 0 idle, 1 building, 2 built, 3 rejected. -/
structure TableSlot where
  gen : Nat := 0
  failIndex : Nat := 0
  check : Nat := 0
  active : Bool := false
  shadow : Nat := 0
  bank : Bank := {}
  shadowBank : Bank := {}
  commitNow : Bool := false     -- COMMIT of the build under way
  src : Nat := 0                -- address of the record being built
  deriving DecidableEq, Repr

/-- A session and job number; 0 and 0 for no job (19 R409). -/
structure JobKey where
  session : Nat := 0
  job : Nat := 0
  deriving DecidableEq, Repr

/-- A journal record (16 R347). KIND: 1 job, 2 key set, 3 model, 4 session. STATE: 0 FREE, 1 STAGED, 2 DOUBT,
3 ACCEPTED, 4 PLACED, 5 SEALED, 6 HELD. The last three fields are the unit's own bookkeeping. -/
structure JRec where
  session : Nat := 0
  kind : Nat := 0
  origin : Nat := 0
  state : Nat := 0
  job : Nat := 0
  gen : Nat := 0
  body : Nat := 0
  bodyLen : Nat := 0
  result : Nat := 0
  status : Nat := 0
  resultLen : Nat := 0
  time : Nat := 0
  sentAt : Option Nat := none     -- when its result was last sent (15 R339, 16 R357)
  ended : Option Nat := none      -- when its MIRROR_END was last sent (16 R352)
  mirrored : Nat := 0             -- at the witness: body bytes received
  confirmed : Bool := false       -- the witness has confirmed it; waits for earlier jobs (16 R346)
  deriving DecidableEq, Repr

/-- A body in reassembly (15 R335, R337). -/
structure Reasm where
  session : Nat
  job : Nat
  kind : Nat                -- 1 job, 2 key set, 3 model
  slot : Nat                -- its journal record
  got : List Nat := []      -- fragment indices held
  count : Nat
  lastLen : Nat := 0        -- bytes of the last fragment, once held
  lastAt : Nat := 0         -- when the last new fragment arrived
  gapAt : Nat := 0          -- when the last JOB_GAP left
  hold : Bool := false      -- complete; waits for lower-numbered jobs of its session (15 R338)
  deriving DecidableEq, Repr

/-- A session of a service port (15 R325 to R334). -/
structure Session where
  port : Nat := 0
  inSetup : Bool := false
  isOpen : Bool := false
  taken : Bool := false           -- taken over from the partner (16 R360)
  partner : Bool := false         -- held as witness (16 R351)
  role : Nat := 0
  resume : Bool := false
  hello : List Byte := []         -- HELLO payload of the set-up
  reply : List Byte := []         -- REPLY payload of the set-up
  finish : List (Nat × List Byte) := []   -- FINISH fragments held
  setupHigh : Nat := 0            -- highest SEQ accepted in the set-up (15 R326)
  setupSeqs : List Nat := []      -- SEQ values marked in the set-up
  setupAt : Nat := 0
  setupPort : Nat := 0            -- port of the set-up
  setupAddr : Nat := 0            -- sender of its last frame
  priv : List Byte := []          -- the device's private values of the set-up: X25519 32, ML-KEM 64
  cred : List Byte := []          -- hash of the client keys (15 R332)
  keys : List Byte := []          -- 88 bytes of traffic keys (15 R331)
  oldKeys : List Byte := []       -- keys of the other phase, while accepted
  kphase : Bool := false
  oldLeft : Nat := 0              -- frames of the old phase still accepted (15 R333)
  rxHigh : Nat := 0
  rxMarks : List Nat := []        -- accepted SEQ values of the window (15 R326)
  txSeq : Nat := 0
  addr : Nat := 0                 -- address and UDP port of the most recent good frame (15 R320)
  idleFrom : Nat := 0
  highAcc : Nat := 0
  highAck : Nat := 0
  highRef : Nat := 0
  refused : List Nat := []        -- job numbers refused, at or below the highest accepted one (15 R338)
  highSent : Nat := 0
  gen : Nat := 0                  -- current key-set generation; 0 none
  readyGen : Nat := 0             -- generation that becomes current at the next epoch commit (04 R87); 0 none
  keyBusy : Bool := false         -- a KEYSET in progress (15 R335)
  keyDie : Nat := 0
  dir : Nat := 0                  -- directory of the current generation
  readyDir : Nat := 0
  readyDie : Nat := 0
  hot : Nat := 0
  inBits : Nat := 0
  deriving DecidableEq, Repr

/-- A placement table (16 R362, R363): sessions it holds and core states. -/
structure PlcTable where
  sess : Tab (Nat × Nat) := []     -- per session number (2^24 added where held as witness): words E0 and E1
  cores : Tab Nat := []            -- core states other than AVAILABLE
  deriving DecidableEq, Repr

/-- What a placed job runs on (16 R365, R366). -/
structure Placed where
  slot : Nat                -- journal record
  die : Nat
  mask : Nat                -- bit j: core 24·die + j
  ctxs : List Nat           -- its contexts, 4·core + context, the lead first
  group : Nat := 0
  intab : Nat := 0
  outtab : Nat := 0
  ntab : Nat := 0           -- owner tables from INTAB on, 8 KiB each
  nout : Nat := 0
  deriving DecidableEq, Repr

/-- Something the device sends. -/
inductive Out where
  | svc (f : SvcFrame)                                               -- a service frame (15)
  | raw (port kind mac addr : Nat) (payload : List Byte)             -- ARP, neighbour and echo answers (15 R319)
  | pkt (port : Nat) (p : Packet)                                    -- a fabric packet (14 R299)
  | resend (port seq : Nat) (p : Packet)                             -- a link frame sent again from the replay buffer (14 R300)
  | mgmt (status : Nat) (data : List Nat)                            -- a management response (22)
  | read (req addr value status : Nat)                               -- read data to a requester of the register hub (22 R478)
  | ibi (cls : Nat)                                                  -- an in-band interrupt (22 R489)
  | tdo (bits value : Nat)                                           -- what the TAP shifts out: bits of it, value (24 R511)
  | link (port seq : Nat)                                            -- a request to send a link frame again (14 R300)
  deriving DecidableEq, Repr

/-- A fabric operation not yet acknowledged (14 R301, R304). -/
structure FabOp where
  opid : Nat
  dev : Nat
  core : Nat
  ctx : Nat
  cmd : Nat                 -- the command's id on its core
  packets : Nat             -- packets still unanswered
  cctr : Option Nat         -- completion counter
  addrs : List Int := []    -- local addresses still to be written, for loads and gets
  deriving DecidableEq, Repr

/-- A remote read that waits at this device for a FULL drawer (14 R306). -/
structure WaitRead where
  dev : Nat
  core : Nat
  opid : Nat
  owner : Nat
  off : Nat
  len : Nat
  get : Bool
  ord : Nat := 0
  deriving DecidableEq, Repr

/-- A link of a fabric port (14 R300, R314). Its replay buffer holds the packets that left by the port since it came up. -/
structure Link where
  rxSeq : Nat := 0          -- sequence number of the next frame
  fails : Nat := 0          -- times the awaited frame has failed to arrive
  base : Nat := 0           -- how much the device had sent when the link came up
  nak : Nat := 0            -- frame that the peer asked for last
  resent : Nat := 0         -- times in a row it has been sent again
  deriving DecidableEq, Repr

/-- A fabric barrier's home side: member devices arrived, by sense (14 R311). -/
structure FBar where
  cur : List Nat := []
  nxt : List Nat := []
  deriving DecidableEq, Repr

/-- A memory repair of a stack (13 R286): kind 1 soft repair, 2 hard repair, 3 lane remap. -/
structure Repair where
  stack : Nat
  kind : Nat
  row : W32
  deriving DecidableEq, Repr

/-- A key set in a key chest (04 R78 to R87). -/
structure KeySet where
  session : Nat
  gen : Nat
  die : Nat
  dir : Nat                 -- local address of its directory
  len : Nat := 0            -- bytes it takes in the key chest
  deriving DecidableEq, Repr

/-- A line that a cache holds for a key-stream group (04 R92): its granule, the group, the members it was delivered to. -/
structure GLine where
  gran : Nat
  group : Nat
  got : List Nat := []
  deriving DecidableEq, Repr

/-- A key-stream group of a die (04 R92): members joined and members done. A group number of 64 and more is one reserved for a
pair of an ANNEAL (05 R113). -/
structure KGroup where
  key : Nat := 0            -- the key record's tag
  size : Nat := 0
  joined : List Nat := []   -- commands: 2^32 · core + id
  served : List Nat := []   -- members that have read their stream
  deriving DecidableEq, Repr


/-- A touchstone request (17 R372 to R374). `who`: 0 management, 1 and 2 service ports, 3 acceptance, 4 loader, 5 assay. -/
structure TsReq where
  who : Nat := 0
  alg : Nat := 0
  op : Nat := 0
  tag : Nat := 0
  idkey : Bool := false
  a : Nat := 0
  b : Nat := 0
  c : Nat := 0
  dst : Nat := 0
  mlen : Nat := 0
  olen : Nat := 0
  started : Bool := false
  srcs : List (List Byte) := []   -- sources latched at the start
  srcOk : Bool := false           -- every source slot was VALID
  curve : List Nat := []          -- the curve as it was at the start: p, a, b, Gx, Gy, n, h
  deriving DecidableEq, Repr

/-- A completion: requester, tag, status, STONE cycles (17 R373). -/
structure TsDone where
  who : Nat
  tag : Nat
  status : Nat
  cycles : Nat
  deriving DecidableEq, Repr

/-- The touchstone (17 R372 to R386). -/
structure Ts where
  mem : Tab Byte := []            -- operand memory, 65,536 bytes
  valid : List Nat := []          -- slots VALID
  secret : List Nat := []         -- slots SECRET
  queue : List TsReq := []        -- in push order, the running ones included
  done : List TsDone := []        -- management completions not yet popped
  inner : List TsDone := []       -- completions of internal requesters
  curves : Tab (List Nat) := []   -- loaded curves; an unlisted one is not loaded
  entropyBad : Bool := false
  deriving DecidableEq, Repr

/-- A pair-written value that waits for its complement (22 R482). -/
structure PairPend where
  addr : Nat
  value : Nat
  req : Nat
  at_ : Nat                 -- when it was taken
  byHm : Bool               -- the complement goes to the block's PAIR word
  deriving DecidableEq, Repr

/-- A posted write on its way to its block (22 R483). -/
structure PostWrite where
  addr : Nat
  value : Nat
  req : Nat
  deriving DecidableEq, Repr

/-- What the register hub holds for one block (22 R480 to R483). -/
structure HubBlock where
  pair : Option PairPend := none
  keys : List Nat := []     -- requesters with LOCK armed
  post : Option PostWrite := none   -- BUSY while present
  late : Bool := false
  overrun : Bool := false
  deriving DecidableEq, Repr

/-- What the loader holds of an image slot (21 R455): its reject reason, IMAGE_VER, and per section LENGTH and DIGEST, by TYPE. -/
structure ImgSlot where
  digest : List Byte := []        -- SHA-384 of its header, which holds the digest of every section (15 R329)
  reject : Nat := 0
  ver : Nat := 0
  secs : List (Nat × List Byte) := []
  deriving DecidableEq, Repr

/-- A register-write record (21 R458). -/
structure RegRec where
  kind : Nat := 0                 -- 0 write, 1 wait
  addr : Nat := 0
  value : Nat := 0
  mask : Nat := 0
  deriving DecidableEq, Repr

/-- Pins, reset latches and the progress of start-up (20 R442 to R445; 21 R456 to R466). -/
structure Boot where
  pwrgd : Bool := true
  resetN : Bool := false          -- level of RESET_N
  thermtrip : Bool := false       -- THERMTRIP_N driven low (20 R442)
  tripped : Bool := false         -- it fell since PWRGD last rose
  force : Option Nat := none      -- BOOT_FORCE (21 R457)
  slots : List ImgSlot := []      -- slots A and B, as the verification of their headers left them
  recs : List RegRec := []        -- register-write records of the section under load not yet applied: the first waits
  recIdx : Nat := 0               -- index of the first of them
  rest : List Byte := []          -- what follows the register-write records of section 0x06
  read : Bool := false            -- the journal has been read back (16 R359 step 1)
  recovered : Bool := false       -- step 12 is done
  loaded : Nat := 0               -- section types applied, from 0x01 on
  retried : Bool := false         -- the section under load has been read once more
  begun : Nat := 0                -- device time of the start
  newCause : Bool := false        -- a strongbox cause was latched during this start (21 R466)
  deriving DecidableEq, Repr

/-- Per-core assays (21 R470 to R472). -/
structure Assay where
  queue : List Nat := []          -- cores requested, oldest first
  core : Option Nat := none       -- core under assay
  pre : List Nat := []            -- contexts pre-empted for it, 4·core + context
  testing : Bool := false         -- its state is saved and its ports are held
  test : Nat := 0                 -- test that runs, 0 none
  whole : Bool := false           -- a whole-device assay runs
  deriving DecidableEq, Repr

/-- A running pewter job (23 R505 to R507). -/
structure PwJob where
  slot : Nat := 0
  gate : Nat := 0                 -- gates done
  key : Nat := 0                  -- address of the key set latched at its start
  deriving DecidableEq, Repr

/-- The test access port (24 R511 to R517). -/
structure TapState where
  ir : Nat := 0x02
  refused : Bool := false         -- the last instruction updated was refused
  drive : Bool := false           -- a pin-driving instruction is in effect
  cells : List Bool := []         -- boundary scan register as last updated or captured
  dbgDone : Bool := false
  dbgData : Nat := 0
  dbgStatus : Nat := 0
  stack : Nat := 15
  selWir : Bool := false
  wrapped : List Nat := []        -- stacks with a repair made through their wrapper and not yet announced (24 R517)
  deriving DecidableEq, Repr

/-- What a peening slot keeps while it is armed (24 R520 to R522). -/
structure PeenSlot where
  lfsr : Nat := 0
  seen : Nat := 0                 -- occurrences since arming
  window : Nat := 0               -- perturbations in the current 1 ms window
  opened : Nat := 0               -- start of that window
  deriving DecidableEq, Repr


/-- The state of the block. -/
structure State where
  pending : List Instr := []
  time : Nat := 0               -- device time, CTRL cycles
  timeFrac : Nat := 0           -- its fraction, in units of 2^-32 cycle (14 R313)
  timeRate : Int := 0           -- trim of its rate, in steps of 2^-32 cycle per cycle (14 R313)
  free : Nat := 0               -- the model's count of free values taken
  mem : Tab Byte := []
  regs : Tab W32 := []          -- the register file, by local address
  held : Tab W32 := []          -- holding values of RO-S fields, by local address
  cores : Tab Core := []
  bars : Tab Bar := []          -- 64·die + b; device 256 + b; fabric 288 + b
  ctrs : Tab Ctr := []          -- 64·die + n; device 256 + n
  sigs : List PostedSig := []
  waitw : List WaitWrite := []
  badpar : List Nat := []       -- scratchpad addresses whose parity bit is wrong (09 R200, R203)
  router : Router := {}
  tables : Tab TableSlot := []  -- table slots 0-3
  profs : Tab Profile := [(0, profileP16)]   -- resident profiles by slot; an absent slot is not listed (02 R37)
  assign : Tab JobKey := []     -- job of a context, by 4·core + context; an unassigned one is not listed
  journal : Tab JRec := []      -- journal records by slot; an unlisted one is FREE
  reasm : List Reasm := []
  sessions : Tab Session := []
  closed : List Nat := []       -- closed sessions whose records the witness has not been told to release (15 R328)
  plcActive : PlcTable := {}
  plcShadow : PlcTable := {}
  plcBad : Bool := false        -- a placement table has wrong parity: nothing is placed until a reset (19 R404)
  placed : List Placed := []
  models : Tab Nat := []        -- usable models: journal slot plus 1, by MODEL number (15 R341)
  commitNow : Bool := false     -- an epoch commit is due at the end of the build (16 R363)
  handOpen : Bool := false      -- a HANDOVER sent and not answered (19 R407)
  pwq : Tab (List Nat) := []    -- pewter queues: journal slots, by die (23 R505)
  queuedJobs : List Nat := []   -- journal slots of jobs queued on a die, in acceptance order
  lastCommit : Nat := 0         -- time of the last epoch commit
  peerFree : List Nat := []     -- free contexts per die in the partner's last HEARTBEAT
  peerDev : Nat := 0
  hbMissed : Nat := 0
  out : List Out := []          -- what the device has sent, oldest first
  hubRx : List Byte := []       -- data of a hub message that arrives in several packets, as far as it has come (16)
  fops : List FabOp := []
  waitr : List WaitRead := []
  links : Tab Link := []
  fbars : Tab FBar := []        -- home side of fabric barriers
  aliveTx : Tab Nat := []       -- last alive value sent, by device
  aliveRx : Tab Nat := []       -- alive value expected, plus 1, by device; unlisted: UNSET (18 R396)
  aliveAt : Tab Nat := []       -- device time of the last accepted packet, by device
  broken : List Nat := []       -- devices whose stream to this one is broken
  opid : Nat := 0
  shelfPort : Tab Nat := []     -- port, plus 1, that STORE and LOAD_REQ to a device last took (14 R297)
  timeGood : Nat := 0           -- consecutive TIME messages within bound (14 R315)
  timeMissed : Nat := 0
  timeSet : Bool := false       -- device time has been set from the parent (14 R313)
  keep : List Nat := []         -- KEEP lines, by granule number (13 R280, R281)
  groupLines : List GLine := [] -- lines held for key-stream groups, at most one per granule (04 R92)
  ecc : Tab Nat := []           -- granules with an error: 1 correctable, 2 uncorrectable (13 R277)
  linkBad : List Nat := []      -- granules whose next read arrives poisoned: their link failed twice (13 R278)
  repairs : List Repair := []
  keysets : List KeySet := []
  groups : Tab KGroup := []     -- 16·die + group; 64 + the member of an ANNEAL's reserved group
  ts : Ts := {}
  hub : Tab HubBlock := []      -- by block number, offset ÷ 64 KiB
  resp : Option (Nat × List Nat) := none   -- last management response: status and data bytes (22 R488)
  enec : Bool := false          -- in-band interrupts enabled (22 R486)
  snapAt : Option Nat := none   -- time of the edge of a pending capture (20 R440)
  noDispatch : Bool := false    -- dispatch stopped on every core (20 R428, R444)
  based : List Nat := []        -- base registers of fixed-size regions written since reset (13 R547)
  progLen : Nat := 0            -- bytes of the program section at PROG_BASE (21 R460)
  decAt : Nat := 0              -- when the CONCUR_REQ of the decision left (19 R407)
  causes : List Nat := []       -- strongbox causes that hold now (19 R422, CAUSE_ACTIVE)
  init : Boot := {}
  assay : Assay := {}
  pwStage : Option (Nat × Nat) := none   -- staged LO of the pewter window: offset and value (23 R508)
  pwJobs : Tab PwJob := []      -- running pewter job, by die
  pwLeaving : List Nat := []    -- dies whose EXIT waits for the running job (23 R503)
  tap : TapState := {}
  peen : Tab PeenSlot := []     -- by peening slot
  cvStage : Tab W32 := []       -- RUN_LO written and not yet committed by RUN_HI, by check-value unit (18 R398)
  custody : List Nat := []      -- stacks brought out of self-refresh for custody access (19 R418)
  marginLow : Tab Nat := []     -- consecutive 100 µs readings below zero margin, by rail (20 R425)
  regSt : Nat := 0              -- status of the last register access (22 R490)
  deriving DecidableEq, Repr

/-- The machine right after reset. -/
def State.reset : State := {}

end Sys2Proof.Machine
end

