-- ==== Sys2Proof/Machine/Ops.lean ====
section
/-!
DEFINITION. The named operations over State: tables, memory, registers, counters, drawers, events.
Meanings read and write State through these.
-/
namespace Sys2Proof.Machine

/-! ### Status codes (00 R17; 09 R202; 02 R51; 10 R233; 17 R387; 22 R490; 16 R369; 14 R309; 07 R159) -/

def stOk : Nat := 0x00
def stSkipped : Nat := 0x01
def stOrphan : Nat := 0x02
def stTimeout : Nat := 0x03
def stAlign : Nat := 0x10
def stShape : Nat := 0x11
def stBounds : Nat := 0x12
def stTag : Nat := 0x13
def stParity : Nat := 0x14
def stWindow : Nat := 0x15
def stReach : Nat := 0x16
def stKeytag : Nat := 0x20
def stBudget : Nat := 0x21
def stLevel : Nat := 0x22
def stTarnished : Nat := 0x23
def stDomain : Nat := 0x24
def stHeader : Nat := 0x25
def stProfile : Nat := 0x26
def stScale : Nat := 0x27
def stAborted : Nat := 0x30
def stAbortLate : Nat := 0x31
def stOpcode : Nat := 0x32
def stRefused : Nat := 0x50
def stStepSkipped : Nat := 0x80

/-- Statuses that tarnish a result (02 R51). -/
def tarnishing (st : Nat) : Bool := st ∈ [0x20, 0x21, 0x22, 0x23, 0x27]

/-- Statuses that halt a context (10 R222); fabric statuses do not (14 R309). -/
def halting (st : Nat) : Bool :=
  st ∈ [0x10, 0x11, 0x12, 0x13, 0x14, 0x15, 0x16, 0x24, 0x25, 0x26, 0x32, 0x50]

/-! ### Accessors -/

def State.core (s : State) (c : Nat) : Core := Tab.get {} s.cores c
def State.setCore (s : State) (c : Nat) (k : Core) : State := { s with cores := Tab.set {} s.cores c k }
def State.modCore (s : State) (c : Nat) (f : Core → Core) : State := s.setCore c (f (s.core c))
def Core.context (k : Core) (x : Nat) : Ctx := Tab.get {} k.ctx x
def Core.setContext (k : Core) (x : Nat) (v : Ctx) : Core := { k with ctx := Tab.set {} k.ctx x v }
def State.context (s : State) (c x : Nat) : Ctx := (s.core c).context x
def State.modContext (s : State) (c x : Nat) (f : Ctx → Ctx) : State :=
  s.modCore c (fun k => k.setContext x (f (k.context x)))
def Ctx.reg (x : Ctx) (r : Nat) : W64 := Tab.get 0 x.s r
def Ctx.setReg (x : Ctx) (r : Nat) (v : W64) : Ctx := { x with s := Tab.set 0 x.s r v }

/-- P[i]; P0 reads as 1 (10 R211). -/
def Ctx.pred (x : Ctx) (i : Nat) : Bool := i == 0 || x.p.getLsbD i

/-- Write P[i]; writes to P0 are ignored (10 R211). -/
def Ctx.setPred (x : Ctx) (i : Nat) (b : Bool) : Ctx :=
  if i = 0 then x else { x with p := putBits x.p i i (b2n b) }

def Core.counter (k : Core) (n : Nat) : W16 := Tab.get 0 k.counters n
def Core.setCounter (k : Core) (n : Nat) (v : W16) : Core := { k with counters := Tab.set 0 k.counters n v }
def Core.desc (k : Core) (n : Nat) : BitVec 320 := Tab.get 0 k.descs n
def Core.hdr (k : Core) (d : Nat) : Header := Tab.get {} k.hdrs d
def Core.setHdr (k : Core) (d : Nat) (h : Header) : Core := { k with hdrs := Tab.set {} k.hdrs d h }
def Core.drawer (k : Core) (d : Nat) : Drawer := Tab.get {} k.drawers d
def Core.setDrawer (k : Core) (d : Nat) (v : Drawer) : Core := { k with drawers := Tab.set {} k.drawers d v }
def Core.modDrawer (k : Core) (d : Nat) (f : Drawer → Drawer) : Core := k.setDrawer d (f (k.drawer d))
def Core.tile (k : Core) (t : Nat) : Tile := Tab.get {} k.tiles t
def Core.acc (k : Core) (a : Nat) : Acc := Tab.get {} k.accs a
def Core.latch (k : Core) (x : Nat) : RLatch := Tab.get {} k.latches x
def State.bar (s : State) (b : Nat) : Bar := Tab.get {} s.bars b
def State.setBar (s : State) (b : Nat) (v : Bar) : State := { s with bars := Tab.set {} s.bars b v }
def State.ctr (s : State) (n : Nat) : Ctr := Tab.get {} s.ctrs n
def State.setCtr (s : State) (n : Nat) (v : Ctr) : State := { s with ctrs := Tab.set {} s.ctrs n v }

/-! ### Registers (22 R475, R476) -/

def State.regK (s : State) (k : RegKey) : W32 := Tab.get k.reset s.regs k.addr
def State.setRegK (s : State) (k : RegKey) (v : W32) : State := { s with regs := Tab.set k.reset s.regs k.addr v }

/-- Register `r` of block instance `i`, number `x` of its family. -/
def State.reg (s : State) (r : RegName) (i : Nat := 0) (x : Nat := 0) : W32 := s.regK ⟨r, i, x⟩
def State.setReg (s : State) (r : RegName) (i x : Nat) (v : W32) : State := s.setRegK ⟨r, i, x⟩ v

/-- Field `[hi:lo]` of a register. -/
def State.rf (s : State) (r : RegName) (i x hi lo : Nat) : Nat := bits (s.reg r i x) hi lo

/-- Write field `[hi:lo]` of a register. -/
def State.setRf (s : State) (r : RegName) (i x hi lo v : Nat) : State :=
  s.setReg r i x (putBits (s.reg r i x) hi lo v)

/-- Count one in a saturating 32-bit counter register. -/
def State.countReg (s : State) (r : RegName) (i x n : Nat) : State :=
  s.setReg r i x (BitVec.ofNat 32 (satAdd 32 (s.reg r i x).toNat n))

/-! ### Memory: one list of cells over the local addresses (13 R271, 09 R186) -/

/-- HBM addresses (13 R271). -/
def inHbm (a : Nat) : Bool := decide (a < 0x9000000000)

/-- What an unlisted address reads as: stacked memory has no defined contents until written (13 R271); the
scratchpads read zero after device reset (09 R546). -/
def memDefault (a : Nat) : Option Byte := if inHbm a then none else some 0

/-- The defined contents of an address. -/
def Mem.get? (m : Tab Byte) (a : Nat) : Option Byte :=
  match Tab.find? m a with
  | some v => some v
  | none => memDefault a

/-- Write one byte, keeping the canonical form. -/
def Mem.set (m : Tab Byte) (a : Nat) (v : Byte) : Tab Byte :=
  if memDefault a = some v then Tab.erase m a else Tab.insert (Tab.erase m a) a v

/-- The canonical form of memory: addresses strictly rising, no entry equal to what an unlisted address
reads as. -/
def Mem.wf (m : Tab Byte) : Bool :=
  Tab.rising m && m.all (fun e => decide (some e.2 ≠ memDefault e.1))

/-- Write bytes from an address upward. -/
def Mem.setList (m : Tab Byte) : Nat → List Byte → Tab Byte
  | _, [] => m
  | a, v :: vs => Mem.setList (Mem.set m a v) (a + 1) vs

/-- One byte; a byte of stacked memory that nothing has written is free. -/
def State.readByte (s : State) (a : Nat) : Byte := (Mem.get? s.mem a).getD (Config.freeByte a)

def State.writeByte (s : State) (a : Nat) (v : Byte) : State := { s with mem := Mem.set s.mem a v }

/-- `n` bytes from an address upward. -/
def State.readBytes (s : State) (a n : Nat) : List Byte := (List.range n).map (fun i => s.readByte (a + i))

def State.writeBytes (s : State) (a : Nat) (vs : List Byte) : State := { s with mem := Mem.setList s.mem a vs }

/-- A little-endian value of `n` bytes (00 R8). -/
def State.readLE (s : State) (a n : Nat) : Nat := leNat (s.readBytes a n)

def State.writeLE (s : State) (a n v : Nat) : State := s.writeBytes a (natLE n v)

/-- Memory with the contents of a range no longer defined (stacked memory only). -/
def State.forget (s : State) (lo hi : Nat) : State :=
  { s with mem := s.mem.filter (fun e => !(decide (lo ≤ e.1) && decide (e.1 < hi) && inHbm e.1)) }

/-- First byte of a core's scratchpad (09 R186). -/
def spBase (c : Nat) : Nat := 0xC000000000 + c * 0x2000000

/-- First byte of a drawer (09 R186). -/
def drawerAddr (c d : Nat) : Nat := spBase c + d * 0x18000

/-- Bytes of a drawer. -/
def drawerBytes : Nat := 98304

/-- The die and quad of a core (00 R13). -/
def dieOf (c : Nat) : Nat := c / 24
def quadOf (c : Nat) : Nat := (c % 24) / 4

/-! ### Modes and shares (10 R204, R205; 09 R187) -/

def State.modeM (s : State) (c : Nat) : Bool := bitOf (s.reg .coreMode c) 0

/-- Does a core's die have power and clock: not in the strongbox state, die not lost (19 R417, R418)? -/
def State.coreLive (s : State) (c : Nat) : Bool := !bitOf (s.reg .sbStatus) 31 && !bitOf (s.reg .sbStatus) (8 + dieOf c)

/-- Counter `n` in the share of context `x`. -/
def State.ctrInShare (s : State) (c x n : Nat) : Bool :=
  decide (n < 256) && (if s.modeM c then n / 64 == x else x == 0)

/-- The context that owns a counter. -/
def State.ctrOwner (s : State) (c n : Nat) : Nat := if s.modeM c then n / 64 else 0

def State.descInShare (s : State) (c x n : Nat) : Bool :=
  decide (n < 64) && (if s.modeM c then n / 16 == x else x == 0)

/-- The context that owns a drawer (09 R187). -/
def State.drawerOwner (s : State) (c d : Nat) : Nat := if s.modeM c then (d % 32) / 8 else 0

def State.drawerInShare (s : State) (c x d : Nat) : Bool := decide (d < 256) && s.drawerOwner c d == x

/-- Queue entries per engine of a context (10 R204). -/
def State.queueShare (s : State) (c : Nat) : Nat := if s.modeM c then 16 else 64

/-- Port role of the group a drawer lies in (09 R182, R203). -/
def State.portOf (s : State) (c d : Nat) : Nat := s.rf .spBind c 0 (4 * (d / 32) + 3) (4 * (d / 32))

/-! ### Events (19 R409 to R414) -/

/-- Two records are identical (19 R410). -/
def Event.same (a b : Event) : Bool :=
  a.code == b.code && a.unit == b.unit && a.session == b.session && a.job == b.job && a.detail == b.detail
  && a.summary == b.summary

/-- Coalesce occurrences into a kept record (19 R410). -/
def Event.absorb (k e : Event) : Event := { k with count := satAdd 32 k.count e.count, coalesced := true }

/-- Does a list hold an identical record? -/
def hasSame (e : Event) (l : List Event) : Bool := l.any (fun k => k.same e)

def absorbIn (e : Event) (l : List Event) : List Event := modFirst (fun k => k.same e) (fun k => k.absorb e) l

/-- Count an occurrence in its code's reserved entry (19 R411, R413). -/
def absorbCoarse (e : Event) (l : List Event) : List Event :=
  if l.any (fun k => k.code == e.code) then
    modFirst (fun k => k.code == e.code) (fun k => { k with count := satAdd 32 k.count e.count }) l
  else l ++ [{ e with coarse := true }]

/-- Records the router queue holds (19 R411). -/
def routerQueueSize : Nat := 65536

/-- Count an absorbed occurrence (19 R411, R413). -/
def State.countCoalesced (s : State) (e : Event) : State :=
  s.countReg (if e.cls = 0 then .alarmCoalesced else .errorCoalesced) 0 0 1

/-- Put a record into the router queue (19 R410, R411, R414). -/
def State.enqueueEvent (s : State) (e : Event) : State :=
  let r := s.router
  if hasSame e r.q then
    let s := { s with router := { r with q := absorbIn e r.q } }
    if e.cls ≤ 1 then s.countCoalesced e else s
  else if r.q.length < routerQueueSize then { s with router := { r with q := r.q ++ [e] } }
  else if e.cls ≤ 1 then
    if r.q.any (fun k => k.cls == 3) then
      ({ s with router := { r with q := dropFirst (fun (k : Event) => k.cls == 3) r.q ++ [e] } }).countReg .traceDrop 0 0 1
    else if r.q.any (fun k => k.cls == 2) then
      ({ s with router := { r with q := dropFirst (fun (k : Event) => k.cls == 2) r.q ++ [e] } }).countReg .logDrop 0 0 1
    else ({ s with router := { r with reserved := absorbCoarse e r.reserved } }).countCoalesced e
  else s.countReg (if e.cls = 3 then .traceDrop else .logDrop) 0 0 1

/-- CTRL cycles of a LOG window (19 R414): LOG_WINDOW units of 100 µs. -/
def State.logWindow (s : State) : Nat := s.rf .evCfg 0 0 23 16 * 40000

/-- Is a window the open one of a record's pair of CODE and UNIT at a time? It closes `len` after it opened. -/
def LogWin.holds (w : LogWin) (e : Event) (len : Nat) : Bool :=
  w.code == e.code && w.unit == e.unit && decide (e.time < w.opened + len)

/-- Raise an event: TRACE and LOG give way under load (19 R414), the rest is queued. -/
def State.raise (s : State) (e : Event) : State :=
  let e := { e with time := s.time }
  if e.cls = 3 then
    if bitOf (s.reg .evTraceMask) (e.code / 256) && decide (s.router.q.length < s.rf .evCfg 0 0 11 8 * 4096)
    then s.enqueueEvent e else s.countReg .traceDrop 0 0 1
  else if e.cls = 2 then
    match s.router.wins.find? (fun w => w.holds e s.logWindow) with
    | none =>
      State.enqueueEvent { s with router := { s.router with
          wins := s.router.wins ++ [{ code := e.code, unit := e.unit, opened := s.time, passed := 1 }] } } e
    | some w =>
      if w.passed < s.rf .evCfg 0 0 31 24 then
        State.enqueueEvent { s with router := { s.router with
            wins := modFirst (fun v => v.holds e s.logWindow)
              (fun v => { v with passed := v.passed + 1 }) s.router.wins } } e
      else
        State.countReg { s with router := { s.router with
            wins := modFirst (fun v => v.holds e s.logWindow)
              (fun v => { v with suppressed := v.suppressed + 1, first := v.first.orElse (fun _ => some e) })
              s.router.wins } } .logSuppressed 0 0 1
  else s.enqueueEvent e

/-- Raise several events in order. -/
def State.raiseAll (s : State) (es : List Event) : State := es.foldl State.raise s

end Sys2Proof.Machine
end

