-- ==== Sys2Proof/Machine/Operands.lean ====
section
/-!
DEFINITION. Operand forms: the command format and its fields (spec 10 R210, 11 R236), stream
descriptors and their units (12 R249 to R252), drawer runs (03 R69).
-/
namespace Sys2Proof.Machine

/-- The operations of the command reference (11 R236). -/
inductive Opcode where
  | nop
  | endStream
  | movi
  | mov
  | add
  | sub
  | mul
  | andOp
  | orOp
  | xor
  | shl
  | shr
  | sar
  | pset
  | plog
  | bra
  | brr
  | hrd
  | hset
  | hcopy
  | hdrop
  | cadd
  | crd
  | rsig
  | barrier
  | descwr
  | drtag
  | lsdecide
  | lrpick
  | ntto
  | intto
  | nttl
  | inttl
  | autol
  | dbchain
  | dbreduce
  | hadd
  | hsub
  | haddp
  | hsubp
  | hmulp
  | hmulc
  | hmuli
  | tcfg
  | tload
  | tmul
  | tzero
  | tdrain
  | bconv
  | mmulm
  | xfer
  | xobj
  | qread
  | xput
  | xget
  | ksrelin
  | ksrot
  | ksconj
  | kshoist
  | anneal
  | hrescale
  deriving DecidableEq, Repr

/-- OPCODE values (11, the opcode tables). -/
def Opcode.code : Opcode → Nat
  | .nop => 0x000
  | .endStream => 0x001
  | .movi => 0x008
  | .mov => 0x009
  | .add => 0x00A
  | .sub => 0x00B
  | .mul => 0x00C
  | .andOp => 0x00D
  | .orOp => 0x00E
  | .xor => 0x00F
  | .shl => 0x010
  | .shr => 0x011
  | .sar => 0x012
  | .pset => 0x018
  | .plog => 0x019
  | .bra => 0x020
  | .brr => 0x021
  | .hrd => 0x028
  | .hset => 0x029
  | .hcopy => 0x02A
  | .hdrop => 0x02B
  | .cadd => 0x030
  | .crd => 0x031
  | .rsig => 0x032
  | .barrier => 0x033
  | .descwr => 0x038
  | .drtag => 0x039
  | .lsdecide => 0x03A
  | .lrpick => 0x03B
  | .ntto => 0x080
  | .intto => 0x081
  | .nttl => 0x088
  | .inttl => 0x089
  | .autol => 0x08A
  | .dbchain => 0x0C0
  | .dbreduce => 0x0C1
  | .hadd => 0x0C8
  | .hsub => 0x0C9
  | .haddp => 0x0CA
  | .hsubp => 0x0CB
  | .hmulp => 0x0CC
  | .hmulc => 0x0CD
  | .hmuli => 0x0CE
  | .tcfg => 0x100
  | .tload => 0x101
  | .tmul => 0x102
  | .tzero => 0x103
  | .tdrain => 0x104
  | .bconv => 0x108
  | .mmulm => 0x109
  | .xfer => 0x140
  | .xobj => 0x141
  | .qread => 0x142
  | .xput => 0x148
  | .xget => 0x149
  | .ksrelin => 0x180
  | .ksrot => 0x181
  | .ksconj => 0x182
  | .kshoist => 0x183
  | .anneal => 0x188
  | .hrescale => 0x189

/-- ENGINE values (10, the engine codes; 11 R236). -/
def Opcode.engine : Opcode → Nat
  | .nop => 0
  | .endStream => 0
  | .movi => 0
  | .mov => 0
  | .add => 0
  | .sub => 0
  | .mul => 0
  | .andOp => 0
  | .orOp => 0
  | .xor => 0
  | .shl => 0
  | .shr => 0
  | .sar => 0
  | .pset => 0
  | .plog => 0
  | .bra => 0
  | .brr => 0
  | .hrd => 0
  | .hset => 0
  | .hcopy => 0
  | .hdrop => 0
  | .cadd => 0
  | .crd => 0
  | .rsig => 0
  | .barrier => 0
  | .descwr => 0
  | .drtag => 0
  | .lsdecide => 0
  | .lrpick => 0
  | .ntto => 1
  | .intto => 1
  | .nttl => 1
  | .inttl => 1
  | .autol => 1
  | .dbchain => 2
  | .dbreduce => 2
  | .hadd => 2
  | .hsub => 2
  | .haddp => 2
  | .hsubp => 2
  | .hmulp => 2
  | .hmulc => 2
  | .hmuli => 2
  | .tcfg => 3
  | .tload => 3
  | .tmul => 3
  | .tzero => 3
  | .tdrain => 3
  | .bconv => 3
  | .mmulm => 3
  | .xfer => 4
  | .xobj => 4
  | .qread => 4
  | .xput => 4
  | .xget => 4
  | .ksrelin => 5
  | .ksrot => 5
  | .ksconj => 5
  | .kshoist => 5
  | .anneal => 5
  | .hrescale => 5

/-- The operations, in two runs. -/
def Opcode.run0 : List Opcode :=
  [.nop, .endStream, .movi, .mov, .add, .sub, .mul, .andOp, .orOp, .xor, .shl, .shr, .sar, .pset, .plog, .bra, .brr, .hrd, .hset, .hcopy, .hdrop, .cadd, .crd, .rsig, .barrier, .descwr, .drtag, .lsdecide, .lrpick, .ntto, .intto]
def Opcode.run1 : List Opcode :=
  [.nttl, .inttl, .autol, .dbchain, .dbreduce, .hadd, .hsub, .haddp, .hsubp, .hmulp, .hmulc, .hmuli, .tcfg, .tload, .tmul, .tzero, .tdrain, .bconv, .mmulm, .xfer, .xobj, .qread, .xput, .xget, .ksrelin, .ksrot, .ksconj, .kshoist, .anneal, .hrescale]

/-- Every operation. -/
def Opcode.all : List Opcode := Opcode.run0 ++ Opcode.run1

/-- The operation of an OPCODE value; none where it is reserved (11 R236). -/
def Opcode.ofCode (c : Nat) : Option Opcode := Opcode.all.find? (fun o => o.code == c)

/-! ### The command format (10) -/

/-- The four words of an operation with its fields. -/
def encodeCmd (op : Opcode) (f : CmdFields) : Cmd :=
  { w0 := BitVec.ofNat 10 op.code ++ BitVec.ofNat 4 op.engine ++ f.pred ++ BitVec.ofBool f.psense ++ 0#1
      ++ f.waitA.ctr ++ f.waitA.cond ++ f.waitA.val ++ f.sigCtr ++ f.sigDelta ++ f.sigMode
    w1 := f.waitB.ctr ++ f.waitB.cond ++ f.waitB.val ++ f.opa
    w2 := f.w2
    w3 := f.w3 }

def Cmd.opcode (c : Cmd) : Nat := bits c.w0 63 54
def Cmd.engine (c : Cmd) : Nat := bits c.w0 53 50
def Cmd.pred (c : Cmd) : Nat := bits c.w0 49 47
def Cmd.psense (c : Cmd) : Bool := bitOf c.w0 46
def Cmd.sigCtr (c : Cmd) : Nat := bits c.w0 18 11
def Cmd.sigDelta (c : Cmd) : Nat := bits c.w0 10 3
def Cmd.sigMode (c : Cmd) : Nat := bits c.w0 2 0

/-- Counter, condition and value of a wait. -/
structure WaitF where
  ctr : Nat
  cond : Nat    -- 0 none, 1 GE, 2 EQ, 3 CLAIM
  val : Nat
  deriving DecidableEq, Repr

def Cmd.waitA (c : Cmd) : WaitF := ⟨bits c.w0 44 37, bits c.w0 36 35, bits c.w0 34 19⟩
def Cmd.waitB (c : Cmd) : WaitF := ⟨bits c.w1 63 56, bits c.w1 55 54, bits c.w1 53 38⟩
def Cmd.waits (c : Cmd) : List WaitF := [c.waitA, c.waitB].filter (fun w => w.cond != 0)

/-- Field of OPA. -/
def Cmd.opa (c : Cmd) (hi lo : Nat) : Nat := bits c.w1 hi lo

/-- The operation of a command, if its OPCODE is assigned. -/
def Cmd.op? (c : Cmd) : Option Opcode := Opcode.ofCode c.opcode

/-- The fields of a command, read back from its words. -/
def Cmd.fields (c : Cmd) : CmdFields :=
  { pred := c.w0.extractLsb' 47 3, psense := c.w0.getLsbD 46,
    waitA := ⟨c.w0.extractLsb' 37 8, c.w0.extractLsb' 35 2, c.w0.extractLsb' 19 16⟩,
    sigCtr := c.w0.extractLsb' 11 8, sigDelta := c.w0.extractLsb' 3 8, sigMode := c.w0.extractLsb' 0 3,
    waitB := ⟨c.w1.extractLsb' 56 8, c.w1.extractLsb' 54 2, c.w1.extractLsb' 38 16⟩,
    opa := c.w1.extractLsb' 0 38, w2 := c.w2, w3 := c.w3 }

/-- The decode checks (10 R210): the operation, or none where they fail (ST_OPCODE). -/
def decodeChecks (c : Cmd) : Option Opcode :=
  match c.op? with
  | none => none
  | some op =>
    if op.engine ≠ c.engine then none
    else if bitOf c.w0 45 then none
    else if 4 ≤ c.sigMode then none
    else if c.sigMode ≠ 0 ∧ c.sigDelta = 0 then none
    else if c.waitA.cond = 3 ∧ c.waitB.cond = 3 ∧ c.waitA.ctr = c.waitB.ctr then none
    else some op

/-- Decode of a command: its operation and fields. -/
def decodeCmd (c : Cmd) : Option (Opcode × CmdFields) := (decodeChecks c).map (fun op => (op, c.fields))

/-- A command from its 32 bytes (10, the command format). -/
def Cmd.ofBytes (bs : List Byte) : Cmd :=
  let w := fun i => BitVec.ofNat 64 (leNat ((bs.drop (8 * i)).take 8))
  ⟨w 0, w 1, w 2, w 3⟩

/-- The 32 bytes of a command. -/
def Cmd.bytes (c : Cmd) : List Byte := [c.w0, c.w1, c.w2, c.w3].flatMap (fun w => natLE 8 w.toNat)

/-! Control-core operand fields (11) -/
def Cmd.pd (c : Cmd) : Nat := c.opa 37 35
def Cmd.rd (c : Cmd) : Nat := c.opa 34 30
def Cmd.ra (c : Cmd) : Nat := c.opa 29 25
def Cmd.rb (c : Cmd) : Nat := c.opa 24 20
def Cmd.ib (c : Cmd) : Bool := c.opa 19 19 == 1
def Cmd.fn (c : Cmd) : Nat := c.opa 18 15
def Cmd.num (c : Cmd) : Nat := c.opa 14 7
def Cmd.cnt (c : Cmd) : Nat := c.opa 6 0
def Cmd.m (c : Cmd) : Nat := bits c.w3 7 0

/-- CONSUME bits of an engine command (11 R237). -/
def Cmd.consume1 (c : Cmd) : Bool := c.opa 0 0 == 1
def Cmd.consume2 (c : Cmd) : Bool := c.opa 1 1 == 1

/-! ### Stream descriptors (12 R249 to R252) -/

/-- A descriptor: BASE and five dimensions, innermost first: count and signed stride. -/
structure Desc where
  base : Nat
  dims : List (Nat × Int)
  deriving DecidableEq, Repr

/-- The fields of a 320-bit descriptor (R249). -/
def Desc.ofBits (v : BitVec 320) : Desc :=
  { base := bits v 39 0
    dims := [(bits v 55 40 + 1, signed 40 (bits v 95 56)), (bits v 111 96 + 1, signed 40 (bits v 151 112)),
      (bits v 167 152 + 1, signed 40 (bits v 207 168)), (bits v 223 208 + 1, signed 40 (bits v 263 224)),
      (bits v 279 264 + 1, signed 40 (bits v 319 280))] }

/-- U_total (R249). -/
def Desc.total (d : Desc) : Nat := d.dims.foldl (fun a x => a * x.1) 1

/-- Addresses of the units in visit order, dimension 0 fastest (R250). -/
def unitAddrs (ds : List (Nat × Int)) (b : Int) : List Int :=
  ds.foldl
    (fun (acc : List Int) x => (List.range x.1).flatMap (fun (i : Nat) => acc.map (fun a => a + (i : Int) * x.2))) [b]

def Desc.addrs (d : Desc) : List Int := unitAddrs d.dims (d.base : Int)

/-- Check 1 of R252: BASE and the used strides are multiples of U; a sub-byte operand has unit stride. -/
def Desc.aligned (d : Desc) (u : Nat) (subByte : Bool) : Bool :=
  decide (d.base % u = 0) && d.dims.all (fun x => x.1 == 1 || decide (x.2 % (u : Int) = 0))
  && (!subByte || (match d.dims with
    | (n, st) :: _ => n == 1 || st == 1
    | [] => true))

/-- Check 3 of R252: a destination has no zero stride in a used dimension. -/
def Desc.noZeroStride (d : Desc) : Bool := d.dims.all (fun x => x.1 == 1 || x.2 != 0)

/-- The region a local address lies in: 0 the HBM range, 1 + c the 24 MiB of core c's scratchpad (R252). -/
def regionOf (a : Int) : Option Nat :=
  if a < 0 then none
  else
    let n := a.toNat
    if inHbm n then some 0
    else if 0xC000000000 ≤ n ∧ n < 0xC000000000 + 96 * 0x2000000 ∧ (n - 0xC000000000) % 0x2000000 < 0x1800000 then
      some (1 + (n - 0xC000000000) / 0x2000000)
    else none

/-- Do all units, whole, lie in one region? Then which (check 2 of R252). -/
def Desc.region (d : Desc) (u : Nat) : Option Nat :=
  match regionOf (d.base : Int) with
  | none => none
  | some r =>
    if d.addrs.all (fun a => regionOf a == some r && regionOf (a + (u : Int) - 1) == some r) then some r else none

/-- The drawer of an address of a core's scratchpad. -/
def drawerOfAddr (c : Nat) (a : Int) : Nat := (a.toNat - spBase c) / drawerBytes

/-- The drawers a descriptor touches on a core, each once. -/
def Desc.drawers (d : Desc) (c u : Nat) : List Nat :=
  d.addrs.foldl (fun acc a => addOnce (drawerOfAddr c (a + (u : Int) - 1)) (addOnce (drawerOfAddr c a) acc)) []

/-- The values of `u`-byte units at addresses. -/
def State.readUnits (s : State) (as : List Int) (u : Nat) : List Nat := as.map (fun a => s.readLE a.toNat u)

/-- The copy of descriptor `n` that a command carries (R251). -/
def QCmd.desc (q : QCmd) (n : Nat) : Desc :=
  Desc.ofBits (((q.descs.find? (fun e => e.1 == n)).map (·.2)).getD 0)

/-! ### Runs of drawers -/

/-- `n` drawers from `d`. -/
def drawerRun (d n : Nat) : List Nat := (List.range n).map (· + d)

/-- The drawers of an object of `k` limbs of 2^log2n residues from drawer `d` (03 R69). -/
def objDrawers (d k log2n : Nat) : List Nat := drawerRun d (k * limbDrawers log2n)

/-- Does every drawer of a run lie within the scratchpad, the context's share and a port's groups? -/
def State.drawersIn (s : State) (c x port : Nat) (ds : List Nat) : Bool :=
  ds.all (fun d => decide (d < 256) && s.drawerInShare c x d && s.portOf c d == port)

/-- Address of residue `k` of limb number `i` of a run from drawer `d` (03 R69: limbs below one drawer
use the start of their drawer). -/
def limbAddr (c d log2n i : Nat) : Nat := drawerAddr c (d + i * limbDrawers log2n)

/-- The residues of limb `i` of a run. -/
def State.readLimb (s : State) (c d log2n i : Nat) : List Nat :=
  (List.range (2 ^ log2n)).map (fun k => s.readLE (limbAddr c d log2n i + 6 * k) 6)

/-! ### Writing to the scratchpad: parity (09 R181, R203) -/

/-- Store bytes; a written byte has correct parity, and an armed SP_INJECT spoils the first byte of the next
write into its drawer (09 R203). -/
def State.store (s : State) (a : Nat) (bs : List Byte) : State :=
  let s := { (s.writeBytes a bs) with
    badpar := s.badpar.filter (fun x => !(decide (a ≤ x) && decide (x < a + bs.length))) }
  match regionOf (a : Int) with
  | some (r + 1) =>
    if bitOf (s.reg .spInject r) 8 then
      let d := s.rf .spInject r 0 7 0
      let lo := max a (drawerAddr r d)
      if lo < a + bs.length ∧ lo < drawerAddr r d + drawerBytes then
        { (s.setRf .spInject r 0 8 8 0) with badpar := lo :: s.badpar }
      else s
    else s
  | _ => s

/-- Store a little-endian value. -/
def State.storeLE (s : State) (a n v : Nat) : State := s.store a (natLE n v)

/-- Store values at addresses in visit order: a later unit stands (12 R252). -/
def State.storeUnits (s : State) (as : List Int) (u : Nat) (vs : List Nat) : State :=
  (as.zip vs).foldl (fun s e => s.storeLE e.1.toNat u e.2) s

/-- Store a limb of a run. -/
def State.storeLimb (s : State) (c d log2n i : Nat) (vs : List Nat) : State :=
  s.store (limbAddr c d log2n i) (vs.flatMap (fun v => natLE 6 v))

/-- The first address with wrong parity among the drawers read (09 R200). -/
def State.parityHit (s : State) (c : Nat) (ds : List Nat) : Option Nat :=
  s.badpar.find? (fun a => match regionOf (a : Int) with
    | some (r + 1) => r == c && (drawerOfAddr c (a : Int)) ∈ ds
    | _ => false)

end Sys2Proof.Machine
end

