-- ==== Sys2Proof/Machine/Plan.lean ====
section
/-!
DEFINITION. What the issue of a command decides: its verdict and the drawers it reads, writes, holds and
consumes, with what it latches (spec 10 R207, 11 R237, 02 R52). The engines' files fill plans in; the life
of a command runs on them.
-/
namespace Sys2Proof.Machine

/-- The outcome of the issue checks. -/
inductive Verdict where
  | ok
  | wait                    -- waits at issue (03 R63)
  | halt (st : Nat)         -- a halting status; nothing moves
  | tarnish (st : Nat)      -- a tarnishing status (02 R51)
  deriving DecidableEq, Repr

/-- A plan. -/
structure Plan where
  v : Verdict := .ok
  srcs : List Nat := []
  dsts : List Nat := []
  held : List Nat := []
  cons : List Nat := []
  peer : Option (Nat × List Nat) := none
  hazard : List Nat := []
  inDr : List (Nat × Nat) := []
  inCut : Nat := 0
  outDr : List (List (Nat × Nat)) := []
  lat : Latch := {}
  deriving DecidableEq, Repr

/-- A plan that halts. -/
def Plan.fail (st : Nat) : Plan := { v := .halt st }

/-- The first condition that does not hold, with its status. -/
def firstFail : List (Bool × Nat) → Option Nat
  | [] => none
  | (ok, st) :: cs => if ok then firstFail cs else some st

/-- Continue with `p` if every condition holds; else halt with the first failing one's status. -/
def Plan.checks (cs : List (Bool × Nat)) (p : Plan) : Plan :=
  match firstFail cs with
  | some st => .fail st
  | none => p

/-! ### Tables and profiles -/

def State.table (s : State) (t : Nat) : TableSlot := Tab.get {} s.tables t
def State.setTable (s : State) (t : Nat) (v : TableSlot) : State := { s with tables := Tab.set {} s.tables t v }

/-- The resident profile of a slot; 16 to 255 name none (02 R39). -/
def State.profile (s : State) (p : Nat) : Option Profile := if p < 16 then Tab.find? s.profs p else none

/-- The profile a header names. -/
def State.profOf (s : State) (h : Header) : Option Profile := s.profile h.profile

/-- The bank latched for a profile. -/
def State.bankOf (s : State) (p : Option Profile) : Bank :=
  match p with
  | some p => (s.table p.slot).bank
  | none => {}

/-- Does a header name a resident profile whose table is not active? Then the command waits (03 R63). -/
def State.tableWait (s : State) (p : Option Profile) : Bool :=
  match p with
  | some p => !(s.table p.slot).active
  | none => false

def HdrFail.status : HdrFail → Nat
  | .header => stHeader
  | .profile => stProfile

/-- The header checks of one input as a plan step: waits where checks 1 to 4 pass and the table is not
active; halts on the first failure (02 R41, 03 R63). -/
def Plan.header (s : State) (h : Header) (p : Plan) : Plan :=
  let pr := s.profOf h
  if !h.checks1to4 then .fail stHeader
  else if s.tableWait pr then { v := .wait }
  else match h.check pr (s.bankOf pr) with
    | some f => .fail f.status
    | none => p

/-- Are the fields that give an object's size in their legal ranges (02 R52)? -/
def Header.sized (h : Header) : Bool :=
  decide (1 ≤ h.polys ∧ 1 ≤ h.limbs ∧ h.limbs ≤ 63 ∧ 12 ≤ h.log2n ∧ h.log2n ≤ 17)

/-- The drawer run of an object for the memory checks (02 R52): the named drawer alone where the header's
size fields are out of range. -/
def Header.run (h : Header) (d : Nat) : List Nat :=
  if h.sized then objDrawers d (h.polys * h.limbs) h.log2n else [d]

/-- First-drawer alignment (03 R69). -/
def Header.runAligned (h : Header) (d : Nat) : Bool := !h.sized || d % limbDrawers h.log2n == 0

/-- The scale and budget checks of an operation that keeps both, with `l` limbs after it: the first tarnishing status
(02 R45, R48, R50). DEDUCED: 11's status columns of NTTO, INTTO and HDROP leave both out, R45 and R50 except no operation
but Anneal. -/
def Header.keepStatus (h : Header) (p : Option Profile) (b : Bank) (l : Nat) : Option Nat :=
  match p with
  | none => none
  | some p => firstFail
      [(!(h.isCkks && scaleTooLarge h.scale (p.qs b l)), stScale),
       (decide (p.floor ≤ h.budget) && (h.isPt || decide (p.floor < h.budget)), stBudget)]

/-- Two runs are equal or disjoint (03 R75). -/
def sameOrDisjoint (a b : List Nat) : Bool := a == b || a.all (fun d => !(d ∈ b))

/-- Set consume, in place or claimed destinations (03 R75, 09 R191). -/
def Plan.runs (p : Plan) (src dst : List Nat) (consume : Bool) : Plan :=
  if src = dst then { p with srcs := src, held := src }
  else { p with srcs := src, dsts := dst, cons := if consume then src else [] }

/-- Each input's latched profile and bank, and the result headers. -/
def Plan.latched (p : Plan) (s : State) (h : Header) (outs : List (Nat × Nat × Header)) : Plan :=
  let pr := s.profOf h
  { p with lat := { p.lat with prof := pr, bank := s.bankOf pr, outs := outs } }

end Sys2Proof.Machine
end

