-- ==== Sys2Proof/Machine/Draw.lean ====
section
/-!
DEFINITION. The drawbench: pass commands DBCHAIN and DBREDUCE (spec 08 R162 to R176) and the object
commands (08 R177, R178; scale and budget by 02 R45 to R50).
-/
namespace Sys2Proof.Machine

/-! ### Chain entries (08 R165) -/

/-- Word `w` of the latched chain entry. -/
def Latch.chainW (l : Latch) (w : Nat) : W32 := (l.chain[w]?).getD 0

def Latch.mode (l : Latch) : Nat := bits (l.chainW 0) 31 30
def Latch.afirst (l : Latch) : Bool := bitOf (l.chainW 0) 29
def Latch.maskzero (l : Latch) : Bool := bitOf (l.chainW 0) 28
def Latch.masksrc (l : Latch) : Nat := bits (l.chainW 0) 27 26
def Latch.mreg (l : Latch) : Nat := bits (l.chainW 0) 25 21
def Latch.hist (l : Latch) : Bool := bitOf (l.chainW 0) 20
def Latch.hslot (l : Latch) : Nat := bits (l.chainW 0) 19 16
def Latch.layerNo (l : Latch) : Nat := bits (l.chainW 0) 15 10
def Latch.layop (l : Latch) : Nat := bits (l.chainW 0) 9 8
def Latch.lossop (l : Latch) : Nat := bits (l.chainW 0) 7 6
def Latch.xfmt (l : Latch) : Nat := bits (l.chainW 1) 31 28
def Latch.yfmt (l : Latch) : Nat := bits (l.chainW 1) 27 24
def Latch.ofmt (l : Latch) : Nat := bits (l.chainW 1) 23 20
def Latch.iblk (l : Latch) : Nat := bits (l.chainW 1) 19 18
def Latch.oblk (l : Latch) : Nat := bits (l.chainW 1) 17 16
def Latch.ysrc (l : Latch) : Nat := bits (l.chainW 1) 15 14
def Latch.csrc (l : Latch) : Nat := bits (l.chainW 1) 13 12
def Latch.cbase (l : Latch) : Nat := bits (l.chainW 1) 11 6
def Latch.cregNo (l : Latch) : Nat := bits (l.chainW 1) 5 1
def Latch.mulop (l : Latch) : Nat := bits (l.chainW 2) 31 28
def Latch.addop (l : Latch) : Nat := bits (l.chainW 2) 27 24
def Latch.cmpop (l : Latch) : Nat := bits (l.chainW 2) 23 20
def Latch.polyop (l : Latch) : Nat := bits (l.chainW 2) 19 16
def Latch.convop (l : Latch) : Nat := bits (l.chainW 2) 15 12
def Latch.pdeg (l : Latch) : Nat := bits (l.chainW 2) 7 4
def Latch.ptab (l : Latch) : Nat := bits (l.chainW 2) 3 0
def Latch.pcregNo (l : Latch) : Nat := bits (l.chainW 3) 31 27
def Latch.pscale (l : Latch) : Nat := bits (l.chainW 3) 26 21
def Latch.liftsrc (l : Latch) : Nat := bits (l.chainW 3) 20 15

/-- Latched CLEAR_CFG, LAYER and LOSS_SCALE fields (07 R160). -/
def Latch.hbase (l : Latch) : Int := signed 8 (bits l.clearCfg 15 8)
def Latch.ovfInf (l : Latch) : Bool := bitOf l.clearCfg 1
def Latch.strict (l : Latch) : Bool := bitOf l.clearCfg 0
def Latch.shift (l : Latch) : Int := signed 8 (bits l.layer 7 0)
def Latch.lossExp (l : Latch) : Int := signed 8 (bits l.loss 7 0)

/-- The lift is the compare/select operation 0x7 of the modular mode (08 R167). -/
def Latch.lift (l : Latch) : Bool := l.mode == 0 && l.cmpop == 7

/-- An operation of the entry reads Y (08 R167, R168). -/
def Latch.readsY (l : Latch) : Bool :=
  l.mulop == 1 || l.mulop == 3 || l.addop ∈ [1, 2, 3] || (l.mode == 1 && l.cmpop ∈ [1, 2, 5])

/-- An operation of the entry reads C (08 R167, R168). -/
def Latch.readsC (l : Latch) : Bool :=
  l.mulop == 2 || l.addop ∈ [4, 5] || (l.mode == 1 && (l.cmpop ∈ [3, 4, 6] || l.convop == 1))

/-- Does the entry keep masked elements (08 R168)? -/
def Latch.keepMode (l : Latch) : Bool := l.masksrc != 0 && !l.maskzero

/-- No field holds a reserved or illegal value, and the fields fit together (08 R168). `reduce` is DBREDUCE,
which writes no Z. -/
def Latch.chainOk (l : Latch) : Bool :=
  decide (l.mode ≤ 1 ∧ l.masksrc ≤ 2 ∧ l.mreg % 2 = 0 ∧ l.layop ≤ 2 ∧ l.lossop ≤ 2 ∧ l.xfmt ≤ 11 ∧ l.yfmt ≤ 11
    ∧ l.ofmt ≤ 11 ∧ l.ysrc ≤ 1 ∧ l.csrc ≤ 2 ∧ l.ptab ≤ 7 ∧ l.addop ≤ 6)
  && (if l.mode = 0 then
        (l.mulop ∈ [0, 1, 2, 4]) && (l.cmpop ∈ [0, 7]) && decide (l.polyop ≤ 1)
        && l.xfmt == 0 && l.yfmt == 0 && l.ofmt == 0 && !l.hist && l.layop == 0 && l.lossop == 0 && l.convop == 0
      else
        (l.mulop ∈ [0, 1, 2, 4]) && decide (l.cmpop ≤ 6) && (l.polyop ∈ [0, 2]) && decide (l.convop ≤ 1)
        && l.xfmt != 0 && l.yfmt != 0 && l.ofmt != 0 && l.csrc != 2)
  && (!l.readsY || l.ysrc == 1) && (!l.readsC || l.csrc != 0)
  && (l.masksrc != 2 || (l.mode == 1 && l.cmpop ∈ [5, 6]))
  && (!l.keepMode || l.ofmt ∈ [0x0, 0x1, 0x2, 0x9, 0xB])
  && (!l.strict || ((!(fmtScaled l.xfmt || (l.ysrc == 1 && fmtScaled l.yfmt)) || l.iblk == 1)
        && (!fmtScaled l.ofmt || l.oblk == 1)))
  && (l.polyop != 2 || decide (1 ≤ l.pdeg))

/-! ### Pass operands (11, drawbench pass operand words) -/

def Cmd.dXd (c : Cmd) : Nat := bits c.w2 63 58
def Cmd.dYd (c : Cmd) : Nat := bits c.w2 57 52
def Cmd.dZd (c : Cmd) : Nat := bits c.w2 51 46
def Cmd.dXsd (c : Cmd) : Nat := bits c.w2 45 40
def Cmd.dYsd (c : Cmd) : Nat := bits c.w2 39 34
def Cmd.dZsd (c : Cmd) : Nat := bits c.w2 33 28
def Cmd.dChain (c : Cmd) : Nat := bits c.w2 27 22
def Cmd.dSlot (c : Cmd) : Nat := bits c.w3 63 62
def Cmd.dFirst (c : Cmd) : Nat := bits c.w3 61 56
def Cmd.dCount (c : Cmd) : Nat := bits c.w3 55 49
def Cmd.dLen (c : Cmd) : Nat := 128 * bits c.w3 48 38
def Cmd.dE (c : Cmd) : Nat := bits c.w3 31 0
def Cmd.dRd (c : Cmd) : Nat := c.opa 37 33
def Cmd.dRedop (c : Cmd) : Nat := c.opa 32 30

/-- Entries of the constant file that a pass uses: one a limb; in clear mode one (08 R164). -/
def Latch.constCount (l : Latch) (w : Cmd) : Nat := if l.mode = 0 then w.dCount else 1

/-- The latch of a pass: chain entry, constants, polynomial entry and scalar registers (08 R164), with the
clear-mode registers (07 R150 to R156). -/
def passLatch (s : State) (c : Nat) (q : QCmd) : Latch :=
  let e := q.cmd.dChain
  let x := s.context c q.ctx
  let l0 : Latch := { chain := [s.reg .chainW0 c e, s.reg .chainW1 c e, s.reg .chainW2 c e, s.reg .chainW3 c e] }
  { l0 with
    bank := (s.table q.cmd.dSlot).bank
    consts := if l0.csrc = 2 then
        (List.range (l0.constCount q.cmd)).map (fun i =>
          (s.reg .constfLo c (l0.cbase + i)).toNat + 2 ^ 32 * s.rf .constfHi c (l0.cbase + i) 15 0) else []
    poly := (List.range 16).map (fun j => s.reg .polyt c (16 * l0.ptab + j))
    creg := x.reg l0.cregNo
    pcreg := x.reg l0.pcregNo
    mlo := x.reg l0.mreg
    mhi := x.reg (l0.mreg + 1)
    clearCfg := s.reg .clearCfg c
    layer := s.reg .layer c l0.layerNo
    loss := s.reg .lossScale c q.ctx }

/-- Scalar registers a pass copies at issue (08 R164). -/
def passScalars (s : State) (c : Nat) (q : QCmd) : List Nat :=
  let e := q.cmd.dChain
  let l : Latch := { chain := [s.reg .chainW0 c e, s.reg .chainW1 c e, s.reg .chainW2 c e, s.reg .chainW3 c e] }
  (if l.csrc = 1 then [l.cregNo] else []) ++ (if l.mode = 0 ∧ l.polyop = 1 then [l.pcregNo] else [])
    ++ (if l.masksrc = 1 then [l.mreg, l.mreg + 1] else [])

/-- Is a table number of `per` entries a context within its share (08 R164)? -/
def State.tabInShare (s : State) (c x per n : Nat) : Bool := if s.modeM c then n / per == x else x == 0

/-- Units of an operand of `e` elements. -/
def fmtUnits (fmt e : Nat) : Nat := if fmtBits fmt < 8 then ceilDiv (e * fmtBits fmt) 8 else e

/-- A stream of a pass: descriptor number, format unit, units, port role, sub-byte, destination. -/
structure Strm where
  dn : Nat
  unit : Nat
  units : Nat
  port : Nat
  subByte : Bool
  dest : Bool
  deriving DecidableEq, Repr

/-- The streams of a pass (08 R161): X in IN0, Y in IN1, Z in OUT, each with its scales. -/
def passStreams (l : Latch) (w : Cmd) (n : Nat) (reduce : Bool) : List Strm :=
  let val := fun (dn fmt port : Nat) (dest : Bool) =>
    (Strm.mk dn (fmtUnit fmt) (fmtUnits fmt n) port (decide (fmtBits fmt < 8)) dest)
  let scl := fun (dn blk port : Nat) (dest : Bool) => (Strm.mk dn 1 (ceilDiv n (blkSize blk)) port false dest)
  [val w.dXd l.xfmt 2 false]
  ++ (if fmtScaled l.xfmt then [scl w.dXsd l.iblk 2 false] else [])
  ++ (if l.ysrc = 1 then [val w.dYd l.yfmt 3 false] ++ (if fmtScaled l.yfmt then [scl w.dYsd l.iblk 3 false] else []) else [])
  ++ (if reduce then [] else [val w.dZd l.ofmt 4 true]
      ++ (if fmtScaled l.ofmt then [scl w.dZsd l.oblk 4 true] else []))

/-- Bounds of a stream of an engine: in the core's own scratchpad, in the port's groups, in the context's
share; a destination has no zero stride (12 R252, 09 R182, R187). -/
def State.streamOk (s : State) (c x : Nat) (q : QCmd) (t : Strm) : Bool :=
  let d := q.desc t.dn
  d.region t.unit == some (1 + c) && s.drawersIn c x t.port (d.drawers c t.unit) && (!t.dest || d.noZeroStride)

/-- Elements of a pass. -/
def passLength (l : Latch) (w : Cmd) : Nat := if l.mode = 0 then w.dCount * w.dLen else w.dE

/-- Issue of DBCHAIN and DBREDUCE (11 R237, 08 R178). -/
def planPass (reduce : Bool) (s : State) (c : Nat) (q : QCmd) : Plan :=
  let w := q.cmd
  let l := passLatch s c q
  let x := q.ctx
  let n := passLength l w
  let ts := passStreams l w n reduce
  let t := s.table w.dSlot
  let cn := l.constCount w
  let srcs := (ts.filter (fun t => !t.dest)).foldl (fun acc t => ((q.desc t.dn).drawers c t.unit).foldl (fun a d => addOnce d a) acc) []
  let dsts := (ts.filter (fun t => t.dest)).foldl (fun acc t => ((q.desc t.dn).drawers c t.unit).foldl (fun a d => addOnce d a) acc) []
  let xs := (ts.filter (fun t => t.port == 2)).flatMap (fun t => (q.desc t.dn).drawers c t.unit)
  let ys := (ts.filter (fun t => t.port == 3)).flatMap (fun t => (q.desc t.dn).drawers c t.unit)
  .checks
    [(s.tabInShare c x 16 w.dChain && ts.all (fun t => s.descInShare c x t.dn)
        && (l.csrc != 2 || cn == 0 || (decide (l.cbase + cn ≤ 64) && s.tabInShare c x 16 l.cbase && s.tabInShare c x 16 (l.cbase + cn - 1)))
        && (l.polyop != 2 || s.tabInShare c x 2 l.ptab)
        && (!l.hist || s.tabInShare c x 4 l.hslot) && (l.layop == 0 || s.tabInShare c x 16 l.layerNo), stBounds),
     ((if l.mode = 0 then decide (1 ≤ w.dCount ∧ w.dCount ≤ 64 ∧ 128 ≤ w.dLen ∧ w.dLen ≤ 131072) else decide (1 ≤ w.dE))
        && (!reduce || decide (w.dRedop ≤ 5)), stShape),
     (ts.all (fun t => (q.desc t.dn).aligned t.unit t.subByte), stAlign),
     (ts.all (fun t => s.streamOk c x q t), stBounds),
     (l.chainOk && ts.all (fun t => (q.desc t.dn).total == t.units) && (!reduce || l.mode == 1), stShape)] <|
  if l.mode = 0 && !t.active then { v := .wait }
  else .checks
    [(l.mode != 0 || (decide (w.dFirst + w.dCount ≤ t.bank.count) && (!l.lift || decide (l.liftsrc < t.bank.count))), stProfile),
     (!l.keepMode || reduce || dsts.all (fun d => ((s.core c).drawer d).tag == .full), stTag)] <|
  { srcs := srcs
    dsts := if l.keepMode then [] else dsts
    held := if l.keepMode then dsts else []
    cons := (if w.consume1 then xs else []) ++ (if w.consume2 then ys else [])
    lat := l }

/-! ### The stations, modular (08 R163, R167, R169) -/

/-- Centred lift of a residue modulo `qs` into [0, q) (08 R169). -/
def centredLift (qs q r : Nat) : Nat :=
  if 2 * r < qs then r % q else ((((r : Int) - (qs : Int)) % (q : Int))).toNat

/-- round(c × 2^s), c a signed 64-bit value with 56 fractional bits, ties away from zero (08 R171). -/
def scaledCoef (c : W64) (sc : Nat) : Int :=
  let v := c.toInt
  let a : Nat := (2 * (v.natAbs * 2 ^ sc) + 2 ^ 56) / 2 ^ 57
  if v < 0 then -(a : Int) else (a : Int)

/-- Multiply station, modular. -/
def mulStation (op q t y c : Nat) : Nat :=
  match op with
  | 1 => t * y % q
  | 2 => t * c % q
  | 4 => t * t % q
  | _ => t

/-- Add/sub station, modular. -/
def addStation (op q t y c : Nat) : Nat :=
  match op with
  | 1 => addMod q t y
  | 2 => subMod q t y
  | 3 => subMod q y t
  | 4 => addMod q t c
  | 5 => subMod q t c
  | 6 => subMod q 0 t
  | _ => t

/-- One element of a modular pass of limb prime `q`, before the mask. -/
def modElem (l : Latch) (q x y c : Nat) : Nat :=
  let m := if l.lift then l.bank.q l.liftsrc else q
  let x := x % m
  let y := y % m
  let c := c % m
  let t := if l.afirst then mulStation l.mulop m (addStation l.addop m x y c) y c
           else addStation l.addop m (mulStation l.mulop m x y c) y c
  let t := if l.lift then centredLift m q t else t
  if l.polyop = 1 then (t + (scaledCoef l.pcreg l.pscale % (q : Int)).toNat * x) % q else t

/-- Is element `e` masked by the lane mask (08 R174)? -/
def Latch.laneMasked (l : Latch) (e : Nat) : Bool :=
  l.masksrc == 1 && !(if e % 128 < 64 then l.mlo.getLsbD (e % 128) else l.mhi.getLsbD (e % 128 - 64))

/-- The constant of limb `i`. -/
def Latch.constOf (l : Latch) (i : Nat) : Nat := if l.csrc = 2 then (l.consts[i]?).getD 0 else l.creg.toNat

/-- Commit of a modular pass: elements in order, masked ones zero or kept (08 R174, R175). -/
def runModPass (s : State) (c : Nat) (q : QCmd) : State :=
  let l := q.lat
  let w := q.cmd
  let xs := s.readUnits (q.desc w.dXd).addrs 6
  let ys := if l.ysrc = 1 then s.readUnits (q.desc w.dYd).addrs 6 else []
  let zs := ((q.desc w.dZd).addrs.zip xs).zipIdx
  zs.foldl (fun (s : State) z =>
    let e := z.2
    let i := e / w.dLen
    if l.laneMasked e then (if l.maskzero then s.storeLE z.1.1.toNat 6 0 else s)
    else s.storeLE z.1.1.toNat 6
      (modElem l (l.bank.q (w.dFirst + i)) z.1.2 ((ys[e]?).getD 0) (l.constOf i))) s

/-! ### The stations, clear (08 R167, R171 to R174) -/

/-- A lane after the compare/select station: value and flag. -/
structure Lane where
  t : Nat
  flag : Bool := false
  masked : Bool := false
  deriving DecidableEq, Repr

/-- Multiply and add/sub stations, fused where the multiply comes first (08 R172). -/
def clearMulAdd (l : Latch) (x y c : Nat) : Nat :=
  let mulArg : Option Nat := match l.mulop with
    | 1 => some y
    | 2 => some c
    | 4 => some x
    | _ => none
  let add := fun t => match l.addop with
    | 1 => fadd t y
    | 2 => fsub t y
    | 3 => fsub y t
    | 4 => fadd t c
    | 5 => fsub t c
    | 6 => fneg t
    | _ => t
  match mulArg with
  | none => add x
  | some a =>
    if l.afirst then
      let t := add x
      (match l.mulop with
        | 4 => fmul t t
        | _ => fmul t a)
    else match l.addop with
      | 1 => ffma x a y
      | 2 => ffma x a (fneg y)
      | 3 => ffma (fneg x) a y
      | 4 => ffma x a c
      | 5 => ffma x a (fneg c)
      | 6 => fneg (fmul x a)
      | _ => fmul x a

/-- Compare/select station, clear. -/
def clearCmp (op t y c : Nat) : Nat × Bool :=
  match op with
  | 1 => (fmax t y, false)
  | 2 => (fmin t y, false)
  | 3 => (fmax t c, false)
  | 4 => (fmin (fmax t (fneg c)) c, false)
  | 5 => (t, fltB y t)
  | 6 => (t, fltB c t)
  | _ => (t, false)

/-- Horner's rule from the highest degree (08 R171). -/
def horner (coefs : List W32) (deg t : Nat) : Nat :=
  ((List.range deg).reverse).foldl (fun acc j => ffma acc t ((coefs[j]?).getD 0).toNat) ((coefs[deg]?).getD 0).toNat

/-- The factors of the convert/scale station, in order (08 R173). -/
def clearScale (l : Latch) (t c : Nat) : Nat :=
  let t := if l.convop = 1 then fmul t c else t
  let t := if l.layop = 1 then fscale t l.shift else if l.layop = 2 then fscale t (-l.shift) else t
  if l.lossop = 1 then fscale t l.lossExp else if l.lossop = 2 then fscale t (-l.lossExp) else t

/-- One element of a clear pass, up to the mask station. -/
def clearElem (l : Latch) (e x y : Nat) : Lane :=
  let c := l.creg.toNat % 2 ^ 32
  let t := clearMulAdd l x y c
  let tf := clearCmp l.cmpop t y c
  let t := if l.polyop = 2 then horner l.poly l.pdeg tf.1 else tf.1
  { t := clearScale l t c, flag := tf.2, masked := l.laneMasked e || (l.masksrc == 2 && !tf.2) }

/-- The elements of a clear operand as FP32 patterns (07 R143, R148). -/
def State.readClear (s : State) (d : Desc) (fmt : Nat) (scales : List Nat) (blk n : Nat) : List Nat :=
  let units := s.readUnits d.addrs (fmtUnit fmt)
  let bytes := units.map (BitVec.ofNat 8)
  (List.range n).map (fun e =>
    let v := if fmtBits fmt < 8 then unpackElem (fmtBits fmt) bytes e else (units[e]?).getD 0
    toFp32 (readElem fmt v ((scales[e / blkSize blk]?).getD 0)))

/-- The lanes of a clear pass. -/
def passLanes (s : State) (q : QCmd) : List Lane :=
  let l := q.lat
  let w := q.cmd
  let n := w.dE
  let xsc := if fmtScaled l.xfmt then s.readUnits (q.desc w.dXsd).addrs 1 else []
  let ysc := if fmtScaled l.yfmt then s.readUnits (q.desc w.dYsd).addrs 1 else []
  let xs := s.readClear (q.desc w.dXd) l.xfmt xsc l.iblk n
  let ys := if l.ysrc = 1 then s.readClear (q.desc w.dYd) l.yfmt ysc l.iblk n else []
  xs.zipIdx.map (fun x => clearElem l x.2 x.1 ((ys[x.2]?).getD 0))

/-- Values converted for a write: elements, scales, and per value the saturation of 07 R150. -/
structure Conv where
  elems : List Nat
  scales : List Nat
  sat : List Bool
  nonfinite : Bool
  deriving DecidableEq, Repr

/-- Cut a list into blocks. -/
def blocksOf {α : Type} (n : Nat) (fuel : Nat) (l : List α) : List (List α) :=
  match fuel with
  | 0 => []
  | fuel + 1 => if l.isEmpty then [] else l.take n :: blocksOf n fuel (l.drop n)

/-- Convert FP32 values to a format (07 R145 to R147). -/
def convertAll (fmt : Nat) (ovfInf strict : Bool) (blk : Nat) (vs : List Nat) : Conv :=
  let fs := vs.map ofFp32
  match elemKind fmt with
  | none => ⟨[], [], [], false⟩
  | some k =>
    if fmtScaled fmt then
      let bs := (blocksOf (blkSize blk) (fs.length + 1) fs).map (fun b => convertBlock k (fmtEmax fmt) strict b)
      ⟨bs.flatMap (fun b => b.2.1), bs.map (fun b => b.1), bs.flatMap (fun b => b.2.1.map (fun _ => b.2.2)),
        bs.any (fun b => b.1 == 0xFF)⟩
    else match k with
      | .int8 => ⟨[], [], [], false⟩
      | .flt f =>
        let cs := fs.map (fun v => convertUnscaled f ovfInf v)
        ⟨cs.map (·.1), [], cs.map (·.2), cs.any (fun c => !(f.decode c.1).finite)⟩

/-- Add counts of values to a histogram slot, saturating (07 R150, R151); answers whether a count went to bin
62 or 63. -/
def State.histCount (s : State) (c h : Nat) (hbase : Int) (vs : List (Nat × Bool)) : State × Bool :=
  vs.foldl (fun a v =>
    let b := histBin hbase v.2 (ofFp32 v.1)
    (a.1.countReg .histBin c (64 * h + b) 1, a.2 || decide (62 ≤ b))) (s, false)

/-- Set the overflow flag of a context (07 R152). -/
def State.setOvf (s : State) (c x : Nat) : State := s.setRf .clearStatus c 0 x x 1

/-- Histogram and overflow effects of a converting write (07 R150 to R152). -/
def State.writeEffects (s : State) (c x : Nat) (hist : Bool) (hslot : Nat) (hbase : Int) (vs : List (Nat × Bool))
    (nonfinite : Bool) : State :=
  let r := if hist then s.histCount c hslot hbase vs else (s, false)
  if nonfinite || (r.2 && bitOf (s.reg .histCfg c hslot) 0) then r.1.setOvf c x else r.1

/-- Commit of a clear pass (08 R173 to R175). -/
def runClearPass (s : State) (c : Nat) (q : QCmd) : State :=
  let l := q.lat
  let w := q.cmd
  let ls := passLanes s q
  let vals := ls.map (fun a => if a.masked && l.maskzero then 0 else a.t)
  let cv := convertAll l.ofmt l.ovfInf l.strict l.oblk vals
  let za := (q.desc w.dZd).addrs
  let s1 :=
    if l.keepMode then
      (za.zip (cv.elems.zip ls)).foldl
        (fun (s : State) z => if z.2.2.masked then s else s.storeLE z.1.toNat (fmtUnit l.ofmt) z.2.1) s
    else if fmtBits l.ofmt < 8 then
      s.storeUnits za 1 ((packElems (fmtBits l.ofmt) cv.elems).map (·.toNat))
    else s.storeUnits za (fmtUnit l.ofmt) cv.elems
  let s2 := if fmtScaled l.ofmt then s1.storeUnits (q.desc w.dZsd).addrs 1 cv.scales else s1
  let counted := ((vals.zip cv.sat).zip ls).filterMap (fun v => if v.2.masked && !l.maskzero then none else some v.1)
  let bad := if l.keepMode then
      (cv.elems.zip ls).any (fun v => !v.2.masked && !(readElem l.ofmt v.1 127).finite) else cv.nonfinite
  s2.writeEffects c q.ctx l.hist l.hslot l.hbase counted bad

/-- Commit of DBCHAIN. -/
def runDbchain (s : State) (c : Nat) (q : QCmd) : State :=
  if q.lat.mode = 0 then runModPass s c q else runClearPass s c q

/-! ### Reductions (08 R176) -/

/-- The operation of an FP32 reduction and its value for an empty set. -/
def reduceOp (r a b : Nat) : Nat :=
  match r with
  | 0 => fadd a b
  | 1 => fmax a b
  | 2 => fmin a b
  | _ => fmax a (b % 2 ^ 31)

def reduceEmpty : Nat → Nat
  | 1 => fFp32.infCode true
  | 2 => fFp32.infCode false
  | _ => 0

/-- Combine lanes pairwise: lane i with i + w, for w halving (08 R176). -/
def foldLanes (r : Nat) : Nat → List Nat → List Nat
  | 0, l => l
  | k + 1, l => foldLanes r k ((List.range (2 ^ k)).map (fun i => reduceOp r ((l[i]?).getD 0) ((l[i + 2 ^ k]?).getD 0)))

/-- The value a reduction writes (08 R176). -/
def reduceLanes (redop : Nat) (ls : List Lane) : Nat :=
  let live := ls.zipIdx.filter (fun a => !a.1.masked)
  if redop = 4 then (live.filter (fun a => a.1.flag)).length
  else if redop = 5 then (live.filter (fun a => !(ofFp32 a.1.t).finite)).length
  else
    let lane := fun i => (live.filter (fun a => a.2 % 128 == i)).foldl (fun acc a => reduceOp redop acc a.1.t) (reduceEmpty redop)
    ((foldLanes redop 7 ((List.range 128).map lane))[0]?).getD 0

/-- Commit of DBREDUCE: the write of S[RD]. -/
def runDbreduce (s : State) (c : Nat) (q : QCmd) : State :=
  s.modContext c q.ctx (fun x => x.setReg q.cmd.dRd (BitVec.ofNat 64 (reduceLanes q.cmd.dRedop (passLanes s q))))

/-! ### Object commands (08 R177) -/

def Cmd.oX (c : Cmd) : Nat := bits c.w2 63 56
def Cmd.oY (c : Cmd) : Nat := bits c.w2 55 48
def Cmd.oZ (c : Cmd) : Nat := bits c.w2 47 40
def Cmd.oNeg (c : Cmd) : Bool := bitOf c.w3 6
def Cmd.oK (c : Cmd) : Nat := bits c.w3 5 0

/-- Second operand of an object command. -/
inductive ObjArg where
  | ct | pt | imm
  deriving DecidableEq, Repr

/-- What an object command needs and makes (08 R177, 02 R45 to R50). -/
structure ObjOp where
  arg : ObjArg
  mul : Bool          -- a product: SCALE adds; otherwise SCALE must be equal and is kept
  ntt : Bool          -- DOMAIN 1 required
  ctct : Bool         -- HMULC: POLYS 2 inputs, POLYS 3 result
  deriving DecidableEq, Repr

def objHadd : ObjOp := ⟨.ct, false, false, false⟩
def objHaddp : ObjOp := ⟨.pt, false, false, false⟩
def objHmulp : ObjOp := ⟨.pt, true, true, false⟩
def objHmulc : ObjOp := ⟨.ct, true, true, true⟩
def objHmuli : ObjOp := ⟨.imm, false, false, false⟩

/-- The result BUDGET before the floor test, in 1/8 bit (02 R48, R49). -/
def objBudget (o : ObjOp) (p : Profile) (b : Bank) (h1 h2 : Header) (k : Nat) : Int :=
  if p.scheme = 1 then
    match o.arg with
    | .imm => h1.budget
    | _ => combine h1.budget h2.budget - (if o.mul then 1 else 0)
  else
    let qs := p.qs b h1.limbs
    let e1 := bgvE qs h1.budget
    let e := match o.arg with
      | .imm => e1 + 8 * (k : Int)
      | .pt => if o.mul then e1 + (ceilLog2 8 p.ptmod : Int) - 8 + 8 * (p.log2n : Int) else e1 + (lossOf 0 : Int)
      | .ct => if o.mul then e1 + bgvE qs h2.budget + 8 * (p.log2n : Int) else combineE e1 (bgvE qs h2.budget)
    bgvBudget qs e

/-- The result SCALE (02 R45). -/
def objScale (o : ObjOp) (h1 h2 : Header) : Nat := if o.mul then h1.scale + h2.scale else h1.scale

/-- Is an input's KIND and POLYS one its position takes (08 R177)? -/
def objInputOk (o : ObjOp) (second : Bool) (h : Header) : Bool :=
  if second && o.arg == .pt then h.isPt && h.polys == 1
  else h.isCt && (!o.ctct || h.polys == 2)

/-- Checks 3 to 7 of R52 once headers and domain have passed: the first tarnishing status. -/
def objTarnish (o : ObjOp) (p : Profile) (b : Bank) (h1 h2 : Header) (k : Nat) : Option Nat :=
  let two := o.arg != .imm
  let qs := p.qs b h1.limbs
  let sc := objScale o h1 h2
  let bud := objBudget o p b h1 h2 k
  firstFail
    [(!(h1.tarnish || (two && h2.tarnish)), stTarnished),
     (o.arg != .ct || sameKey h1.keytag h2.keytag, stKeytag),
     (!two || (h1.limbs == h2.limbs && (o.arg != .ct || o.ctct || h1.polys == h2.polys)), stLevel),
     (p.scheme != 1 || ((!two || o.mul || h1.scale == h2.scale) && !scaleTooLarge sc qs), stScale),
     (decide (p.floor < h1.budget) && (o.arg != .ct || decide (p.floor < h2.budget))
       && budgetOk (p.scheme == 1) p.floor bud, stBudget)]

/-- The result header (08 R177). A BGV budget is clamped to its field as a CKKS one (DESIGN CHOICE, log entry 129). -/
def objHeader (o : ObjOp) (p : Profile) (b : Bank) (h1 h2 : Header) (k : Nat) : Header :=
  let h := if o.ctct then h1.withPolys 3 else h1
  let sc := objScale o h1 h2
  let h := if p.scheme = 1 then h.withScale (if sc ≤ 65535 then sc else Config.scaleOver h1.scale h2.scale % 65536) else h
  (h.withBudget (clampBudget (objBudget o p b h1 h2 k))).seal

/-- Limbs of the result. -/
def objPolysOut (o : ObjOp) (h1 : Header) : Nat := if o.ctct then 3 else h1.polys

/-- Issue of an object command (08 R177, R178; 02 R52). -/
def planObject (o : ObjOp) (s : State) (c : Nat) (q : QCmd) : Plan :=
  let w := q.cmd
  let two := o.arg != .imm
  let h1 := (s.core c).hdr w.oX
  let h2 := (s.core c).hdr w.oY
  let rx := h1.run w.oX
  let ry := if two then h2.run w.oY else []
  let rz := if h1.sized then objDrawers w.oZ (objPolysOut o h1 * h1.limbs) h1.log2n else [w.oZ]
  let k := if o.arg = .imm then w.oK else 0
  .checks
    [(s.drawerInShare c q.ctx w.oX && (!two || s.drawerInShare c q.ctx w.oY) && s.drawerInShare c q.ctx w.oZ, stBounds),
     (o.arg != .imm || decide (w.oK ≤ 47), stShape),
     (h1.runAligned w.oX && (!two || h2.runAligned w.oY) && h1.runAligned w.oZ, stAlign),
     (s.drawersIn c q.ctx 2 rx && s.drawersIn c q.ctx 3 ry && s.drawersIn c q.ctx 4 rz, stBounds)] <|
  .header s h1 <|
  .checks [(objInputOk o false h1, stHeader)] <|
  (fun (p : Plan) => if two then .header s h2 (.checks [(objInputOk o true h2, stHeader), (h1.profile == h2.profile, stProfile)] p) else p) <|
  .checks [((!two || h1.domain == h2.domain) && (!o.ntt || (h1.domain == 1 && h2.domain == 1)), stDomain)] <|
  match s.profOf h1 with
  | none => .fail stProfile
  | some p =>
    let b := (s.table p.slot).bank
    let outs := [(c, w.oZ, objHeader o p b h1 h2 k)]
    match objTarnish o p b h1 h2 k with
    | some st => Plan.latched { v := .tarnish st, dsts := rz } s h1 outs
    | none => Plan.latched
        { srcs := rx ++ ry
          dsts := rz
          cons := (if w.consume1 then rx else []) ++ (if two && w.consume2 then ry else []) } s h1 outs

/-- One output residue of an object command: polynomial `j` from the inputs' residues at a position. -/
def objResidue (op : Opcode) (w : Cmd) (q : Nat) (polys j : Nat) (x y : Nat → Nat) : Nat :=
  match op with
  | .hadd => addMod q (x j) (y j)
  | .hsub => subMod q (x j) (y j)
  | .haddp => if j = 0 then addMod q (x 0) (y 0) else x j % q
  | .hsubp => if j = 0 then subMod q (x 0) (y 0) else x j % q
  | .hmulp => mulMod q (x j) (y 0)
  | .hmulc =>
    if j = 0 then mulMod q (x 0) (y 0)
    else if j = 1 then addMod q (mulMod q (x 0) (y 1)) (mulMod q (x 1) (y 0))
    else mulMod q (x 1) (y 1)
  | .hmuli => if w.oNeg then subMod q 0 (x j * 2 ^ w.oK % q) else x j * 2 ^ w.oK % q
  | _ => x j % (if polys = 0 then 1 else q)

/-- Commit of an object command, limb by limb (02 R34: limb outermost). -/
def runObject (op : Opcode) (yPolys : Header → Nat) (s : State) (c : Nat) (q : QCmd) : State :=
  match q.lat.outs, q.lat.prof with
  | (_, _, h) :: _, some p =>
    let w := q.cmd
    let xp := if op = .hmulc then 2 else h.polys
    let yp := yPolys h
    (List.range (h.limbs * h.polys)).foldl (fun s m =>
      let i := m / h.polys
      let j := m % h.polys
      let pr := q.lat.bank.q (p.qFirst + i)
      s.storeLimb c w.oZ h.log2n m ((List.range h.n).map (fun k =>
        objResidue op w pr h.polys j
          (fun a => s.readLE (limbAddr c w.oX h.log2n (i * xp + a) + 6 * k) 6 % pr)
          (fun a => s.readLE (limbAddr c w.oY h.log2n (i * yp + a) + 6 * k) 6 % pr)))) s
  | _, _ => s

end Sys2Proof.Machine
end

