-- ==== Sys2Proof/Machine/Anvil.lean ====
section
/-!
DEFINITION. The anvil: tile shapes, TCFG, TLOAD, TMUL, TZERO, TDRAIN, BCONV and MMULM (spec 06 R120 to R141,
11 anvil operand words; formats by 07).
-/
namespace Sys2Proof.Machine

/-- Anvil port role (09 R203). -/
def portAnvil : Nat := 5

/-! ### Operand fields (11) -/
def Cmd.tA (c : Cmd) : Nat := c.opa 37 35
def Cmd.tB (c : Cmd) : Nat := c.opa 34 32
def Cmd.tAcc (c : Cmd) : Nat := c.opa 31 30
def Cmd.tInit (c : Cmd) : Bool := c.opa 29 29 == 1
def Cmd.tReuse (c : Cmd) : Bool := c.opa 28 28 == 1
def Cmd.tRelA (c : Cmd) : Bool := c.opa 27 27 == 1
def Cmd.tRelB (c : Cmd) : Bool := c.opa 26 26 == 1
def Cmd.tVd (c : Cmd) : Nat := bits c.w2 63 58
def Cmd.tSd (c : Cmd) : Nat := bits c.w2 57 52
def Cmd.tRows (c : Cmd) : Nat := bits c.w3 63 57 + 1
def Cmd.tCols (c : Cmd) : Nat := bits c.w3 56 50 + 1
def Cmd.tOfmt (c : Cmd) : Nat := bits c.w3 49 46
def Cmd.tOblk (c : Cmd) : Nat := bits c.w3 45 44
def Cmd.tHist (c : Cmd) : Bool := bitOf c.w3 43
def Cmd.tHslot (c : Cmd) : Nat := bits c.w3 42 39
def Cmd.tLayer (c : Cmd) : Nat := bits c.w3 38 33
def Cmd.tLayop (c : Cmd) : Nat := bits c.w3 32 31
def Cmd.tLossop (c : Cmd) : Nat := bits c.w3 30 29
def Cmd.mSlot (c : Cmd) : Nat := c.opa 37 36
def Cmd.mEntry (c : Cmd) : Nat := c.opa 35 30
def Cmd.mLenq (c : Cmd) : Nat := c.opa 29 20
def Cmd.mLen (c : Cmd) : Nat := 128 * c.mLenq
def Cmd.mXd (c : Cmd) : Nat := c.opa 19 14
def Cmd.mZd (c : Cmd) : Nat := c.opa 13 8
def Cmd.mWd (c : Cmd) : Nat := c.opa 7 2
def Cmd.mI (c : Cmd) : Nat := bits c.w2 15 8 + 1
def Cmd.mJ (c : Cmd) : Nat := bits c.w2 7 0 + 1

/-- The descriptor of tile `t` in TCFG's field (06, tile descriptor). -/
def Cmd.tileDesc (c : Cmd) (t : Nat) : BitVec 16 :=
  BitVec.ofNat 16 (natBits (c.w2.toNat + 2 ^ 64 * c.w3.toNat) (16 * t + 15) (16 * t))

/-! ### Tile shapes (06 R121, R122) -/

def tdBlk (d : BitVec 16) : Nat := bits d 14 13
def tdRowb (d : BitVec 16) : Nat := 16 * (bits d 12 10 + 1)
def tdRows (d : BitVec 16) : Nat := bits d 9 4
def tdFmt (d : BitVec 16) : Nat := bits d 3 0

/-- Does TCFG accept a descriptor (R121)? -/
def tdAccepted (d : BitVec 16) : Bool :=
  !bitOf d 15 && decide (tdFmt d ≤ 0xA) && decide (tdRows d ≤ 32) && !(tdFmt d == 0 && tdRows d != 0)
  && (fmtScaled (tdFmt d) || tdBlk d == 0)

/-- Shape class 1 to 3 of a tile, 0 where the shape fits no operation (R122). -/
def tdClass (d : BitVec 16) : Nat :=
  let f := tdFmt d
  let r := tdRows d
  if r = 0 ∨ 32 < r then 0
  else if f ∈ [1, 2, 3, 4, 8] then 1
  else if f ∈ [5, 6] then (if tdRowb d ∈ [48, 96] then 1 else 0)
  else if f ∈ [7, 0xA] then 2
  else if f = 9 then (if r % 2 = 0 then 3 else 0)
  else 0

/-- Columns of a tile. -/
def tdCols (d : BitVec 16) : Nat := if tdFmt d ∈ [5, 6] then tdRowb d * 4 / 3 else tdRowb d

/-- K steps of a tile. -/
def tdK (d : BitVec 16) : Nat :=
  match tdClass d with
  | 2 => 2 * tdRows d
  | 3 => tdRows d / 2
  | _ => tdRows d

/-- Blocks that start in a tile's K range, per column (R127). -/
def tdBlocks (d : BitVec 16) : Nat := ceilDiv (tdK d) (blkSize (tdBlk d))

/-- The element of K step `k` and column `n` of a tile, with its block scale (R122, R127, R128). -/
def Tile.elem (t : Tile) (k n : Nat) : FVal :=
  let d := t.desc
  let w := tdRowb d
  let row := fun r => (t.bytes.drop (r * w)).take w
  let v := match tdClass d with
    | 2 => unpackElem 4 ((row (k / 2)).drop (k % 2 * (w / 2))) n
    | 3 => leNat (((row (2 * k + (if n < w / 2 then 0 else 1))).drop (2 * (n % (w / 2)))).take 2)
    | _ => if tdFmt d ∈ [5, 6] then unpackElem 6 (row k) n else (((row k)[n]?).getD 0).toNat
  let sc := if fmtScaled (tdFmt d) then ((t.side[n * tdBlocks d + k / blkSize (tdBlk d)]?).getD 0).toNat else 127
  readElem (tdFmt d) v sc

/-- A tile as its readers see it: zero where its in-use flag is clear (R131). -/
def Tile.seen (t : Tile) : Tile := if t.inuse then t else { t with bytes := [], side := [] }

/-- An accumulator's values as readers see them (R131). -/
def Acc.seen (a : Acc) : Tab (BitVec 32) := if a.inuse then a.vals else []

/-! ### Shares (06 R133) -/

/-- Physical number of tile `n` of a context. -/
def State.tileNo (s : State) (c x n : Nat) : Nat := if s.modeM c then 2 * x + n else n
def State.accNo (s : State) (c x n : Nat) : Nat := if s.modeM c then x else n
def State.latchNo (s : State) (c x : Nat) : Nat := if s.modeM c then x else 0
def State.tileOk (s : State) (c x n : Nat) : Bool := if s.modeM c then decide (n < 2) else x == 0
def State.accOk (s : State) (c x n : Nat) : Bool := if s.modeM c then n == 0 else x == 0

/-- Tiles and accumulators of a context. -/
def State.tilesOf (s : State) (c x : Nat) : List Nat := if s.modeM c then [2 * x, 2 * x + 1] else List.range 8
def State.accsOf (s : State) (c x : Nat) : List Nat := if s.modeM c then [x] else List.range 4

def Core.setTile (k : Core) (t : Nat) (v : Tile) : Core := { k with tiles := Tab.set {} k.tiles t v }
def Core.setAcc (k : Core) (a : Nat) (v : Acc) : Core := { k with accs := Tab.set {} k.accs a v }
def Core.setLatch (k : Core) (x : Nat) (v : RLatch) : Core := { k with latches := Tab.set {} k.latches x v }

/-! ### TCFG (06 R121, R125) -/

/-- Issue of TCFG: refuses an illegal descriptor of the context's tiles. -/
def planTcfg (s : State) (c : Nat) (q : QCmd) : Plan :=
  .checks [(((s.tilesOf c q.ctx).zipIdx).all (fun t => tdAccepted (q.cmd.tileDesc t.2)), stRefused)] {}

/-- Commit of TCFG: descriptors written, tiles zeroed, flags cleared, the reuse latch invalid with shape 0 (DESIGN
CHOICE, log entry 138). -/
def runTcfg (s : State) (c : Nat) (q : QCmd) : State :=
  s.modCore c (fun k =>
    ((s.tilesOf c q.ctx).zipIdx.foldl (fun k t => k.setTile t.1 { desc := q.cmd.tileDesc t.2 }) k).setLatch
      (s.latchNo c q.ctx) {})

/-! ### TLOAD (06 R127) -/

/-- The streams of a TLOAD into a tile of descriptor `d`: the rows, and the side-file of a scaled format. -/
def tloadStreams (w : Cmd) (d : BitVec 16) : List Strm :=
  let f := tdFmt d
  let unit := if f = 9 then 2 else 1
  let v : Strm := ⟨w.tVd, unit, tdRows d * tdRowb d / unit, portAnvil, decide (fmtBits f < 8), false⟩
  if fmtScaled f then [v, ⟨w.tSd, 1, tdCols d * tdBlocks d, portAnvil, false, false⟩] else [v]

/-- Issue of TLOAD. -/
def planTload (s : State) (c : Nat) (q : QCmd) : Plan :=
  let w := q.cmd
  let t := s.tileNo c q.ctx w.tA
  let d := ((s.core c).tile t).desc
  let ts := tloadStreams w d
  let vs := (q.desc w.tVd).drawers c (if tdFmt d = 9 then 2 else 1)
  let ss := if fmtScaled (tdFmt d) then (q.desc w.tSd).drawers c 1 else []
  .checks
    [(ts.all (fun t => s.descInShare c q.ctx t.dn), stBounds),
     (s.tileOk c q.ctx w.tA && tdClass d != 0, stShape),
     (ts.all (fun t => (q.desc t.dn).aligned t.unit t.subByte), stAlign),
     (ts.all (fun t => s.streamOk c q.ctx q t), stBounds),
     (ts.all (fun t => (q.desc t.dn).total == t.units), stShape)]
    { srcs := ss.foldl (fun acc d => addOnce d acc) vs
      cons := (if w.consume1 then vs else []) ++ (if w.consume2 then ss else [])
      hazard := [t] }

/-- Commit of TLOAD: contents and side-file in the tile, in use, not TORN. -/
def runTload (s : State) (c : Nat) (q : QCmd) : State :=
  let w := q.cmd
  let t := s.tileNo c q.ctx w.tA
  let d := ((s.core c).tile t).desc
  let unit := if tdFmt d = 9 then 2 else 1
  let bytes := (s.readUnits (q.desc w.tVd).addrs unit).flatMap (natLE unit)
  let side := if fmtScaled (tdFmt d) then (s.readUnits (q.desc w.tSd).addrs 1).map (BitVec.ofNat 8) else []
  s.modCore c (fun k => k.setTile t { desc := d, bytes := bytes, side := side, inuse := true, torn := false })

/-! ### TMUL (06 R120, R123, R128, R129) -/

/-- Does a scaled shape's block size fit (R123 condition 3)? -/
def tdBlockFits (strict : Bool) (d : BitVec 16) : Bool :=
  !fmtScaled (tdFmt d)
  || ((tdK d % blkSize (tdBlk d) == 0 || blkSize (tdBlk d) % tdK d == 0) && (!strict || tdBlk d == 1))

/-- The B operand of a TMUL: the tile, or the reuse latch. -/
def tmulB (s : State) (c : Nat) (q : QCmd) : Tile :=
  if q.cmd.tReuse then ((s.core c).latch (s.latchNo c q.ctx)).tile
  else (s.core c).tile (s.tileNo c q.ctx q.cmd.tB)

/-- Does a TMUL with ACC_INIT cover all 128 × 128 entries? -/
def tmulCovers (a b : BitVec 16) : Bool := decide (128 ≤ tdCols a ∧ 128 ≤ tdCols b)

/-- Issue of TMUL: waits behind a TMUL of its context that still loads the latch it reuses. -/
def planTmul (s : State) (c : Nat) (q : QCmd) : Plan :=
  let w := q.cmd
  let k := s.core c
  let ta := s.tileNo c q.ctx w.tA
  let tb := s.tileNo c q.ctx w.tB
  let an := s.accNo c q.ctx w.tAcc
  let a := k.tile ta
  let b := tmulB s c q
  let strict := bitOf (s.reg .clearCfg c) 0
  let loading := k.q.any (fun p => p.ctx == q.ctx && p.eng == 3 && p.id != q.id && p.stage == .started
    && p.cmd.op? == some .tmul && !p.cmd.tReuse)
  if w.tReuse && loading then { v := .wait }
  else .checks
    [(s.tileOk c q.ctx w.tA && (w.tReuse || s.tileOk c q.ctx w.tB) && s.accOk c q.ctx w.tAcc, stShape),
     (!w.tReuse || (k.latch (s.latchNo c q.ctx)).valid, stShape),
     (tdClass a.desc != 0 && tdClass b.desc != 0 && tdClass a.desc == tdClass b.desc && tdK a.desc == tdK b.desc
        && tdBlockFits strict a.desc && tdBlockFits strict b.desc, stShape),
     (!a.torn && !b.torn && (!(k.acc an).torn || (w.tInit && tmulCovers a.desc b.desc)), stTag)]
    { hazard := [ta, 16 + an] ++ (if w.tReuse then [] else [tb]) }

/-- One accumulator entry after K steps: one rounding per step; class 2 adds its two products exactly first
(R128). The flag says whether the value became non-finite. -/
def tmulEntry (a b : Tile) (m n init : Nat) : Nat :=
  let K := tdK a.desc
  if tdClass a.desc = 2 then
    (List.range (K / 2)).foldl (fun acc r =>
      toFp32 ((((a.elem (2 * r) m).mul (b.elem (2 * r) n)).add ((a.elem (2 * r + 1) m).mul (b.elem (2 * r + 1) n))).add
        (ofFp32 acc))) init
  else (List.range K).foldl (fun acc k => toFp32 (((a.elem k m).mul (b.elem k n)).add (ofFp32 acc))) init

/-- Commit of TMUL: the sum of products, the accumulator's flags, the latch, the released flags. RELB counts for nothing with
REUSE 1 (DESIGN CHOICE, log entry 137). -/
def runTmul (s : State) (c : Nat) (q : QCmd) : State :=
  let w := q.cmd
  let k := s.core c
  let ta := s.tileNo c q.ctx w.tA
  let tb := s.tileNo c q.ctx w.tB
  let an := s.accNo c q.ctx w.tAcc
  let a := (k.tile ta).seen
  let braw := tmulB s c q
  let b := if w.tReuse then braw else braw.seen
  let acc := k.acc an
  let base := acc.seen
  let es := (List.range (min 128 (tdCols a.desc))).flatMap (fun m =>
    (List.range (min 128 (tdCols b.desc))).map (fun n =>
      (128 * m + n, tmulEntry a b m n (if w.tInit then 0 else (Tab.get 0 base (128 * m + n)).toNat))))
  let vals := es.foldl (fun t e => Tab.set 0 t e.1 (BitVec.ofNat 32 e.2)) base
  let bad := es.any (fun e => !(ofFp32 e.2).finite)
  let full := w.tInit && tmulCovers a.desc b.desc
  let k := k.setAcc an { vals := vals, inuse := true, torn := acc.torn && !full, ovf := acc.ovf || bad }
  let k := if w.tReuse then k else k.setLatch (s.latchNo c q.ctx) { valid := true, tile := { b with inuse := true } }
  let k := if w.tRelA then k.setTile ta { k.tile ta with inuse := false } else k
  let k := if w.tRelB && !w.tReuse then k.setTile tb { k.tile tb with inuse := false } else k
  s.setCore c { k with lastTmulCtx := q.ctx }

/-! ### TZERO and TDRAIN (06 R130) -/

/-- Issue of TZERO. -/
def planTzero (s : State) (c : Nat) (q : QCmd) : Plan :=
  .checks [(s.accOk c q.ctx q.cmd.tAcc, stShape)] { hazard := [16 + s.accNo c q.ctx q.cmd.tAcc] }

/-- Commit of TZERO: +0.0, flags clear. -/
def runTzero (s : State) (c : Nat) (q : QCmd) : State :=
  s.modCore c (fun k => k.setAcc (s.accNo c q.ctx q.cmd.tAcc) {})

/-- Bytes or units of one drained row. -/
def drainRowUnits (fmt cols : Nat) : Nat := if fmtBits fmt < 8 then ceilDiv (cols * fmtBits fmt) 8 else cols

/-- The streams of a TDRAIN. -/
def drainStreams (w : Cmd) : List Strm :=
  let f := w.tOfmt
  let v : Strm := ⟨w.tVd, fmtUnit f, w.tRows * drainRowUnits f w.tCols, portAnvil, decide (fmtBits f < 8), true⟩
  let sd : Strm := ⟨w.tSd, 1, w.tRows * (w.tCols / blkSize w.tOblk), portAnvil, false, true⟩
  if fmtScaled f then [v, sd] else [v]

/-- Issue of TDRAIN. -/
def planTdrain (s : State) (c : Nat) (q : QCmd) : Plan :=
  let w := q.cmd
  let an := s.accNo c q.ctx w.tAcc
  let ts := drainStreams w
  let dsts := ts.foldl (fun acc t => ((q.desc t.dn).drawers c t.unit).foldl (fun a d => addOnce d a) acc) []
  .checks
    [(ts.all (fun t => s.descInShare c q.ctx t.dn) && (!w.tHist || s.tabInShare c q.ctx 4 w.tHslot)
        && (w.tLayop == 0 || s.tabInShare c q.ctx 16 w.tLayer), stBounds),
     (s.accOk c q.ctx w.tAcc && (w.tOfmt ∈ [1, 2, 3, 4, 5, 6, 7, 8, 9, 0xB]) && decide (w.tLayop ≤ 2 ∧ w.tLossop ≤ 2)
        && (!fmtScaled w.tOfmt || (w.tCols % blkSize w.tOblk == 0 && (!bitOf (s.reg .clearCfg c) 0 || w.tOblk == 1))),
       stShape),
     (ts.all (fun t => (q.desc t.dn).aligned t.unit t.subByte), stAlign),
     (ts.all (fun t => s.streamOk c q.ctx q t), stBounds),
     (ts.all (fun t => (q.desc t.dn).total == t.units), stShape),
     (!((s.core c).acc an).torn, stTag)]
    { dsts := dsts
      hazard := [16 + an]
      lat := { clearCfg := s.reg .clearCfg c, layer := s.reg .layer c w.tLayer, loss := s.reg .lossScale c q.ctx } }

/-- Commit of TDRAIN: convert the rows, write values and scales, count exponents, release. The accumulator is read here (DESIGN
CHOICE, log entry 18). -/
def runTdrain (s : State) (c : Nat) (q : QCmd) : State :=
  let w := q.cmd
  let l := q.lat
  let an := s.accNo c q.ctx w.tAcc
  let acc := (s.core c).acc an
  let f := w.tOfmt
  let scale := fun (t : Nat) =>
    let t := if w.tLayop = 1 then fscale t l.shift else if w.tLayop = 2 then fscale t (-l.shift) else t
    if w.tLossop = 1 then fscale t l.lossExp else if w.tLossop = 2 then fscale t (-l.lossExp) else t
  let rows := (List.range w.tRows).map (fun r => (List.range w.tCols).map (fun n =>
    scale (Tab.get 0 acc.seen (128 * r + n)).toNat))
  let cvs := rows.map (convertAll f l.ovfInf l.strict w.tOblk)
  let vals := if fmtBits f < 8 then cvs.flatMap (fun v => (packElems (fmtBits f) v.elems).map (·.toNat))
    else cvs.flatMap (·.elems)
  let s1 := s.storeUnits (q.desc w.tVd).addrs (fmtUnit f) vals
  let s2 := if fmtScaled f then s1.storeUnits (q.desc w.tSd).addrs 1 (cvs.flatMap (·.scales)) else s1
  let s3 := s2.writeEffects c q.ctx w.tHist w.tHslot l.hbase (rows.flatten.zip (cvs.flatMap (·.sat))) (cvs.any (·.nonfinite))
  let s4 := if acc.ovf then s3.setOvf c q.ctx else s3
  if w.tInit then s4.modCore c (fun k => k.setAcc an { torn := acc.torn }) else s4

/-! ### Modular mode (06 R134 to R137) -/

/-- The streams of BCONV or MMULM: sources first, then the destination. -/
def modularStreams (w : Cmd) (mm : Bool) : List Strm :=
  let len := w.mLen
  if mm then
    [⟨w.mXd, 6, w.mI * len, portAnvil, false, false⟩, ⟨w.mWd, 6, w.mI * w.mJ, portAnvil, false, false⟩,
     ⟨w.mZd, 6, w.mJ * len, portAnvil, false, true⟩]
  else
    [⟨w.mXd, 6, (setBits 64 w.w2.toNat).length * len, portAnvil, false, false⟩,
     ⟨w.mZd, 6, (setBits 64 w.w3.toNat).length * len, portAnvil, false, true⟩]

/-- Issue of BCONV (`mm` false) and MMULM (`mm` true): ST_ALIGN, ST_BOUNDS, ST_SHAPE, ST_PROFILE (R137). -/
def planModular (mm : Bool) (s : State) (c : Nat) (q : QCmd) : Plan :=
  let w := q.cmd
  let ts := modularStreams w mm
  let ins := setBits 64 w.w2.toNat
  let outs := setBits 64 w.w3.toNat
  let t := s.table w.mSlot
  let dr := fun (t : Strm) => (q.desc t.dn).drawers c t.unit
  let srcs := (ts.filter (fun t => !t.dest)).foldl (fun acc t => (dr t).foldl (fun a d => addOnce d a) acc) []
  let srcAddrs := (ts.filter (fun t => !t.dest)).flatMap (fun t => (q.desc t.dn).addrs)
  .checks
    [(ts.all (fun t => s.descInShare c q.ctx t.dn), stBounds),
     (decide (1 ≤ w.mLenq ∧ w.mLenq ≤ 512) && (!mm || decide (w.mI ≤ 128 ∧ w.mJ ≤ 128)), stShape),
     (ts.all (fun t => (q.desc t.dn).aligned 6 false), stAlign),
     (ts.all (fun t => s.streamOk c q.ctx q t) && (q.desc w.mZd).addrs.all (fun a => !(a ∈ srcAddrs)), stBounds),
     (ts.all (fun t => (q.desc t.dn).total == t.units)
        && (mm || (!ins.isEmpty && !outs.isEmpty && ins.all (fun i => !(i ∈ outs)))), stShape)] <|
  if !t.active then { v := .wait }
  else .checks
    [(if mm then decide (w.mEntry < t.bank.count) else (ins ++ outs).all (fun i => decide (i < t.bank.count)), stProfile)]
    { srcs := srcs
      dsts := (q.desc w.mZd).drawers c 6
      cons := (if w.consume1 then (q.desc w.mXd).drawers c 6 else [])
        ++ (if mm && w.consume2 then (q.desc w.mWd).drawers c 6 else [])
      lat := { bank := t.bank } }

/-- Commit of BCONV: the approximate conversion sum (R135), each residue reduced by its own prime as it is loaded (03 R57). -/
def runBconv (s : State) (c : Nat) (q : QCmd) : State :=
  let w := q.cmd
  let b := q.lat.bank
  let ins := setBits 64 w.w2.toNat
  let outs := setBits 64 w.w3.toNat
  let xs := s.readUnits (q.desc w.mXd).addrs 6
  let ys := outs.flatMap (fun j =>
    let p := b.q j
    let cs := ins.map (fun i => (b.q i, (ins.filter (· != i)).foldl (fun acc r => acc * b.q r % p) (1 % p)))
    (List.range w.mLen).map (fun k =>
      (cs.zipIdx.foldl (fun acc e => acc + ((xs[e.2 * w.mLen + k]?).getD 0) % e.1.1 * e.1.2) 0) % p))
  s.storeUnits (q.desc w.mZd).addrs 6 ys

/-- Commit of MMULM: the matrix product modulo the entry's prime (R136). -/
def runMmulm (s : State) (c : Nat) (q : QCmd) : State :=
  let w := q.cmd
  let p := q.lat.bank.q w.mEntry
  let xs := s.readUnits (q.desc w.mXd).addrs 6
  let ws := s.readUnits (q.desc w.mWd).addrs 6
  let ys := (List.range w.mJ).flatMap (fun j => (List.range w.mLen).map (fun k =>
    ((List.range w.mI).foldl (fun acc i =>
      acc + ((ws[j * w.mI + i]?).getD 0) * ((xs[i * w.mLen + k]?).getD 0)) 0) % p))
  s.storeUnits (q.desc w.mZd).addrs 6 ys

/-! ### Paths and hazards (06 R126) -/

/-- The path a command runs on: 0 load, 1 array, 2 drain, 3 TCFG. -/
def anvilPath (c : Cmd) : Nat :=
  match c.op? with
  | some .tload => 0
  | some .tdrain => 2
  | some .tcfg => 3
  | _ => 1

def Cmd.isTmul (c : Cmd) : Bool := c.op? == some .tmul

/-- May an anvil command start beside the started ones (R125, R126, R133)? -/
def anvilFree (s : State) (c : Nat) (q : QCmd) : Bool :=
  let st := (s.core c).q.filter (fun p => p.eng == 3 && p.stage == .started && p.id != q.id)
  let own := st.filter (fun p => p.ctx == q.ctx)
  let share := fun (p : QCmd) => p.hazard.any (fun h => h ∈ q.hazard)
  let accs := q.hazard.filter (fun h => decide (16 ≤ h))
  let tiles := q.hazard.filter (fun h => decide (h < 16))
  own.all (fun p => anvilPath p.cmd != 3) &&
  match anvilPath q.cmd with
  | 3 => own.isEmpty
  | 0 => st.all (fun p => anvilPath p.cmd != 0) && st.all (fun p => !(p.cmd.isTmul && share p))
  | 2 => st.all (fun p => anvilPath p.cmd != 2) && st.all (fun p => !(p.cmd.isTmul && share p))
  | _ =>
    let ar := st.filter (fun p => anvilPath p.cmd == 1)
    if q.cmd.isTmul then
      ar.all (fun p => p.cmd.isTmul && p.ctx == q.ctx)
      && st.all (fun p => !(anvilPath p.cmd == 0 && p.hazard.any (· ∈ tiles)))
      && st.all (fun p => !(anvilPath p.cmd == 2 && p.hazard.any (· ∈ accs)))
    else ar.isEmpty

/-- Does a started TMUL wait for an earlier one to complete? They complete in the order in which they feed the array (R126). -/
def tmulBehind (s : State) (c : Nat) (q : QCmd) : Bool :=
  q.cmd.isTmul && (s.core c).q.any (fun p => p.stage == .started && p.cmd.isTmul && decide (p.id < q.id))

/-! ### Parity of the storage (06 R140) -/

/-- What a command finds with wrong parity: a scratchpad byte, a tile, a context's latch, an accumulator. -/
inductive BadRead where
  | byte (a : Nat)
  | tile (t : Nat)
  | latch (l : Nat)
  | acc (a : Nat)
  deriving DecidableEq, Repr

/-- The storage a TMUL or TDRAIN reads that has wrong parity; what its flag says is zero is not read (R131). -/
def anvilBad (s : State) (c : Nat) (q : QCmd) : Option BadRead :=
  let w := q.cmd
  let k := s.core c
  let ta := s.tileNo c q.ctx w.tA
  let tb := s.tileNo c q.ctx w.tB
  let l := s.latchNo c q.ctx
  let an := s.accNo c q.ctx w.tAcc
  let tile := fun (v : Tile) => v.inuse && v.bad
  let acc := (k.acc an).inuse && (k.acc an).bad
  match w.op? with
  | some .tmul =>
    if tile (k.tile ta) then some (.tile ta)
    else if w.tReuse && (k.latch l).tile.bad then some (.latch l)
    else if !w.tReuse && tile (k.tile tb) then some (.tile tb)
    else if !w.tInit && acc then some (.acc an) else none
  | some .tdrain => if acc then some (.acc an) else none
  | _ => none

/-- Storage with wrong parity becomes TORN. -/
def Core.tearRead (k : Core) (b : BadRead) : Core :=
  match b with
  | .byte _ => k
  | .tile t => k.setTile t { k.tile t with torn := true }
  | .latch l => k.setLatch l { k.latch l with tile := { (k.latch l).tile with torn := true } }
  | .acc a => k.setAcc a { k.acc a with torn := true }

/-! ### Aborted before the commit point (06 R139) -/

/-- The storage an aborted, started anvil command leaves TORN. -/
def anvilTorn (s : State) (c : Nat) (q : QCmd) : State :=
  let t := s.tileNo c q.ctx q.cmd.tA
  let a := s.accNo c q.ctx q.cmd.tAcc
  match q.cmd.op? with
  | some .tload => s.modCore c (fun k => k.setTile t { k.tile t with torn := true, inuse := true })
  | some .tmul => s.modCore c (fun k => k.setAcc a { k.acc a with torn := true, inuse := true })
  | _ => s

end Sys2Proof.Machine
end

