-- ==== Sys2Proof/Machine/Fabric0.lean ====
section
/-!
DEFINITION. The fabric below its operations: levels and device IDs (spec 14 R293), port roles (R291), the
wiring rule (R295), routes (R296, R297), packet fields (R299) and sending a packet (R301).
-/
namespace Sys2Proof.Machine

/-! ### Device IDs and levels (14 R293) -/

def devRow (d : Nat) : Nat := natBits d 17 12
def devRack (d : Nat) : Nat := natBits d 11 6
def devShelf (d : Nat) : Nat := natBits d 5 3
def devSlot (d : Nat) : Nat := natBits d 2 0
def devIndex (d : Nat) : Nat := natBits d 5 0
def devRowIndex (d : Nat) : Nat := natBits d 11 0

/-- Level of a pair of devices: 0 device, 1 shelf, 2 rack, 3 row, 4 hall. -/
def devLevel (a b : Nat) : Nat :=
  if a = b then 0
  else if devRow a ≠ devRow b then 4
  else if devRack a ≠ devRack b then 3
  else if devShelf a ≠ devShelf b then 2
  else 1

/-- This device's ID. -/
def State.myDev (s : State) : Nat := s.rf .fabId 0 0 17 0

/-- The hallmark's widest fabric level (21 R448, 01 R25). -/
def State.maxLevel (s : State) : Nat := s.rf .hmPolicy 0 0 10 8

/-! ### Ports (14 R291) -/

/-- Ports of a role by index: 0 shelf, 1 rack, 2 row, 3 hall. -/
def rolePorts : Nat → List Nat
  | 0 => [0, 1, 4, 5, 8, 9, 12]
  | 1 => [2, 6, 10, 14]
  | 2 => [3, 7, 11]
  | _ => [13, 15]

/-- Role and index of a port. -/
def portRole (p : Nat) : Nat × Nat :=
  match [0, 1, 2, 3].findSome? (fun r => ((rolePorts r).zipIdx.find? (fun e => e.1 == p)).map (fun e => (r, e.2))) with
  | some x => x
  | none => (0, 0)

/-- A port of a role, by index. -/
def portOfRole (r i : Nat) : Nat := ((rolePorts r)[i]?).getD 0

/-- Is a port's role wider than the hallmark permits (R292)? -/
def State.portDisabled (s : State) (p : Nat) : Bool := decide (s.maxLevel < (portRole p).1 + 1)

/-- State of a port: 0 disabled, 1 training, 2 UP, 3 degraded, 4 DOWN, 5 MISWIRED. -/
def State.portState (s : State) (p : Nat) : Nat := s.rf .portStatus p 0 31 29
def State.portUp (s : State) (p : Nat) : Bool := s.portState p == 2 || s.portState p == 3

/-- Rack masks by index. -/
def rackMask : Nat → Nat
  | 0 => 1
  | 1 => 2
  | 2 => 4
  | _ => 7

/-- The device and port a link joins (R295). -/
def wiredPeer (d p : Nat) : Nat × Nat :=
  match portRole p with
  | (0, n) => (d / 8 * 8 + (devSlot d + n + 1) % 8, portOfRole 0 (6 - n))
  | (1, r) => (d / 64 * 64 + (devShelf d).xor (rackMask r) * 8 + devSlot d, portOfRole 1 r)
  | (2, r) => (devRow d * 4096 + (devRack d).xor ((devIndex d + 21 * r) % 63 + 1) * 64 + devIndex d, portOfRole 2 r)
  | (_, r) => ((devRow d).xor ((devRowIndex d + 32 * r) % 63 + 1) * 4096 + devRowIndex d, portOfRole 3 r)

/-! ### Routing (14 R296, R297) -/

/-- Mask sets, shortest first and smaller masks first, with their xor and smallest mask's index. -/
def maskSets : List (Nat × Nat) :=
  [(1, 0), (2, 1), (4, 2), (7, 3), (3, 0), (5, 0), (6, 1), (6, 0), (5, 1), (3, 2), (7, 0), (4, 0), (2, 0), (1, 1)]

/-- Candidate ports toward rack index `t`, the rule's own first. -/
def rackRoutes (here t : Nat) : List Nat :=
  let d := (devShelf here).xor (t / 8)
  if d ≠ 0 then (maskSets.filter (fun m => m.1 == d)).map (fun m => portOfRole 1 m.2)
  else
    let own := portOfRole 0 ((t % 8 + 15 - devSlot here) % 8)
    own :: (((List.range 8).filter (fun x => x != devSlot here && x != t % 8)).map
      (fun x => portOfRole 0 ((x + 15 - devSlot here) % 8)))

/-- Candidate ports toward a device, the rule's own first. -/
def routes (here dst : Nat) (src : Nat) : List Nat :=
  let sum := src + dst
  if devRow here ≠ devRow dst then
    let y := (devRow here).xor (devRow dst)
    [sum % 2, 1 - sum % 2].flatMap (fun ha =>
      let g := (y + 63 * 3 - 1 - devRack here - 32 * ha) % 63
      if devIndex here = g then [portOfRole 3 ha] else rackRoutes here g)
  else if devRack here ≠ devRack dst then
    let x := (devRack here).xor (devRack dst)
    [sum % 3, (sum + 1) % 3, (sum + 2) % 3].flatMap (fun ro =>
      let g := (x + 63 - 1 - 21 * ro) % 63
      if devIndex here = g then [portOfRole 2 ro] else rackRoutes here g)
  else rackRoutes here (devIndex dst)

/-- The port a packet leaves by; none where no path is UP. -/
def State.route (s : State) (src dst : Nat) : Option Nat := (routes s.myDev dst src).find? s.portUp

end Sys2Proof.Machine

namespace Sys2Proof

/-! ### Packets (14 R299) -/

def Packet.srcCore (p : Packet) : Nat := Machine.bits p.f0 58 52
def Packet.srcDev (p : Packet) : Nat := Machine.bits p.f0 51 34
def Packet.dstDev (p : Packet) : Nat := Machine.bits p.f0 33 16
def Packet.typ (p : Packet) : Nat := Machine.bits p.f0 15 8
def Packet.opid (p : Packet) : Nat := Machine.bits p.f1 63 45
def Packet.dstCore (p : Packet) : Nat := Machine.bits p.f1 44 38
def Packet.len64 (p : Packet) : Nat := Machine.bits p.f1 37 31
def Packet.alive (p : Packet) : Nat := Machine.bits p.f1 15 0
def Packet.arg (p : Packet) : Nat := Machine.bits p.f2 63 48
def Packet.ctr (p : Packet) : Nat := Machine.bits p.f2 47 40
def Packet.addr (p : Packet) : Nat := Machine.bits p.f2 39 0

/-- Reserved fields are zero, VERSION is 0x01. -/
def Packet.formOk (p : Packet) : Bool :=
  Machine.bits p.f0 63 59 == 0 && Machine.bits p.f1 30 16 == 0 && Machine.bits p.f0 7 0 == 1

/-- Bytes the end-to-end check covers: header bytes 0 to 23 and the payload (R301). -/
def Packet.e2eBytes (p : Packet) : List Byte :=
  Machine.natLE 8 p.f0.toNat ++ Machine.natLE 8 p.f1.toNat ++ Machine.natLE 8 p.f2.toNat ++ p.payload

end Sys2Proof

namespace Sys2Proof.Machine

/-- Does a pair of devices use the end-to-end checks (R301)? -/
def State.e2eOn (s : State) (dev : Nat) : Bool := devLevel s.myDev dev == 4 || bitOf (s.reg .fabCfg) 8

/-- A packet from its fields. -/
def mkPacket (srcCore srcDev dstDev typ opid dstCore len alive arg ctr addr : Nat) (payload : List Byte) : Packet :=
  { f0 := BitVec.ofNat 64 (srcCore * 2 ^ 52 + srcDev * 2 ^ 34 + dstDev * 2 ^ 16 + typ * 2 ^ 8 + 1)
    f1 := BitVec.ofNat 64 (opid % 2 ^ 19 * 2 ^ 45 + dstCore * 2 ^ 38 + len * 2 ^ 31 + alive)
    f2 := BitVec.ofNat 64 (arg % 2 ^ 16 * 2 ^ 48 + ctr * 2 ^ 40 + addr)
    payload := payload }

/-- Something leaves the device. -/
def State.send (s : State) (o : Out) : State := { s with out := s.out ++ [o] }

/-- One CTRL cycle of device time: one cycle and the trim of the rate, with the fraction (R313). -/
def State.tick (s : State) : State :=
  let v := ((s.timeFrac : Int) + 2 ^ 32 + s.timeRate).toNat
  { s with time := s.time + v / 2 ^ 32, timeFrac := v % 2 ^ 32 }

/-- A fabric event (R316). -/
def State.fabEvent (s : State) (code cls port dev st : Nat) : State :=
  s.raise { code := code, cls := cls, unit := 0x70 + port, detail := port + 2 ^ 4 * dev + 2 ^ 22 * st }

/-- The packet that carries the next alive value of its pair, and the end-to-end check where the pair uses it, leaves by a port (R301). -/
def State.sendBy (s : State) (port srcCore dst typ opid dstCore len arg ctr addr : Nat) (payload : List Byte) : State :=
  let a := (Tab.get 0 s.aliveTx dst + 1) % 65536
  let p := mkPacket srcCore s.myDev dst typ opid dstCore len a arg ctr addr payload
  let p := if s.e2eOn dst then { p with f3 := BitVec.ofNat 64 (crc64 p.e2eBytes) } else p
  State.send { s with aliveTx := Tab.set 0 s.aliveTx dst a } (.pkt port p)

/-- Send a packet with a given LEN64 to a device; false where no path is UP (R297, R301) or the pair is wider than the hallmark permits
(01 R25). A read request asks for LEN64 units and carries no payload. -/
def State.sendLen (s : State) (srcCore dst typ opid dstCore len arg ctr addr : Nat) (payload : List Byte) : State × Bool :=
  match (if devLevel s.myDev dst ≤ s.maxLevel then s.route s.myDev dst else none) with
  | none => (s.fabEvent 0x0408 1 0 dst 0x70, false)
  | some port => (s.sendBy port srcCore dst typ opid dstCore len arg ctr addr payload, true)

/-- Send a packet to a device. -/
def State.sendPacket (s : State) (srcCore dst typ opid dstCore arg ctr addr : Nat) (payload : List Byte) : State × Bool :=
  s.sendLen srcCore dst typ opid dstCore (payload.length / 64) arg ctr addr payload

/-! ### Hub messages to the partner (16, pairing) -/

/-- The partner that WIT_CFG names. -/
def State.partnerDev (s : State) : Option Nat := if bitOf (s.reg .witCfg) 31 then some (s.rf .witCfg 0 0 17 0) else none

/-- A packet of TYPE HUB to a hub unit of a device. -/
def State.hubSend (s : State) (dst : Nat) (payload : List Byte) : State := (s.sendPacket 0x7F dst 0x0E 0 0x7F 0 0 0 payload).1

/-- The 64-byte header of a witness message: MSG, SESSION, JOB, the message's fields from byte 8, the length of its data in bytes 40 to 47
and the place of this packet's data in it in bytes 48 to 55. -/
def witHeader (msg session job : Nat) (fields : List Byte) (len at_ : Nat) : List Byte :=
  natLE 1 msg ++ natLE 3 session ++ natLE 4 job ++ (fields ++ List.replicate 32 0).take 32 ++ natLE 8 len ++ natLE 8 at_ ++ natLE 8 0

/-- Bytes filled with zeros to whole units of 64. -/
def fill64 (bs : List Byte) : List Byte := bs ++ List.replicate ((64 - bs.length % 64) % 64) 0

/-- The packets of a witness message, at most 4,032 B of data in each. -/
def witPieces (msg session job : Nat) (fields data : List Byte) : List (List Byte) :=
  (List.range (max 1 (ceilDiv data.length 4032))).map (fun i =>
    witHeader msg session job fields data.length (4032 * i) ++ fill64 ((data.drop (4032 * i)).take 4032))

/-- A message to the partner device, where WIT_CFG names one. -/
def State.wit (s : State) (msg session job : Nat) (fields data : List Byte) : State :=
  match s.partnerDev with
  | none => s
  | some d => (witPieces msg session job fields data).foldl (fun s b => s.hubSend d b) s

end Sys2Proof.Machine
end

