-- ==== Sys2Proof/Machine/Hbm0.lean ====
section
/-!
DEFINITION. Accesses to stacked memory (spec 13): the address map (R271, R272), what a read and a write of a
granule do to caches, counters and fault records (R276 to R281), and the fixed and configured regions (R547).
-/
namespace Sys2Proof.Machine

/-! ### The address map (13 R271, R272) -/

/-- Bytes of a die range. -/
def dieRange : Nat := 0x2400000000

/-- The bytes of one interleave unit; 0 for the linear map. -/
def granOf : Nat → Nat
  | 1 => 256
  | 2 => 1024
  | 3 => 4096
  | 4 => 65536
  | _ => 0

/-- Stack number in the die and stack offset of an address in a die's range, for an interleave unit of `g` bytes. -/
def mapAt (g x : Nat) : Nat × Nat := if g = 0 then (x / 0xC00000000, x % 0xC00000000) else (x / g % 3, x / g / 3 * g + x % g)

/-- Stack and stack offset of a local address. -/
def State.stackAt (s : State) (a : Nat) : Nat × Nat :=
  let d := a / dieRange
  let p := mapAt (granOf (s.rf .hbmMap d 0 2 0)) (a % dieRange)
  (3 * d + p.1, p.2)

def State.stackOf (s : State) (a : Nat) : Nat := (s.stackAt a).1

/-- Pseudo-channel of a stack offset. -/
def pchOf (o : Nat) : Nat := ((natBits o 11 6).xor (natBits o 17 12)).xor (natBits o 23 18)

/-- Is the stack of an address offline (R286)? -/
def State.stackOnline (s : State) (a : Nat) : Bool := s.rf .mtStatus (s.stackOf a) 0 3 3 == 0

/-! ### Regions (R547; 04 R83, 05 R109, 23 R496) -/

/-- The key chest of die `d`: first byte and end; empty where SIZE is 0. -/
def State.chestRange (s : State) (d : Nat) : Nat × Nat :=
  let b := s.rf .kchestBase 0 d 23 0 * 0x10000
  (b, b + s.rf .kchestSize 0 d 11 0 * 0x4000000)

/-- Does an address lie in a key chest or in a pewter area? -/
def State.guarded (s : State) (a : Nat) : Bool :=
  (List.range 4).any (fun d =>
    let r := s.chestRange d
    let p := d * dieRange + 0x23BFD00000
    (decide (r.1 ≤ a) && decide (a < r.2)) || (decide (p ≤ a) && decide (a < p + 0x40000000)))

/-! ### Events and fault record (R277, R287) -/

/-- Detail of an event about the granule of an address. -/
def State.hbmDetail (s : State) (a : Nat) : Nat :=
  let p := s.stackAt a
  p.1 + pchOf p.2 * 2 ^ 4 + a / 64 * 64 * 2 ^ 10

def State.hbmEvent (s : State) (code cls a : Nat) : State :=
  s.raise { code := code, cls := cls, unit := 0x64 + s.stackOf a, detail := s.hbmDetail a }

/-- Record the first fault since VALID was last cleared: 1 uncorrected read, 2 write parity, 3 link parity. -/
def State.recordHbmFault (s : State) (kind a : Nat) : State :=
  let p := s.stackAt a
  if bitOf (s.reg .hbmFault p.1) 31 then s
  else ((s.setReg .hbmFault p.1 0 (BitVec.ofNat 32 (2 ^ 31 + kind * 2 ^ 28 + pchOf p.2 * 2 ^ 22))).setReg
    .hbmFaultAddrLo p.1 0 (BitVec.ofNat 32 (a / 64 * 64 % 2 ^ 32))).setReg .hbmFaultAddrHi p.1 0 (BitVec.ofNat 32 (a / 2 ^ 32))

/-- Count one in a 64-bit pair of counter registers. -/
def State.count64 (s : State) (lo hi : RegName) (i : Nat) : State :=
  let v := (s.reg hi i).toNat * 2 ^ 32 + (s.reg lo i).toNat + 1
  (s.setReg lo i 0 (BitVec.ofNat 32 v)).setReg hi i 0 (BitVec.ofNat 32 (v / 2 ^ 32))

/-! ### Cache lines (R279 to R281) -/

/-- KEEP lines of a stack's cache. -/
def State.keepLines (s : State) (st : Nat) : Nat := (s.keep.filter (fun g => s.stackOf (64 * g) == st)).length

/-- Room for one more KEEP line under the quota (R281). -/
def State.keepRoom (s : State) (st : Nat) : Bool := decide (s.keepLines st < s.rf .cacheCfg st 0 4 0 * 16384)

/-- The line a cache holds for a key-stream group. -/
def State.groupLine (s : State) (g : Nat) : Option GLine := s.groupLines.find? (fun l => l.gran == g)

/-- Is a way free for granule `g` in its set: 16 ways of 16,384 sets (R279)? -/
def State.wayFree (s : State) (g : Nat) : Bool :=
  let near := fun h => s.stackOf (64 * h) == s.stackOf (64 * g) && Config.cacheSet h % 16384 == Config.cacheSet g % 16384
  decide (((s.keep ++ s.groupLines.map (·.gran)).filter near).length < 16)

/-- The line of a granule goes, where it is not KEEP. -/
def State.dropLine (s : State) (g : Nat) : State := { s with groupLines := s.groupLines.filter (fun l => l.gran != g) }

/-- A line becomes or is allocated as KEEP, where the quota and its set permit. -/
def State.makeKeep (s : State) (g : Nat) : State :=
  if g ∈ s.keep ∨ ¬ s.keepRoom (s.stackOf (64 * g)) then s
  else if (s.groupLine g).isSome ∨ s.wayFree g then { s.dropLine g with keep := g :: s.keep }
  else s

/-- A LAST read of a granule that no KEEP line holds: a member of a key-stream group (group, member, member count) leaves a line for
the members still to come; any other reader discards the line (04 R92; R280). -/
def State.lastRead (s : State) (g : Nat) (m : Option (Nat × Nat × Nat)) : State :=
  match s.groupLine g, m with
  | none, none => s
  | none, some (k, me, size) =>
    if 1 < size ∧ s.wayFree g then { s with groupLines := s.groupLines ++ [{ gran := g, group := k, got := [me] }] } else s
  | some _, none => s.dropLine g
  | some l, some (k, me, size) =>
    let got := addOnce me l.got
    if l.group ≠ k ∨ size ≤ got.length then s.dropLine g
    else { s with groupLines := modFirst (fun v => v.gran == g) (fun v => { v with got := got }) s.groupLines }

/-- The cache's part of a read of granule `g` with a hint, by a member of a key-stream group or none: a hit or miss counted, the line
kept, left or discarded (R280). KEEP above the quota is served as LAST. -/
def State.cacheRead (s : State) (g hint : Nat) (m : Option (Nat × Nat × Nat) := none) : State :=
  let st := s.stackOf (64 * g)
  let held := decide (g ∈ s.keep) || (s.groupLine g).isSome
  let s := if held then s.count64 .hitLo .hitHi st else s.count64 .missLo .missHi st
  if g ∈ s.keep ∨ hint = 0 then s
  else
    let t := if hint = 1 then s.makeKeep g else s
    if g ∈ t.keep then t else t.lastRead g m

/-- The cache's part of a write (R280). -/
def State.cacheWrite (s : State) (g hint : Nat) : State :=
  if hint = 1 then s.makeKeep g
  else if hint = 2 then { s.dropLine g with keep := s.keep.filter (· != g) }
  else s

/-! ### Reads and writes of one granule (R276, R277) -/

/-- Severity of a granule: 0 none, 1 corrected, 2 uncorrected. -/
def State.severity (s : State) (a : Nat) : Nat := Tab.get 0 s.ecc (a / 64)

/-- What a read's severity does, kind 1 or 3 for the fault record (R277). -/
def State.readOutcome (s : State) (a sev kind : Nat) : State :=
  let st := s.stackOf a
  match sev with
  | 0 => s
  | 1 => (s.countReg .eccCorr st 0 1).hbmEvent 0x0301 2 a
  | _ => ((s.recordHbmFault kind a).countReg .eccUncorr st 0 1).hbmEvent 0x0302 1 a

/-- A read of a granule: its effects, and whether it arrives poisoned: uncorrectable, or its link failed twice (R277, R278). -/
def State.hbmRead (s : State) (a hint : Nat) (m : Option (Nat × Nat × Nat) := none) : State × Bool :=
  let v := s.severity a
  let link := decide (a / 64 ∈ s.linkBad)
  let s := (s.cacheRead (a / 64) hint m).readOutcome a v 1
  ({ s with linkBad := s.linkBad.filter (· != a / 64) }, v == 2 || link)

/-- Reads of granules in order, by their numbers; they stop at the first that arrives poisoned. -/
def State.readGranules (s : State) (hint : Nat) (m : Option (Nat × Nat × Nat)) (gs : List Nat) : State × Bool :=
  gs.foldl (fun r g => if r.2 then r else r.1.hbmRead (64 * g) hint m) (s, false)

/-- The granules of a range. -/
def granules (a n : Nat) : List Nat := if n = 0 then [] else (List.range ((a + n - 1) / 64 + 1 - a / 64)).map (· + a / 64)

/-- Does every granule of a range lie on a stack that is online (R286)? -/
def State.online (s : State) (a n : Nat) : Bool := (granules a n).all (fun g => s.stackOnline (64 * g))

/-- A completed write: an error of the old contents goes with them (R277). -/
def State.hbmStore (s : State) (a hint : Nat) (bs : List Byte) : State :=
  (granules a bs.length).foldl (fun s g => State.cacheWrite { s with ecc := Tab.set 0 s.ecc g 0 } g hint) (s.writeBytes a bs)

/-- A write of a hub unit: STREAM (R280). -/
def State.hubStore (s : State) (a : Nat) (bs : List Byte) : State := s.hbmStore a 0 bs

/-- A read of a hub unit: its effects on the caches, the counters and the fault record (R277, R280). -/
def State.hubFetch (s : State) (a n : Nat) : State := (granules a n).foldl (fun s g => (s.hbmRead (64 * g) 0).1) s

/-! ### A change of the address map (R272) -/

/-- The address in a die's range of offset `o` of its stack number `k`, for an interleave unit of `g` bytes; 0 for the linear map. -/
def unmapAt (g k o : Nat) : Nat := if g = 0 then k * 0xC00000000 + o else (o / g * 3 + k) * g + o % g

/-- The local address that a local address of die `d` moves to where the unit changes from `g` bytes to `h`: stacks keep their contents,
the map gives them other addresses. -/
def movedAddr (d g h a : Nat) : Nat :=
  if a / dieRange = d ∧ inHbm a then
    let p := mapAt g (a % dieRange)
    d * dieRange + unmapAt h p.1 p.2
  else a

/-- HBM_MAP.GRAN of die `d` takes a value: what its stacks hold, and what is kept by granule, is found at the addresses of the new map. -/
def State.remap (s : State) (d gran : Nat) : State :=
  let g := granOf (s.rf .hbmMap d 0 2 0)
  let h := granOf gran
  if g = h then s
  else
    let mv := movedAddr d g h
    let mg := fun x => mv (64 * x) / 64
    { s with mem := s.mem.foldl (fun m e => Mem.set m (mv e.1) e.2) []
             ecc := s.ecc.foldl (fun t e => Tab.set 0 t (mg e.1) e.2) []
             keep := s.keep.map mg, linkBad := s.linkBad.map mg
             groupLines := s.groupLines.map (fun l => { l with gran := mg l.gran }) }

end Sys2Proof.Machine
end

