-- ==== Sys2Proof/Machine/Aes.lean ====
section
/-!
DEFINITION. AES-256 and its Galois counter mode (spec 00 R5; 15 R323): FIPS 197 and SP 800-38D, which the spec names (PRESUMED,
assumption 97).
-/
namespace Sys2Proof.Machine

/-! ### AES-256 -/

/-- Twice an element of GF(2^8). -/
def gfDouble (x : Byte) : Byte := (x <<< 1) ^^^ (if x.msb then 0x1B else 0)

/-- The product of two elements, over the low `n` bits of the second. -/
def gfMul : Nat → Byte → Byte → Byte
  | 0, _, _ => 0
  | n + 1, x, y => (if y.getLsbD 0 then x else 0) ^^^ gfMul n (gfDouble x) (y >>> 1)

/-- `x^(2^n - 2)` for n + 1 squarings: the inverse for n = 7, and 0 of 0. -/
def gfInv : Nat → Byte → Byte
  | 0, _ => 1
  | n + 1, x => let y := gfMul 8 x x; gfMul 8 y (gfInv n y)

/-- The byte substitution: the inverse, then the affine map. -/
def aesSub (x : Byte) : Byte :=
  let y := gfInv 7 x
  y ^^^ y.rotateLeft 1 ^^^ y.rotateLeft 2 ^^^ y.rotateLeft 3 ^^^ y.rotateLeft 4 ^^^ 0x63
def aesTable : List Byte := (List.range 256).map (fun i => aesSub (BitVec.ofNat 8 i))
def sub8 (x : Byte) : Byte := (aesTable[x.toNat]?).getD 0

/-- Byte `i` of a list. -/
def byteAt (bs : List Byte) (i : Nat) : Byte := (bs[i]?).getD 0
def xorBytes (a b : List Byte) : List Byte := List.zipWith (· ^^^ ·) a b

/-- Words of the key schedule of a 32-byte key, newest first; `i` is the next word's number. -/
def aesWords : Nat → Nat → Byte → List (List Byte) → List (List Byte)
  | 0, _, _, ws => ws
  | n + 1, i, rc, ws =>
    let last := ws.headD []
    let t := if i % 8 = 0 then (match (last.drop 1 ++ last.take 1).map sub8 with
        | b :: bs => (b ^^^ rc) :: bs
        | [] => [])
      else if i % 8 = 4 then last.map sub8 else last
    aesWords n (i + 1) (if i % 8 = 0 then gfDouble rc else rc) (xorBytes ((ws[7]?).getD []) t :: ws)

/-- The fifteen round keys. -/
def aesKeys (key : List Byte) : List (List Byte) :=
  let start := (List.range 8).map (fun i => (key.drop (4 * i)).take 4)
  let ws := (aesWords 52 8 1 start.reverse).reverse
  (List.range 15).map (fun r => ((ws.drop (4 * r)).take 4).flatten)

/-- Rows turned: byte i, in row i mod 4, comes from the column that many places on. -/
def aesRows (b : List Byte) : List Byte := (List.range 16).map (fun i => byteAt b ((i + 4 * (i % 4)) % 16))

/-- Columns mixed. -/
def aesMix (b : List Byte) : List Byte :=
  (List.range 16).map (fun i =>
    let at_ := fun k => byteAt b (i / 4 * 4 + (i + k) % 4)
    gfDouble (at_ 0) ^^^ gfDouble (at_ 1) ^^^ at_ 1 ^^^ at_ 2 ^^^ at_ 3)

/-- One block under the round keys. -/
def aesBlock (ks : List (List Byte)) (b : List Byte) : List Byte :=
  let k := fun i => (ks[i]?).getD []
  let s := (List.range 13).foldl (fun s r => xorBytes (aesMix (aesRows (s.map sub8))) (k (r + 1))) (xorBytes b (k 0))
  xorBytes (aesRows (s.map sub8)) (k 14)

/-! ### Galois counter mode -/

/-- The product of GF(2^128), the most significant bit standing for 1; over the low `n` bits of `y`, from its top. -/
def ghMul : Nat → Nat → Nat → Nat
  | 0, _, _ => 0
  | n + 1, x, y =>
    let d := if x % 2 = 1 then x / 2 ^^^ 0xE1 * 2 ^ 120 else x / 2
    (if natBit y n then x else 0) ^^^ ghMul n d y

/-- Bytes filled with zeros to whole blocks. -/
def padBlocks (bs : List Byte) : List Byte := bs ++ List.replicate ((16 - bs.length % 16) % 16) 0

/-- GHASH of whole blocks, from a value. -/
def ghash (h : Nat) : Nat → List Byte → Nat → Nat
  | 0, _, y => y
  | n + 1, bs, y => ghash h n (bs.drop 16) (ghMul 128 (y ^^^ beNat (bs.take 16)) h)

/-- The counter block of number `i` for a 12-byte IV. -/
def ctrBlock (iv : List Byte) (i : Nat) : List Byte := iv ++ natBE 4 i

/-- Bytes under the key stream, from counter 2 on: encryption and decryption. -/
def gcmStream (key iv bs : List Byte) : List Byte :=
  let ks := aesKeys key
  (List.range (ceilDiv bs.length 16)).flatMap (fun i =>
    xorBytes ((bs.drop (16 * i)).take 16) (aesBlock ks (ctrBlock iv (i + 2))))

/-- The tag over additional data and ciphertext. -/
def gcmTag (key iv aad ct : List Byte) : List Byte :=
  let ks := aesKeys key
  let h := beNat (aesBlock ks (List.replicate 16 0))
  let all := padBlocks aad ++ padBlocks ct ++ natBE 8 (8 * aad.length) ++ natBE 8 (8 * ct.length)
  xorBytes (natBE 16 (ghash h (all.length / 16) all 0)) (aesBlock ks (ctrBlock iv 1))

end Sys2Proof.Machine
end

