-- ==== Sys2Proof/Machine/Curve.lean ====
section
/-!
DEFINITION. Arithmetic of the touchstone: modular powers, the primality test and the curve operations that the checks of a loaded
curve name (spec 17 R378, R384).
-/
namespace Sys2Proof.Machine

/-- `b^e mod m` over the low `k` bits of `e`. -/
def modPow (b m : Nat) : Nat → Nat → Nat
  | 0, _ => 1 % m
  | k + 1, e => let h := modPow (b * b % m) m k (e / 2); if e % 2 = 1 then b * h % m else h

/-- `b^e mod m`. -/
def expMod (b e m : Nat) : Nat := modPow (b % m) m (Nat.log2 e + 1) e

/-- An inverse modulo a prime. -/
def invPrime (x p : Nat) : Nat := expMod x (p - 2) p

/-! ### Primality: Baillie–PSW and Miller–Rabin (R384 check 1) -/

/-- The first 40 primes. -/
def primes40 : List Nat :=
  [2, 3, 5, 7, 11, 13, 17, 19, 23, 29, 31, 37, 41, 43, 47, 53, 59, 61, 67, 71, 73, 79, 83, 89, 97, 101, 103, 107, 109, 113, 127,
    131, 137, 139, 149, 151, 157, 163, 167, 173]

/-- Powers of two dividing a number, at most `k`, and the odd rest. -/
def oddSplit : Nat → Nat → Nat × Nat
  | 0, d => (0, d)
  | k + 1, d => if d % 2 = 0 ∧ d ≠ 0 then let r := oddSplit k (d / 2); (r.1 + 1, r.2) else (0, d)

/-- A strong probable prime to a base. -/
def strongPrp (n b : Nat) : Bool :=
  let r := oddSplit (Nat.log2 n + 1) (n - 1)
  let x := expMod b r.2 n
  b % n == 0 || x == 1 || (List.range r.1).any (fun i => expMod x (2 ^ i) n == n - 1)

/-- The Jacobi symbol as −1, 0 or 1. -/
def jacobi : Nat → Nat → Nat → Int
  | 0, _, _ => 0
  | k + 1, a, n =>
    let a := a % n
    if a = 0 then (if n = 1 then 1 else 0)
    else
      let r := oddSplit (Nat.log2 n + 1) a
      let t : Int := if r.1 % 2 = 1 ∧ (n % 8 = 3 ∨ n % 8 = 5) then -1 else 1
      let u : Int := if r.2 % 4 = 3 ∧ n % 4 = 3 then -1 else 1
      if r.2 = 1 then t else t * u * jacobi k n r.2

/-- Jacobi symbol of an integer. -/
def jacobiInt (d : Int) (n : Nat) : Int := jacobi (2 * (Nat.log2 n + 2)) (d % (n : Int)).toNat n

/-- Selfridge's D: the first of 5, −7, 9, −11, … with symbol −1. -/
def selfridge (n : Nat) : Option Int :=
  ((List.range 64).map (fun (i : Nat) => let v : Int := 5 + 2 * (i : Int); if i % 2 = 0 then v else -v)).find? (fun d => jacobiInt d n == -1)

/-- U and V of the Lucas sequence with P = 1 at the number of the given bits, most significant first, modulo `n`. -/
def lucasUV (n : Nat) (d q : Int) (bits : List Bool) : Int × Int × Int :=
  let half := fun (x : Int) => (if x % 2 = 0 then x / 2 else (x + n) / 2) % n
  bits.foldl (fun s b =>
    let u := s.1 * s.2.1 % n
    let v := (s.2.1 * s.2.1 - 2 * s.2.2) % n
    let qk := s.2.2 * s.2.2 % n
    if b then (half (u + v), half (d * u + v), qk * q % n) else (u, v, qk)) (1, 1, q % n)

/-- The Lucas test with Selfridge's parameters. -/
def lucasPrp (n : Nat) : Bool :=
  let r := Nat.sqrt n
  if r * r = n then false
  else match selfridge n with
    | none => false
    | some d =>
      let k := n + 1
      let bs := ((List.range (Nat.log2 k)).reverse).map (fun i => natBit k i)
      (lucasUV n d ((1 - d) / 4) bs).1 % n == 0

/-- Prime by the test of R384. -/
def probablePrime (n : Nat) : Bool :=
  if n ≤ 173 then decide (n ∈ primes40)
  else n % 2 == 1 && primes40.all (fun b => strongPrp n b) && lucasPrp n

/-! ### Points of a curve y² = x³ + ax + b -/

/-- A point; none is the point at infinity. -/
abbrev Pt := Option (Nat × Nat)

/-- The sum of two points. -/
def ptAdd (p a : Nat) (x y : Pt) : Pt :=
  match x, y with
  | none, _ => y
  | _, none => x
  | some (x1, y1), some (x2, y2) =>
    if x1 = x2 ∧ (y1 + y2) % p = 0 then none
    else
      let l := if x1 = x2 then (3 * x1 * x1 + a) * invPrime (2 * y1) p % p else (y2 + p - y1) * invPrime (x2 + p - x1) p % p
      let x3 := (l * l + 2 * p - x1 - x2) % p
      some (x3, (l * (x1 + p - x3) + p - y1) % p)

/-- `k` times a point, over the low `n` bits of `k`. -/
def ptMul (p a : Nat) : Nat → Nat → Pt → Pt
  | 0, _, _ => none
  | n + 1, k, x => let h := ptMul p a n (k / 2) (ptAdd p a x x); if k % 2 = 1 then ptAdd p a x h else h

def onCurve (p a b x y : Nat) : Bool := y * y % p == (x * x * x + a * x + b) % p

/-- Bits of a number. -/
def bitLen (n : Nat) : Nat := if n = 0 then 0 else Nat.log2 n + 1

/-- The first failing check of a curve given by p, a, b, Gx, Gy, n, h; 0 where all pass (R384). -/
def curveCheck (p a b gx gy n h : Nat) : Nat :=
  let t := p + 1
  let d := if t < h * n then h * n - t else t - h * n
  if !(p % 2 == 1 && decide (192 ≤ bitLen p ∧ bitLen p ≤ 576) && probablePrime p) then 1
  else if !(decide (a < p ∧ b < p ∧ gx < p ∧ gy < p)) then 2
  else if (4 * a * a * a + 27 * b * b) % p = 0 then 3
  else if !onCurve p a b gx gy then 4
  else if !(probablePrime n && decide (bitLen p ≤ bitLen n + 3)) then 5
  else if !(decide (1 ≤ h ∧ h ≤ 8) && decide (d * d ≤ 4 * p)) then 6
  else if (ptMul p a (bitLen n) n (some (gx, gy))).isSome then 7
  else if h * n = p then 8
  else if (List.range 100).any (fun k => expMod p (k + 1) n == 1) then 9
  else 0

end Sys2Proof.Machine
end

