-- ==== Sys2Proof/Machine/Sha2.lean ====
section
/-!
DEFINITION. SHA-384 and SHA-512 of FIPS 180-4 and the HMAC over SHA-384 (spec 00 R5; 17 R378, R383): the spec names the standards
(PRESUMED, assumption 97).
-/
namespace Sys2Proof.Machine

/-- The greatest `r + x`, `x` below 2^b, whose k-th power is at most `n`. -/
def rootFrom (k n : Nat) : Nat → Nat → Nat
  | 0, r => r
  | b + 1, r => rootFrom k n b (if (r + 2 ^ b) ^ k ≤ n then r + 2 ^ b else r)

/-- The first 64 bits of the fraction of the k-th root of a prime. -/
def rootFraction (k p : Nat) : W64 := BitVec.ofNat 64 (rootFrom k (p * 2 ^ (64 * k)) 69 0)

/-- The first 80 primes. -/
def primes80 : List Nat :=
  (List.range 410).filter (fun p => decide (2 ≤ p) && (List.range 21).all (fun d => decide (d < 2) || d == p || p % d != 0))

/-- Round constants: cube roots of the first 80 primes. -/
def sha2K : List W64 := primes80.map (rootFraction 3)
/-- First values of the eight words: square roots of the first eight primes for SHA-512, of the next eight for SHA-384. -/
def sha512Start : List W64 := (primes80.take 8).map (rootFraction 2)
def sha384Start : List W64 := ((primes80.drop 8).take 8).map (rootFraction 2)

/-- Xor of a word turned right by two distances and by a third, or shifted by it. -/
def turns3 (a b c : Nat) (x : W64) : W64 := x.rotateRight a ^^^ x.rotateRight b ^^^ x.rotateRight c
def turnsShift (a b c : Nat) (x : W64) : W64 := x.rotateRight a ^^^ x.rotateRight b ^^^ (x >>> c)

/-- Message schedule, newest word first: `n` words more. -/
def sha2Words : Nat → List W64 → List W64
  | 0, w => w
  | n + 1, w =>
    let g := fun i => (w[i]?).getD 0
    sha2Words n ((turnsShift 19 61 6 (g 1) + g 6 + turnsShift 1 8 7 (g 14) + g 15) :: w)

/-- One round with the sum of its constant and word. -/
def sha2Round (v : List W64) (kw : W64) : List W64 :=
  match v with
  | [a, b, c, d, e, f, g, h] =>
    let t := h + turns3 14 18 41 e + ((e &&& f) ^^^ (~~~e &&& g)) + kw
    [t + turns3 28 34 39 a + ((a &&& b) ^^^ (a &&& c) ^^^ (b &&& c)), a, b, c, d + t, e, f, g]
  | _ => v

/-- One block of 128 bytes. -/
def sha2Block (v : List W64) (blk : List Byte) : List W64 :=
  let first := (List.range 16).map (fun i => BitVec.ofNat 64 (beNat ((blk.drop (8 * i)).take 8)))
  let w := (sha2Words 64 first.reverse).reverse
  List.zipWith (· + ·) v ((List.zipWith (· + ·) sha2K w).foldl sha2Round v)

/-- Blocks from the front of a message. -/
def sha2Blocks : Nat → List Byte → List W64 → List W64
  | 0, _, v => v
  | n + 1, bs, v => sha2Blocks n (bs.drop 128) (sha2Block v (bs.take 128))

/-- The hash from a start value: the padded message is a multiple of 128 bytes that ends with its length in bits. -/
def sha2 (start : List W64) (m : List Byte) : List Byte :=
  let z := (239 - m.length % 128) % 128
  let p := m ++ 0x80 :: List.replicate z 0 ++ natBE 16 (8 * m.length)
  (sha2Blocks (p.length / 128) p start).flatMap (fun w => natBE 8 w.toNat)

def sha512 (m : List Byte) : List Byte := sha2 sha512Start m
/-- SHA-384 of bytes. -/
def sha384 (m : List Byte) : List Byte := (sha2 sha384Start m).take 48

/-- HMAC over SHA-384, for keys of at most 128 bytes. -/
def hmac384 (key m : List Byte) : List Byte :=
  let k := (key ++ List.replicate 128 0).take 128
  sha384 (k.map (· ^^^ 0x5C) ++ sha384 (k.map (· ^^^ 0x36) ++ m))

end Sys2Proof.Machine
end

