-- ==== Sys2Proof/Machine/Ecc.lean ====
section
/-!
DEFINITION. The curve algorithms of published standards that the spec names (00 R5; 17 R378, R383): ECDSA of FIPS 186-5 on P-256, P-384
and P-521 with its deterministic nonces over SHA-384, X25519 and X448 of RFC 7748, Ed25519 and Ed448 of RFC 8032 (PRESUMED, assumption 97).
-/
namespace Sys2Proof.Machine

/-! ### Named Weierstrass curves -/

/-- p, a, b, Gx, Gy, n, h of P-256, P-384 and P-521, by ALG. -/
def namedCurve : Nat → List Nat
  | 1 =>
    let p := 2 ^ 256 - 2 ^ 224 + 2 ^ 192 + 2 ^ 96 - 1
    [p, p - 3, 0x5ac635d8aa3a93e7b3ebbd55769886bc651d06b0cc53b0f63bce3c3e27d2604b,
      0x6b17d1f2e12c4247f8bce6e563a440f277037d812deb33a0f4a13945d898c296,
      0x4fe342e2fe1a7f9b8ee7eb4a7c0f9e162bce33576b315ececbb6406837bf51f5,
      0xffffffff00000000ffffffffffffffffbce6faada7179e84f3b9cac2fc632551, 1]
  | 2 =>
    let p := 2 ^ 384 - 2 ^ 128 - 2 ^ 96 + 2 ^ 32 - 1
    [p, p - 3, 0xb3312fa7e23ee7e4988e056be3f82d19181d9c6efe8141120314088f5013875ac656398d8a2ed19d2a85c8edd3ec2aef,
      0xaa87ca22be8b05378eb1c71ef320ad746e1d3b628ba79b9859f741e082542a385502f25dbf55296c3a545e3872760ab7,
      0x3617de4a96262c6f5d9e98bf9292dc29f8f41dbd289a147ce9da3113b5f0b8c00a60b1ce1d7e819d7a431d7c90ea0e5f,
      0xffffffffffffffffffffffffffffffffffffffffffffffffc7634d81f4372ddf581a0db248b0a77aecec196accc52973, 1]
  | 3 =>
    let p := 2 ^ 521 - 1
    [p, p - 3,
      0x51953eb9618e1c9a1f929a21a0b68540eea2da725b99b315f3b8b489918ef109e156193951ec7e937b1652c0bd3bb1bf073573df883d2c34f1ef451fd46b503f00,
      0xc6858e06b70404e9cd9e3ecb662395b4429c648139053fb521f828af606b4d3dbaa14b5e77efe75928fe1dc127a2ffa8de3348b3c1856a429bf97e7e31c2e5bd66,
      0x11839296a789a3bc0045c8a5fb42c7d1bd998f54449579b446817afbd17273e662c97ee72995ef42640c550b9013fad0761353c7086a272c24088be94769fd16650,
      2 ^ 521 - 1 - 0x5ae79787c40d069948033feb708f65a2fc44a36477663b851449048e16ec79bf6, 1]
  | _ => []

/-! ### ECDSA (FIPS 186-5). A curve is its list p, a, b, Gx, Gy, n, h. -/

def cpar (c : List Nat) (i : Nat) : Nat := c.getD i 0
def curveMul (c : List Nat) (k : Nat) (x : Pt) : Pt := ptMul (cpar c 0) (cpar c 1) (bitLen k) k x

/-- The leftmost bits of a digest, as many as the order has. -/
def digestInt (n : Nat) (digest : List Byte) : Nat := beNat digest / 2 ^ (8 * digest.length - bitLen n)

/-- Candidate nonces from a key and value of the HMAC generator: the first from 1 to n − 1. -/
def nonceFrom (n : Nat) : Nat → List Byte → List Byte → Option Nat
  | 0, _, _ => none
  | fuel + 1, k, v =>
    let v1 := hmac384 k v
    let v2 := hmac384 k v1
    let one := decide (bitLen n ≤ 384)
    let t := digestInt n (if one then v1 else v1 ++ v2)
    let v := if one then v1 else v2
    if 1 ≤ t ∧ t < n then some t
    else let k := hmac384 k (v ++ [0]); nonceFrom n fuel k (hmac384 k v)

/-- The nonce of the deterministic method for a private key and digest, after `skip` candidates have been turned down by signing. -/
def detNonce (n d : Nat) (digest : List Byte) (fuel : Nat) : Option Nat :=
  let len := ceilDiv (bitLen n) 8
  let seed := natBE len d ++ natBE len (digestInt n digest % n)
  let v := List.replicate 48 1
  let k := hmac384 (List.replicate 48 0) (v ++ 0 :: seed)
  let v := hmac384 k v
  let k := hmac384 k (v ++ 1 :: seed)
  nonceFrom n fuel k (hmac384 k v)

/-- The signature r, s of a digest. -/
def ecdsaSign (c : List Nat) (d : Nat) (digest : List Byte) : Nat × Nat :=
  let n := cpar c 5
  match detNonce n d digest 64 with
  | none => (0, 0)
  | some k =>
    match curveMul c k (some (cpar c 3, cpar c 4)) with
    | none => (0, 0)
    | some q =>
      let r := q.1 % n
      (r, invPrime k n * (digestInt n digest + r * d) % n)

/-- Does r, s verify for a public point and digest? -/
def ecdsaVerify (c : List Nat) (qx qy r s : Nat) (digest : List Byte) : Bool :=
  let n := cpar c 5
  let w := invPrime s n
  let x := ptAdd (cpar c 0) (cpar c 1) (curveMul c (digestInt n digest * w % n) (some (cpar c 3, cpar c 4)))
    (curveMul c (r * w % n) (some (qx, qy)))
  decide (1 ≤ r ∧ r < n ∧ 1 ≤ s ∧ s < n) && (match x with
    | none => false
    | some q => q.1 % n == r)

/-- A P-384 signature as r and s of 48 bytes each, over SHA-384 of bytes (15 R329). -/
def p384Sign (d : Nat) (bs : List Byte) : List Byte :=
  let g := ecdsaSign (namedCurve 2) d (sha384 bs)
  natBE 48 g.1 ++ natBE 48 g.2

/-- A P-384 signature in that form verifies over a digest for an uncompressed public key of 97 bytes on the curve. -/
def p384Verify (pub digest sg : List Byte) : Bool :=
  let c := namedCurve 2
  let x := beNat ((pub.drop 1).take 48)
  let y := beNat ((pub.drop 49).take 48)
  pub.headD 0 == 4 && decide (x < cpar c 0 ∧ y < cpar c 0) && onCurve (cpar c 0) (cpar c 1) (cpar c 2) x y
    && ecdsaVerify c x y (beNat (sg.take 48)) (beNat (sg.drop 48)) digest

/-! ### X25519 and X448 (RFC 7748) -/

/-- p of Curve25519 and Curve448, by ALG. -/
def montP (alg : Nat) : Nat := if alg = 5 then 2 ^ 448 - 2 ^ 224 - 1 else 2 ^ 255 - 19
def montBytes (alg : Nat) : Nat := if alg = 5 then 56 else 32

/-- The scalar that bytes decode to. -/
def montScalar (alg : Nat) (k : List Byte) : Nat :=
  let v := leNat k
  if alg = 5 then natPut (v - v % 4) 447 447 1 else natPut (v - v % 8) 255 254 1 % 2 ^ 255

/-- The u-coordinate that bytes decode to, unreduced. -/
def montU (alg : Nat) (u : List Byte) : Nat := if alg = 5 then leNat u else leNat u % 2 ^ 255

/-- One step of the ladder on (x2, z2, x3, z3) for a bit of the scalar. -/
def montStep (p a24 u : Nat) (v : Nat × Nat × Nat × Nat) (b : Bool) : Nat × Nat × Nat × Nat :=
  let (x2, z2, x3, z3) := if b then (v.2.2.1, v.2.2.2, v.1, v.2.1) else v
  let s := (x2 + z2) * (x2 + z2) % p
  let t := (x2 + p - z2) * (x2 + p - z2) % p
  let e := (s + p - t) % p
  let da := (x3 + p - z3) * (x2 + z2) % p
  let cb := (x3 + z3) * (x2 + p - z2) % p
  let r := (s * t % p, e * ((s + a24 * e) % p) % p, (da + cb) * (da + cb) % p, u * ((da + p - cb) * (da + p - cb) % p) % p)
  if b then (r.2.2.1, r.2.2.2, r.1, r.2.1) else r

/-- The function of RFC 7748: scalar bytes, u-coordinate. -/
def montMul (alg : Nat) (k : List Byte) (u : Nat) : List Byte :=
  let p := montP alg
  let a24 := if alg = 5 then 39081 else 121665
  let s := montScalar alg k
  let v := (List.range 448).foldl (fun v i => montStep p a24 (u % p) v (natBit s (447 - i))) (1, 0, u % p, 1)
  natLE (montBytes alg) (v.1 * invPrime v.2.1 p % p)

/-- The public value of a private one. -/
def montPublic (alg : Nat) (k : List Byte) : List Byte := montMul alg k (if alg = 5 then 5 else 9)

/-! ### Ed25519 and Ed448 (RFC 8032) -/

/-- An Edwards curve a·x² + y² = 1 + d·x²·y²: p, whether a is −1, d, base point, order, bytes of an encoding, log2 of the cofactor. -/
structure EdCurve where
  p : Nat
  neg : Bool
  d : Nat
  bx : Nat
  by_ : Nat
  order : Nat
  len : Nat
  cof : Nat
  deriving DecidableEq, Repr

/-- A square root modulo p, where one exists. -/
def sqrtMod (p v : Nat) : Option Nat :=
  let r := if p % 4 = 3 then expMod v ((p + 1) / 4) p
    else
      let r := expMod v ((p + 3) / 8) p
      if r * r % p = v % p then r else r * expMod 2 ((p - 1) / 4) p % p
  if r * r % p = v % p then some r else none

/-- The x of a y with a low bit; none where no point has it. -/
def edX (p : Nat) (neg : Bool) (d y bit : Nat) : Option Nat :=
  let num := y * y + p - 1
  let den := if neg then d * (y * y) + 1 else d * (y * y) % p + p - 1
  match sqrtMod p (num * invPrime (den % p) p % p) with
  | none => none
  | some x => if x = 0 ∧ bit = 1 then none else some (if x % 2 = bit then x else (p - x) % p)

/-- The curve of ALG. -/
def edCurve (alg : Nat) : EdCurve :=
  if alg = 5 then
    let p := 2 ^ 448 - 2 ^ 224 - 1
    ⟨p, false, p - 39081,
      224580040295924300187604334099896036246789641632564134246125461686950415467406032909029192869357953282578032075146446173674602635247710,
      298819210078481492676017930443930673437544040154080242095928241372331506189835876003536878655418784733982303233503462500531545062832660,
      2 ^ 446 - 13818066809895115352007386748515426880336692474882178609894547503885, 57, 2⟩
  else
    let p := 2 ^ 255 - 19
    let d := (p - 121665) * invPrime 121666 p % p
    let y := 4 * invPrime 5 p % p
    ⟨p, true, d, (edX p true d y 0).getD 0, y, 2 ^ 252 + 27742317777372353535851937790883648493, 32, 3⟩

/-- The sum of two points. -/
def EdCurve.add (c : EdCurve) (u v : Nat × Nat) : Nat × Nat :=
  let p := c.p
  let k := c.d * (u.1 * v.1 % p) % p * (u.2 * v.2 % p) % p
  let w := u.1 * v.1 % p
  ((u.1 * v.2 + v.1 * u.2) * invPrime ((1 + k) % p) p % p,
    (u.2 * v.2 + (if c.neg then w else p - w)) * invPrime ((1 + p - k) % p) p % p)

/-- `k` times a point, over the low `n` bits. -/
def EdCurve.mul (c : EdCurve) : Nat → Nat → Nat × Nat → Nat × Nat
  | 0, _, _ => (0, 1)
  | n + 1, k, x => let h := c.mul n (k / 2) (c.add x x); if k % 2 = 1 then c.add x h else h

def EdCurve.times (c : EdCurve) (k : Nat) (x : Nat × Nat) : Nat × Nat := c.mul (bitLen k) k x
def EdCurve.enc (c : EdCurve) (x : Nat × Nat) : List Byte := natLE c.len (x.2 + x.1 % 2 * 2 ^ (8 * c.len - 1))

/-- The point that bytes encode. -/
def EdCurve.dec (c : EdCurve) (bs : List Byte) : Option (Nat × Nat) :=
  let v := leNat bs
  let y := v % 2 ^ (8 * c.len - 1)
  if bs.length ≠ c.len ∨ c.p ≤ y then none else (edX c.p c.neg c.d y (v / 2 ^ (8 * c.len - 1))).map (fun x => (x, y))

/-- The hash of the curve, as a number and as bytes: SHA-512, or 114 bytes of SHAKE256 after the domain string. -/
def EdCurve.hash (c : EdCurve) (bs : List Byte) : List Byte :=
  if c.len = 57 then shake256 ([0x53, 0x69, 0x67, 0x45, 0x64, 0x34, 0x34, 0x38, 0, 0] ++ bs) 114 else sha512 bs
def EdCurve.hashInt (c : EdCurve) (bs : List Byte) : Nat := leNat (c.hash bs) % c.order

/-- The hash of a seed: 57 bytes of it are hashed without the domain string. -/
def EdCurve.expand (c : EdCurve) (seed : List Byte) : List Byte := if c.len = 57 then shake256 seed 114 else sha512 seed

/-- The secret scalar of an expanded seed. -/
def EdCurve.scalar (c : EdCurve) (h : List Byte) : Nat :=
  let v := leNat (h.take c.len)
  if c.len = 57 then natPut (v - v % 4) 455 447 1 else natPut (v - v % 8) 255 254 1

/-- The public key of a seed. -/
def edPublic (alg : Nat) (seed : List Byte) : List Byte :=
  let c := edCurve alg
  c.enc (c.times (c.scalar (c.expand seed)) (c.bx, c.by_))

/-- A signature by a seed and public key. -/
def edSign (alg : Nat) (seed pub m : List Byte) : List Byte :=
  let c := edCurve alg
  let h := c.expand seed
  let r := c.hashInt (h.drop c.len ++ m)
  let R := c.enc (c.times r (c.bx, c.by_))
  R ++ natLE c.len ((r + c.hashInt (R ++ pub ++ m) * c.scalar h) % c.order)

/-- Does a signature verify, its S below the order and both points decoded? -/
def edVerify (alg : Nat) (pub sg m : List Byte) : Bool :=
  let c := edCurve alg
  let s := leNat (sg.drop c.len)
  match c.dec pub, c.dec (sg.take c.len) with
  | some a, some r =>
    let l := c.times s (c.bx, c.by_)
    let k := c.add r (c.times (c.hashInt (sg.take c.len ++ pub ++ m)) a)
    decide (s < c.order) && c.times (2 ^ c.cof) l == c.times (2 ^ c.cof) k
  | _, _ => false

end Sys2Proof.Machine
end

