-- ==== Sys2Proof/Machine/Lattice.lean ====
section
/-!
DEFINITION. The lattice algorithms that the spec names (00 R5; 17 R378): ML-KEM-768 and ML-KEM-1024 of FIPS 203, ML-DSA-65 and
ML-DSA-87 of FIPS 204, pure with an empty context (PRESUMED, assumption 97). A polynomial is the list of its 256 coefficients.
-/
namespace Sys2Proof.Machine

/-! ### Polynomials over Z/q -/

def polyAdd (q : Nat) (f g : List Nat) : List Nat := List.zipWith (fun a b => (a + b) % q) f g
def polySub (q : Nat) (f g : List Nat) : List Nat := List.zipWith (fun a b => (a + q - b % q) % q) f g
def polySum (q : Nat) (fs : List (List Nat)) : List Nat := fs.foldl (polyAdd q) (List.replicate 256 0)
/-- The value of the polynomial with these coefficients at `x`. -/
def hornerAt (q x : Nat) (f : List Nat) : Nat := f.foldr (fun c a => (c + x * a) % q) 0
/-- `b^e mod q` over the low bits of the exponent. -/
def rootPow (q : Nat) : Nat → Nat → Nat → Nat
  | 0, _, _ => 1
  | n + 1, b, e => let h := rootPow q n (b * b % q) (e / 2); if e % 2 = 1 then b * h % q else h
/-- The low `n` bits of a number in reverse. -/
def bitRev : Nat → Nat → Nat
  | 0, _ => 0
  | n + 1, i => i % 2 * 2 ^ n + bitRev n (i / 2)
/-- Every `k`-th element from place `i` on. -/
def strided (k i n : Nat) (f : List Nat) : List Nat := (List.range n).map (fun j => f.getD (i + k * j) 0)

/-- Values of `d` bits packed in bytes, least significant bit first, and read back. -/
def packBits (d : Nat) (f : List Nat) : List Byte :=
  natLE (f.length * d / 8) (f.foldr (fun v a => v % 2 ^ d + 2 ^ d * a) 0)
def unpackBits (d n : Nat) (bs : List Byte) : List Nat := (List.range n).map (fun i => leNat bs / 2 ^ (d * i) % 2 ^ d)
/-- Chunk `i` of `n` bytes. -/
def chunk (n i : Nat) (bs : List Byte) : List Byte := (bs.drop (n * i)).take n

/-- Draw from an extendable output that is read in growing lengths until `take` finds enough. -/
def drawUntil (xof : Nat → List Byte) (take : List Byte → Option (List Nat)) : Nat → Nat → List Nat
  | 0, _ => []
  | fuel + 1, n => match take (xof n) with
    | some f => f
    | none => drawUntil xof take fuel (2 * n)

/-- The first 256 of the values that pass, where there are so many. -/
def first256 (vs : List Nat) : Option (List Nat) := if vs.length < 256 then none else some (vs.take 256)

/-- Groups of three bytes. -/
def threes : List Byte → List (Nat × Nat × Nat)
  | a :: b :: c :: t => (a.toNat, b.toNat, c.toNat) :: threes t
  | _ => []

/-! ### ML-KEM (FIPS 203) -/

def kq : Nat := 3329
/-- Rank, and bits of the two ciphertext parts, by ALG. -/
def kemK (alg : Nat) : Nat := if alg = 9 then 4 else 3
def kemDu (alg : Nat) : Nat := if alg = 9 then 11 else 10
def kemDv (alg : Nat) : Nat := if alg = 9 then 5 else 4

/-- The root of the i-th quadratic factor X² − root. -/
def kemRoot (i : Nat) : Nat := rootPow kq 8 17 (2 * bitRev 7 i + 1)
def kemRoots : List Nat := (List.range 128).map kemRoot
/-- The transform: the residue modulo each quadratic factor. -/
def kemNtt (f : List Nat) : List Nat :=
  kemRoots.flatMap (fun r => [hornerAt kq r (strided 2 0 128 f), hornerAt kq r (strided 2 1 128 f)])
/-- Its inverse. -/
def kemInv (g : List Nat) : List Nat :=
  let inv := kemRoots.map (fun r => rootPow kq 12 r (kq - 2))
  let back := fun (o j : Nat) => (List.zipWith (fun r v => rootPow kq 7 r j * v) inv (strided 2 o 128 g)).sum * 3303 % kq
  (List.range 128).flatMap (fun j => [back 0 j, back 1 j])
/-- The product of two transforms. -/
def kemMul (f g : List Nat) : List Nat :=
  (List.range 128).flatMap (fun i =>
    let a := f.getD (2 * i) 0
    let b := f.getD (2 * i + 1) 0
    let c := g.getD (2 * i) 0
    let d := g.getD (2 * i + 1) 0
    [(a * c + b * d % kq * (kemRoots.getD i 0)) % kq, (a * d + b * c) % kq])
/-- A row of transforms times a column. -/
def kemDot (f g : List (List Nat)) : List Nat := polySum kq (List.zipWith kemMul f g)

/-- Entry of the matrix: uniform in the transform domain. -/
def kemEntry (rho : List Byte) (i j : Nat) : List Nat :=
  drawUntil (shake128 (rho ++ [BitVec.ofNat 8 j, BitVec.ofNat 8 i])) (fun bs =>
    first256 (((threes bs).flatMap (fun t => [t.1 + 256 * (t.2.1 % 16), t.2.1 / 16 + 16 * t.2.2])).filter (fun v => decide (v < kq)))) 8 840
/-- A small polynomial of the centred binomial distribution with η = 2. -/
def kemSmall (s : List Byte) (n : Nat) : List Nat :=
  (unpackBits 4 256 (shake256 (s ++ [BitVec.ofNat 8 n]) 128)).map (fun v => (v % 2 + v / 2 % 2 + kq - v / 4 % 2 - v / 8) % kq)
def kemCompress (d : Nat) (f : List Nat) : List Nat := f.map (fun x => (2 ^ (d + 1) * x + kq) / (2 * kq) % 2 ^ d)
def kemExpand (d : Nat) (f : List Nat) : List Nat := f.map (fun y => (2 * kq * y + 2 ^ d) / 2 ^ (d + 1))

/-- The key pair of two seeds: decapsulation key, encapsulation key. -/
def kemKeys (alg : Nat) (d z : List Byte) : List Byte × List Byte :=
  let k := kemK alg
  let g := sha3x512 (d ++ [BitVec.ofNat 8 k])
  let rho := g.take 32
  let s := (List.range k).map (fun i => kemNtt (kemSmall (g.drop 32) i))
  let e := (List.range k).map (fun i => kemNtt (kemSmall (g.drop 32) (k + i)))
  let t := (List.range k).map (fun i => polyAdd kq (kemDot ((List.range k).map (kemEntry rho i)) s) (e.getD i []))
  let ek := t.flatMap (packBits 12) ++ rho
  (s.flatMap (packBits 12) ++ ek ++ sha3x256 ek ++ z, ek)

/-- The ciphertext of a 32-byte message under randomness. -/
def kemEncrypt (alg : Nat) (ek m r : List Byte) : List Byte :=
  let k := kemK alg
  let t := (List.range k).map (fun i => unpackBits 12 256 (chunk 384 i ek))
  let rho := ek.drop (384 * k)
  let y := (List.range k).map (fun i => kemNtt (kemSmall r i))
  let u := (List.range k).map (fun i =>
    polyAdd kq (kemInv (kemDot ((List.range k).map (fun j => kemEntry rho j i)) y)) (kemSmall r (k + i)))
  let v := polySum kq [kemInv (kemDot t y), kemSmall r (2 * k), kemExpand 1 (unpackBits 1 256 m)]
  u.flatMap (fun f => packBits (kemDu alg) (kemCompress (kemDu alg) f)) ++ packBits (kemDv alg) (kemCompress (kemDv alg) v)

/-- The message of a ciphertext. -/
def kemDecrypt (alg : Nat) (dk c : List Byte) : List Byte :=
  let k := kemK alg
  let u := (List.range k).map (fun i => kemExpand (kemDu alg) (unpackBits (kemDu alg) 256 (chunk (32 * kemDu alg) i c)))
  let v := kemExpand (kemDv alg) (unpackBits (kemDv alg) 256 (c.drop (32 * kemDu alg * k)))
  let s := (List.range k).map (fun i => unpackBits 12 256 (chunk 384 i dk))
  packBits 1 (kemCompress 1 (polySub kq v (kemInv (kemDot s (u.map kemNtt)))))

/-- Encapsulation with a 32-byte message: shared key, ciphertext. -/
def kemEncaps (alg : Nat) (ek m : List Byte) : List Byte × List Byte :=
  let g := sha3x512 (m ++ sha3x256 ek)
  (g.take 32, kemEncrypt alg ek m (g.drop 32))

/-- Decapsulation with implicit rejection. -/
def kemDecaps (alg : Nat) (dk c : List Byte) : List Byte :=
  let k := kemK alg
  let ek := (dk.drop (384 * k)).take (384 * k + 32)
  let g := sha3x512 (kemDecrypt alg dk c ++ (dk.drop (768 * k + 32)).take 32)
  if kemEncrypt alg ek (kemDecrypt alg dk c) (g.drop 32) = c then g.take 32 else shake256 (dk.drop (768 * k + 64) ++ c) 32

/-- Every coefficient of an encapsulation key is below q. -/
def kemKeyOk (alg : Nat) (ek : List Byte) : Bool := (unpackBits 12 (256 * kemK alg) ek).all (fun v => decide (v < kq))

/-! ### ML-DSA (FIPS 204) -/

def dq : Nat := 8380417
/-- A parameter set: rows, columns, η, τ, ω, bytes of the challenge hash. γ1 is 2^19 and γ2 is (q − 1)/32. -/
structure DsaSet where
  k : Nat
  l : Nat
  eta : Nat
  tau : Nat
  omega : Nat
  ch : Nat
  deriving DecidableEq, Repr
def dsaSet (alg : Nat) : DsaSet := if alg = 0x0B then ⟨8, 7, 2, 60, 75, 64⟩ else ⟨6, 5, 4, 49, 55, 48⟩
def DsaSet.beta (p : DsaSet) : Nat := p.tau * p.eta
def dg1 : Nat := 2 ^ 19
def dg2 : Nat := (dq - 1) / 32

def dsaRoots : List Nat := (List.range 256).map (fun i => rootPow dq 9 1753 (2 * bitRev 8 i + 1))
def dsaNtt (f : List Nat) : List Nat := dsaRoots.map (fun r => hornerAt dq r f)
/-- The inverse transform: its values form, at the inverse of each power of the root, a polynomial again. -/
def dsaInv (g : List Nat) : List Nat :=
  let vals := List.zip (dsaRoots.map (fun r => rootPow dq 23 r (dq - 2))) g
  ((List.range 256).foldl (fun (a : List Nat × List (Nat × Nat)) _ =>
    ((a.2.map (·.2)).sum * 8347681 % dq :: a.1, a.2.map (fun e => (e.1, e.1 * e.2 % dq)))) ([], vals)).1.reverse
def dsaMul (f g : List Nat) : List Nat := List.zipWith (fun a b => a * b % dq) f g
def dsaDot (f g : List (List Nat)) : List Nat := polySum dq (List.zipWith dsaMul f g)

/-- A residue as the number of least magnitude. -/
def centred (q x : Nat) : Int := if x ≤ q / 2 then x else (x : Int) - q
def dsaMod (x : Int) : Nat := (x % (dq : Int)).toNat
def normOf (f : List Nat) : Nat := (f.map (fun x => (centred dq x).natAbs)).foldl max 0
/-- Values `hi − v` packed in `d` bits, and read back. -/
def packFrom (d hi : Nat) (f : List Nat) : List Byte := packBits d (f.map (fun v => ((hi : Int) - centred dq v).toNat))
def unpackFrom (d hi : Nat) (bs : List Byte) : List Nat := (unpackBits d 256 bs).map (fun v => dsaMod ((hi : Int) - v))

/-- High part and low part of a residue by 2·γ2. -/
def dsaSplit (r : Nat) : Nat × Int :=
  let r0 := let m := r % (2 * dg2); if m ≤ dg2 then (m : Int) else (m : Int) - 2 * dg2
  if (r : Int) - r0 = dq - 1 then (0, r0 - 1) else (((r : Int) - r0).toNat / (2 * dg2), r0)
def dsaHigh (r : Nat) : Nat := (dsaSplit r).1
/-- The high part that a hint corrects. -/
def dsaUseHint (h r : Nat) : Nat :=
  let s := dsaSplit r
  if h = 0 then s.1 else if 0 < s.2 then (s.1 + 1) % 16 else (s.1 + 15) % 16

def dsaEntry (rho : List Byte) (r s : Nat) : List Nat :=
  drawUntil (shake128 (rho ++ [BitVec.ofNat 8 s, BitVec.ofNat 8 r])) (fun bs =>
    first256 (((threes bs).map (fun t => t.1 + 256 * t.2.1 + 65536 * (t.2.2 % 128))).filter (fun v => decide (v < dq)))) 8 840
def dsaMatrix (p : DsaSet) (rho : List Byte) : List (List (List Nat)) :=
  (List.range p.k).map (fun r => (List.range p.l).map (dsaEntry rho r))
/-- A short secret polynomial. -/
def dsaSmall (eta : Nat) (s : List Byte) (n : Nat) : List Nat :=
  drawUntil (shake256 (s ++ natLE 2 n)) (fun bs =>
    first256 ((bs.flatMap (fun b => [b.toNat % 16, b.toNat / 16])).filterMap (fun b =>
      if eta = 2 then (if b < 15 then some (dsaMod (2 - (b % 5 : Nat))) else none) else if b < 9 then some (dsaMod (4 - (b : Int))) else none))) 8 544
/-- The challenge polynomial: τ coefficients ±1. -/
def dsaBall (tau : Nat) (c : List Byte) : List Nat :=
  let place := fun (signs : Nat) (a : Option (List Nat × List Byte)) (i : Nat) => match a with
    | none => none
    | some (f, bs) => match bs.dropWhile (fun b => decide (i < b.toNat)) with
      | [] => none
      | b :: bs =>
        let v := if natBit signs (i + tau - 256) then dq - 1 else 1
        some ((f.set i (f.getD b.toNat 0)).set b.toNat v, bs)
  drawUntil (shake256 c) (fun bs =>
    (((List.range tau).map (· + (256 - tau))).foldl (place (leNat (bs.take 8))) (some (List.replicate 256 0, bs.drop 8))).map (·.1)) 8 272

/-- A message with its prefix for the pure variant and an empty context. -/
def dsaMessage (m : List Byte) : List Byte := 0 :: 0 :: m

/-- The key pair of a seed: private key, public key. -/
def dsaKeys (alg : Nat) (seed : List Byte) : List Byte × List Byte :=
  let p := dsaSet alg
  let h := shake256 (seed ++ [BitVec.ofNat 8 p.k, BitVec.ofNat 8 p.l]) 128
  let s1 := (List.range p.l).map (dsaSmall p.eta ((h.drop 32).take 64))
  let s2 := (List.range p.k).map (fun i => dsaSmall p.eta ((h.drop 32).take 64) (p.l + i))
  let t := List.zipWith (fun row e => polyAdd dq (dsaInv (dsaDot row (s1.map dsaNtt))) e) (dsaMatrix p (h.take 32)) s2
  let low := fun (x : Nat) => let m := x % 8192; if m ≤ 4096 then (m : Int) else (m : Int) - 8192
  let t1 := t.map (fun f => f.map (fun (x : Nat) => ((x : Int) - low x).toNat / 8192))
  let t0 := t.map (fun f => f.map (fun x => dsaMod (low x)))
  let pk := h.take 32 ++ t1.flatMap (packBits 10)
  let d := if p.eta = 2 then 3 else 4
  (h.take 32 ++ h.drop 96 ++ shake256 pk 64 ++ (s1 ++ s2).flatMap (packFrom d p.eta) ++ t0.flatMap (packFrom 13 4096), pk)

/-- Hints packed: the places of each polynomial's ones, then the running counts. -/
def dsaPackHint (p : DsaSet) (h : List (List Nat)) : List Byte :=
  let pl := h.map (fun f => (List.range 256).filter (fun i => f.getD i 0 == 1))
  let all := pl.flatten
  (all ++ List.replicate (p.omega - all.length) 0).map (BitVec.ofNat 8)
    ++ (List.range p.k).map (fun i => BitVec.ofNat 8 ((pl.take (i + 1)).flatten).length)
/-- Hints read back; none where they are not in their one form. -/
def dsaUnpackHint (p : DsaSet) (bs : List Byte) : Option (List (List Nat)) :=
  let ends := (bs.drop p.omega).map (·.toNat)
  let start := fun i => if i = 0 then 0 else ends.getD (i - 1) 0
  let part := fun i => (((bs.take p.omega).map (·.toNat)).drop (start i)).take (ends.getD i 0 - start i)
  let rising := fun (l : List Nat) => (List.zip l (l.drop 1)).all (fun e => decide (e.1 < e.2))
  if (List.range p.k).all (fun i => decide (start i ≤ ends.getD i 0 ∧ ends.getD i 0 ≤ p.omega) && rising (part i))
      && ((bs.take p.omega).drop (ends.getD (p.k - 1) 0)).all (· == 0) then
    some ((List.range p.k).map (fun i => (List.range 256).map (fun j => b2n (decide (j ∈ part i)))))
  else none

/-- Signing attempts from a counter on: the signature, and how many attempts were made. -/
def dsaTry (p : DsaSet) (A : List (List (List Nat))) (s1 s2 t0 : List (List Nat)) (mu rho : List Byte) : Nat → Nat → Nat → List Byte × Nat
  | 0, _, n => ([], n)
  | fuel + 1, kappa, n =>
    let y := (List.range p.l).map (fun r => unpackFrom 20 dg1 (shake256 (rho ++ natLE 2 (kappa + r)) 640))
    let yh := y.map dsaNtt
    let w := A.map (fun row => dsaInv (dsaDot row yh))
    let c := shake256 (mu ++ w.flatMap (fun f => packBits 4 (f.map dsaHigh))) p.ch
    let ch := dsaNtt (dsaBall p.tau c)
    let z := List.zipWith (fun f s => polyAdd dq f (dsaInv (dsaMul ch s))) y s1
    let r := List.zipWith (fun f s => polySub dq f (dsaInv (dsaMul ch s))) w s2
    let ct := t0.map (fun t => dsaInv (dsaMul ch t))
    let h := List.zipWith (fun f t => List.zipWith (fun a b => b2n (dsaHigh a != dsaHigh ((a + b) % dq))) f t) r ct
    let far := fun (fs : List (List Nat)) b => fs.any (fun f => decide (b ≤ normOf f))
    if far z (dg1 - p.beta) || r.any (fun f => f.any (fun x => decide (dg2 - p.beta ≤ (dsaSplit x).2.natAbs))) || far ct dg2
        || decide (p.omega < (h.map List.sum).sum) then dsaTry p A s1 s2 t0 mu rho fuel (kappa + p.l) (n + 1)
    else (c ++ z.flatMap (packFrom 20 dg1) ++ dsaPackHint p h, n + 1)

/-- A signature by a private key with 32 hedging bytes, and the attempts made; FIPS 204's bound of 814 attempts. -/
def dsaSignN (alg : Nat) (sk m rnd : List Byte) : List Byte × Nat :=
  let p := dsaSet alg
  let d := if p.eta = 2 then 3 else 4
  let small := fun i => dsaNtt (unpackFrom d p.eta (chunk (32 * d) i (sk.drop 128)))
  let t0 := fun i => dsaNtt (unpackFrom 13 4096 (chunk 416 i (sk.drop (128 + 32 * d * (p.k + p.l)))))
  let mu := shake256 ((sk.drop 64).take 64 ++ dsaMessage m) 64
  dsaTry p (dsaMatrix p (sk.take 32)) ((List.range p.l).map small) ((List.range p.k).map (fun i => small (p.l + i)))
    ((List.range p.k).map t0) mu (shake256 ((sk.drop 32).take 32 ++ rnd ++ mu) 64) 814 0 0

/-- Does a signature verify? -/
def dsaVerify (alg : Nat) (pk m sg : List Byte) : Bool :=
  let p := dsaSet alg
  let c := sg.take p.ch
  let z := (List.range p.l).map (fun i => unpackFrom 20 dg1 (chunk 640 i (sg.drop p.ch)))
  match dsaUnpackHint p (sg.drop (p.ch + 640 * p.l)) with
  | none => false
  | some h =>
    let mu := shake256 (shake256 pk 64 ++ dsaMessage m) 64
    let ch := dsaNtt (dsaBall p.tau c)
    let t1 := (List.range p.k).map (fun i => (unpackBits 10 256 (chunk 320 i (pk.drop 32))).map (fun x => x * 8192 % dq))
    let zh := z.map dsaNtt
    let w := List.zipWith (fun row t => dsaInv (polySub dq (dsaDot row zh) (dsaMul ch (dsaNtt t)))) (dsaMatrix p (pk.take 32)) t1
    let w1 := List.zipWith (fun hs f => List.zipWith dsaUseHint hs f) h w
    z.all (fun f => decide (normOf f < dg1 - p.beta)) && shake256 (mu ++ w1.flatMap (packBits 4)) p.ch == c

end Sys2Proof.Machine
end

