-- ==== Sys2Proof/Machine/Ts.lean ====
section
/-!
DEFINITION. The touchstone (spec 17 R372 to R387): operand slots, the checks at push, the phases of a request, its operation by the
published standards, its result latch, completions and events, and the requests of the device's own units.
-/
namespace Sys2Proof.Machine

/-! ### Slots (R375, R376) -/

def State.tsLen (s : State) : Nat := s.rf .tsCfg 0 0 6 0
/-- Bytes of a slot. -/
def State.tsSlotBytes (s : State) : Nat := 8 * s.tsLen
def State.tsSlots (s : State) : Nat := 8192 / s.tsLen
/-- Slots a byte string spans. -/
def State.tsSpan (s : State) (bytes : Nat) : Nat := ceilDiv bytes s.tsSlotBytes
def State.modTs (s : State) (f : Ts → Ts) : State := { s with ts := f s.ts }

/-- `n` bytes from the start of a slot. -/
def State.tsRead (s : State) (slot n : Nat) : List Byte := (List.range n).map (fun i => Tab.get 0 s.ts.mem (s.tsSlotBytes * slot + i))

/-- Fill `k` slots from a slot on with bytes and zeros. -/
def State.tsFill (s : State) (slot k : Nat) (bs : List Byte) : State :=
  s.modTs (fun t => { t with mem := (List.range (s.tsSlotBytes * k)).foldl (fun m i =>
    Tab.set 0 m (s.tsSlotBytes * slot + i) ((bs[i]?).getD 0)) t.mem })

/-- Set or clear flags of slots. -/
def Ts.flag (t : Ts) (slots : List Nat) (valid secret : Bool) : Ts :=
  let put := fun (b : Bool) (l : List Nat) => if b then slots.foldl (fun l x => addOnce x l) l else l.filter (fun x => !(x ∈ slots))
  { t with valid := put valid t.valid, secret := put secret t.secret }

/-! ### Operations (R378) -/

/-- Byte lengths of the strings of an algorithm in its standard's encoding: public key, private key, signature or ciphertext. -/
def tsSizes : Nat → Nat × Nat × Nat
  | 0x05 => (56, 56, 114)
  | 0x08 => (1184, 2400, 1088)
  | 0x09 => (1568, 3168, 1568)
  | 0x0A => (1952, 4032, 3309)
  | 0x0B => (2592, 4896, 4627)
  | _ => (32, 32, 64)

/-- Bytes of an Ed25519 or Ed448 key. -/
def edKey (alg : Nat) : Nat := if alg = 0x05 then 57 else 32

/-- The ALG values of a Weierstrass curve. -/
def ecAlg (alg : Nat) : Bool := decide ((1 ≤ alg ∧ alg ≤ 3) ∨ (0x10 ≤ alg ∧ alg ≤ 0x17))

/-- OP and ALG form a row of the operations table; a SHAKE digest has 1 to 1,024 bytes. -/
def TsReq.rowOk (r : TsReq) : Bool :=
  match r.op with
  | 0x01 => r.alg == 0
  | 0x10 | 0x11 | 0x12 | 0x13 => ecAlg r.alg
  | 0x20 | 0x21 | 0x28 | 0x29 | 0x2A => r.alg == 4 || r.alg == 5
  | 0x30 | 0x31 | 0x32 => r.alg == 8 || r.alg == 9
  | 0x38 | 0x39 | 0x3A => r.alg == 0x0A || r.alg == 0x0B
  | 0x40 | 0x41 => decide (0x10 ≤ r.alg ∧ r.alg ≤ 0x17)
  | 0x50 => r.alg == 0x20 || ((r.alg == 0x21 || r.alg == 0x22) && decide (1 ≤ r.olen ∧ r.olen ≤ 1024))
  | _ => false

/-- A part of an operand: its first slot, its slots, its bytes. -/
structure Part where
  slot : Nat
  slots : Nat
  bytes : Nat
  deriving DecidableEq, Repr

/-- Parts laid out one after another from a slot: byte lengths, 0 for an integer of one slot. -/
def State.tsParts (s : State) (slot : Nat) (ls : List Nat) : List Part :=
  (ls.foldl (fun (a : List Part × Nat) n =>
    let k := if n = 0 then 1 else s.tsSpan n
    (a.1 ++ [⟨a.2, k, if n = 0 then s.tsSlotBytes else n⟩], a.2 + k)) ([], slot)).1

/-- Source parts of a request. -/
def State.tsSrc (s : State) (r : TsReq) : List Part :=
  let z := tsSizes r.alg
  let A := s.tsParts r.a
  let B := s.tsParts r.b
  let msg := if r.mlen = 0 then [] else s.tsParts r.c [r.mlen]
  match r.op with
  | 0x01 => A [0] ++ B [0] ++ s.tsParts r.c [0]
  | 0x11 => (if r.idkey then [] else A [0, 0, 0]) ++ msg
  | 0x12 => A [0, 0] ++ B [0, 0] ++ msg
  | 0x13 => A [0] ++ B [0, 0]
  | 0x21 => A [z.2.1] ++ B [z.1]
  | 0x29 => A [edKey r.alg, edKey r.alg] ++ msg
  | 0x2A => A [edKey r.alg] ++ B [z.2.2] ++ msg
  | 0x31 => A [z.1]
  | 0x32 => A [z.2.1] ++ B [z.2.2]
  | 0x39 => A [z.2.1, z.1] ++ msg
  | 0x3A => A [z.1] ++ B [z.2.2] ++ msg
  | 0x40 => A [0, 0, 0, 0, 0, 0, 0]
  | 0x50 => msg
  | _ => []

/-- Destination parts of a request, and which of them is SECRET. -/
def State.tsDst (s : State) (r : TsReq) : List Part :=
  let z := tsSizes r.alg
  let D := s.tsParts r.dst
  match r.op with
  | 0x01 | 0x13 => D [0]
  | 0x10 => D [0, 0, 0]
  | 0x11 => D [0, 0]
  | 0x20 => D [z.2.1, z.1]
  | 0x21 => D [z.1]
  | 0x28 => D [edKey r.alg, edKey r.alg]
  | 0x29 => D [z.2.2]
  | 0x30 => D [z.2.1, z.1]
  | 0x31 => D [32, z.2.2]
  | 0x32 => D [32]
  | 0x38 => D [z.2.1, z.1]
  | 0x39 => D [z.2.2]
  | 0x50 => D [if r.alg = 0x20 then 48 else r.olen]
  | _ => []

/-- The first output is a private value. -/
def tsSecret (op : Nat) : Bool := op ∈ [0x10, 0x20, 0x28, 0x30, 0x31, 0x32, 0x38]

def Part.all (p : Part) : List Nat := (List.range p.slots).map (· + p.slot)
def partSlots (ps : List Part) : List Nat := ps.flatMap Part.all

/-- Slots named by queued or running requests. -/
def State.tsBusy (s : State) : List Nat := s.ts.queue.flatMap (fun r => partSlots (s.tsSrc r) ++ partSlots (s.tsDst r))

/-- The parameters p, a, b, Gx, Gy, n, h of a curve; none where a loadable one is not loaded. -/
def State.tsCurveOf (s : State) (alg : Nat) : Option (List Nat) :=
  if 0x10 ≤ alg then
    match Tab.get [] s.ts.curves (alg - 0x10) with
    | [] => none
    | c => some c
  else some (namedCurve alg)

/-- Bits of the field of an operation. -/
def State.tsField (s : State) (r : TsReq) : Nat :=
  if r.op = 0x40 ∨ r.op = 0x41 ∨ r.op = 0x50 ∨ r.op = 0x01 then 0
  else if r.alg = 1 then 256 else if r.alg = 2 then 384 else if r.alg = 3 then 521
  else if r.alg = 4 then 255 else if r.alg = 5 then 448
  else if 0x10 ≤ r.alg then bitLen (((s.tsCurveOf r.alg).getD []).headD 0) else 0

/-- The checks at push (R374), a curve not loaded (R384) and a SECRET destination (R376) included. -/
def State.tsPushOk (s : State) (r : TsReq) : Bool :=
  let src := partSlots (s.tsSrc r)
  let dst := partSlots (s.tsDst r)
  let lim := s.rf .tsPart 0 0 11 0
  r.rowOk
  && (src ++ dst).all (fun x => decide (x < s.tsSlots) && (if r.who = 0 then decide (lim ≤ x) else decide (x < lim)))
  && decide (s.tsField r ≤ 8 * s.tsSlotBytes)
  && dst.all (fun x => !(x ∈ src) && !(x ∈ s.ts.secret))
  && (!r.idkey || (r.who != 0 && r.op == 0x11 && r.alg == 2))
  && (!(ecAlg r.alg && decide (r.op ≤ 0x13)) || (s.tsCurveOf r.alg).isSome)

/-! ### Phase lengths (R380) -/

/-- W, m and S of a loaded curve. -/
def loadedWmS (p : Nat) : Nat × Nat × Nat :=
  let w := ceilDiv (bitLen p) 64
  let m := ceilDiv (w * w) 4 + 20
  (w, m, 896 * w * m)

/-- T_LOAD, T_CURVE and T_OP; `tries`: signing attempts of DSA_SIGN. The time of CURVE_LOAD and CURVE_CLEAR has no fixed length. -/
def State.tsTimes (s : State) (r : TsReq) (tries free : Nat) : Nat × Nat × Nat :=
  let q := ceilDiv r.mlen 4
  let L := loadedWmS (r.curve.headD 0)
  match r.op, r.alg with
  | 0x01, _ => (16 + 6 * s.tsLen, 0, (80 * s.tsLen + 16) * (ceilDiv (s.tsLen * s.tsLen) 4 + 20))
  | 0x10, 1 => (16, 0, 17016)
  | 0x10, 2 => (16, 0, 28016)
  | 0x10, 3 => (16, 0, 66016)
  | 0x10, _ => (16, 0, L.2.2 + 16)
  | 0x11, 1 => (32, 0, 50000)
  | 0x11, 2 => (40, 0, 82000)
  | 0x11, 3 => (52, 0, 195000)
  | 0x11, _ => (16 + 4 * L.1, 0, 3 * L.2.2 + 4000)
  | 0x12, 1 => (56, 96, 32000)
  | 0x12, 2 => (76, 128, 52000)
  | 0x12, 3 => (106, 192, 125000)
  | 0x12, _ => (16 + 10 * L.1, 4 * L.2.1 + 40, 2 * L.2.2 + 2000)
  | 0x13, 1 => (40, 96, 17016)
  | 0x13, 2 => (52, 128, 28016)
  | 0x13, 3 => (70, 192, 66016)
  | 0x13, _ => (16 + 6 * L.1, 4 * L.2.1 + 40, L.2.2 + 16)
  | 0x20, 4 => (16, 0, 25016)
  | 0x20, _ => (16, 0, 70016)
  | 0x21, 4 => (32, 0, 25016)
  | 0x21, _ => (44, 0, 70016)
  | 0x28, 4 => (16, 0, 20000)
  | 0x28, _ => (16, 0, 55000)
  | 0x29, 4 => (32 + q, 0, 60000 + 12 * ceilDiv r.mlen 128)
  | 0x29, _ => (48 + q, 0, 165000 + 12 * ceilDiv r.mlen 136)
  | 0x2A, 4 => (40 + q, 96, 40000 + 4 * ceilDiv r.mlen 128)
  | 0x2A, _ => (62 + q, 168, 110000 + 4 * ceilDiv r.mlen 136)
  | 0x30, 8 => (16, 0, 6016)
  | 0x30, _ => (16, 0, 9016)
  | 0x31, 8 => (312, 0, 7016)
  | 0x31, _ => (408, 0, 10016)
  | 0x32, 8 => (888, 0, 8516)
  | 0x32, _ => (1200, 0, 12016)
  | 0x38, 0x0A => (16, 0, 10000)
  | 0x38, _ => (16, 0, 14000)
  | 0x39, 0x0A => (1512 + q, 0, 14000 * tries + 12000)
  | 0x39, _ => (1888 + q, 0, 20000 * tries + 18000)
  | 0x3A, 0x0A => (1332 + q, 0, 12000 + 4 * ceilDiv r.mlen 136)
  | 0x3A, _ => (1822 + q, 0, 18000 + 4 * ceilDiv r.mlen 136)
  | 0x50, 0x20 => (16 + q, 0, 8 + 4 * ceilDiv (r.mlen + 17) 128)
  | 0x50, 0x21 => (16 + q, 0, 8 + 4 * (ceilDiv (r.mlen + 1) 168 + ceilDiv r.olen 168 - 1))
  | 0x50, _ => (16 + q, 0, 8 + 4 * (ceilDiv (r.mlen + 1) 136 + ceilDiv r.olen 136 - 1))
  | _, _ => (0, 0, free % 4000001)

/-! ### What a request computes (R378, R379) -/

/-- Requests that draw from the random source (R382, R383). -/
def tsRandom (op : Nat) : Bool := op ∈ [0x10, 0x13, 0x20, 0x21, 0x28, 0x30, 0x31, 0x32, 0x38, 0x39]
/-- Operations on two datapaths (R382), and signing operations (R381). -/
def tsTwin (op : Nat) : Bool := op ∈ [0x10, 0x13, 0x20, 0x21, 0x30, 0x31, 0x32]
def tsSigns (op : Nat) : Bool := op ∈ [0x11, 0x29, 0x39]

def TsReq.src (r : TsReq) (i : Nat) : List Byte := (r.srcs[i]?).getD []
/-- Source `i` as an integer. -/
def TsReq.int (r : TsReq) (i : Nat) : Nat := leNat (r.src i)
def TsReq.par (r : TsReq) (i : Nat) : Nat := (r.curve[i]?).getD 0

/-- The load check (R379 phase 1). -/
def TsReq.loadOk (r : TsReq) : Bool :=
  let p := r.par 0
  let n := r.par 5
  let below := fun i m => decide (r.int i < m)
  let unit := fun i => decide (1 ≤ r.int i ∧ r.int i < n)
  r.srcOk && (match r.op with
    | 0x01 => decide (r.int 0 < r.int 2 ∧ r.int 2 % 2 = 1 ∧ 3 ≤ r.int 2)
    | 0x11 => r.idkey || (below 0 n && below 1 p && below 2 p)
    | 0x12 => below 0 p && below 1 p && unit 2 && unit 3
    | 0x13 => below 1 p && below 2 p
    | 0x21 => decide (montU r.alg (r.src 1) < montP r.alg)
    | 0x2A => decide (leNat ((r.src 1).drop (edKey r.alg)) < (edCurve r.alg).order)
    | 0x31 => kemKeyOk r.alg (r.src 0)
    | _ => true)

/-- The on-curve check (phase 2). -/
def TsReq.curveOk (r : TsReq) : Bool :=
  let on := fun i => onCurve (r.par 0) (r.par 1) (r.par 2) (r.int i) (r.int (i + 1))
  match r.op with
  | 0x12 => on 0
  | 0x13 => on 1
  | 0x2A => ((edCurve r.alg).dec (r.src 0)).isSome && ((edCurve r.alg).dec ((r.src 1).take (edKey r.alg))).isSome
  | _ => true

/-- The private identity key, which the hallmark holds and nothing reads (21 R448). -/
def idScalar : Nat := 1 + Config.idKey % (cpar (namedCurve 2) 5 - 1)

/-- The message of a request, its source `i`. -/
def TsReq.msg (r : TsReq) (i : Nat) : List Byte := (r.src i).take r.mlen

/-- The identity public key of the hallmark, X then Y. -/
def State.idPublic (s : State) : List Byte := (List.range 24).flatMap (fun k => natLE 4 (s.reg .hmIdpub 0 k).toNat)

/-- `n` bytes of the random source for the request that runs. -/
def State.tsRandomBytes (s : State) (n : Nat) : List Byte := (List.range n).map (fun i => BitVec.ofNat 8 (Config.randomBits s.free i))

/-- An ECDSA signature, and whether it verifies under the public key stored beside the private one or held in the hallmark. -/
def State.tsEcdsa (s : State) (r : TsReq) : (Nat × Nat) × Bool :=
  if r.idkey then
    let g := ecdsaSign r.curve idScalar (r.msg 0)
    (g, ecdsaVerify r.curve (beNat (s.idPublic.take 48)) (beNat (s.idPublic.drop 48)) g.1 g.2 (r.msg 0))
  else
    let g := ecdsaSign r.curve (r.int 0) (r.msg 3)
    (g, ecdsaVerify r.curve (r.int 1) (r.int 2) g.1 g.2 (r.msg 3))

/-- A pair as two outputs. -/
def pairOut (p : List Byte × List Byte) : Nat × List (List Byte) := (stOk, [p.1, p.2])
/-- A signature that verifies is the output; one that does not is withheld (R381). -/
def signOut (sg : List Byte) (ok : Bool) : Nat × List (List Byte) := if ok then (stOk, [sg]) else (0x45, [])
/-- The outcome of a verification. -/
def verifyOut (ok : Bool) : Nat × List (List Byte) := (if ok then stOk else 0x47, [])

/-- The operation (phase 3): its status, and its outputs where it is ST_OK. -/
def State.tsRun (s : State) (r : TsReq) : Nat × List (List Byte) :=
  let rnd := s.tsRandomBytes 128
  let k := s.tsSlotBytes
  match r.op with
  | 0x01 => (stOk, [natLE k (expMod (r.int 0) (r.int 1) (r.int 2))])
  | 0x10 =>
    let d := 1 + leNat rnd % (r.par 5 - 1)
    match curveMul r.curve d (some (r.par 3, r.par 4)) with
    | some q => (stOk, [natLE k d, natLE k q.1, natLE k q.2])
    | none => (stOk, [natLE k d, natLE k 0, natLE k 0])
  | 0x11 =>
    if !r.idkey && r.int 0 == 0 then (0x42, [])
    else let g := s.tsEcdsa r; if g.2 then (stOk, [natLE k g.1.1, natLE k g.1.2]) else (0x45, [])
  | 0x12 => verifyOut (ecdsaVerify r.curve (r.int 0) (r.int 1) (r.int 2) (r.int 3) (r.msg 4))
  | 0x13 =>
    if r.int 0 = 0 then (0x42, [])
    else match curveMul r.curve (r.int 0) (some (r.int 1, r.int 2)) with
      | some q => if q.1 = 0 then (0x46, []) else (stOk, [natLE k q.1])
      | none => (0x46, [])
  | 0x20 => let x := rnd.take (montBytes r.alg); (stOk, [x, montPublic r.alg x])
  | 0x21 =>
    let x := montMul r.alg (r.src 0) (montU r.alg (r.src 1))
    if x.all (· == 0) then (0x46, []) else (stOk, [x])
  | 0x28 => let x := rnd.take (edKey r.alg); (stOk, [x, edPublic r.alg x])
  | 0x29 =>
    let g := edSign r.alg (r.src 0) (r.src 1) (r.msg 2)
    signOut g (edVerify r.alg (r.src 1) g (r.msg 2))
  | 0x2A => verifyOut (edVerify r.alg (r.src 0) (r.src 1) (r.msg 2))
  | 0x30 => pairOut (kemKeys r.alg (rnd.take 32) ((rnd.drop 32).take 32))
  | 0x31 => pairOut (kemEncaps r.alg (r.src 0) (rnd.take 32))
  | 0x32 => (stOk, [kemDecaps r.alg (r.src 0) (r.src 1)])
  | 0x38 => pairOut (dsaKeys r.alg (rnd.take 32))
  | 0x39 =>
    let g := (dsaSignN r.alg (r.src 0) (r.msg 2) (rnd.take 32)).1
    signOut g (dsaVerify r.alg (r.src 1) (r.msg 2) g)
  | 0x3A => verifyOut (dsaVerify r.alg (r.src 0) (r.msg 2) (r.src 1))
  | 0x40 =>
    (if curveCheck (r.int 0) (r.int 1) (r.int 2) (r.int 3) (r.int 4) (r.int 5) (r.int 6) = 0 then stOk else 0x43, [])
  | 0x50 =>
    let m := r.msg 0
    (stOk, [if r.alg = 0x20 then sha384 m else if r.alg = 0x21 then shake128 m r.olen else shake256 m r.olen])
  | _ => (stOk, [])

/-- Signing attempts of DSA_SIGN (R380). -/
def State.tsTries (s : State) (r : TsReq) : Nat :=
  if r.op = 0x39 then (dsaSignN r.alg (r.src 0) (r.msg 2) ((s.tsRandomBytes 128).take 32)).2 else 1

/-- A fault in the touchstone while a request runs: the datapaths disagree, or its own signature does not verify; or operand memory
parity (19 R404). -/
def tsFault (op fault : Nat) : Option Nat :=
  if fault = 1 ∧ tsTwin op then some 0x44 else if fault = 1 ∧ tsSigns op then some 0x45
  else if fault = 2 then some stParity else none

/-- The status, outputs and cycles of a request that reaches its latch. -/
def State.tsOutcome (s : State) (r : TsReq) (fault : Nat) : Nat × List (List Byte) × Nat :=
  let tm := s.tsTimes r (s.tsTries r) (Config.freeValue s.free)
  let full := tm.1 + tm.2.1 + tm.2.2
  if (ecAlg r.alg && decide (r.op ≤ 0x13)) && r.curve.isEmpty then (0x48, [], 0)
  else if tsRandom r.op && s.ts.entropyBad then (0x49, [], tm.1)
  else if fault = 2 then (stParity, [], full)
  else if !r.loadOk then (0x40, [], tm.1)
  else if !r.curveOk then (0x41, [], tm.1 + tm.2.1)
  else
    let o := s.tsRun r
    if o.1 ≠ stOk then (o.1, [], full)
    else match tsFault r.op fault with
      | some st => (st, [], full)
      | none => (stOk, o.2, full)

/-! ### Completions and events (R373, R388) -/

def State.tsEvent (s : State) (code cls : Nat) (r : TsReq) (st : Nat) : State :=
  s.raise { code := code, cls := cls, unit := 0x84
            detail := r.tag + r.op * 2 ^ 16 + r.alg * 2 ^ 24 + st * 2 ^ 32 + r.who * 2 ^ 40 }

/-- The completion reaches its requester. -/
def State.tsComplete (s : State) (r : TsReq) (st cyc : Nat) : State :=
  let d : TsDone := ⟨r.who, r.tag, st, cyc⟩
  s.modTs (fun t => if r.who = 0 then { t with done := t.done ++ [d] } else { t with inner := t.inner ++ [d] })

/-- The event of a status (R387). -/
def State.tsStatusEvent (s : State) (r : TsReq) (st : Nat) : State :=
  if st = 0x43 then (s.countReg .tsCurveRej 0 0 1).tsEvent 0x0703 2 r st
  else if st = 0x44 then (s.countReg .tsMismatch 0 0 1).tsEvent 0x0701 0 r st
  else if st = 0x45 then (s.countReg .tsVerifyFail 0 0 1).tsEvent 0x0702 0 r st
  else if st = 0x48 then s.tsEvent 0x0705 2 r st
  else if st = stAborted then s.tsEvent 0x0706 2 r st
  else s

/-- The result latch (R385): destinations and flags written in one step; zero and neither VALID nor SECRET on any failure. -/
def State.tsLatch (s : State) (r : TsReq) (st : Nat) (outs : List (List Byte)) (cyc : Nat) : State :=
  let ps := s.tsDst r
  let s := (ps.zipIdx).foldl (fun s e =>
    let s := s.tsFill e.1.slot e.1.slots (if st = stOk then (outs[e.2]?).getD [] else [])
    s.modTs (fun t => t.flag e.1.all (st == stOk) (st == stOk && e.2 == 0 && tsSecret r.op))) s
  let s := if st ≠ stOk then
      (if r.op = 0x40 ∧ st = 0x43 then s.setRf .tsCurve 0 (r.alg - 0x10) 7 4
        (curveCheck (r.int 0) (r.int 1) (r.int 2) (r.int 3) (r.int 4) (r.int 5) (r.int 6)) else s)
    else if r.op = 0x40 then
      (s.setReg .tsCurve 0 (r.alg - 0x10) (BitVec.ofNat 32 (2 ^ 31 + bitLen (r.int 0) % 1024 * 2 ^ 16 + r.int 6 % 16))).modTs (fun t =>
        { t with curves := Tab.set [] t.curves (r.alg - 0x10) ((List.range 7).map r.int) })
    else if r.op = 0x41 then
      (s.setRf .tsCurve 0 (r.alg - 0x10) 31 31 0).modTs (fun t => { t with curves := Tab.set [] t.curves (r.alg - 0x10) [] })
    else s
  (s.tsComplete r st cyc).tsStatusEvent r st

/-! ### Push, start, latch, abort (R372 to R374, R385) -/

/-- Requests of the hash unit. -/
def TsReq.isHash (r : TsReq) : Bool := r.op == 0x50

/-- Management has no entry left (R372). -/
def State.tsFull (s : State) : Bool :=
  decide (8 ≤ (s.ts.queue.filter (fun r => r.who == 0)).length + s.ts.done.length)

/-- Push a request that has an entry. -/
def State.tsPushReq (s : State) (r : TsReq) : State :=
  if s.tsPushOk r then s.modTs (fun t => { t with queue := t.queue ++ [r] })
  else (s.tsComplete r 0x48 0).tsStatusEvent r 0x48

/-- The next request of a unit starts, where none of its own runs: sources and curve are latched. -/
def State.tsStart (s : State) (hash : Bool) : State :=
  if s.ts.queue.any (fun r => r.isHash == hash && r.started) then s
  else s.modTs (fun t => { t with queue := modFirst (fun r => r.isHash == hash) (fun r =>
    { r with started := true, srcs := (s.tsSrc r).map (fun p => s.tsRead p.slot p.bytes)
             srcOk := (partSlots (s.tsSrc r)).all (fun x => x ∈ s.ts.valid)
             curve := if ecAlg r.alg && decide (r.op ≤ 0x13) then (s.tsCurveOf r.alg).getD [] else [] }) t.queue })

/-- The running request of a unit reaches its latch. -/
def State.tsFinish (s : State) (hash : Bool) (fault : Nat) : State :=
  match s.ts.queue.find? (fun r => r.isHash == hash && r.started) with
  | none => s
  | some r =>
    let o := s.tsOutcome r fault
    let s := s.modTs (fun t => { t with queue := dropFirst (fun r => r.isHash == hash && r.started) t.queue })
    State.tsLatch { s with free := s.free + 1 } r o.1 o.2.1 o.2.2

/-! ### Requests of the device's own units (R372, R373) -/

/-- Every request ahead runs to its latch, in push order: `n` of them. -/
def State.tsDrain (s : State) : Nat → State
  | 0 => s
  | n + 1 => ((s.tsStart false).tsFinish false 0).tsDrain n

/-- A unit's request has run, after every request pushed before it: its status, and the event of that status. -/
def State.tsServe (s : State) (who op alg st : Nat) : State :=
  let s := s.tsDrain (s.ts.queue.filter (fun r => !r.isHash)).length
  s.tsStatusEvent { who := who, op := op, alg := alg } st

/-- The status of a unit's request whose operation gives `st`: a failing random source, parity of the operand memory, and the
countermeasures come before it (R381 to R383; 19 R404). -/
def State.tsStatus (s : State) (op fault st : Nat) : Nat :=
  if tsRandom op && s.ts.entropyBad then 0x49 else if fault = 2 then stParity
  else if st ≠ stOk then st else (tsFault op fault).getD stOk

/-- The signature by the identity key over the SHA-384 of bytes, as r and s of 48 bytes each, big-endian (15 R329). -/
def idSign (bs : List Byte) : List Byte := p384Sign idScalar bs

/-- Does that signature verify under the hallmark's public key (R381)? -/
def State.idVerifies (s : State) (bs : List Byte) : Bool := p384Verify (4 :: s.idPublic) (sha384 bs) (idSign bs)

end Sys2Proof.Machine
end

