-- ==== Sys2Proof/Machine/SvcFrame.lean ====
section
/-!
DEFINITION. Service frames (spec 15 R318 to R324): their fields, the checks of Ethernet, IP and UDP, the CRC-32C trailer, the GCM tag and the
encryption of payloads, and the frames the device sends.
-/
namespace Sys2Proof

def SvcFrame.session (f : SvcFrame) : Nat := Machine.bits f.h0 39 16
def SvcFrame.typ (f : SvcFrame) : Nat := Machine.bits f.h0 15 8
def SvcFrame.he (f : SvcFrame) : Bool := Machine.bitOf f.h0 57
def SvcFrame.last (f : SvcFrame) : Bool := Machine.bitOf f.h0 56
def SvcFrame.alive (f : SvcFrame) : Nat := Machine.bits f.h0 55 40
def SvcFrame.version (f : SvcFrame) : Nat := Machine.bits f.h0 7 0
def SvcFrame.seq (f : SvcFrame) : Nat := Machine.bits f.h1 63 16
def SvcFrame.kphase (f : SvcFrame) : Bool := Machine.bitOf f.h1 0
def SvcFrame.job (f : SvcFrame) : Nat := Machine.bits f.h2 63 32
def SvcFrame.frag (f : SvcFrame) : Nat := Machine.bits f.h2 31 12
def SvcFrame.plen (f : SvcFrame) : Nat := Machine.bits f.h3 63 50
def SvcFrame.count (f : SvcFrame) : Nat := Machine.bits f.h3 49 30

/-- TYPE is defined for frames from a client or operator. -/
def SvcFrame.fromClient (f : SvcFrame) : Bool := f.typ ∈ [0x01, 0x03, 0x10, 0x20, 0x32, 0x33, 0x40, 0x50, 0x51, 0x52]

/-- The frame as one of a row's TYPE. A TYPE not defined for the direction stays: check 3 of R327 fails on it. -/
def SvcFrame.withTyp (f : SvcFrame) (t : Nat) : SvcFrame :=
  if f.fromClient then { f with h0 := Machine.putBits f.h0 15 8 t } else f

/-- The 32 header bytes. -/
def SvcFrame.header (f : SvcFrame) : List Byte := [f.h0, f.h1, f.h2, f.h3].flatMap (fun w => Machine.natLE 8 w.toNat)

/-- What the trailer covers (R322). -/
def SvcFrame.covered (f : SvcFrame) : List Byte := f.header ++ f.payload ++ f.tag

/-- The CRC-32C trailer is correct (R322). -/
def SvcFrame.crcOk (f : SvcFrame) : Bool := f.crc.toNat == Machine.crc32c f.covered

/-- The UDP payload. -/
def SvcFrame.bytes (f : SvcFrame) : List Byte := f.covered ++ Machine.natLE 4 f.crc.toNat

/-- Check 3 of R327, for a TYPE that a client may send; `he`: HE is allowed for it. The UDP length counts its own 8 bytes, the header, the
payload, 16 bytes of tag and 4 of trailer. -/
def SvcFrame.formOk (f : SvcFrame) (he : Bool) : Bool :=
  f.version == 1 && f.fromClient && (he || !f.he) && Machine.bits f.h0 63 58 == 0 && Machine.bits f.h1 15 1 == 0 && Machine.bits f.h2 11 0 == 0
  && Machine.bits f.h3 29 0 == 0 && f.alive == f.seq % 65536 && f.plen + 60 == f.env.udpLen && f.plen == f.payload.length
  && decide (f.plen ≤ 8960) && decide (f.frag < f.count)

/-- The sender's address and UDP port as one number: the protocol in bit 144, the address in [143:16], the port in [15:0]. -/
def SvcFrame.addr (f : SvcFrame) : Nat := Machine.b2n f.env.v6 * 2 ^ 144 + f.env.ipSrc % 2 ^ 128 * 2 ^ 16 + f.env.srcPort % 2 ^ 16

/-- Bytes of the MAC frame, destination address to FCS. -/
def SvcFrame.macLen (f : SvcFrame) : Nat := 18 + (if f.env.vlan.isSome then 4 else 0) + (if f.env.v6 then 40 else 20) + f.env.udpLen

end Sys2Proof

namespace Sys2Proof.Machine

/-! ### Ethernet, IP and UDP (R318 to R320) -/

/-- The sum of 16-bit big-endian words of bytes. -/
def wordSum : List Byte → Nat
  | [] => 0
  | [a] => 256 * a.toNat
  | a :: b :: t => 256 * a.toNat + b.toNat + wordSum t

/-- The sum that UDP's checksum completes: pseudo-header, UDP header without its checksum, data. -/
def udpTotal (e : Envelope) (data : List Byte) : Nat :=
  let n := if e.v6 then 16 else 4
  wordSum (natBE n e.ipSrc ++ natBE n e.ipDst ++ natBE 4 e.udpLen ++ natBE 4 17 ++ natBE 2 e.srcPort ++ natBE 2 e.dstPort ++ natBE 2 e.udpLen ++ data)

/-- The checksum of a datagram to send: the complement of the ones' complement sum, all ones for zero. -/
def udpChecksum (e : Envelope) (data : List Byte) : Nat :=
  let t := udpTotal e data % 65535
  if t = 0 then 65535 else 65535 - t

/-- A datagram's checksum is zero or right. -/
def udpOk (e : Envelope) (data : List Byte) : Bool := e.udpSum == 0 || (udpTotal e data + e.udpSum) % 65535 == 0

/-- An address is the port's own and its protocol is served. -/
def State.ownAddr (s : State) (p addr : Nat) (v6 : Bool) : Bool :=
  bitOf (s.reg .svcCtrl p) 0 && (if v6 then
    bitOf (s.reg .svcCtrl p) 2 && addr == ((List.range 4).map (fun k => (s.reg .svcIpv6 p k).toNat * 2 ^ (32 * k))).sum
  else bitOf (s.reg .svcCtrl p) 1 && addr == (s.reg .svcIpv4 p).toNat)

/-- The tag of a frame is what the port takes: none, or with VLAN_EN one of the configured VID (R318). -/
def State.vlanOk (s : State) (p : Nat) (tag : Option Nat) : Bool :=
  match tag with
  | none => true
  | some v => bitOf (s.reg .svcCtrl p) 3 && v % 4096 == s.rf .svcVlan p 0 11 0

/-- Check 1 of R327: FCS, length, tag, IP, UDP and destination port are correct. -/
def State.ethOk (s : State) (f : SvcFrame) : Bool :=
  f.env.fcs && decide (f.macLen ≤ 9216) && s.vlanOk f.port f.env.vlan && s.ownAddr f.port f.env.ipDst f.env.v6 && f.env.ipOk && !f.env.frag
  && !f.env.opts && f.env.dstPort == s.rf .svcUdp f.port 0 15 0 && f.env.udpLen == 44 + f.payload.length + f.tag.length
  && udpOk f.env f.bytes

/-- A MAC address in two registers. -/
def State.macPair (s : State) (lo hi : RegName) (p : Nat) : Nat := (s.reg lo p).toNat + s.rf hi p 0 15 0 * 2 ^ 32

/-- What a frame to an address travels in: to the gateway, tagged where VLAN_EN is 1, DF set, from SVC_UDP.PORT (R318 to R320). -/
def State.envTo (s : State) (p addr len : Nat) : Envelope :=
  let v6 := natBit addr 144
  { mac := s.macPair .svcGwMacLo .svcGwMacHi p
    vlan := if bitOf (s.reg .svcCtrl p) 3 then some (s.rf .svcVlan p 0 15 13 * 2 ^ 13 + s.rf .svcVlan p 0 11 0) else none
    v6 := v6
    ipSrc := if v6 then ((List.range 4).map (fun k => (s.reg .svcIpv6 p k).toNat * 2 ^ (32 * k))).sum else (s.reg .svcIpv4 p).toNat
    ipDst := natBits addr 143 16, srcPort := s.rf .svcUdp p 0 15 0, dstPort := natBits addr 15 0, udpLen := len }

/-! ### Traffic keys and the tag (R323, R331) -/

/-- A direction's key and salt of the 88 bytes of traffic keys; `out`: device to client. -/
def dirKey (ks : List Byte) (out : Bool) : List Byte := (ks.drop (if out then 32 else 0)).take 32
def dirSalt (ks : List Byte) (out : Bool) : List Byte := (ks.drop (if out then 76 else 64)).take 12

/-- The IV of a SEQ: the salt XOR four zero bytes and the SEQ in 8 bytes, big-endian. -/
def frameIv (ks : List Byte) (out : Bool) (seq : Nat) : List Byte := xorBytes (dirSalt ks out) (List.replicate 4 0 ++ natBE 8 seq)

/-- The tag over a header and a payload as it travels: with HE the payload is additional data. -/
def frameTag (ks : List Byte) (out : Bool) (seq : Nat) (he : Bool) (header payload : List Byte) : List Byte :=
  if he then gcmTag (dirKey ks out) (frameIv ks out seq) (header ++ payload) []
  else gcmTag (dirKey ks out) (frameIv ks out seq) header payload

/-- A payload under the key stream, one way or the other; with HE it travels as it is. -/
def frameCrypt (ks : List Byte) (out : Bool) (seq : Nat) (he : Bool) (payload : List Byte) : List Byte :=
  if he then payload else gcmStream (dirKey ks out) (frameIv ks out seq) payload

/-! ### Frames the device sends -/

/-- What a frame to be sent says of itself. -/
structure Sending where
  port : Nat
  addr : Nat
  session : Nat
  typ : Nat
  seq : Nat
  job : Nat := 0
  frag : Nat := 0
  count : Nat := 1
  kphase : Bool := false
  he : Bool := false
  last : Bool := true
  deriving DecidableEq, Repr

/-- The frame: header, payload under the session's keys, tag, trailer, then the datagram around it. Without keys, as in a set-up, the
payload is clear and the tag zero (R323). -/
def State.svcOut (s : State) (v : Sending) (keys payload : List Byte) : SvcFrame :=
  let f : SvcFrame :=
    { port := v.port
      h0 := BitVec.ofNat 64 (b2n v.he * 2 ^ 57 + b2n v.last * 2 ^ 56 + v.seq % 65536 * 2 ^ 40 + v.session % 2 ^ 24 * 2 ^ 16 + v.typ * 2 ^ 8 + 1)
      h1 := BitVec.ofNat 64 (v.seq * 2 ^ 16 + b2n v.kphase)
      h2 := BitVec.ofNat 64 (v.job % 2 ^ 32 * 2 ^ 32 + v.frag % 2 ^ 20 * 2 ^ 12)
      h3 := BitVec.ofNat 64 (payload.length % 2 ^ 14 * 2 ^ 50 + v.count % 2 ^ 20 * 2 ^ 30)
      payload := if keys.isEmpty then payload else frameCrypt keys true v.seq v.he payload }
  let f := { f with tag := if keys.isEmpty then List.replicate 16 0 else frameTag keys true v.seq v.he f.header f.payload }
  let f := { f with crc := BitVec.ofNat 32 (crc32c f.covered) }
  let e := s.envTo v.port v.addr (60 + payload.length)
  { f with env := { e with udpSum := udpChecksum e f.bytes } }

/-- The port runs and its link is up: PCS lock and FEC alignment (R320, R325). -/
def State.svcUp (s : State) (p : Nat) : Bool := bitOf (s.reg .svcCtrl p) 0 && s.rf .svcStatus p 0 1 0 == 3

/-- A frame leaves, and is counted. -/
def State.sendSvc (s : State) (v : Sending) (keys payload : List Byte) : State :=
  State.countReg { s with out := s.out ++ [.svc (s.svcOut v keys payload)] } .txFrames v.port 0 1

end Sys2Proof.Machine
end

