-- ==== Sys2Proof/Machine/Jobs.lean ====
section
/-!
DEFINITION. The acceptance journal (spec 16 R347), holding a job (R356), sealing a result and its delivery
(R355, R357; 15 R321, R324, R339), and the placement of result objects in owner tables (14 R310).
-/
namespace Sys2Proof.Machine

/-! ### Journal records -/

/-- The 64 bytes of a record, CHECK included (16 R347). -/
def JRec.bytes (r : JRec) : List Byte :=
  let body :=
    natLE 8 (r.session * 2 ^ 40 + r.kind * 2 ^ 24 + r.origin * 2 ^ 15 + r.state * 2 ^ 8 + 1)
    ++ natLE 8 (r.job * 2 ^ 32 + r.gen) ++ natLE 8 r.body ++ natLE 8 r.bodyLen ++ natLE 8 r.result
    ++ natLE 8 (r.status * 2 ^ 56 + r.resultLen) ++ natLE 8 r.time
  body ++ natLE 8 (crc64 body)

/-- A record read back from its bytes; none where its CHECK fails (16 R359 step 1). -/
def JRec.ofBytes (bs : List Byte) : Option JRec :=
  let w := fun i => leNat ((bs.drop (8 * i)).take 8)
  if w 7 ≠ crc64 (bs.take 56) then none
  else some
    { session := natBits (w 0) 63 40, kind := natBits (w 0) 31 24, origin := natBits (w 0) 15 15
      state := natBits (w 0) 10 8, job := natBits (w 1) 63 32, gen := natBits (w 1) 7 0, body := natBits (w 2) 39 0
      bodyLen := w 3, result := natBits (w 4) 39 0, status := natBits (w 5) 63 56, resultLen := natBits (w 5) 55 0
      time := w 6 }

/-- First byte and size of the journal region (16 R371); size 0 where there is no journal. -/
def State.jrnlBase (s : State) : Nat := s.rf .jrnlBase 0 0 23 0 * 2 ^ 16
def State.jrnlSize (s : State) : Nat := s.rf .jrnlSize 0 0 11 0 * 2 ^ 26

/-- Bytes of the record area: 65,536 records. -/
def jrnlRecordArea : Nat := 0x400000

def State.jrec (s : State) (n : Nat) : JRec := Tab.get {} s.journal n

/-- Write a whole record: the unit's table and the record's granule (16 R347). -/
def State.setRec (s : State) (n : Nat) (r : JRec) : State :=
  let s := { s with journal := Tab.set {} s.journal n r }
  if s.jrnlSize = 0 then s else s.hubStore (s.jrnlBase + 64 * n) r.bytes

/-- Free a record. -/
def State.freeRec (s : State) (n : Nat) : State := s.setRec n {}

/-- The slot of the first record that satisfies a test. -/
def State.findRec (s : State) (p : JRec → Bool) : Option Nat := (s.journal.map (·.1)).find? (fun n => p (s.jrec n))

/-- The slots of all records that satisfy a test, in slot order. -/
def State.recsWhere (s : State) (p : JRec → Bool) : List Nat := (s.journal.map (·.1)).filter (fun n => p (s.jrec n))

/-- The lowest FREE slot. -/
def State.freeSlot (s : State) : Option Nat :=
  ((List.range (s.journal.length + 1)).find? (fun n => (Tab.find? s.journal n).isNone)).bind
    (fun n => if n < 65536 then some n else none)

/-- Round up to the 64 KiB unit of the body area. -/
def bodyUnits (n : Nat) : Nat := ceilDiv n 0x10000 * 0x10000

/-- The parts of the body area in use. -/
def State.bodyRanges (s : State) : List (Nat × Nat) :=
  s.journal.flatMap (fun e =>
    (if e.2.body = 0 then [] else [(e.2.body, e.2.body + bodyUnits e.2.bodyLen)])
    ++ (if e.2.result = 0 then [] else [(e.2.result, e.2.result + bodyUnits e.2.resultLen)]))
  ++ s.placed.flatMap (fun p => if p.ntab = 0 then [] else [(p.intab, p.intab + bodyUnits (8192 * p.ntab))])

/-- Room for `len` bytes in the body area: the lowest place that fits. -/
def State.bodyAlloc (s : State) (len : Nat) : Option Nat :=
  let lo := s.jrnlBase + jrnlRecordArea
  let hi := s.jrnlBase + s.jrnlSize
  let n := bodyUnits len
  let used := s.bodyRanges
  let fits := fun a => decide (lo ≤ a ∧ a + n ≤ hi) && used.all (fun r => decide (a + n ≤ r.1 ∨ r.2 ≤ a))
  (lo :: used.map (·.2)).foldl (fun best a => if fits a then (match best with
    | none => some a
    | some b => some (min a b)) else best) none

/-! ### Acceptance events (16 R370) -/

def State.accEvent (s : State) (code cls session st job : Nat) : State :=
  s.raise { code := code, cls := cls, unit := 0x82, session := session, job := job,
            detail := session + 2 ^ 24 * st + 2 ^ 32 * job }

/-! ### Holding a job (16 R356) -/

/-- The job a context is assigned to. -/
def State.jobOf (s : State) (c x : Nat) : JobKey := Tab.get {} s.assign (4 * c + x)

/-- A record PLACED becomes HELD (R356). -/
def State.holdSlot (s : State) (n st : Nat) : State :=
  let r := s.jrec n
  if r.state = 4 then (s.setRec n { r with state := 6 }).accEvent 0x0604 1 r.session st r.job else s

/-- A halt of a context holds its job. -/
def State.holdJob (s : State) (c x st : Nat) : State :=
  let k := s.jobOf c x
  if k = {} then s
  else match s.placed.find? (fun p => (4 * c + x) ∈ p.ctxs) with
    | some p => s.holdSlot p.slot st
    | none => s

/-! ### Wrong parity in a scratchpad (09 R181, R200, R203) -/

/-- Bank 0 to 63 of an offset of a drawer (09 R182, address hashing). -/
def scratchBank (d off : Nat) : Nat :=
  let u := ((d % 32) * drawerBytes + off) / 96
  8 * (d / 32) + ((((natBits u 2 0).xor (natBits u 5 3)).xor (natBits u 8 6)).xor (natBits u 11 9)).xor (natBits u 14 12)

/-- Record the first parity error. -/
def State.recordParity (s : State) (c a : Nat) : State :=
  let d := drawerOfAddr c (a : Int)
  let off := a - drawerAddr c d
  if bitOf (s.reg .spFault c) 31 then s
  else s.setReg .spFault c 0 (BitVec.ofNat 32 (2 ^ 31 + off * 2 ^ 14 + d * 2 ^ 6 + scratchBank d off))

/-- A byte with wrong parity has been read: recorded, and its drawer is TORN. -/
def State.tearAt (s : State) (c a : Nat) : State :=
  (s.recordParity c a).modCore c (fun k => k.modDrawer (drawerOfAddr c (a : Int)) (fun v => { v with tag := .torn }))

/-- The first byte with wrong parity among `n` from an address. -/
def State.badIn (s : State) (a n : Nat) : Option Nat := s.badpar.find? (fun b => decide (a ≤ b) && decide (b < a + n))

/-! ### Owner tables (14 R310) -/

/-- An owner-table word. -/
structure OwnerWord where
  valid : Bool
  off768 : Nat
  csplit : Nat
  device : Nat
  die : Nat
  core : Nat
  drawer : Nat
  deriving DecidableEq, Repr

def OwnerWord.ofNat (w : Nat) : OwnerWord :=
  ⟨natBit w 63, natBits w 52 46, natBits w 45 40, natBits w 33 16, natBits w 15 14, natBits w 13 8, natBits w 7 0⟩

def OwnerWord.toNat (w : OwnerWord) : Nat :=
  b2n w.valid * 2 ^ 63 + w.off768 * 2 ^ 46 + w.csplit * 2 ^ 40 + w.device * 2 ^ 16 + w.die * 2 ^ 14 + w.core * 2 ^ 8
    + w.drawer

/-- Device-wide core number of the word's core. -/
def OwnerWord.coreNo (w : OwnerWord) : Nat := 24 * w.die + w.core

/-- Address of the word's first byte. -/
def OwnerWord.addr (w : OwnerWord) : Nat := drawerAddr w.coreNo w.drawer + 768 * w.off768

/-- Word `b` of a table. -/
def State.ownerWord (s : State) (tab b : Nat) : OwnerWord := OwnerWord.ofNat (s.readLE (tab + 8 * b) 8)

/-- Bytes of one block: N ÷ S residues. -/
def blockBytes (log2n csplit : Nat) : Nat := 2 ^ log2n / 2 ^ csplit * 6

/-- The body of an object gathered through its table, in block order (R310). -/
def State.gatherBody (s : State) (tab : Nat) (h : Header) : List Byte :=
  let w0 := s.ownerWord tab 0
  (List.range (h.polys * h.limbs * 2 ^ w0.csplit)).flatMap (fun b =>
    s.readBytes (s.ownerWord tab b).addr (blockBytes h.log2n w0.csplit))

/-- The first byte with wrong parity in such a body, with its core. -/
def State.gatherBad (s : State) (tab : Nat) (h : Header) : Option (Nat × Nat) :=
  let w0 := s.ownerWord tab 0
  (List.range (h.polys * h.limbs * 2 ^ w0.csplit)).findSome? (fun b =>
    let w := s.ownerWord tab b
    (s.badIn w.addr (blockBytes h.log2n w0.csplit)).map (fun a => (w.coreNo, a)))

/-! ### Sending on a service port (15) -/

def State.session (s : State) (n : Nat) : Session := Tab.get {} s.sessions n
def State.setSession (s : State) (n : Nat) (v : Session) : State := { s with sessions := Tab.set {} s.sessions n v }
def State.modSession (s : State) (n : Nat) (f : Session → Session) : State := s.setSession n (f (s.session n))

/-- PAYLOAD_MAX of a port (15 R321). -/
def State.payloadMax (s : State) (port : Nat) : Nat := 64 * s.rf .svcFrag port 0 7 0

/-- A service event (15 R343). -/
def State.svcEvent (s : State) (code cls port session reason job : Nat) : State :=
  s.raise { code := code, cls := cls, unit := 0x80 + port, session := if job = 0 then 0 else session, job := job,
            detail := session + 2 ^ 24 * reason + 2 ^ 32 * job }

/-! ### The end of a session (15 R334) -/

/-- The table key of a session: entries held as witness are apart. -/
def plcKey (n : Nat) (v : Session) : Nat := n + (if v.partner then 2 ^ 24 else 0)

/-- A change is written to the shadow table, whose rebuild starts (again) (16 R363). -/
def State.plcEdit (s : State) (f : PlcTable → PlcTable) : State :=
  State.setRf { s with plcShadow := f s.plcShadow } .plcStatus 0 0 1 0 1

/-! ### Key sets and the KEEP lines of their records (04 R87; 13 R281) -/

/-- Release every KEEP line of a range. -/
def State.dropKeep (s : State) (lo hi : Nat) : State :=
  { s with keep := s.keep.filter (fun g => !(decide (lo ≤ 64 * g) && decide (64 * g < hi))) }

/-- Key sets go, with their journal records and the KEEP lines of their key records. -/
def State.releaseSets (s : State) (gone : KeySet → Bool) : State :=
  let t := (s.keysets.filter gone).foldl (fun s k =>
    (s.recsWhere (fun r => r.kind == 2 && r.state != 0 && r.body == k.dir + 1024)).foldl State.freeRec (s.dropKeep k.dir (k.dir + k.len))) s
  { t with keysets := t.keysets.filter (fun k => !gone k) }

/-- Retained work of a session. -/
def State.retained (s : State) (n : Nat) : Bool := s.journal.any (fun e => e.2.session == n && e.2.kind == 1 && e.2.state != 0)

/-- Release a session's key set and records, model images too (16 R351), and the session. -/
def State.dropSession (s : State) (n : Nat) : State :=
  let v := s.session n
  let s := s.releaseSets (fun k => k.session == n)
  let gone := s.recsWhere (fun r => r.session == n)
  let s := gone.foldl State.freeRec s
  let s := { s with models := s.models.filter (fun e => !(e.2 - 1 ∈ gone))
                    reasm := s.reasm.filter (fun m => m.session != n) }
  let k := plcKey n v
  (s.setSession n {}).plcEdit (fun t => { t with sess := Tab.set (0, 0) t.sess k (0, 0) })

/-- SESSION_CLOSE to a PAIRED witness; without one the number waits for the next pairing (R351, 15 R328). -/
def State.tellClosed (s : State) (n : Nat) : State :=
  if s.rf .witStatus 0 0 2 0 = 2 then State.wit { s with closed := s.closed.filter (· != n) } 0x16 n 0 [] []
  else { s with closed := addOnce n s.closed }

/-- A session closes. -/
def State.closeSession (s : State) (n : Nat) : State :=
  let p := (s.session n).port
  ((s.dropSession n).tellClosed n).svcEvent 0x0504 2 p n 0 0

/-! ### Frames to a session (15) -/

/-- The bytes of an ASCII string. -/
def ascii (t : String) : List Byte := t.toList.map (fun c => BitVec.ofNat 8 c.toNat)

/-- The keys of the next phase: a new key for each direction, the salts unchanged (15 R333). -/
def rekeyKeys (ks : List Byte) : List Byte :=
  shake256 (ascii "ZD96 rekey" ++ ks.take 32) 32 ++ shake256 (ascii "ZD96 rekey" ++ (ks.drop 32).take 32) 32 ++ ks.drop 64

/-- Bytes cut or filled with zeros to a length. -/
def fixLen (n : Nat) (bs : List Byte) : List Byte := (bs ++ List.replicate n 0).take n

/-- Send one frame of a session under the next SEQ (15 R324), while its port runs and has its link (R325). No frame has SEQ at or above
2^47: a session that would need one closes as CLOSE closes it, so not while work is retained (R334). A SEQ that reaches a multiple of 2^32
makes the device send REKEY (R333). -/
def State.sendFrame (s : State) (n type job frag count : Nat) (he last : Bool) (payload : List Byte) : State :=
  let v := s.session n
  let q := v.txSeq + 1
  if !s.svcUp v.port then s
  else if 2 ^ 47 ≤ q then (if s.retained n then s else s.closeSession n)
  else
    let s := (s.setSession n { v with txSeq := q }).sendSvc
      { port := v.port, addr := v.addr, session := n, typ := type, seq := q, job := job, frag := frag, count := count, kphase := v.kphase
        he := he, last := last } v.keys payload
    if q % 2 ^ 32 = 0 then
      ((s.setSession n { v with txSeq := q + 1, kphase := !v.kphase, oldKeys := v.keys, oldLeft := 4096
                                keys := rekeyKeys v.keys }).sendSvc
        { port := v.port, addr := v.addr, session := n, typ := 0x50, seq := q + 1, kphase := v.kphase } v.keys []).svcEvent 0x050C 3 v.port n 0 0
    else s

/-- Send a body as fragments (15 R321). -/
def State.sendBody (s : State) (n type job : Nat) (he : Bool) (body : List Byte) : State :=
  let m := s.payloadMax (s.session n).port
  let cnt := max 1 (ceilDiv body.length m)
  (List.range cnt).foldl (fun s i =>
    s.sendFrame n type job i cnt he (i + 1 == cnt) ((body.drop (i * m)).take m)) s

/-- Send ERROR, JOB_REFUSE or KEYSET_DONE: REASON and seven bytes of detail (15 R342). -/
def State.sendReason (s : State) (n type job reason : Nat) (detail : List Nat) : State :=
  s.sendFrame n type job 0 1 false true
    (BitVec.ofNat 8 reason :: ((detail ++ [0, 0, 0, 0, 0, 0, 0]).take 7).map (BitVec.ofNat 8))

/-! ### Sealing and delivery (16 R355, R357; 15 R339) -/

/-- Bytes of a receipt: session 4, job 4, CLIENT_TAG 8, outcome 1, status 1, digest 48, signature 96. The field widths
are the model's (assumption 19). -/
def receiptFields (session job tag outcome status : Nat) (body : List Byte) : List Byte :=
  natLE 4 session ++ natLE 4 job ++ natLE 8 tag ++ natLE 1 outcome ++ natLE 1 status ++ sha384 body

/-- Length of a receipt. -/
def receiptLen : Nat := 162

/-- CLIENT_TAG of a job body (15 R336). -/
def State.clientTag (s : State) (r : JRec) : Nat := if r.body = 0 then 0 else s.readLE (r.body + 16) 8

/-- Send the sealed result and receipt of a record. -/
def State.sendResult (s : State) (n : Nat) : State :=
  let r := s.jrec n
  let bytes := s.readBytes r.result r.resultLen
  let bodyLen := r.resultLen - receiptLen
  let s := if bodyLen = 0 then s else s.sendBody r.session 0x30 r.job true (bytes.take bodyLen)
  let s := s.sendBody r.session 0x31 r.job false (bytes.drop bodyLen)
  (s.modSession r.session (fun v => { v with highSent := max v.highSent r.job })).setRec n
    { r with sentAt := some s.time }

/-- A SEALED record may leave when every earlier accepted job of its session is SEALED and has been sent (R357). -/
def State.mayLeave (s : State) (n : Nat) : Bool :=
  let r := s.jrec n
  r.state == 5 && (s.session r.session).isOpen && s.svcUp (s.session r.session).port
  && s.journal.all (fun e => !(e.2.session == r.session && e.2.kind == 1 && e.2.origin == r.origin && decide (e.2.job < r.job)
        && decide (3 ≤ e.2.state)) || (e.2.state == 5 && e.2.sentAt.isSome))

/-- Put a slot into a list of slots in job order. -/
def State.insertByJob (s : State) (n : Nat) : List Nat → List Nat
  | [] => [n]
  | m :: ms => if (s.jrec n).job < (s.jrec m).job then n :: m :: ms else m :: s.insertByJob n ms

/-- Send for the first time every sealed result of a session that may leave, in job order. -/
def State.deliver (s : State) (session : Nat) : State :=
  let slots := s.recsWhere (fun r => r.session == session && r.kind == 1 && r.state == 5 && r.sentAt.isNone)
  (slots.foldl (fun acc n => s.insertByJob n acc) []).foldl (fun s n => if s.mayLeave n then s.sendResult n else s) s

/-- Body and receipt are written, the record becomes SEALED, and what may leave is sent. -/
def State.sealWith (s : State) (n status : Nat) (body rc : List Byte) : State :=
  let r := s.jrec n
  match s.bodyAlloc (body.length + rc.length) with
  | none => s.holdSlot n 0x62
  | some a =>
    ((s.hubStore a (body ++ rc)).setRec n
      { r with state := 5, result := a, status := status, resultLen := body.length + rc.length }).deliver r.session

/-- Seal a result: the touchstone signs the receipt with the identity key and verifies the signature; one that does not verify leaves
nothing sealed and holds the job (R355; 15 R339; 17 R381; 01 R27). -/
def State.sealRecord (s : State) (n outcome status : Nat) (body : List Byte) : State :=
  let r := s.jrec n
  let rf := receiptFields r.session r.job (s.clientTag r) outcome status body
  let st := if s.idVerifies rf then stOk else 0x45
  let s := s.tsServe 3 0x11 2 st
  if st = stOk then s.sealWith n status body (rf ++ idSign rf) else s.holdSlot n st

/-- Result objects of a placed job: the header slot and table of each output (R355). -/
def State.resultObjects (s : State) (p : Placed) : List (Nat × Header) :=
  (List.range p.nout).map (fun j =>
    let tab := p.outtab + 8192 * j
    let w := s.ownerWord tab 0
    (tab, (s.core w.coreNo).hdr w.drawer))

/-- The RESULT body: a descriptor with PROGRAM and MODEL zero, then the objects padded to 64 B (15 R336, R339). -/
def State.resultBody (s : State) (tag : Nat) (objs : List (Nat × Header)) : List Byte :=
  let objBytes := objs.flatMap (fun o =>
    let b := o.2.bytes ++ s.gatherBody o.1 o.2
    b ++ List.replicate ((64 - b.length % 64) % 64) 0)
  natLE 8 (objs.length * 2 ^ 8 + 1) ++ natLE 8 objBytes.length ++ natLE 8 tag ++ List.replicate 40 0 ++ objBytes

/-- The end of a job's lead stream (R355): the contexts are freed and the result sealed; a tarnished result has only its
receipt (02 R54). A job run for the partner returns its result objects to it (R365). A result object with wrong parity holds the job
(R356; 09 R200). -/
def State.endJob (s : State) (p : Placed) : State :=
  let r := s.jrec p.slot
  let torn := if s.badpar.isEmpty then none else (s.resultObjects p).findSome? (fun o => if o.2.tarnish then none else s.gatherBad o.1 o.2)
  let s1 := { s with placed := s.placed.filter (fun v => v.slot != p.slot)
                     assign := Tab.keep (fun k => !(k ∈ p.ctxs)) s.assign }
  let objs := s.resultObjects p
  let bad := objs.any (fun o => o.2.tarnish)
  let body := if bad then [] else s.resultBody (s.clientTag r) objs
  let st := if bad then stTarnished else stOk
  if let some (c, a) := torn then (s.tearAt c a).holdSlot p.slot stParity
  else if r.origin = 1 ∧ !(s.session r.session).taken then
    (s1.wit (Config.hubCode 1) r.session r.job (natLE 1 st) body).setRec p.slot { r with state := 3 }
  else s1.sealRecord p.slot (b2n bad) st body

/-- An END on a context: where it is the lead context of a running job, the job ends. -/
def State.streamEnded (s : State) (c x : Nat) : State :=
  match s.placed.find? (fun p => p.ctxs.head? == some (4 * c + x)) with
  | some p => if (s.jrec p.slot).state = 4 then s.endJob p else s
  | none => s

end Sys2Proof.Machine
end

