-- ==== Sys2Proof/Machine/Peen0.lean ====
section
/-!
DEFINITION. A perturbed event (spec 24 R518 to R522). A perturbation moves an event in time and changes nothing else; what the
state shows of it is the slot's register, its occurrence count and PN_APPLIED. Time itself is not modelled (assumption 12).
-/
namespace Sys2Proof.Machine

/-- The slot's linear-feedback register advances once (R520). -/
def lfsrNext (v : Nat) : Nat :=
  (2 * v + (natBits v 31 31 + natBits v 21 21 + natBits v 1 1 + natBits v 0 0) % 2) % 2 ^ 32

/-- Armed peening slots of a kind and target, while ENABLE is 1. -/
def State.peenSlots (s : State) (kind target : Nat) : List Nat :=
  if bitOf (s.reg .peenCtrl) 0 then
    (List.range 8).filter (fun k => bitOf (s.reg .pnCfg 0 k) 31 && s.rf .pnCfg 0 k 23 20 == kind && s.rf .pnCfg 0 k 19 0 == target)
  else []

/-- Slot `k` sees an occurrence: it perturbs one in 2^EVERY_LOG2. -/
def State.peenSee (s : State) (k : Nat) : State :=
  let p := Tab.get {} s.peen k
  let seen := p.seen + 1
  if seen % 2 ^ s.rf .pnAmount 0 k 31 28 = 0 then
    let p := { p with seen := seen, window := p.window + 1, lfsr := if bitOf (s.reg .pnCfg 0 k) 30 then lfsrNext p.lfsr else p.lfsr }
    State.countReg { s with peen := Tab.set {} s.peen k p } .pnApplied 0 k 1
  else { s with peen := Tab.set {} s.peen k { p with seen := seen } }

/-- An event of a kind occurs at a target. -/
def State.perturb (s : State) (kind target : Nat) : State := (s.peenSlots kind target).foldl State.peenSee s

/-- A queue share as slots of kind 2 narrow it (R519): engine codes are those of a command. -/
def State.narrowed (s : State) (c eng share : Nat) : Nat :=
  (s.peenSlots 2 (c + 2 ^ 8 * eng)).foldl (fun a k => min a (s.rf .pnAmount 0 k 11 0)) share

end Sys2Proof.Machine
end

