-- ==== Sys2Proof/Machine/Life0.lean ====
section
/-!
DEFINITION. The end of a command: its signal (spec 10 R216), the halt of its context (R222), its event
(R234), the drawers it leaves (09 R191, R201) and the memory fault of a read (09 R200).
-/
namespace Sys2Proof.Machine

/-! ### Operands of the transfer engine (11 R243 to R245) -/

def Cmd.xSd (c : Cmd) : Nat := c.opa 37 32
def Cmd.xDd (c : Cmd) : Nat := c.opa 31 26
def Cmd.xHint (c : Cmd) : Nat := c.opa 25 24
def Cmd.xCctr (c : Cmd) : Nat := c.opa 23 16
def Cmd.xHdr (c : Cmd) : Nat := c.opa 15 8
def Cmd.xDir (c : Cmd) : Nat := c.opa 7 7
def Cmd.qPeer (c : Cmd) : Nat := bits c.w2 63 62
def Cmd.qSrc (c : Cmd) : Nat := bits c.w2 61 54
def Cmd.qDst (c : Cmd) : Nat := bits c.w2 53 46
def Cmd.qCount (c : Cmd) : Nat := bits c.w2 45 40
def Cmd.xDevice (c : Cmd) : Nat := bits c.w2 57 40
def Cmd.xLocal (c : Cmd) : Nat := bits c.w2 39 0

/-- The remote side of a command that names a global address: true for the source (14 R303). -/
def xferSide (op : Opcode) (w : Cmd) : Option Bool :=
  match op with
  | .xput => some false
  | .xget => some true
  | .xfer => if bitOf w.w3 1 then some (bitOf w.w3 0) else none
  | _ => none

/-- Does the command cross to another device (14 R294)? -/
def State.xferFar (s : State) (op : Opcode) (w : Cmd) : Bool := (xferSide op w).isSome && w.xDevice != s.myDev

/-- Source and destination descriptors, with W2's local field as BASE of the remote side when it is non-zero (R303). -/
def xferDescs (op : Opcode) (q : QCmd) : Desc × Desc :=
  let sd := q.desc q.cmd.xSd
  let dd := q.desc q.cmd.xDd
  let b := q.cmd.xLocal
  match xferSide op q.cmd with
  | some true => (if b = 0 then sd else { sd with base := b }, dd)
  | some false => (sd, if b = 0 then dd else { dd with base := b })
  | none => (sd, dd)

/-! ### Queue entries -/

def Core.cmd? (k : Core) (id : Nat) : Option QCmd := k.q.find? (fun q => q.id == id)
def Core.modCmd (k : Core) (id : Nat) (f : QCmd → QCmd) : Core := { k with q := modFirst (fun q => q.id == id) f k.q }
def Core.dropCmd (k : Core) (id : Nat) : Core := { k with q := k.q.filter (fun q => q.id != id) }
def State.modCmd (s : State) (c id : Nat) (f : QCmd → QCmd) : State := s.modCore c (fun k => k.modCmd id f)

/-! ### Core events (10 R234) -/

/-- Detail of a core event about a command. -/
def coreDetail (q : QCmd) (st : Nat) : Nat :=
  st + 2 ^ 8 * q.cmd.opcode + 2 ^ 18 * q.cmd.engine + 2 ^ 22 * q.ctx + 2 ^ 24 * q.addr

def State.coreRaise (s : State) (c x code cls detail : Nat) : State :=
  let k := s.jobOf c x
  s.raise { code := code, cls := cls, unit := c, session := k.session, job := k.job, detail := detail }

/-- An event about one command. -/
def State.cmdEvent (s : State) (c : Nat) (q : QCmd) (code cls st : Nat) : State :=
  s.coreRaise c q.ctx code cls (coreDetail q st)

/-- An event about a context and no single command. -/
def State.ctxEvent (s : State) (c x code cls st : Nat) : State := s.coreRaise c x code cls (st + 2 ^ 22 * x)

/-- The event of a tarnishing status (02 R51). -/
def State.tarnishEvent (s : State) (c : Nat) (q : QCmd) (st : Nat) : State :=
  if st = stKeytag then s.cmdEvent c q 0x0102 1 st
  else if st ∈ [stBudget, stLevel, stScale] then s.cmdEvent c q 0x0102 2 st
  else s

/-- The event a command's status carries (07 R159, 10 R234). EV_CORE_TIMEOUT is the core watchdog's and is raised there; a die macro has
raised the events of its tarnished outputs, one each (04 R98). -/
def State.statusEvent (s : State) (c : Nat) (q : QCmd) (st : Nat) : State :=
  if halting st then s.cmdEvent c q 0x0101 1 st
  else if tarnishing st then (if q.eng = 5 then s else s.tarnishEvent c q st)
  else if st = stOrphan then s.cmdEvent c q 0x0104 1 st
  else if st = stStepSkipped then s.cmdEvent c q 0x0109 2 st
  else s

/-! ### Signals (10 R215, R216) -/

/-- Does a command signal at its completion with this status? -/
def signalsAt (mode st : Nat) : Bool :=
  if halting st then false
  else match mode with
    | 1 => !(st ∈ [stAborted, stTimeout, 0x70, 0x71, 0x72])
    | 3 => true
    | _ => false

/-- Add an amount to a counter of a core. -/
def State.addCounter (s : State) (c n d : Nat) : State :=
  s.modCore c (fun k => k.setCounter n (k.counter n + BitVec.ofNat 16 d))

/-- A signal reaches a counter of a core (10 R215; 24 R519, kind 3). -/
def State.signalCounter (s : State) (c n d : Nat) : State := (s.perturb 3 c).addCounter c n d

/-- A command's own signal. -/
def State.signalOwn (s : State) (c : Nat) (q : QCmd) : State := s.signalCounter c q.cmd.sigCtr q.cmd.sigDelta

/-! ### Halt of a context (10 R222, R228) -/

/-- The context halts: a RUNNING or PREEMPTING one becomes HALTED at the command's address; an ABORTING one stays so
(R224); one already HALTED keeps its address. -/
def Ctx.haltAt (x : Ctx) (addr opcode st : Nat) : Ctx :=
  let x := { x with lastOp := opcode, lastStatus := st }
  match x.st with
  | .running | .preempting => { x with st := .halted, pc := addr }
  | _ => x

def State.haltCmd (s : State) (c : Nat) (q : QCmd) (st : Nat) : State :=
  (s.modContext c q.ctx (fun x => x.haltAt q.addr q.cmd.opcode st)).holdJob c q.ctx st

/-! ### Drawers -/

/-- Commands that read a drawer of core `c` now: started ones of the core, and quad reads by its peers. -/
def State.readers (s : State) (c d : Nat) : Bool :=
  s.cores.any (fun e => e.2.q.any (fun q => (q.stage == .started || q.stage == .committed) &&
    ((e.1 == c && (d ∈ q.srcs)) || ((c, d) ∈ q.inDr) || (match q.peer with
      | some (p, ds) => p == c && (d ∈ ds)
      | none => false))))

/-- A drawer set EMPTY: its granule record is cleared (09 R195). -/
def Drawer.emptied (d : Drawer) : Drawer := { d with tag := .empty, closing := false, gran := 0 }

/-- Consumed drawers whose earlier readers have all finished become EMPTY (09 R191). -/
def State.settleClosing (s : State) (c : Nat) : State :=
  ((s.core c).drawers.map (·.1)).foldl (fun s d =>
    if ((s.core c).drawer d).closing && !s.readers c d then s.modCore c (fun k => k.modDrawer d Drawer.emptied) else s) s

/-- Destinations FULL and unclaimed, consumed sources closed (09 R191). -/
def Core.commitDrawers (k : Core) (q : QCmd) : Core :=
  let k := q.dsts.foldl (fun k d => k.modDrawer d (fun v => { v with tag := .full, claim := false })) k
  q.cons.foldl (fun k d => if d ∈ q.held then k else k.modDrawer d (fun v => { v with closing := true })) k

/-- Started and stopped before the commit: destinations and held drawers TORN, claims released (09 R201). -/
def Core.tearDrawers (k : Core) (q : QCmd) : Core :=
  let k := q.dsts.foldl (fun k d => k.modDrawer d (fun v => { v with tag := .torn, claim := false })) k
  q.held.foldl (fun k d => k.modDrawer d (fun v => { v with tag := .torn })) k

/-- Intermediate drawers of a die macro return EMPTY (10 R225). -/
def State.freeMacro (s : State) (q : QCmd) : State :=
  q.macroDr.foldl (fun s e => s.modCore e.1 (fun k => k.modDrawer e.2 (fun v => { v.emptied with claim := false }))) s

/-- Write a result header: into a header slot of a core, or to stacked memory where the core number is 96 (XOBJ). -/
def State.putOut (s : State) (hint : Nat) (o : Nat × Nat × Header) : State :=
  if o.1 < 96 then s.modCore o.1 (fun k => k.setHdr o.2.1 o.2.2) else s.hbmStore o.2.1 hint o.2.2.bytes

/-- Result headers written with TARNISH 1 and BUDGET 0 (02 R51, R55). -/
def State.tarnishOuts (s : State) (q : QCmd) : State :=
  q.lat.outs.foldl (fun s o => s.putOut (q.cmd.opa 25 24) (o.1, o.2.1, o.2.2.tarnished)) s

/-- Result headers written as computed. -/
def State.writeOuts (s : State) (q : QCmd) : State := q.lat.outs.foldl (fun s o => s.putOut (q.cmd.opa 25 24) o) s

/-! ### Completion -/

/-- A command completes with a status: it leaves its queue, signals, halts its context or not, and raises its event. -/
def State.complete (s : State) (c : Nat) (q : QCmd) (st : Nat) : State :=
  let s := s.modCore c (fun k => k.dropCmd q.id)
  let s := if signalsAt q.cmd.sigMode st then s.signalOwn c q else s
  let s := s.statusEvent c q st
  let s := if halting st then s.haltCmd c q st
    else if st = stAborted then s.modContext c q.ctx (fun x => { x with lastOp := q.cmd.opcode, lastStatus := st })
    else s
  let s := s.settleClosing c
  match q.peer with
  | some (p, _) => s.settleClosing p
  | none => s

/-- A started command stopped before its commit point (10 R224, 09 R201, 06 R139, 02 R55), then completed. -/
def State.stopCmd (s : State) (c : Nat) (q : QCmd) (st : Nat) : State :=
  let s := s.modCore c (fun k => k.tearDrawers q)
  let s := (anvilTorn s c q)
  ((s.freeMacro q).tarnishOuts q).complete c q st

/-! ### Parity (09 R200, R203) -/

/-- A command that reads a byte with wrong parity: the drawer read and its destinations become TORN, ST_PARITY; the result
headers of an object command are written tarnished (DESIGN CHOICE, log entry 132). -/
def State.parityStop (s : State) (c owner a : Nat) (q : QCmd) : State :=
  (s.tearAt owner a).stopCmd c q stParity

/-- A command of core `c` meets wrong parity in its scratchpad or in the anvil's storage: what it read and its destinations become TORN,
ST_PARITY (09 R200; 06 R140). -/
def State.badStop (s : State) (c : Nat) (b : BadRead) (q : QCmd) : State :=
  match b with
  | .byte a => s.parityStop c c a q
  | _ => (s.modCore c (fun k => k.tearRead b)).stopCmd c q stParity

end Sys2Proof.Machine
end

