-- ==== Sys2Proof/Machine/Sync.lean ====
section
/-!
DEFINITION. Remote signals, die and device counters, and barriers (spec 12 R256 to R268; fabric barriers by
14 R311, R312).
-/
namespace Sys2Proof.Machine

/-- a is at or past b, modulo 65,536 (10 R214). -/
def ge16 (a b : Nat) : Bool := decide ((a + 65536 - b % 65536) % 65536 < 32768)

/-- Detail of a counter or barrier event (12 R268). Kind: 0 die barrier, 1 device barrier, 2 fabric barrier,
3 die counter, 4 device counter, 5 core counter, 6 key-stream group. -/
def dieDetail (obj kind die core ctx phases : Nat) : Nat :=
  obj + 2 ^ 8 * kind + 2 ^ 11 * die + 2 ^ 13 * core + 2 ^ 20 * ctx + 2 ^ 32 * (phases % 2048)

def State.dieEvent (s : State) (code cls die obj kind core ctx phases : Nat) : State :=
  s.raise { code := code, cls := cls, unit := 0x60 + die, detail := dieDetail obj kind die core ctx phases }

/-! ### Counters (12 R258, R259) -/

/-- The configuration registers of a die or device counter, by its key. -/
def State.ctrCfg (s : State) (k : Nat) : W32 := if k < 256 then s.reg .dieCtrCfg (k / 64) (k % 64) else s.reg .devCtrCfg 0 (k - 256)
def State.setCtrCfg (s : State) (k : Nat) (v : W32) : State :=
  if k < 256 then s.setReg .dieCtrCfg (k / 64) (k % 64) v else s.setReg .devCtrCfg 0 (k - 256) v
def State.ctrThresh (s : State) (k : Nat) : W32 :=
  if k < 256 then s.reg .dieCtrThresh (k / 64) (k % 64) else s.reg .devCtrThresh 0 (k - 256)
def State.setCtrThresh (s : State) (k : Nat) (v : W32) : State :=
  if k < 256 then s.setReg .dieCtrThresh (k / 64) (k % 64) v else s.setReg .devCtrThresh 0 (k - 256) v
def State.ctrNotify (s : State) (k : Nat) : W32 :=
  if k < 256 then s.reg .dieCtrNotify (k / 64) (k % 64) else s.reg .devCtrNotify 0 (k - 256)

def ctrArmed (cfg : W32) : Bool := bitOf cfg 31

/-- Kind, number and die of a counter, for events: a device object takes the die of the core concerned. -/
def ctrKind (k : Nat) : Nat := if k < 256 then 3 else 4
def ctrNum (k : Nat) : Nat := if k < 256 then k % 64 else k - 256
def ctrDie (k core : Nat) : Nat := if k < 256 then k / 64 else core / 24

/-- Core and context of a sender; a notification carries none. -/
def senderCore (n : Nat) : Nat := if n < 0x200 then n / 4 else 0
def senderCtx (n : Nat) : Nat := if n < 0x200 then n % 4 else 0

/-- A signal reaches a counter of a core: discarded where its context was reset and not started again (R258). -/
def State.coreSignal (s : State) (c n d sender : Nat) : State :=
  if (s.context c (s.ctrOwner c n)).fresh then
    s.raise { code := 0x0205, cls := 1, unit := c,
              detail := dieDetail n 5 (c / 24) (senderCore sender) (senderCtx sender) 0 }
  else s.signalCounter c n d

/-- A signal reaches a die or device counter: discarded where it is unarmed or ORPHAN (R258, R259). -/
def State.ctrSignal (s : State) (k d sender : Nat) : State :=
  let v := s.ctr k
  if !ctrArmed (s.ctrCfg k) || v.orphan then
    s.dieEvent 0x0205 1 (ctrDie k (senderCore sender)) (ctrNum k) (ctrKind k) (senderCore sender) (senderCtx sender) 0
  else s.setCtr k { v with value := (v.value + d) % 65536 }

/-- The cores a counter notifies (R259). -/
def State.notifySet (s : State) (k : Nat) : List Nat :=
  let v := s.ctrNotify k
  let cs := setBits 24 v.toNat
  if k < 256 then cs.map (· + 24 * (k / 64))
  else (setBits 4 (bits v 31 28)).flatMap (fun d => cs.map (· + 24 * d))

/-- A die or device counter fires if it is at or past its threshold (R259). -/
def State.fireCtr (s : State) (k : Nat) : State :=
  let cfg := s.ctrCfg k
  let v := s.ctr k
  let th := s.ctrThresh k
  if ctrArmed cfg && !v.orphan && ge16 v.value (bits th 15 0) then
    let s := { s with sigs := s.sigs ++ (s.notifySet k).map (fun c =>
      ({ sender := 0x200 + k, scope := 0, unit := c, num := bits cfg 21 14, delta := bits cfg 13 6 } : PostedSig)) }
    let s := s.setCtr k { v with fired := true }
    if bits th 31 16 = 0 then s.setCtrCfg k (putBits cfg 31 31 0)
    else s.setCtrThresh k (putBits th 15 0 ((bits th 15 0 + bits th 31 16) % 65536))
  else s

/-- The SIGNAL packet of a signal to another device (14 R299, R308). -/
def State.sendSignal (s : State) (c : Nat) (g : PostedSig) : State :=
  (s.sendPacket c g.dev 0x08 0 g.unit g.delta g.num 0 []).1

/-- Does a transfer write into a window: of another device, or of another core of this one? -/
def State.writesWindow (s : State) (c : Nat) (q : QCmd) : Bool :=
  match q.cmd.op? with
  | some op =>
    (op == .xfer || op == .xput)
    && ((s.xferFar op q.cmd && xferSide op q.cmd == some false)
      || (match (xferDescs op q).2.region 64 with
          | some (r + 1) => r != c
          | _ => false))
  | none => false

/-- Has a context a window write under way of a command before number `id` (R260; 14 R304)? -/
def State.windowsUnderWay (s : State) (c x id : Nat) : Bool :=
  (s.core c).q.any (fun q => q.ctx == x && decide (q.id < id) && (q.stage == .started || q.stage == .committed) && s.writesWindow c q)

/-- Signals of one sender to one counter. -/
def PostedSig.sameTarget (h g : PostedSig) : Bool :=
  h.sender == g.sender && h.scope == g.scope && h.unit == g.unit && h.num == g.num && h.dev == g.dev

/-- A signal to another device: its packet leaves once its context's earlier window writes have completed (14 R304); then the time passes
in which it reaches its counter (14 R308). -/
def State.farSig (s : State) (i : Nat) (g : PostedSig) : State :=
  let c := senderCore g.sender
  if g.gone then { s with sigs := s.sigs.eraseIdx i }
  else if s.windowsUnderWay c (senderCtx g.sender) g.after then s
  else State.sendSignal { s with sigs := s.sigs.set i { g with gone := true } } c g

/-- A posted signal reaches its counter; signals of one sender to one counter keep their order (R257). -/
def State.applySig (s : State) (i : Nat) : State :=
  match s.sigs[i]? with
  | none => s
  | some g =>
    if (s.sigs.take i).any (fun h => h.sameTarget g) then s
    else if g.scope = 3 then s.farSig i g
    else
      let s := { s with sigs := s.sigs.eraseIdx i }
      match g.scope with
      | 0 => s.coreSignal g.unit g.num g.delta g.sender
      | 1 => s.ctrSignal (64 * g.unit + g.num) g.delta g.sender
      | _ => s.ctrSignal (256 + g.num) g.delta g.sender

/-! ### RSIG (12 R256; 14 R308) -/

def Cmd.rsDevice (c : Cmd) : Nat := bits c.w2 41 24
def Cmd.rsCore (c : Cmd) : Nat := bits c.w2 22 16
def Cmd.rsDelta (c : Cmd) : Nat := bits c.w2 15 0

/-- Issue of RSIG. -/
def planRsig (s : State) (_c : Nat) (q : QCmd) : Plan :=
  let w := q.cmd
  .checks
    [(decide (w.fn ≤ 3) && decide (w.rsDelta ≠ 0) && (!(w.fn == 0 || w.fn == 3) || decide (w.rsCore ≤ 95))
        && (!(w.fn == 1 || w.fn == 2) || decide (w.num ≤ 63)), stShape),
     (w.fn != 3 || decide (devLevel s.myDev w.rsDevice ≤ s.maxLevel), stReach)] {}

/-- The signal RSIG posts at its issue. -/
def postRsig (s : State) (c : Nat) (q : QCmd) : State :=
  let w := q.cmd
  let post := fun (scope unit : Nat) =>
    { s with sigs := s.sigs ++ [{ sender := 4 * c + q.ctx, scope := scope, unit := unit, num := w.num, delta := w.rsDelta }] }
  match w.fn with
  | 0 => post 0 w.rsCore
  | 1 => post 1 (c / 24)
  | 2 => post 2 0
  | _ =>
    if w.rsDevice = s.myDev then post 0 w.rsCore
    else
      let g : PostedSig :=
        { sender := 4 * c + q.ctx, scope := 3, unit := w.rsCore, num := w.num, delta := w.rsDelta, dev := w.rsDevice, after := q.id }
      if s.sigs.any (fun h => h.sameTarget g && !h.gone) || s.windowsUnderWay c q.ctx q.id then { s with sigs := s.sigs ++ [g] }
      else State.sendSignal { s with sigs := s.sigs ++ [{ g with gone := true }] } c g

/-! ### Barriers (12 R261 to R267) -/

/-- The barrier a command names: 64·die + b, 256 + b or 288 + b; none beyond the scope's range. -/
def barKey (c fn num : Nat) : Option Nat :=
  match fn with
  | 0 => if num < 64 then some (64 * (c / 24) + num) else none
  | 1 => if num < 32 then some (256 + num) else none
  | 2 => if num < 16 then some (288 + num) else none
  | _ => none

def QCmd.barKey (q : QCmd) (c : Nat) : Option Nat :=
  if q.cmd.op? = some .barrier then Machine.barKey c q.cmd.fn q.cmd.num else none

def State.barCfg (s : State) (k : Nat) : W32 :=
  if k < 256 then s.reg .dieBarCfg (k / 64) (k % 64) else if k < 288 then s.reg .devBarCfg 0 (k - 256) else s.reg .fbarCfg 0 (k - 288)

def barArmed (cfg : W32) : Bool := bitOf cfg 31
def barCount (cfg : W32) : Nat := bits cfg 30 22
def barOwner (cfg : W32) : Nat := 4 * bits cfg 19 13 + bits cfg 21 20

def barKind (k : Nat) : Nat := if k < 256 then 0 else if k < 288 then 1 else 2
def barNum (k : Nat) : Nat := if k < 256 then k % 64 else if k < 288 then k - 256 else k - 288
def barDie (k core : Nat) : Nat := if k < 256 then k / 64 else core / 24

/-- A barrier event: the context concerned, its core's die for a device or fabric object. -/
def State.barEvent (s : State) (code cls k core ctx : Nat) : State :=
  s.dieEvent code cls (barDie k core) (barNum k) (barKind k) core ctx (s.bar k).phases

/-- Waiting commands at a barrier in ascending core and context order. -/
def State.barCmds (s : State) (k : Nat) : List (Nat × QCmd) :=
  s.cores.flatMap (fun e => [0, 1, 2, 3].flatMap (fun x =>
    (e.2.q.filter (fun q => q.ctx == x && q.bar != .no && q.barKey e.1 == some k)).map (fun q => (e.1, q))))

/-- A BARRIER completes with a status, which it writes into S[RD] (R262). -/
def State.barDone (s : State) (c : Nat) (q : QCmd) (st : Nat) : State :=
  (s.modContext c q.ctx (fun x => x.setReg q.cmd.rd (BitVec.ofNat 64 st))).complete c q st

/-- A release reaches a waiting BARRIER: it completes at once, or after RESUME where its context is preempted
(R262, R264). -/
def State.barRelease1 (s : State) (c : Nat) (q : QCmd) (st : Nat) : State :=
  match (s.context c q.ctx).st with
  | .preempting | .preempted => s.modCmd c q.id (fun q => { q with bar := .released st })
  | _ => s.barDone c q st

/-- Release the waiters of both phases (R265); `all`: and every arrival held before them (R266, R267). -/
def State.barReleaseAll (s : State) (k st : Nat) (all : Bool) : State :=
  (s.barCmds k).foldl (fun s e => match e.2.bar with
    | .waiting _ => s.barRelease1 e.1 e.2 st
    | .held => if all then s.barRelease1 e.1 e.2 st else s
    | _ => s) s

/-- Poison a barrier (R265). -/
def State.barPoison (s : State) (k : Nat) : State :=
  let b := s.bar k
  if b.poisoned then s
  else
    let own := barOwner (s.barCfg k)
    (((s.setBar k { b with poisoned := true }).barEvent 0x0201 1 k (own / 4) (own % 4))).barReleaseAll k stTimeout false

/-- One release of the current phase: its waiters complete with ST_OK, the next phase is promoted (R262). -/
def State.barReleaseOnce (s : State) (k : Nat) : State :=
  let b := s.bar k
  let ws := s.barCmds k
  let s := s.setBar k { b with sense := !b.sense, phases := (b.phases + 1) % 2048, cur := b.nxt, nxt := [] }
  ws.foldl (fun s e => match e.2.bar with
    | .waiting false => s.barRelease1 e.1 e.2 stOk
    | .waiting true => s.modCmd e.1 e.2.id (fun q => { q with bar := .waiting false })
    | _ => s) s

/-- An arrival in the sets of a barrier (R262): which phase takes it, or none where it is held. -/
def Bar.arrive (b : Bar) (x : Nat) : Bar × Option Bool :=
  if !(x ∈ b.cur) then ({ b with cur := b.cur ++ [x] }, some false)
  else if !(x ∈ b.nxt) then ({ b with nxt := b.nxt ++ [x] }, some true)
  else (b, none)

/-- The held arrivals of skipped commands arrive again (R262, R263). -/
def Bar.rearrive (b : Bar) : Bar :=
  b.held.foldl (fun b p => match b.arrive p with
    | (v, some _) => v
    | (v, none) => { v with held := v.held ++ [p] }) { b with held := [] }

/-- Held arrivals arrive again after a release: those of skipped commands, which their contexts made first, then those of
waiting ones. -/
def State.barRearrive (s : State) (k : Nat) : State :=
  let s := s.setBar k (s.bar k).rearrive
  (s.barCmds k).foldl (fun s e =>
    if e.2.bar = .held then
      let a := (s.bar k).arrive (4 * e.1 + e.2.ctx)
      match a.2 with
      | some early => (s.setBar k a.1).modCmd e.1 e.2.id (fun q => { q with bar := .waiting early })
      | none => s
    else s) s

/-- The registers of a fabric barrier's home side (14 R317). -/
def State.fbarHomeDev (s : State) (b : Nat) : Nat := s.rf .fbarHome 0 b 17 0
def State.fbarMembers (s : State) (b : Nat) : List Nat :=
  let a := s.rf .fbarListLo 0 b 31 6 * 64 + s.rf .fbarListHi 0 b 7 0 * 2 ^ 32
  (List.range (s.rf .fbarDevs 0 b 12 0)).map (fun i => s.readLE (a + 4 * i) 4 % 2 ^ 18)

/-- ARG of a fabric barrier packet (14 R299). -/
def fbarArg (b : Nat) (sense poison : Bool) : Nat := b + 2 ^ 14 * b2n sense + 2 ^ 15 * b2n poison

/-- Send BAR_RELEASE to every member but this device (14 R311). -/
def State.fbarSendRelease (s : State) (b : Nat) (sense poison : Bool) : State :=
  (s.fbarMembers b).foldl (fun s d =>
    if d = s.myDev then s else (s.sendPacket 0x7F d 0x0A 0 0x7F (fbarArg b sense poison) 0 0 []).1) s

def State.fbar (s : State) (b : Nat) : FBar := Tab.get {} s.fbars b
def State.setFbar (s : State) (b : Nat) (v : FBar) : State := { s with fbars := Tab.set {} s.fbars b v }

/-- Is a barrier's local phase complete? -/
def State.phaseFull (s : State) (k : Nat) : Bool :=
  let v := s.bar k
  !v.poisoned && !v.orphan && v.cur.length == barCount (s.barCfg k) && !v.cur.isEmpty

/-- Complete phases are released, at most `fuel` times (R262). -/
def State.barSettle (s : State) (k : Nat) : Nat → State
  | 0 => s
  | fuel + 1 =>
    if s.phaseFull k then
      ((s.barReleaseOnce k).barRearrive k).barSettle k fuel
    else s

/-- The home counts an arrival of a member device for a phase; a complete phase is released everywhere, and the home's
own next phase, if it is complete already, is counted for the next (14 R311). -/
def State.fbarCount (s : State) (b dev : Nat) (sense : Bool) : Nat → State
  | 0 => s
  | fuel + 1 =>
    let k := 288 + b
    let f := s.fbar b
    let early := sense != (s.bar k).sense
    let f := if early then { f with nxt := addOnce dev f.nxt } else { f with cur := addOnce dev f.cur }
    let s := s.setFbar b f
    if f.cur.length = s.rf .fbarDevs 0 b 12 0 ∧ !(s.bar k).poisoned then
      let s := s.setFbar b { cur := f.nxt, nxt := [] }
      let s := s.fbarSendRelease b (s.bar k).sense false
      let s := (s.barReleaseOnce k).barRearrive k
      if s.phaseFull k then s.fbarCount b s.myDev (s.bar k).sense fuel else s
    else s

/-- Where a fabric barrier's local phase is complete, the member tells the home (14 R311). -/
def State.fbarLocal (s : State) (b : Nat) : State :=
  let k := 288 + b
  if s.phaseFull k then
    if s.fbarHomeDev b = s.myDev then s.fbarCount b s.myDev (s.bar k).sense 512
    else (s.sendPacket 0x7F (s.fbarHomeDev b) 0x09 0 0x7F (fbarArg b (s.bar k).sense false) 0 0 []).1
  else s

/-- After an arrival. -/
def State.barCheck (s : State) (k : Nat) : State :=
  if k < 288 then s.barSettle k 512 else s.fbarLocal (k - 288)

/-- Does a context have earlier remote signals under way (R260)? -/
def State.sigsUnderWay (s : State) (c x : Nat) : Bool := s.sigs.any (fun g => g.sender == 4 * c + x)

/-- TARGET of a peening slot that names a barrier (24 R519, kind 4). -/
def barTarget (k : Nat) : Nat := if k < 256 then k % 64 + 256 * (k / 64) else if k < 288 then k - 256 + 64 else k - 288 + 128

/-- The arrival of an issued BARRIER (R261 to R263, R265, R266). -/
def barArrive (s : State) (c : Nat) (q : QCmd) : State :=
  match barKey c q.cmd.fn q.cmd.num with
  | none => s.complete c q (if q.skipped then stSkipped else stShape)
  | some k =>
    let cfg := s.barCfg k
    let b := s.bar k
    if !barArmed cfg then s.complete c q (if q.skipped then stSkipped else stRefused)
    else if b.orphan then (if q.skipped then s.complete c q stSkipped else s.barDone c q stOrphan)
    else if b.poisoned then
      let s := s.barEvent 0x0202 2 k c q.ctx
      (if q.skipped then s.complete c q stSkipped else s.barDone c q stTimeout)
    else
      let a := b.arrive (4 * c + q.ctx)
      let v := if q.skipped && a.2.isNone then { a.1 with held := a.1.held ++ [4 * c + q.ctx] } else a.1
      let s := (s.perturb 4 (barTarget k)).setBar k v
      let s := if q.skipped then s.complete c q stSkipped
        else s.modCmd c q.id (fun q => { q with stage := .issued, bar := match a.2 with
          | some early => .waiting early
          | none => .held })
      if a.2 = some false then s.barCheck k else s

/-- An abort withdraws a waiting arrival from its phase (R264). -/
def State.barWithdraw (s : State) (c : Nat) (q : QCmd) : State :=
  match q.barKey c with
  | none => s
  | some k =>
    let b := s.bar k
    let p := 4 * c + q.ctx
    match q.bar with
    | .waiting false => s.setBar k { b with cur := b.cur.filter (· != p) }
    | .waiting true => s.setBar k { b with nxt := b.nxt.filter (· != p) }
    | _ => s

/-- A barrier's watchdog (R265): it counts from the first arrival of the current phase; a release in the same cycle comes
first. A poisoned member of a fabric barrier tells the home (14 R312). -/
def State.barWatchdog (s : State) (k : Nat) : State :=
  let b := s.bar k
  if barArmed (s.barCfg k) && !b.poisoned && !b.orphan && !b.cur.isEmpty then s.barPoison k else s

/-- Poison at the home reaches every member (14 R312). -/
def State.fbarPoisonHome (s : State) (b : Nat) : State :=
  let k := 288 + b
  if (s.bar k).poisoned then s else (s.fbarSendRelease b (s.bar k).sense true).barPoison k

/-- A member's own watchdog on a fabric barrier (14 R312). -/
def State.fbarPoisonLocal (s : State) (b : Nat) : State :=
  let k := 288 + b
  let v := s.bar k
  if s.fbarHomeDev b = s.myDev then s.fbarPoisonHome b
  else if v.poisoned then s
  else (s.barPoison k).sendPacket 0x7F (s.fbarHomeDev b) 0x09 0 0x7F (fbarArg b v.sense true) 0 0 [] |>.1

/-- Poison a barrier of any scope. -/
def State.barPoisonAny (s : State) (k : Nat) : State := if k < 288 then s.barPoison k else s.fbarPoisonLocal (k - 288)

/-! ### Owners reset (12 R266) -/

/-- Keys of every barrier and counter. -/
def barKeys : List Nat := List.range 304
def ctrKeys : List Nat := List.range 320

/-- Every armed object a context owns becomes ORPHAN. -/
def State.orphanOwned (s : State) (c x : Nat) : State :=
  let p := 4 * c + x
  let s := barKeys.foldl (fun s k =>
    let cfg := s.barCfg k
    if barArmed cfg && barOwner cfg == p && !(s.bar k).orphan then
      ((s.setBar k { s.bar k with orphan := true }).barEvent 0x0203 1 k c x).barReleaseAll k stOrphan true
    else s) s
  ctrKeys.foldl (fun s k =>
    let cfg := s.ctrCfg k
    if ctrArmed cfg && 4 * bits cfg 28 22 + bits cfg 30 29 == p && !(s.ctr k).orphan then
      (s.setCtr k { s.ctr k with orphan := true }).dieEvent 0x0204 1 (ctrDie k c) (ctrNum k) (ctrKind k) c x 0
    else s) s

end Sys2Proof.Machine
end

