-- ==== Sys2Proof/Machine/Control.lean ====
section
/-!
DEFINITION. The control core's commands: what they wait for, what their issue decides, and what they do
(spec 11 control-core tables, R240 to R242; 10 R208, R219 to R221; 07 R154, R157; 09 R191; 12 R249).
-/
namespace Sys2Proof.Machine

/-! ### Scalar and header waits (10 R220, R221; 11 R242) -/

/-- Scalar registers a control-core command reads. -/
def scalarReads (op : Opcode) (w : Cmd) : List Nat :=
  let two := w.ra :: (if w.ib then [] else [w.rb])
  match op with
  | .mov | .brr | .hset | .lsdecide => [w.ra]
  | .add | .sub | .mul | .andOp | .orOp | .xor | .shl | .shr | .sar | .pset => two
  | .descwr => (List.range 5).map (· + w.ra)
  | _ => []

/-- Header slots a control-core command reads or writes. -/
def slotUses (op : Opcode) (w : Cmd) : List Nat :=
  match op with
  | .hrd | .hset | .hdrop => [w.num]
  | .hcopy => [w.num, w.m]
  | _ => []

/-- Even register pair of a die macro's statuses (11, die macro operand words). -/
def Cmd.re (c : Cmd) : Nat := bits c.w2 52 48

/-- Scalar registers a command that is not a plain control-core one has as its destination (10 R220, 11 R248, 12 R262). -/
def scalarDests (w : Cmd) : List Nat :=
  match w.op? with
  | some .dbreduce => [w.dRd]
  | some .barrier => [w.rd]
  | some .ksrelin | some .ksrot | some .ksconj | some .kshoist | some .anneal | some .hrescale => [w.re, w.re + 1]
  | _ => []

/-- Issued and not completed. -/
def QCmd.inFlight (q : QCmd) : Bool := !q.skipped && (q.stage == .issued || q.stage == .started || q.stage == .committed)

/-- Is a control-core command held by R220 or R221? -/
def controlHeld (s : State) (c : Nat) (q : QCmd) : Bool :=
  match q.cmd.op? with
  | none => false
  | some op =>
    let fl := (s.core c).q.filter (fun p => p.ctx == q.ctx && p.id != q.id && p.inFlight)
    (scalarReads op q.cmd).any (fun r => fl.any (fun p => r ∈ scalarDests p.cmd))
    || (slotUses op q.cmd).any (fun d => fl.any (fun p => p.lat.outs.any (fun o => o.1 == c && o.2.1 == d)))

/-! ### Operands -/

def Ctx.opB (x : Ctx) (w : Cmd) : W64 := if w.ib then w.w2 else x.reg w.rb

/-- The result of a scalar operation (11, control-core opcodes). -/
def aluResult (op : Opcode) (x : Ctx) (w : Cmd) : W64 :=
  let a := x.reg w.ra
  let b := x.opB w
  let n := b.toNat % 64
  match op with
  | .movi => w.w2
  | .mov => a
  | .add => a + b
  | .sub => a - b
  | .mul => a * b
  | .andOp => a &&& b
  | .orOp => a ||| b
  | .xor => a ^^^ b
  | .shl => a <<< n
  | .shr => a >>> n
  | .sar => a.sshiftRight n
  | _ => a

/-- PSET's function; none where FN is reserved. -/
def psetFn (fn : Nat) (a b : W64) : Option Bool :=
  let fa := a.toNat % 2 ^ 32
  let fb := b.toNat % 2 ^ 32
  match fn with
  | 0 => some (a == b)
  | 1 => some (a != b)
  | 2 => some (a.ult b)
  | 3 => some (!a.ult b)
  | 4 => some (a.slt b)
  | 5 => some (!a.slt b)
  | 6 => some (fltB fa fb)
  | 7 => some (fgeB fa fb)
  | 8 => some (feqB fa fb)
  | _ => none

/-- PLOG's function; none where FN is reserved. -/
def plogFn (fn : Nat) (a b : Bool) : Option Bool :=
  match fn with
  | 0 => some (a && b)
  | 1 => some (a || b)
  | 2 => some (a != b)
  | 3 => some (a && !b)
  | _ => none

/-- A legal branch target (10 R219). -/
def branchOk (t : Nat) : Bool := t % 32 == 0 && inHbm t

/-- The target of a branch. -/
def branchTarget (op : Opcode) (x : Ctx) (w : Cmd) : Nat :=
  match op with
  | .bra => bits w.w2 39 0
  | _ => bits (x.reg w.ra) 39 0

/-! ### Header fields (11 R240) -/

/-- A header field read into a scalar, zero-extended. -/
def hrdField (fn : Nat) (h : Header) : Nat :=
  match fn with
  | 0 => h.limbs
  | 1 => h.scale
  | 2 => h.budget
  | 3 => b2n h.tarnish
  | 4 => h.domain
  | 5 => h.polys
  | 6 => h.profile
  | _ => h.slots

/-- The scalar bits of a header field: a mask. -/
def hsetMask (fn : Nat) : Nat :=
  match fn with
  | 0 => 0xFF
  | 1 => 0xFFFF
  | 2 => 0x3FF
  | 3 => 1
  | 4 => 1
  | 5 => 3
  | 6 => 0xFF
  | 7 => 0xFFFFFFFF
  | 8 => 0xFF
  | 9 => 0x1F
  | 10 => 0xFFFFFFFFFFFFFFFF
  | 11 => 0x80000003FFFFFFFF
  | 12 => 0xFFFFFFFFFFFF
  | _ => 0

/-- One field written, nothing else. -/
def hsetField (fn v : Nat) (h : Header) : Header :=
  match fn with
  | 0 => { h with w0 := putBits h.w0 39 32 v }
  | 1 => { h with w1 := putBits h.w1 15 0 v }
  | 2 => { h with w1 := putBits h.w1 25 16 v }
  | 3 => { h with w0 := putBits h.w0 43 43 v }
  | 4 => { h with w0 := putBits h.w0 42 42 v }
  | 5 => { h with w0 := putBits h.w0 41 40 v }
  | 6 => { h with w0 := putBits h.w0 23 16 v }
  | 7 => { h with w1 := putBits h.w1 63 32 v }
  | 8 => { h with w0 := putBits h.w0 15 8 v }
  | 9 => { h with w0 := putBits h.w0 28 24 v }
  | 10 => { h with w2 := BitVec.ofNat 64 v }
  | 11 => { h with w4 := putBits (putBits h.w4 33 0 v) 63 63 (natBits v 63 63) }
  | 12 => { h with w5 := putBits h.w5 47 0 v }
  | _ => h

/-- HSET's whole effect on a slot (R240). -/
def hsetHeader (fn v : Nat) (h : Header) : Header :=
  let h := hsetField fn v h
  let h := { h with w0 := putBits h.w0 7 0 1, w3 := putBits h.w3 55 48 1 }
  { h with w3 := putBits h.w3 47 0 (bodyLength h.polys h.limbs h.n) }.seal

/-- Would HSET clear TARNISH or raise BUDGET of a live header (R240)? -/
def hsetRefused (fn v : Nat) (h : Header) : Bool :=
  h.live && ((fn == 3 && h.tarnish && v == 0) || (fn == 2 && decide (h.budget < v)))

/-! ### Issue -/

/-- Drawers of DRTAG. -/
def drtagRun (w : Cmd) : List Nat := drawerRun w.num w.cnt

/-- What the checks of HDROP find on a header for a target (R241; 02 R52): the first tarnishing status. -/
def hdropStatus (h : Header) (p : Option Profile) (b : Bank) (t : Nat) : Option Nat :=
  if h.tarnish then some stTarnished
  else if t = 0 ∨ h.limbs ≤ t ∨ !h.isCkks then some stLevel
  else h.keepStatus p b t

/-- Issue of HDROP (R241): the header checks of R52, then the target. -/
def planHdrop (s : State) (c : Nat) (q : QCmd) : Plan :=
  let d := q.cmd.num
  let h := (s.core c).hdr d
  let t := bits q.cmd.w2 7 0
  .checks [(s.drawerInShare c q.ctx d, stBounds)] <|
  .header s h <|
  match hdropStatus h (s.profOf h) (s.bankOf (s.profOf h)) t with
  | some st => Plan.latched { v := .tarnish st } s h [(c, d, h)]
  | none => Plan.latched {} s h [(c, d, (h.withLimbs t).seal)]

/-- Issue of a control-core command: shares first, then ranges, then its own checks. -/
def planControl (op : Opcode) (s : State) (c : Nat) (q : QCmd) : Plan :=
  let w := q.cmd
  let x := s.context c q.ctx
  let h := (s.core c).hdr w.num
  match op with
  | .pset => .checks [((psetFn w.fn 0 0).isSome, stShape)] {}
  | .plog => .checks [((plogFn w.fn false false).isSome, stShape)] {}
  | .bra | .brr => .checks [(branchOk (branchTarget op x w), stAlign)] {}
  | .hrd => .checks [(s.drawerInShare c q.ctx w.num, stBounds), (decide (w.fn ≤ 7), stShape)] {}
  | .hset =>
    let v := (x.reg w.ra).toNat
    .checks [(s.drawerInShare c q.ctx w.num, stBounds),
      (decide (w.fn ≤ 12) && v.land (hsetMask w.fn) == v, stShape),
      (!hsetRefused w.fn v h, stRefused)] {}
  | .hcopy => .checks [(s.drawerInShare c q.ctx w.num && s.drawerInShare c q.ctx w.m, stBounds)] {}
  | .hdrop => planHdrop s c q
  | .cadd | .crd => .checks [(s.ctrInShare c q.ctx w.num, stBounds)] {}
  | .rsig => planRsig s c q
  | .barrier => .checks [((Machine.barKey c w.fn w.num).isSome, stShape)] {}
  | .descwr => .checks [(s.descInShare c q.ctx w.num, stBounds), (decide (w.ra ≤ 27), stShape)] {}
  | .drtag => .checks [((drtagRun w).all (fun d => s.drawerInShare c q.ctx d), stBounds),
      (decide (1 ≤ w.cnt ∧ w.cnt ≤ 64 ∧ w.fn ≤ 1), stShape)] {}
  | .lsdecide => { lat := { ovf := bitOf (s.reg .clearStatus c) q.ctx } }
  | .lrpick =>
    let l := s.reg .layer c w.num
    .checks [(decide (w.num < 64) && s.tabInShare c q.ctx 16 w.num && s.tabInShare c q.ctx 4 (bits l 19 16), stBounds)]
      { lat := { clearCfg := s.reg .clearCfg c } }
  | _ => {}

/-! ### Effects -/

/-- LSDECIDE (07 R154); the flag sampled at issue is in the latch, where issue also cleared it. -/
def runLsdecide (s : State) (c : Nat) (q : QCmd) : State × Nat :=
  let x := q.ctx
  let ovf := q.lat.ovf || bitOf ((s.context c x).reg q.cmd.ra) 0
  let l := s.reg .lossScale c x
  let n := s.reg .lsCount c x
  let e := signed 8 (bits l 7 0)
  let lo := signed 8 (bits l 15 8)
  let hi := signed 8 (bits l 23 16)
  let putExp := fun (s : State) (e : Int) => s.setReg .lossScale c x (putBits l 7 0 (toBits 8 e))
  let putClean := fun (s : State) (v : Nat) => s.setReg .lsCount c x (putBits n 15 0 v)
  let setP := fun (s : State) (b : Bool) => s.modContext c x (fun y => y.setPred q.cmd.pd b)
  if ovf then
    let s := if e = lo then s.cmdEvent c q 0x010A 1 stStepSkipped else s
    (((putClean (putExp (setP s false) (max (e - 1) lo)) 0)).setRf .clearStatus c 0 (16 + x) (16 + x) 1, stStepSkipped)
  else
    let cl := bits n 15 0 + 1
    let s := (setP s true).setRf .clearStatus c 0 (16 + x) (16 + x) 0
    if bits n 31 16 ≤ cl then (putClean (putExp s (min (e + 1) hi)) 0, stOk) else (putClean s cl, stOk)

/-- Clear a histogram slot (07 R151). -/
def State.clearHist (s : State) (c h : Nat) : State :=
  (List.range 64).foldl (fun s i => s.setReg .histBin c (64 * h + i) 0) s

/-- The shift LRPICK picks (07 R157). -/
def lrShift (hbase : Int) (fmt headroom : Nat) (shift : Int) (bin : Nat → Nat) : Int :=
  if fmt ≠ 1 ∧ fmt ≠ 2 then 0
  else if 0 < bin 62 then max (shift - 4) (-64)
  else
    match ((List.range 60).map (· + 2)).reverse.find? (fun i => decide (0 < bin i)) with
    | none => if 0 < bin 1 then min (shift + 8) 63 else shift
    | some i =>
      let top := hbase + (i : Int) - 2
      max (-64) (min 63 (fmtEmax fmt - (headroom : Int) - (top - shift)))

/-- LRPICK (07 R157). -/
def runLrpick (s : State) (c : Nat) (q : QCmd) : State :=
  let l := s.reg .layer c q.cmd.num
  let h := bits l 19 16
  let sh := lrShift q.lat.hbase (bits l 15 12) (bits l 11 8) (signed 8 (bits l 7 0)) (fun i => (s.reg .histBin c (64 * h + i)).toNat)
  (s.setReg .layer c q.cmd.num (putBits l 7 0 (toBits 8 sh))).clearHist c h

/-- The 320 bits DESCWR takes from S[RA] to S[RA + 4] (12 R249). -/
def descValue (x : Ctx) (ra : Nat) : BitVec 320 :=
  BitVec.ofNat 320 ((List.range 5).foldr (fun i acc => (x.reg (ra + i)).toNat + 2 ^ 64 * acc) 0)

/-- DRTAG's tag change; EMPTY clears the granule record (09 R191, R195). -/
def Core.drtag (k : Core) (w : Cmd) : Core :=
  (drtagRun w).foldl (fun k d =>
    k.modDrawer d (fun v => if w.fn = 0 then v.emptied else { v with tag := .full })) k

/-- A control-core command's whole effect, at its completion (10 R208), and the status it completes with. -/
def runControl (op : Opcode) (s : State) (c : Nat) (q : QCmd) : State × Nat :=
  let w := q.cmd
  let x := s.context c q.ctx
  let k := s.core c
  let setRd := fun (v : W64) => (s.modContext c q.ctx (fun x => x.setReg w.rd v), stOk)
  match op with
  | .movi | .mov | .add | .sub | .mul | .andOp | .orOp | .xor | .shl | .shr | .sar => setRd (aluResult op x w)
  | .pset => (s.modContext c q.ctx (fun x => x.setPred w.pd ((psetFn w.fn (x.reg w.ra) (x.opB w)).getD false)), stOk)
  | .plog => (s.modContext c q.ctx (fun x =>
      x.setPred w.pd ((plogFn w.fn (x.pred (w.ra % 8)) (x.pred (w.rb % 8))).getD false)), stOk)
  | .bra | .brr => (s.modContext c q.ctx (fun y => { y with pc := branchTarget op x w }), stOk)
  | .hrd => setRd (BitVec.ofNat 64 (hrdField w.fn (k.hdr w.num)))
  | .hset => (s.modCore c (fun k => k.setHdr w.num (hsetHeader w.fn (x.reg w.ra).toNat (k.hdr w.num))), stOk)
  | .hcopy => (s.modCore c (fun k => k.setHdr w.num (k.hdr w.m)), stOk)
  | .cadd => (s.addCounter c w.num (bits w.w2 15 0), stOk)
  | .crd => setRd (BitVec.ofNat 64 (k.counter w.num).toNat)
  | .descwr => (s.modCore c (fun k => { k with descs := Tab.set 0 k.descs w.num (descValue x w.ra) }), stOk)
  | .drtag => (s.modCore c (fun k => k.drtag w), stOk)
  | .lsdecide => runLsdecide s c q
  | .lrpick => (runLrpick s c q, stOk)
  | _ => (s, stOk)

/-- May a control-core command that has issued take effect? END waits for every earlier command of its context (10 R231),
DRTAG for claims and consuming commits on its drawers (09 R191). -/
def controlReady (s : State) (c : Nat) (q : QCmd) : Bool :=
  match q.cmd.op? with
  | some .endStream => (s.core c).q.all (fun p => p.ctx != q.ctx || decide (q.id ≤ p.id))
  | some .drtag => (drtagRun q.cmd).all (fun d => !((s.core c).drawer d).claim && !((s.core c).drawer d).closing)
  | some .barrier => false
  | _ => true

/-- What a control-core command does at its issue: LSDECIDE samples and clears its flag, RSIG posts its signal. -/
def controlIssued (op : Opcode) (s : State) (c : Nat) (q : QCmd) : State :=
  match op with
  | .lsdecide => s.setRf .clearStatus c 0 q.ctx q.ctx 0
  | .rsig => postRsig s c q
  | _ => s

/-- Commands no abort stops (11 R238; 07 R154, R157; 06 R139). -/
def notAbortable (op : Opcode) : Bool :=
  match op with
  | .lsdecide | .lrpick | .tzero => true
  | _ => false

end Sys2Proof.Machine
end

