-- ==== Sys2Proof/Machine/Window0.lean ====
section
/-!
DEFINITION. Windows (spec 09 R192 to R196): an open window's fields, the tests a write passes at the owner,
the record of granules, and opening and closing.
-/
namespace Sys2Proof.Machine

/-- The fields of a window (R203). -/
structure Win where
  isOpen : Bool
  ctx : Nat
  first : Nat
  count : Nat
  bound : Nat        -- bytes
  loc : Bool
  wdev : Nat
  mask : Nat         -- 96 bits
  deriving DecidableEq, Repr

def State.win (s : State) (c w : Nat) : Win :=
  let g := s.reg .winCfg c w
  let v := s.reg .winWdev c w
  { isOpen := bitOf g 31, ctx := bits g 30 29, first := bits g 23 16, count := bits g 5 0
    bound := s.rf .winBound c w 15 0 * 64, loc := bitOf v 31, wdev := bits v 17 0
    mask := (s.reg .winWcore0 c w).toNat + (s.reg .winWcore1 c w).toNat * 2 ^ 32 + (s.reg .winWcore2 c w).toNat * 2 ^ 64 }

def Win.drawers (w : Win) : List Nat := drawerRun w.first w.count

/-- The device whose cores may write. -/
def Win.device (s : State) (w : Win) : Nat := if w.loc then s.myDev else w.wdev

/-- Is a core of a device in the writer set? -/
def Win.takes (s : State) (w : Win) (dev core : Nat) : Bool := dev == w.device s && decide (core < 96) && natBit w.mask core

/-- The open window that holds a drawer. -/
def State.winAt (s : State) (c d : Nat) : Option Nat :=
  (List.range 16).find? (fun w => (s.win c w).isOpen && (d ∈ (s.win c w).drawers))

/-- Granules of drawer `d` a window needs (R194). -/
def Win.need (w : Win) (d : Nat) : Nat :=
  if d + 1 = w.first + w.count then (w.bound - (w.count - 1) * drawerBytes) / 64 else 1536

/-- The outcome of a window write at the owner. -/
inductive WinRes where
  | landed
  | waits
  | refused (st : Nat)
  deriving DecidableEq, Repr

/-- Drawers of a range of scratchpad offsets. -/
def touched (off n : Nat) : List Nat := (List.range ((off + n - 1) / drawerBytes + 1 - off / drawerBytes)).map (· + off / drawerBytes)

/-- The tests of R193, in their order; an ORPHAN drawer reports ST_ORPHAN (R188). -/
def State.winTest (s : State) (c dev core off n : Nat) : WinRes :=
  let ds := touched off n
  if ds.any (fun d => ((s.core c).drawer d).tag == .orphan) then .refused stOrphan
  else match s.winAt c (off / drawerBytes) with
    | none => .refused stWindow
    | some w =>
      let v := s.win c w
      let lo := v.first * drawerBytes
      if !v.takes s dev core then .refused stWindow
      else if !(decide (lo ≤ off) && decide (off + n ≤ lo + v.bound)) then .refused stWindow
      else if off % 64 ≠ 0 ∨ n % 64 ≠ 0 then .refused stAlign
      else if ds.any (fun d => ((s.core c).drawer d).tag == .full) then .waits
      else .landed

/-- Bits of the granules [lo, hi) of a drawer. -/
def granMask (lo hi : Nat) : Nat := 2 ^ hi - 2 ^ lo

/-- Record the granules of a landed write in one drawer; the drawer is FULL when all are written (R194). -/
def Drawer.record (v : Drawer) (need lo hi : Nat) : Drawer :=
  let g := v.gran.lor (granMask lo hi)
  if g.land (granMask 0 need) = granMask 0 need then { v with gran := g, tag := .full } else { v with gran := g }

/-- Bytes of a landed write and its record. -/
def State.winLand (s : State) (c off : Nat) (bs : List Byte) : State :=
  let s := s.store (spBase c + off) bs
  match s.winAt c (off / drawerBytes) with
  | none => s
  | some w =>
    let v := s.win c w
    (touched off bs.length).foldl (fun s d =>
      let lo := max off (d * drawerBytes) - d * drawerBytes
      let hi := min (off + bs.length) ((d + 1) * drawerBytes) - d * drawerBytes
      s.modCore c (fun k => k.modDrawer d (fun x => x.record (v.need d) (lo / 64) (hi / 64)))) s

/-- A refused write at its owner: the window of its first byte counts it, and the owner raises an event (R193). -/
def State.winRefused (s : State) (c off st : Nat) : State :=
  match s.winAt c (off / drawerBytes) with
  | none => s.ctxEvent c 0 0x0107 1 st
  | some w =>
    let n := s.rf .winStat c w 31 16
    (s.setRf .winStat c w 31 16 (if n = 0xFFFF then n else n + 1)).ctxEvent c (s.win c w).ctx 0x0107 1 st

/-- The ports of a core are held while its state is saved for an assay (21 R471). -/
def State.portsHeld (s : State) (c : Nat) : Bool := s.assay.testing && s.assay.core == some c

/-- What becomes of a write that was accepted before and has waited: no later close of its window refuses it (R196). -/
def State.winKept (s : State) (c off n : Nat) : WinRes :=
  let tags := (touched off n).map (fun d => ((s.core c).drawer d).tag)
  if tags.any (· == .orphan) then .refused stOrphan else if tags.any (· == .full) then .waits else .landed

/-- A window write reaches its owner. `bad`: its data carries a parity error (R200). `accepted`: it passed the tests before it waited. -/
def State.winWrite (s : State) (c dev core off : Nat) (bs : List Byte) (bad : Bool := false) (accepted : Bool := false) : State × WinRes :=
  match (if s.portsHeld c then WinRes.waits else if accepted then s.winKept c off bs.length else s.winTest c dev core off bs.length) with
  | .refused st => (if st = stOrphan then s else s.winRefused c off st, .refused st)
  | .waits => (s, .waits)
  | .landed => if bad then (s.winRefused c off stParity, .refused stParity) else (s.winLand c off bs, .landed)

/-- A write waits at its owner, in its place among the writers there (R190). -/
def State.addWait (s : State) (w : WaitWrite) : State :=
  let n := (s.core w.owner).arrivals + 1
  State.modCore { s with waitw := s.waitw ++ [{ w with arr := n }] } w.owner (fun k => { k with arrivals := n })

/-- Does an engine command that arrived before a waiting write wait to write one of its drawers (R190)? -/
def State.engineAhead (s : State) (w : WaitWrite) : Bool :=
  (s.core w.owner).q.any (fun p => p.stage == .issued && decide (p.arr < w.arr) && (s.context w.owner p.ctx).st == .running
    && (touched w.off w.data.length).any (fun d => (d ∈ p.dsts) || ((w.owner, d) ∈ p.outDr.flatten)))

/-! ### Opening and closing (R192, R196; 14 R307) -/

/-- Is a device named by a valid grant? -/
def State.granted (s : State) (dev : Nat) : Bool :=
  (List.range 16).any (fun g => let v := s.reg .fabGrant 0 g; bitOf v 31 && bits v 17 0 == dev)

/-- May a window open with these fields? -/
def State.mayOpen (s : State) (c w : Nat) (v : Win) : Bool :=
  !(s.core c).pewter && decide (1 ≤ v.count ∧ v.count ≤ 32 ∧ v.first + v.count ≤ 256)
  && v.drawers.all (fun d => s.portOf c d == 6 && s.drawerInShare c v.ctx d)
  && decide ((v.count - 1) * drawerBytes < v.bound ∧ v.bound ≤ v.count * drawerBytes)
  && (List.range 16).all (fun u => u == w || !(s.win c u).isOpen || v.drawers.all (fun d => !(d ∈ (s.win c u).drawers)))
  && (let l := devLevel s.myDev (v.device s)
      decide (l ≤ s.maxLevel) && (l != 4 || s.granted (v.device s)))

/-- Close a window at one instant: partly written drawers become TORN, with one event (R196). -/
def State.closeWin (s : State) (c w : Nat) : State :=
  let v := s.win c w
  let s := s.setRf .winCfg c w 31 31 0
  let part := v.drawers.filter (fun d => let x := (s.core c).drawer d; x.gran != 0 && x.tag != .full)
  let s := part.foldl (fun s d => s.modCore c (fun k => k.modDrawer d (fun x => { x with tag := .torn }))) s
  if part.isEmpty then s else s.ctxEvent c v.ctx 0x0108 1 0

end Sys2Proof.Machine
end

