-- ==== Sys2Proof/Machine/Xfer.lean ====
section
/-!
DEFINITION. The transfer engine: XFER, XOBJ, QREAD, XPUT and XGET (spec 11 R243 to R245; 12 R249 to R255;
09 R193, R197; 14 R302 to R306).
-/
namespace Sys2Proof.Machine

/-! ### Issue -/

/-- Where a side of a transfer lies, given its region: drawers of the own scratchpad, or none. -/
def sideDrawers (c : Nat) (d : Desc) : List Nat := if d.region 64 = some (1 + c) then d.drawers c 64 else []

/-- A side in stacked memory: no key chest, no pewter area (04 R84, 23 R496), no offline stack (13 R286). A side in the
own scratchpad: drawers of the context (09 R187). -/
def State.sideOk (s : State) (c x : Nat) (d : Desc) : Bool :=
  match d.region 64 with
  | some 0 => d.addrs.all (fun a => !s.guarded a.toNat && s.stackOnline a.toNat)
  | _ => (sideDrawers c d).all (fun e => s.drawerInShare c x e)

/-- A source in another core's scratchpad is beyond reach (12 R252). -/
def sourceHere (c : Nat) (d : Desc) : Bool := d.region 64 == some 0 || d.region 64 == some (1 + c)

/-- A destination on this device is complete: one region, no zero stride. -/
def destOk (d : Desc) : Bool := (d.region 64).isSome && d.noZeroStride

/-- Drawers and consumption of a local transfer (09 R189, R191); a window write takes no claim (R194). -/
def xferPlan (c : Nat) (q : QCmd) (sd dd : Desc) : Plan :=
  let a := sideDrawers c sd
  { srcs := a, dsts := sideDrawers c dd, cons := if q.cmd.consume1 then a else [] }

/-- Checks of a transfer whose sides are both on this device, in the order of R252. -/
def planLocal (s : State) (c : Nat) (q : QCmd) (sd dd : Desc) (p : Plan) : Plan :=
  .checks
    [(sd.aligned 64 false && dd.aligned 64 false, stAlign),
     ((sd.region 64).isSome && destOk dd, stBounds),
     (sourceHere c sd, stReach),
     (s.sideOk c q.ctx sd && s.sideOk c q.ctx dd && sd.total == dd.total, stBounds)] p

/-- Checks of a transfer to or from another device: the near side whole; checks 1, 3 and 4 of R252 for the far side
(14 R303); then the level, then the size rule (R302). -/
def planFar (op : Opcode) (s : State) (c : Nat) (q : QCmd) (sd dd : Desc) (p : Plan) : Plan :=
  let farSrc := xferSide op q.cmd == some true
  let near := if farSrc then dd else sd
  let far := if farSrc then sd else dd
  let l := devLevel s.myDev q.cmd.xDevice
  .checks
    [(near.aligned 64 false && far.aligned 64 false, stAlign),
     ((near.region 64).isSome && dd.noZeroStride, stBounds),
     (farSrc || sourceHere c near, stReach),
     (s.sideOk c q.ctx near && sd.total == dd.total, stBounds),
     (decide (l ≤ s.maxLevel) && (op != .xfer || decide (l ≤ 1)), stReach),
     (decide (l < 3) || (64 * sd.total % 4096 == 0 && far.base % 4096 == 0), stAlign)] p

/-- Address of the header of XOBJ: the HBM side's base less 64; none where that side is not in HBM (R245). -/
def xobjHeader (q : QCmd) : Option Nat :=
  let d := if q.cmd.xDir = 0 then q.desc q.cmd.xSd else q.desc q.cmd.xDd
  if d.region 64 = some 0 ∧ 64 ≤ d.base then some (d.base - 64) else none

/-- Header checks 1 to 5 of XOBJ (R245), as a plan step. -/
def Plan.header5 (s : State) (h : Header) (p : Plan) : Plan :=
  let pr := s.profOf h
  if !h.checks1to4 then .fail stHeader
  else if s.tableWait pr then { v := .wait }
  else match h.check1to5 pr (s.bankOf pr) with
    | some f => .fail f.status
    | none => p

/-- XOBJ after the checks of its body (R245): the header, BODY_LEN, tarnish (02 R53). -/
def planXobj (s : State) (c : Nat) (q : QCmd) (sd dd : Desc) : Plan :=
  match xobjHeader q with
  | none => .fail stBounds
  | some a =>
    let p := xferPlan c q sd dd
    let fin := fun (h : Header) (o : Nat × Nat × Header) =>
      Plan.checks [(h.bodyLen == 64 * sd.total, stBounds)]
        { p with v := if h.tarnish then .tarnish stTarnished else .ok, lat := { p.lat with outs := [o] } }
    .checks [(!s.guarded a && s.stackOnline a, stBounds)] <|
    if q.cmd.xDir = 0 then
      let h := Header.ofBytes (s.readBytes a 64)
      .checks [(s.severity a != 2 && !decide (a / 64 ∈ s.linkBad), stParity)] (.header5 s h (fin h (c, q.cmd.xHdr, h)))
    else
      let h := (s.core c).hdr q.cmd.xHdr
      fin h (96, a, h)

/-- Issue of QREAD (09 R197). -/
def planQread (s : State) (c : Nat) (q : QCmd) : Plan :=
  let w := q.cmd
  let peer := c / 4 * 4 + w.qPeer
  let src := drawerRun w.qSrc w.qCount
  let dst := drawerRun w.qDst w.qCount
  .checks
    [(s.drawerInShare c q.ctx w.qDst, stBounds),
     (decide (peer ≠ c ∧ 1 ≤ w.qCount ∧ w.qCount ≤ 32), stShape),
     (!(s.core peer).pewter, stReach),
     (src.all (fun d => decide (d < 256) && s.portOf peer d == 6) && dst.all (fun d => s.drawerInShare c q.ctx d), stBounds),
     (!w.consume1 && !w.consume2, stReach)]
    { dsts := dst, peer := some (peer, src) }

/-- Issue of a transfer command: shares, ranges, then the operation's own checks (11 R237). -/
def planTransfer (op : Opcode) (s : State) (c : Nat) (q : QCmd) : Plan :=
  let w := q.cmd
  let x := q.ctx
  match op with
  | .qread => planQread s c q
  | _ =>
    let d := xferDescs op q
    .checks
      [(s.descInShare c x w.xSd && s.descInShare c x w.xDd
          && (!(op == .xput || op == .xget) || s.ctrInShare c x w.xCctr)
          && (op != .xobj || s.drawerInShare c x w.xHdr), stBounds),
       (decide (w.xHint ≤ 2), stShape),
       ((xferSide op w).isNone || bits w.w2 63 58 == 0, stAlign)] <|
    if s.xferFar op w then planFar op s c q d.1 d.2
      { srcs := if xferSide op w = some true then [] else sideDrawers c d.1
        dsts := if xferSide op w = some true then sideDrawers c d.2 else []
        cons := if w.consume1 && xferSide op w != some true then sideDrawers c d.1 else [] }
    else planLocal s c q d.1 d.2 (if op = .xobj then planXobj s c q d.1 d.2 else xferPlan c q d.1 d.2)

/-- The granule of stacked memory that the issue of XOBJ reads, where its checks come so far. -/
def xobjReads (s : State) (c : Nat) (q : QCmd) : Option Nat :=
  let d := xferDescs .xobj q
  if q.cmd.op? = some .xobj ∧ q.cmd.xDir = 0
      ∧ (planLocal s c q d.1 d.2 {}).v = .ok ∧ s.descInShare c q.ctx q.cmd.xSd ∧ s.descInShare c q.ctx q.cmd.xDd
      ∧ s.drawerInShare c q.ctx q.cmd.xHdr ∧ q.cmd.xHint ≤ 2 then
    (xobjHeader q).bind (fun a => if !s.guarded a && s.stackOnline a then some a else none)
  else none

/-! ### Moving data -/

/-- What reading source units gave: the units read, and where it stopped: a status, and the address of a byte with wrong
parity if that is why. -/
structure Gather where
  st : State
  units : List (List Byte) := []
  stop : Option (Nat × Option Nat) := none

/-- Read 64-byte units in visit order up to the first that is poisoned or fails parity (13 R277, 09 R200), or whose stack went offline
(13 R286). -/
def State.gather (s : State) (hint : Nat) (as : List Int) : Gather :=
  as.foldl (fun g a =>
    match g.stop with
    | some _ => g
    | none =>
      let n := a.toNat
      if inHbm n then
        if !g.st.stackOnline n then { g with stop := some (stBounds, none) }
        else
        let r := g.st.hbmRead n hint
        if r.2 then { g with st := r.1, stop := some (stParity, none) }
        else { g with st := r.1, units := g.units ++ [g.st.readBytes n 64] }
      else match g.st.badpar.find? (fun b => decide (n ≤ b) && decide (b < n + 64)) with
        | some b => { g with stop := some (stParity, some b) }
        | none => { g with units := g.units ++ [g.st.readBytes n 64] }) { st := s }

/-- What writing units gave: a status that ends the command, and the writes that wait. -/
structure Scatter where
  st : State
  stop : Option Nat := none
  waits : List WaitWrite := []

/-- Write units at addresses in visit order: to stacked memory, to the own scratchpad, or into another core's window; once
one window write waits, the later ones wait behind it (09 R193, R194). -/
def State.scatter (s : State) (c id hint : Nat) (ws : List (Int × List Byte)) : Scatter :=
  ws.foldl (fun g e =>
    match g.stop with
    | some _ => g
    | none =>
      let n := e.1.toNat
      match regionOf e.1 with
      | some 0 => if g.st.stackOnline n then { g with st := g.st.hbmStore n hint e.2 } else { g with stop := some stBounds }
      | some (o + 1) =>
        if o = c then { g with st := g.st.store n e.2 }
        else
          let w : WaitWrite := { dev := g.st.myDev, core := c, cmdId := id, owner := o, off := n - spBase o, data := e.2 }
          if g.waits.isEmpty then
            let r := g.st.winWrite o w.dev c w.off e.2
            match r.2 with
            | .landed => { g with st := r.1 }
            | .waits => { g with waits := [{ w with accepted := !g.st.portsHeld o }] }
            | .refused st => { g with st := r.1, stop := some st }
          else { g with waits := g.waits ++ [w] }
      | none => g) { st := s }

/-! ### Completion of a transfer -/

/-- A transfer completes with ST_OK: headers, drawers, and the completion counter of XPUT and XGET (14 R304). -/
def State.finishTransfer (s : State) (c : Nat) (q : QCmd) : State :=
  let s := (s.writeOuts q).modCore c (fun k => k.commitDrawers q)
  let s := match q.cmd.op? with
    | some .xput | some .xget => s.signalCounter c q.cmd.xCctr 1
    | _ => s
  s.complete c q stOk

/-- Remove what a command still has under way: waiting window writes of this device and unanswered packets. -/
def State.dropFlight (s : State) (c : Nat) (q : QCmd) : State :=
  { s with waitw := s.waitw.filter (fun w => !(w.dev == s.myDev && w.core == c && w.cmdId == q.id))
           fops := s.fops.filter (fun f => !(f.core == c && f.cmd == q.id)) }

/-- A transfer ends with a status other than ST_OK; a started XOBJ then writes its header tarnished (DESIGN CHOICE, log entry 131). -/
def State.failTransfer (s : State) (c : Nat) (q : QCmd) (st : Nat) : State := (s.dropFlight c q).stopCmd c q st

/-- A source that failed: parity of the own scratchpad also tears the drawer read (09 R200). -/
def State.failGather (s : State) (c : Nat) (q : QCmd) (st : Nat) : Option Nat → State
  | some a => (s.dropFlight c q).parityStop c c a q
  | none => s.failTransfer c q st

/-- The command that owns waiting window writes or packets has none left: it completes, with the status its source left
(kept in `remote`, less one). -/
def State.flightDone (s : State) (c id : Nat) : State :=
  match (s.core c).cmd? id with
  | none => s
  | some q =>
    if s.waitw.any (fun w => w.dev == s.myDev && w.core == c && w.cmdId == id) || s.fops.any (fun f => f.core == c && f.cmd == id)
    then s
    else if q.remote ≤ 1 then s.finishTransfer c q else s.failTransfer c q (q.remote - 1)

/-! ### Packets of a remote transfer (14 R302 to R304) -/

/-- Runs of units whose far addresses follow one another, at most 64 units each: (near, far) pairs. -/
def packRuns (es : List (Int × Int)) : List (List (Int × Int)) :=
  es.foldl (fun acc e =>
    match acc.reverse with
    | r :: rest =>
      if r.length < 64 ∧ (r.getLast?.map (fun x => x.2 + 64)) = some e.2 then (rest.reverse ++ [r ++ [e]])
      else acc ++ [[e]]
    | [] => [[e]]) []

/-- Core number of a packet's target address; 0x7F where it is no scratchpad address. -/
def targetCore (a : Int) : Nat :=
  match regionOf a with
  | some (c + 1) => c
  | _ => 0x7F

/-- Send one packet of a command and note the operation; false where there is no path. -/
def State.sendOp (s : State) (c : Nat) (q : QCmd) (typ len : Nat) (far : Int) (addrs : List Int) (payload : List Byte) :
    State × Bool :=
  let n := s.opid % (2 ^ 19 - 1) + 1
  let r := State.sendLen { s with opid := n } c q.cmd.xDevice typ n (targetCore far) len 0 0 far.toNat payload
  if r.2 then
    ({ r.1 with fops := r.1.fops ++
        [{ opid := n, dev := q.cmd.xDevice, core := c, ctx := q.ctx, cmd := q.id, packets := 1
           cctr := if q.cmd.op? = some .xfer then none else some q.cmd.xCctr, addrs := addrs }] }, true)
  else (r.1, false)

/-- Send packets in order; stop at the first that has no path. -/
def State.sendAll (s : State) (f : State → List (Int × Int) → State × Bool) (rs : List (List (Int × Int))) : State × Bool :=
  rs.foldl (fun a r => if a.2 then f a.1 r else a) (s, true)

/-- Does shelf traffic to a device wait at its source: its path has changed while a STORE or LOAD_REQ of the pair is
unacknowledged (14 R297)? -/
def State.pathHeld (s : State) (dev : Nat) : Bool :=
  let old := Tab.get 0 s.shelfPort dev
  match s.route s.myDev dev with
  | some p => old != 0 && old != p + 1 && s.fops.any (fun f => f.dev == dev && f.cctr.isNone)
  | none => false

/-- The port that shelf traffic to a device takes now. -/
def State.takePath (s : State) (dev : Nat) : State :=
  match s.route s.myDev dev with
  | some p => { s with shelfPort := Tab.set 0 s.shelfPort dev (p + 1) }
  | none => s

/-- Check 2 of a remote side, made before any byte moves: every unit lies in the scratchpad of one core (14 R303). -/
def farWhole (as : List Int) : Bool :=
  match as with
  | [] => true
  | a :: _ => regionOf a != some 0 && (regionOf a).isSome && as.all (fun b => regionOf b == regionOf a && regionOf (b + 63) == regionOf a)

/-- Run a remote transfer: all packets leave; the command then waits for its answers. -/
def runFar (op : Opcode) (s : State) (c : Nat) (q : QCmd) : State :=
  let d := xferDescs op q
  if !farWhole (if xferSide op q.cmd = some true then d.1.addrs else d.2.addrs) then s.failTransfer c q stWindow
  else if xferSide op q.cmd = some true then
    let r := s.sendAll (fun s r =>
      s.sendOp c q (if op = .xfer then 0x02 else 0x05) r.length (((r[0]?).map (·.2)).getD 0) (r.map (·.1)) [])
      (packRuns (d.2.addrs.zip d.1.addrs))
    if r.2 then r.1.modCmd c q.id (fun q => { q with remote := 1 }) else r.1.failTransfer c q 0x70
  else
    let g := s.gather q.cmd.xHint d.1.addrs
    let bytes := g.units.zip (d.2.addrs)
    let r := g.st.sendAll (fun s r =>
      s.sendOp c q (if op = .xfer then 0x01 else 0x04) r.length (((r[0]?).map (·.2)).getD 0) []
        (r.flatMap (fun e => ((g.units[e.1.toNat]?).getD []))))
      (packRuns ((List.range bytes.length).map (fun (i : Nat) => ((i : Int), (((bytes[i]?).map (·.2)).getD 0)))))
    if !r.2 then r.1.failTransfer c q 0x70
    else match g.stop with
      | some (st, a) => r.1.failGather c q st a
      | none => r.1.modCmd c q.id (fun q => { q with remote := 1 })

/-- Run a transfer on this device. -/
def runLocal (op : Opcode) (s : State) (c : Nat) (q : QCmd) : State :=
  let d := xferDescs op q
  let g := s.gather q.cmd.xHint d.1.addrs
  let w := g.st.scatter c q.id q.cmd.xHint (d.2.addrs.zip g.units)
  match w.stop with
  | some st => w.st.failTransfer c q st
  | none =>
    if w.waits.isEmpty then
      match g.stop with
      | some (st, a) => w.st.failGather c q st a
      | none => w.st.finishTransfer c q
    else
      State.modCmd (w.waits.foldl State.addWait w.st) c q.id
        (fun q => { q with remote := (match g.stop with
          | some (st, _) => st + 1
          | none => 1) })

/-- Run QREAD: whole drawers, in order (09 R197); a parity error at the peer is recorded there. -/
def runQread (s : State) (c : Nat) (q : QCmd) : State :=
  match q.peer with
  | none => s
  | some (p, ds) =>
    match s.parityHit p ds with
    | some a => s.parityStop c p a q
    | none =>
      ((ds.zip q.dsts).foldl (fun s e => s.store (drawerAddr c e.2) (s.readBytes (drawerAddr p e.1) drawerBytes)) s).finishTransfer c q

/-- Run a started transfer command; one already under way only waits. -/
def runTransfer (op : Opcode) (s : State) (c : Nat) (q : QCmd) : State :=
  if q.remote ≠ 0 then s
  else match op with
    | .qread => runQread s c q
    | .xfer =>
      if !s.xferFar op q.cmd then runLocal op s c q
      else if s.pathHeld q.cmd.xDevice then s
      else runFar op (s.takePath q.cmd.xDevice) c q
    | _ => if s.xferFar op q.cmd then runFar op s c q else runLocal op s c q

end Sys2Proof.Machine
end

