-- ==== Sys2Proof/Machine/KeySwitch.lean ====
section
/-!
DEFINITION. Owner tables (spec 14 R310; 11 R246), key records (04 R80 to R85, R97), and the arithmetic of a key switch and of a rescale
(04 R93; 11 R247).
-/
namespace Sys2Proof.Machine

/-! ### Operand fields (11, die macro operands) -/

def Cmd.mMask (c : Cmd) : Nat := c.opa 37 14
def Cmd.mGroup (c : Cmd) : Nat := c.opa 13 10
def Cmd.mMembers (c : Cmd) : Nat := c.opa 9 8
def Cmd.mSum (c : Cmd) : Bool := c.opa 7 7 == 1
def Cmd.mPair (c : Cmd) : Bool := c.opa 6 6 == 1
def Cmd.mNent (c : Cmd) : Nat := c.opa 5 2 + 1
def Cmd.stepEntry (c : Cmd) : Nat := bits c.w2 47 40
def Cmd.inTab (c : Cmd) : Nat := bits c.w2 39 6 * 64
def Cmd.outTab (c : Cmd) : Nat := bits c.w3 39 6 * 64

/-- Table of input or output `j` (R246). -/
def tabOf (base j : Nat) : Nat := base + 8192 * j

/-! ### Blocks of an object through its table (14 R310) -/

/-- Drawers of the block a word names. -/
def OwnerWord.drawers (w : OwnerWord) (bytes : Nat) : List (Nat × Nat) :=
  (touched (w.drawer * drawerBytes + 768 * w.off768) bytes).map (fun d => (w.coreNo, d))

/-- Number of blocks of an object of `k` body limbs. -/
def State.blockCount (s : State) (tab k : Nat) : Nat := k * 2 ^ (s.ownerWord tab 0).csplit

/-- Drawers of an object of `k` body limbs of 2^log2n residues, each once. -/
def State.tabDrawers (s : State) (tab k log2n : Nat) : List (Nat × Nat) :=
  let cs := (s.ownerWord tab 0).csplit
  (List.range (s.blockCount tab k)).foldl (fun acc b =>
    ((s.ownerWord tab b).drawers (blockBytes log2n cs)).foldl (fun a d => addOnce d a) acc) []

/-- A word names a core of the issuing die and drawers in the issuing context's share there (R246). -/
def State.wordOk (s : State) (c x : Nat) (w : OwnerWord) (csplit bytes : Nat) : Bool :=
  w.valid && w.csplit == csplit && decide (csplit ≤ 6) && w.device == s.myDev && w.die == c / 24 && decide (w.core < 24)
  && (w.drawers bytes).all (fun d => s.drawerInShare d.1 x d.2)

/-- The first entry of a table names a drawer of the issuing core (R246). -/
def State.firstOk (s : State) (c x tab : Nat) : Bool :=
  let w := s.ownerWord tab 0
  w.valid && w.device == s.myDev && w.coreNo == c && decide (w.core < 24) && s.drawerInShare c x w.drawer

/-- A whole table (R246; 14 R310): at most 1,024 words. -/
def State.tableOk (s : State) (c x tab k log2n : Nat) : Bool :=
  let cs := (s.ownerWord tab 0).csplit
  s.firstOk c x tab && decide (s.blockCount tab k ≤ 1024)
  && (List.range (s.blockCount tab k)).all (fun b => s.wordOk c x (s.ownerWord tab b) cs (blockBytes log2n cs))

/-- Does a granule of a range arrive poisoned (13 R277, R278)? -/
def State.poisoned (s : State) (a n : Nat) : Bool :=
  s.ecc.any (fun e => e.2 == 2 && decide (a < 64 * e.1 + 64) && decide (64 * e.1 < a + n))
  || s.linkBad.any (fun g => decide (a < 64 * g + 64) && decide (64 * g < a + n))

/-- Residues of body limb `k` (02 R34 order), slice by slice. -/
def State.tabLimb (s : State) (tab log2n k : Nat) : List Nat :=
  let cs := (s.ownerWord tab 0).csplit
  (List.range (2 ^ cs)).flatMap (fun sl =>
    let a := (s.ownerWord tab (k * 2 ^ cs + sl)).addr
    (List.range (2 ^ log2n / 2 ^ cs)).map (fun i => s.readLE (a + 6 * i) 6))

/-- Store body limb `k`. -/
def State.storeTabLimb (s : State) (tab log2n k : Nat) (vs : List Nat) : State :=
  let cs := (s.ownerWord tab 0).csplit
  let n := 2 ^ log2n / 2 ^ cs
  (List.range (2 ^ cs)).foldl (fun s sl =>
    s.store (s.ownerWord tab (k * 2 ^ cs + sl)).addr (((vs.drop (sl * n)).take n).flatMap (fun v => natLE 6 v))) s

/-! ### Key records (04 R80 to R85, R97) -/

/-- Directory entry number of a key index; none for an index that no set holds. -/
def dirPos (i : Nat) : Option Nat :=
  if i ≤ 65 then some i else if 0x8000 ≤ i ∧ i ≤ 0x803D then some (i - 0x8000 + 66) else none

/-- A directory entry. -/
structure DirEntry where
  valid : Bool
  hot : Bool
  index : Nat
  addr : Nat
  deriving DecidableEq, Repr

def DirEntry.ofNat (w : Nat) : DirEntry := ⟨natBit w 63, natBit w 62, natBits w 55 40, natBits w 39 6 * 64⟩

/-- The entry of a key index in a directory. -/
def State.dirEntry (s : State) (dir i : Nat) : Option DirEntry :=
  if dir = 0 then none
  else (dirPos i).bind (fun e =>
    let d := DirEntry.ofNat (s.readLE (dir + 8 * e) 8)
    if d.valid && d.index == i then some d else none)

/-- The rotation of step-table entry `e`; none where its VALID is 0. -/
def State.stepOf (s : State) (dir e : Nat) : Option Nat :=
  if dir = 0 then none
  else let w := s.readLE (dir + 1024 + 4 * e) 4
    if natBit w 31 then some (natBits w 16 0) else none

/-- The key tag of a record, and its seed. -/
def State.recTag (s : State) (rec : Nat) : Nat := s.readLE (rec + 8) 8
def State.recSeed (s : State) (rec : Nat) : List Byte := s.readBytes (rec + 16) 32

/-- R97: does a record match the input header and the key index? -/
def State.recMatches (s : State) (rec i : Nat) (h : Header) (p : Profile) : Bool :=
  let k0 := s.readLE rec 8
  let tag := s.recTag rec
  natBits (s.readLE (rec + 56) 8) 63 32 == crc32c (s.readBytes rec 60)
  && sameKey tag h.keytag && tagIndex tag == i
  && natBits k0 23 16 == h.profile && natBits k0 28 24 == p.log2n && natBits k0 39 32 == p.dnum
  && natBits k0 47 40 == p.numQ && natBits k0 55 48 == p.numP

/-- The matching record of a key; none on a mismatch. -/
def State.keyRec (s : State) (dir i : Nat) (h : Header) (p : Profile) : Option DirEntry :=
  match s.dirEntry dir i with
  | some d => if s.recMatches d.addr i h p then some d else none
  | none => none

/-- The directory a key-switch command latches: that of the current generation of the header's session (04 R87). -/
def State.dirOf (s : State) (h : Header) : Nat := (Tab.get {} s.sessions (tagSession h.keytag)).dir

/-- Byte offset of a chunk in its record (04 R81). -/
def chunkOff (p : Profile) (j m : Nat) : Nat := 64 + (j * (p.numQ + p.numP) + m) * 2 ^ p.log2n * 6

/-- Record position of limb position `m` at level `l` (04 R95). -/
def recPos (p : Profile) (l m : Nat) : Nat := if m < l then m else p.numQ + (m - l)

/-- The streamed half of a chunk. -/
def State.keyB (s : State) (rec : Nat) (p : Profile) (j m : Nat) : List Nat :=
  (List.range (2 ^ p.log2n)).map (fun k => s.readLE (rec + chunkOff p j m + 6 * k) 6)

/-- The expanded half of a chunk (04 R82). -/
def keyA (seed : List Byte) (i log2n j m q : Nat) : List Nat :=
  let streams := (List.range 32).map (fun l =>
    shake128 (seed ++ natLE 2 i ++ [BitVec.ofNat 8 j, BitVec.ofNat 8 m, BitVec.ofNat 8 l]) (16 * (2 ^ log2n / 32)))
  (List.range (2 ^ log2n)).map (fun k =>
    leNat ((((streams[k % 32]?).getD []).drop (16 * (k / 32))).take 16) % q)

/-- Chunks a key switch at level `l` streams: digit and record position (04 R95). -/
def chunksAt (p : Profile) (l : Nat) : List (Nat × Nat) :=
  (List.range (ceilDiv l p.alpha)).flatMap (fun j => (List.range (l + p.numP)).map (fun m => (j, recPos p l m)))

/-- Granules of a key stream: the record's header, then its chunks. -/
def streamGranules (rec : Nat) (p : Profile) (l : Nat) : List Nat :=
  rec / 64 :: (chunksAt p l).flatMap (fun e => (List.range (2 ^ p.log2n * 6 / 64)).map (· + (rec + chunkOff p e.1 e.2) / 64))

/-! ### The arithmetic of a key switch (04 R93) -/

/-- Limb positions in use: prime and root of unity. -/
def positions (p : Profile) (b : Bank) (l : Nat) : List (Nat × Nat) :=
  ((p.qIdx.take l) ++ p.pIdx).map (fun i => (b.q i, b.psi i))

/-- Product of primes. -/
def prodOf (qs : List Nat) : Nat := qs.foldl (· * ·) 1

/-- Fast conversion of scaled residues from the primes `qs` to a prime `t`: Σ y_i · (Q/q_i) mod t (06 R137). -/
def fastConv (n : Nat) (qs : List Nat) (ys : List (List Nat)) (t : Nat) : List Nat :=
  let big := prodOf qs
  (List.range n).map (fun k =>
    ((ys.zip qs).foldl (fun acc e => acc + ((e.1[k]?).getD 0) * (big / e.2 % t)) 0) % t)

/-- Coefficients of a limb, multiplied by [(Q/q)^−1]_q. -/
def scaledCoefs (log2n : Nat) (qs : List Nat) (q psi : Nat) (a : List Nat) : List Nat :=
  (inttLimb q psi log2n a).map (fun v => v * invMod q (prodOf qs / q % q) % q)

/-- Steps 1 to 4 for digit `j`: the raised limb at each position. -/
def raiseDigit (log2n l alpha : Nat) (pos : List (Nat × Nat)) (cs : List (List Nat)) (j : Nat) : List (List Nat) :=
  let idx := (List.range l).filter (fun i => decide (j * alpha ≤ i ∧ i < (j + 1) * alpha))
  let at_ := fun i => (pos[i]?).getD (1, 0)
  let qs := idx.map (fun i => (at_ i).1)
  let ys := idx.map (fun i => scaledCoefs log2n qs (at_ i).1 (at_ i).2 ((cs[i]?).getD []))
  (List.range pos.length).map (fun m =>
    if m ∈ idx then (cs[m]?).getD [] else nttLimb (at_ m).1 (at_ m).2 log2n (fastConv (2 ^ log2n) qs ys (at_ m).1))

/-- Steps 1 to 4: raised limbs by digit and position. -/
def ksRaise (log2n l alpha : Nat) (pos : List (Nat × Nat)) (c : List (List Nat)) : List (List (List Nat)) :=
  (List.range (ceilDiv l alpha)).map (raiseDigit log2n l alpha pos c)

/-- Σ_j d_j · k_j at one position. -/
def innerAt (n q : Nat) (ds ks : List (List Nat)) : List Nat :=
  (List.range n).map (fun i => ((ds.zip ks).foldl (fun acc e => acc + ((e.1[i]?).getD 0) * ((e.2[i]?).getD 0)) 0) % q)

/-- Pointwise sum of limbs modulo q. -/
def addLimb (q : Nat) (a b : List Nat) : List Nat := (a.zip b).map (fun e => (e.1 + e.2) % q)

/-- Steps 7 to 9 for one polynomial: from l + K positions to l limbs. -/
def modDown (log2n l : Nat) (pos : List (Nat × Nat)) (acc : List (List Nat)) : List (List Nat) :=
  let ps := pos.drop l
  let pq := ps.map (·.1)
  let ys := (ps.zip (acc.drop l)).map (fun e => scaledCoefs log2n pq e.1.1 e.1.2 e.2)
  (List.range l).map (fun i =>
    let q := ((pos[i]?).getD (1, 0)).1
    let cv := nttLimb q ((pos[i]?).getD (1, 0)).2 log2n (fastConv (2 ^ log2n) pq ys q)
    (((acc[i]?).getD []).zip cv).map (fun e => subMod q e.1 e.2 * invMod q (prodOf pq % q) % q))

/-- Step 6 for one key: the b and a sums over the positions, with P·c_0 added into the b sum and P·c_1 into the a sum
where the command adds it. -/
def State.keyProduct (s : State) (rec i : Nat) (p : Profile) (l : Nat) (pos : List (Nat × Nat))
    (raised : List (List (List Nat))) (c0 c1 : List (List Nat)) : List (List Nat) × List (List Nat) :=
  let n := 2 ^ p.log2n
  let big := prodOf ((pos.drop l).map (·.1))
  let seed := s.recSeed rec
  let at_ := fun m => ((pos[m]?).getD (1, 0)).1
  let ds := fun m => raised.map (fun d => (d[m]?).getD [])
  let plus := fun (m : Nat) (cs : List (List Nat)) (v : List Nat) =>
    match cs[m]? with
    | some x => if m < l then addLimb (at_ m) v (x.map (fun e => e * (big % at_ m) % at_ m)) else v
    | none => v
  let js := List.range raised.length
  ((List.range pos.length).map (fun m =>
      plus m c0 (innerAt n (at_ m) (ds m) (js.map (fun j => s.keyB rec p j (recPos p l m))))),
   (List.range pos.length).map (fun m =>
      plus m c1 (innerAt n (at_ m) (ds m) (js.map (fun j => keyA seed i p.log2n j (recPos p l m) (at_ m))))))

/-- Limbs of polynomial `j` of an input, reduced. -/
def State.tabPoly (s : State) (tab log2n polys l j : Nat) (pos : List (Nat × Nat)) : List (List Nat) :=
  (List.range l).map (fun i =>
    let q := ((pos[i]?).getD (1, 0)).1
    (s.tabLimb tab log2n (i * polys + j)).map (· % q))

/-- Two polynomials in body order: limb by limb (02 R34). -/
def interleave2 (a b : List (List Nat)) : List (List Nat) := (a.zip b).flatMap (fun e => [e.1, e.2])

/-- The body of a key switch over the given keys: (record address, key index, Galois element or 0); more than one key only
for KSHOIST with SUM = 1. -/
def State.ksBody (s : State) (op : Opcode) (tab : Nat) (h : Header) (p : Profile) (b : Bank) (keys : List (Nat × Nat × Nat)) :
    List (List Nat) :=
  let l := h.limbs
  let n := p.log2n
  let pos := positions p b l
  let poly := fun j => s.tabPoly tab n h.polys l j pos
  let aut : Nat → List (List Nat) → List (List Nat) := fun g ls => if g = 0 then ls else ls.map (autLimb n g)
  let hoisted := op == .kshoist
  let c := match op with
    | .ksrelin => poly 2
    | .kshoist => poly 1
    | _ => aut (((keys[0]?).map (·.2.2)).getD 0) (poly 1)
  let raised := ksRaise n l p.alpha pos c
  let one := fun (k : Nat × Nat × Nat) =>
    s.keyProduct k.1 k.2.1 p l pos (if hoisted then raised.map (aut k.2.2) else raised) (aut k.2.2 (poly 0))
      (if op = .ksrelin then poly 1 else [])
  let sums := (keys.map one).foldl (fun acc r => match acc with
    | none => some r
    | some a => some
        (((a.1.zip r.1).zip pos).map (fun e => addLimb e.2.1 e.1.1 e.1.2), ((a.2.zip r.2).zip pos).map (fun e => addLimb e.2.1 e.1.1 e.1.2)))
    none
  match sums with
  | some r => interleave2 (modDown n l pos r.1) (modDown n l pos r.2)
  | none => []

/-! ### HRESCALE -/

/-- One polynomial rescaled: (c_i − δ) · q^−1 at each kept limb, δ a representative of the dropped limb's coefficient modulo q
(log entry 5). -/
def rescalePoly (n l t : Nat) (pos : List (Nat × Nat)) (ls : List (List Nat)) : List (List Nat) :=
  let top := (pos[l - 1]?).getD (1, 0)
  let r := inttLimb top.1 top.2 n (((ls[l - 1]?).getD []).map (· % top.1))
  (List.range (l - 1)).map (fun i =>
    let q : Nat × Nat := (pos[i]?).getD (1, 0)
    let d := r.map (fun (r : Nat) => (((r : Int) + (top.1 : Int) * Config.rescaleMultiple top.1 t r) % (q.1 : Int)).toNat)
    (((ls[i]?).getD []).zip (nttLimb q.1 q.2 n d)).map (fun e => subMod q.1 e.1 e.2 * invMod q.1 (top.1 % q.1) % q.1))

/-- The body of HRESCALE (11 R247), in body order. -/
def State.rescaleBody (s : State) (tab : Nat) (h : Header) (p : Profile) (b : Bank) : List (List Nat) :=
  let l := h.limbs
  let n := p.log2n
  let polys := (List.range h.polys).map (fun j =>
    rescalePoly n l (if h.isCkks then 0 else p.ptmod) (positions p b l) ((List.range l).map (fun i => s.tabLimb tab n (i * h.polys + j))))
  (List.range (l - 1)).flatMap (fun i => polys.map (fun ls => (ls[i]?).getD []))

/-! ### A key switch on a ciphertext in hand (04 R93) -/

/-- A ciphertext of two polynomials, by limb, in NTT domain. -/
abbrev Ct := List (List Nat) × List (List Nat)

/-- A ciphertext with its polynomial limbs changed, each with its prime and root. -/
def Ct.mapLimbs (pos : List (Nat × Nat)) (f : Nat × Nat → List Nat → List Nat) (x : Ct) : Ct :=
  ((pos.zip x.1).map (fun e => f e.1 e.2), (pos.zip x.2).map (fun e => f e.1 e.2))

/-- Two ciphertexts combined limb by limb. -/
def Ct.zipLimbs (pos : List (Nat × Nat)) (f : Nat → List Nat → List Nat → List Nat) (x y : Ct) : Ct :=
  let on := fun (a b : List (List Nat)) => (pos.zip (a.zip b)).map (fun e => f e.1.1 e.2.1 e.2.2)
  (on x.1 y.1, on x.2 y.2)

def Ct.add (pos : List (Nat × Nat)) (x y : Ct) : Ct := x.zipLimbs pos addLimb y
def Ct.sub (pos : List (Nat × Nat)) (x y : Ct) : Ct := x.zipLimbs pos (fun q a b => (a.zip b).map (fun e => subMod q e.1 e.2)) y

/-- Both polynomials times a plaintext, limb by limb. -/
def Ct.mulPlain (pos : List (Nat × Nat)) (x : Ct) (d : List (List Nat)) : Ct :=
  let on := fun (a : List (List Nat)) => (pos.zip (a.zip d)).map (fun e => (e.2.1.zip e.2.2).map (fun v => v.1 * v.2 % e.1.1))
  (on x.1, on x.2)

/-- The switch of a ciphertext at level `l` by the key record at `rec` of index `i`, under the automorphism `g` (0: none); `hoisted`: the
automorphism acts on the raised limbs. -/
def State.ksCt (s : State) (p : Profile) (b : Bank) (l rec i g : Nat) (hoisted : Bool) (x : Ct) : Ct :=
  let n := p.log2n
  let pos := positions p b l
  let aut : List (List Nat) → List (List Nat) := fun ls => if g = 0 then ls else ls.map (autLimb n g)
  let raised := ksRaise n l p.alpha pos (if hoisted then x.2 else aut x.2)
  let r := s.keyProduct rec i p l pos (if hoisted then raised.map aut else raised) (aut x.1) []
  (modDown n l pos r.1, modDown n l pos r.2)

end Sys2Proof.Machine
end

