-- ==== Sys2Proof/Machine/Anneal.lean ====
section
/-!
DEFINITION. ANNEAL (spec 05): the sets of a table, the keys in the order of R103 and R104, the steps on one ciphertext.
-/
namespace Sys2Proof.Machine

/-! ### Sets (R106) -/

/-- An Anneal set of a bank. -/
structure AnnealSet where
  inScale : Nat
  outBudget : Nat
  raise : Nat          -- limbs after the raise
  outLimbs : Nat
  flog : List Nat      -- log2 of the radix of each factor
  evm : Nat            -- limbs that phase 4 consumes
  dbl : Nat            -- double-angle steps
  deg : Nat
  cheb : List Int      -- c_0 to c_31, with 56 fractional bits
  kbound : Nat
  words : List Nat
  deriving DecidableEq, Repr

/-- The fields of the 40 words of a set. -/
def AnnealSet.ofWords (ws : List Nat) : AnnealSet :=
  let a0 := (ws[0]?).getD 0
  let a1 := (ws[1]?).getD 0
  { inScale := natBits a0 63 48, outBudget := natBits a0 41 32, raise := natBits a0 31 24, outLimbs := natBits a0 23 16
    flog := [natBits a1 3 0, natBits a1 7 4, natBits a1 11 8], evm := natBits a1 31 24, dbl := natBits a1 39 32
    deg := natBits a1 47 40, cheb := ((ws.drop 8).take 32).map (signed 64), kbound := natBits a1 55 48, words := ws }

def Bank.annealSet (b : Bank) (i : Nat) : Option AnnealSet := (b.anneal[i]?).map AnnealSet.ofWords

/-! ### Rotation keys (R104) -/

/-- Log2 of the radix of a factor, its stride, and its baby offsets. -/
def AnnealSet.flogOf (a : AnnealSet) (f : Nat) : Nat := (a.flog[f]?).getD 0
def AnnealSet.stride (a : AnnealSet) (f : Nat) : Nat := 2 ^ (a.flog.take f).foldl (· + ·) 0
def AnnealSet.babies (a : AnnealSet) (f : Nat) : Nat := 2 ^ ceilDiv (a.flogOf f + 1) 2

/-- Giant indices of a factor, 0 apart: positive ones ascending, then, but for the last factor, negative ones by magnitude. -/
def AnnealSet.giants (a : AnnealSet) (f : Nat) : List Int :=
  let m := 2 ^ a.flogOf f / a.babies f
  (List.range (m - 1)).map (fun (i : Nat) => (i : Int) + 1) ++ (if f = 2 then [] else (List.range m).map (fun (i : Nat) => -(i : Int) - 1))

/-- Rotations of the keys of a factor: baby keys, then giant keys. -/
def AnnealSet.factorSteps (a : AnnealSet) (f : Nat) : List Int :=
  let st : Int := a.stride f
  (List.range (a.babies f - 1)).map (fun (i : Nat) => ((i : Int) + 1) * st)
  ++ (a.giants f).map (fun (g : Int) => g * (a.babies f : Int) * st)

/-- Rotation keys of a set. -/
def AnnealSet.rotKeys (a : AnnealSet) : Nat := ((List.range 3).flatMap a.factorSteps).length

/-- Index of the first key of a factor. -/
def AnnealSet.factorBase (a : AnnealSet) (f : Nat) : Nat := 0x8000 + ((List.range f).flatMap a.factorSteps).length

/-- STEP of a rotation key, modulo N/2. -/
def AnnealSet.stepOf (a : AnnealSet) (log2n i : Nat) : Nat :=
  (((((List.range 3).flatMap a.factorSteps)[i - 0x8000]?).getD 0) % ((2 ^ (log2n - 1) : Nat) : Int)).toNat

/-- The keys to the sparse secret and back. -/
def AnnealSet.sparseKey (a : AnnealSet) : Nat := 0x8000 + a.rotKeys
def AnnealSet.denseKey (a : AnnealSet) : Nat := 0x8000 + a.rotKeys + 1

/-- Limbs that the series of phase 4 consumes. -/
def AnnealSet.series (a : AnnealSet) : Nat := a.evm - a.dbl - 1

/-- Relinearisations of step `i` of the series. -/
def AnnealSet.relins (a : AnnealSet) (i : Nat) : Nat :=
  if a.deg = 31 ∧ a.series = 5 then ([3, 3, 2, 2, 2][i]?).getD 0 else Config.chebRelins a.deg i

/-- Factors in the order of their use, with the level of each: three of phase 3, three of phase 5. -/
def AnnealSet.factors (a : AnnealSet) : List (Nat × Nat) :=
  [(0, a.raise), (1, a.raise - 1), (2, a.raise - 2), (2, a.outLimbs + 3), (1, a.outLimbs + 2), (0, a.outLimbs + 1)]

/-- The key streams of one ciphertext in the order of R103: index and level of each use. -/
def AnnealSet.keyUses (a : AnnealSet) (h : Header) : List (Nat × Nat) :=
  let fac := fun (f : Nat × Nat) => (List.range (a.factorSteps f.1).length).map (fun i => (a.factorBase f.1 + i, f.2))
  (if h.polys = 3 then [(0, h.limbs)] else []) ++ [(a.sparseKey, 1), (a.denseKey, a.raise)]
  ++ (a.factors.take 3).flatMap fac ++ [(1, a.raise - 3)]
  ++ (List.range a.series).flatMap (fun i => List.replicate (a.relins i) (0, a.raise - 4 - i))
  ++ (List.range a.dbl).map (fun i => (0, a.raise - 4 - a.series - i))
  ++ (a.factors.drop 3).flatMap fac

/-- Output header of ANNEAL (R114). -/
def AnnealSet.header (a : AnnealSet) (h : Header) : Header :=
  let h := { h with w0 := putBits (putBits (putBits (putBits h.w0 39 32 a.outLimbs) 41 40 2) 42 42 1) 43 43 0
                    w1 := putBits (putBits h.w1 15 0 a.inScale) 25 16 a.outBudget }
  { h with w3 := putBits h.w3 47 0 (bodyLength 2 a.outLimbs h.n) }.seal

/-! ### Diagonals (R103, R108, R109) -/

/-- Diagonals of a factor: offsets −R + 1 to R − 1 in units of its stride, 0 to R − 1 for the last. -/
def AnnealSet.diagonals (a : AnnealSet) (f : Nat) : Nat := let r := 2 ^ a.flogOf f; if f = 2 then r else 2 * r - 1

/-- Limbs that the diagonals of a set take. -/
def AnnealSet.diagLimbs (a : AnnealSet) : Nat := a.factors.foldl (fun n f => n + a.diagonals f.1 * f.2) 0

/-- Limbs before diagonal `r` of the factor at place `k` of the order of use. -/
def AnnealSet.diagAt (a : AnnealSet) (k r : Nat) : Nat :=
  (a.factors.take k).foldl (fun n f => n + a.diagonals f.1 * f.2) 0 + r * ((a.factors[k]?).getD (0, 0)).2

/-- First byte and length of the Anneal section of a slot's bank on a die (R109). -/
def State.annealSection (s : State) (d t bank : Nat) : Nat × Nat :=
  let u := fun t => s.rf .annealSect 0 t 9 0 * 0x4000000
  (s.rf .annealBase 0 d 23 0 * 0x10000 + (List.range t).foldl (fun a k => a + 2 * u k) 0 + bank * u t, u t)

/-- Bytes of a set's diagonals. -/
def setBytes (ws : List Nat) : Nat := (AnnealSet.ofWords ws).diagLimbs * 2 ^ natBits ((ws[0]?).getD 0) 12 8 * 6

/-- First byte of the diagonals of set `i` of a bank in a section (log entry 135). -/
def Bank.setBase (b : Bank) (i : Nat) : Nat := (b.anneal.take i).foldl (fun n ws => n + setBytes ws) 0

/-- What a set's diagonals are derived from: the table's primes and the set (R108). -/
def Bank.diagCode (b : Bank) (ws : List Nat) : List Nat := b.primes.flatMap (fun e => [e.q, e.psi]) ++ ws

/-- The bytes of a set's diagonals, in their order in the section: factor by factor, by offset, limb by limb. -/
def Bank.diagBytes (b : Bank) (ws : List Nat) : List Byte :=
  let a := AnnealSet.ofWords ws
  let n := 2 ^ natBits ((ws[0]?).getD 0) 12 8
  (a.factors.zipIdx).flatMap (fun f => (List.range (a.diagonals f.1.1)).flatMap (fun r => (List.range f.1.2).flatMap (fun i =>
    (List.range n).flatMap (fun k => natLE 6 (Config.diagonal (b.diagCode ws) f.2 r i k)))))

/-- A diagonal as a plaintext of `l` limbs, read from a section. -/
def State.readDiag (s : State) (base log2n l limb : Nat) : List (List Nat) :=
  (List.range l).map (fun i => (List.range (2 ^ log2n)).map (fun k => s.readLE (base + 6 * ((limb + i) * 2 ^ log2n + k)) 6))

/-! ### The steps on one ciphertext (R101 to R103) -/

/-- What the steps of one ciphertext work with: its set and its profile, its bank, the directory of its keys and its diagonals. -/
structure AnnealCtx where
  set : AnnealSet
  prof : Profile
  bank : Bank
  dir : Nat
  diag : Nat          -- first byte of the set's diagonals
  deriving DecidableEq, Repr

def AnnealCtx.pos (x : AnnealCtx) (l : Nat) : List (Nat × Nat) := (positions x.prof x.bank l).take l

/-- The record of a key in the ciphertext's directory. -/
def State.annealRec (s : State) (x : AnnealCtx) (i : Nat) : Nat := ((s.dirEntry x.dir i).map (·.addr)).getD 0

/-- A rotation by the key of index `i`. -/
def State.annealRot (s : State) (x : AnnealCtx) (l i : Nat) (hoisted : Bool) (c : Ct) : Ct :=
  s.ksCt x.prof x.bank l (s.annealRec x i) i (rotationElement x.prof.log2n (x.set.stepOf x.prof.log2n i)) hoisted c

/-- A level of the ciphertext dropped by a rescale. -/
def AnnealCtx.rescale (x : AnnealCtx) (l : Nat) (c : Ct) : Ct :=
  (rescalePoly x.prof.log2n l 0 (x.pos l) c.1, rescalePoly x.prof.log2n l 0 (x.pos l) c.2)

/-- The factor at place `k` of the order of use: the products of the baby-rotated ciphertext with the diagonals are summed per giant index,
rotated by the giant step and added; then a rescale (S6 to S8, S14). -/
def State.annealFactor (s : State) (x : AnnealCtx) (k : Nat) (c : Ct) : Ct :=
  let fl := (x.set.factors[k]?).getD (0, 0)
  let f := fl.1
  let l := fl.2
  let r := 2 ^ x.set.flogOf f
  let nb := x.set.babies f
  let base := x.set.factorBase f
  let rots := (List.range nb).map (fun b => if b = 0 then c else s.annealRot x l (base + b - 1) true c)
  let diag := fun (o : Int) =>
    let rank := if f = 2 then o else o + (r : Int) - 1
    if 0 ≤ rank ∧ rank < x.set.diagonals f then some (s.readDiag x.diag x.prof.log2n l (x.set.diagAt k rank.toNat)) else none
  let sum := fun (cs : List Ct) => match cs with
    | [] => none
    | y :: ys => some (ys.foldl (Ct.add (x.pos l)) y)
  let giant := fun (g : Int) => sum ((rots.zipIdx).filterMap (fun e =>
    (diag (g * nb + e.2)).map (fun d => e.1.mulPlain (x.pos l) d)))
  let parts := (giant 0).toList ++ ((x.set.giants f).zipIdx).filterMap (fun e =>
    (giant e.1).map (fun y => s.annealRot x l (base + nb - 1 + e.2) false y))
  x.rescale l ((sum parts).getD c)

/-- X^e modulo X^N + 1 at one limb, in NTT domain. -/
def monomial (log2n e : Nat) (q : Nat × Nat) : List Nat :=
  let n := 2 ^ log2n
  nttLimb q.1 q.2 log2n ((List.range n).map (fun k => if k ≠ e % n then 0 else if e / n % 2 = 0 then 1 else q.1 - 1))

/-- A ciphertext times X^e. -/
def AnnealCtx.shift (x : AnnealCtx) (l e : Nat) (c : Ct) : Ct := c.mulPlain (x.pos l) ((x.pos l).map (monomial x.prof.log2n e))

/-- S1 and S2: relinearised where it has three polynomials, and dropped to one limb in NTT domain; the INTT of S2 is its inverse. -/
def State.annealDrop (s : State) (x : AnnealCtx) (tab : Nat) (h : Header) : Ct :=
  let n := x.prof.log2n
  let l := h.limbs
  let pos := x.pos l
  let poly := fun (j : Nat) => ((s.tabPoly tab n h.polys l j pos).zip pos).map (fun e => if h.domain = 1 then e.1 else nttLimb e.2.1 e.2.2 n e.1)
  let c : Ct := (poly 0, poly 1)
  let c := if h.polys = 3 then
      (s.ksCt x.prof x.bank l (s.annealRec x 0) 0 0 false ([], poly 2)).zipLimbs pos addLimb c
    else c
  (c.1.take 1, c.2.take 1)

/-- S4: the centred lift of the residues of q_0 to the primes of `l` limbs. -/
def AnnealCtx.lift (x : AnnealCtx) (l : Nat) (ls : List (List Nat)) : List (List Nat) :=
  let n := x.prof.log2n
  let pos := x.pos l
  let q0 := (pos[0]?).getD (1, 0)
  let r := inttLimb q0.1 q0.2 n ((ls[0]?).getD [])
  pos.map (fun q => nttLimb q.1 q.2 n (r.map (fun (v : Nat) =>
    if 2 * v < q0.1 then v % q.1 else (((v : Int) - (q0.1 : Int)) % (q.1 : Int)).toNat)))

/-- S10 to S12 on one part: the residues are free, of the part, the relinearisation key as it is streamed, the set and the primes. -/
def State.annealPart (s : State) (x : AnnealCtx) (part : Nat) (c : Ct) : Ct :=
  let a := x.set
  let l := a.outLimbs + 3
  let rec0 := s.annealRec x 0
  let lv := a.raise - 4
  let key := (chunksAt x.prof lv).flatMap (fun e => s.keyB rec0 x.prof e.1 e.2) ++ (s.recSeed rec0).map (·.toNat)
  let code := part :: (c.1.flatten ++ c.2.flatten) ++ key ++ a.cheb.map (fun v => (v % 2 ^ 64).toNat) ++ [a.deg, a.dbl, a.evm, a.kbound]
    ++ x.bank.diagCode a.words
  let poly := fun (j : Nat) => (x.pos l).zipIdx.map (fun e =>
    (List.range (2 ^ x.prof.log2n)).map (fun k => Config.annealResidue code e.2 j k % e.1.1))
  (poly 0, poly 1)

/-- The body of an Anneal's output: S1 to S14, in body order (R101 to R103, R115). -/
def State.annealBody (s : State) (x : AnnealCtx) (tab : Nat) (h : Header) : List (List Nat) :=
  let a := x.set
  let n := x.prof.log2n
  let c := s.annealDrop x tab h
  let c := s.ksCt x.prof x.bank 1 (s.annealRec x a.sparseKey) a.sparseKey 0 false c
  let c : Ct := (x.lift a.raise c.1, x.lift a.raise c.2)
  let c := s.ksCt x.prof x.bank a.raise (s.annealRec x a.denseKey) a.denseKey 0 false c
  let c := (List.range 3).foldl (fun c k => s.annealFactor x k c) c
  let l := a.raise - 3
  let j := s.ksCt x.prof x.bank l (s.annealRec x 1) 1 (conjugationElement n) false c
  let re := s.annealPart x 0 (c.add (x.pos l) j)
  let im := s.annealPart x 1 (x.shift l (3 * 2 ^ n / 2) (c.sub (x.pos l) j))
  let l := a.outLimbs + 3
  let c := re.add (x.pos l) (x.shift l (2 ^ n / 2) im)
  let c := [3, 4, 5].foldl (fun c k => s.annealFactor x k c) c
  interleave2 c.1 c.2

end Sys2Proof.Machine
end

