-- ==== Sys2Proof/Machine/Macro.lean ====
section
/-!
DEFINITION. The die macros: key switching (spec 04 R92 to R99), ANNEAL (05 R103 to R119) and HRESCALE (11 R246 to R248).
-/
namespace Sys2Proof.Machine

/-! ### Budgets (02 R48, R49) -/

/-- Budget of one key-switch output, unclamped. -/
def ksBudget (p : Profile) (qs : List Nat) (h : Header) : Int :=
  if h.isCkks then combine h.budget (scaleEighths h.scale - p.aKs) else bgvBudget qs (combineE (bgvE qs h.budget) p.eKs)

/-- Budget of a sum of `n` outputs, the additions chained (04 R94). -/
def ksSumBudget (p : Profile) (qs : List Nat) (h : Header) (n : Nat) : Int :=
  let one := ksBudget p qs h
  (List.range (n - 1)).foldl (fun acc _ =>
    if h.isCkks then combine acc one else bgvBudget qs (combineE ((eighthsOf qs : Int) - 8 - acc) ((eighthsOf qs : Int) - 8 - one))) one

/-- Budget after a rescale, unclamped; `qs` the primes of the input. -/
def rescaleBudget (p : Profile) (qs : List Nat) (h : Header) (scale : Nat) : Int :=
  if h.isCkks then combine h.budget (scaleEighths scale - p.aRs)
  else
    let top := (qs.getLast?).getD 1
    bgvBudget qs.dropLast (combineE (bgvE qs h.budget - (floorLog2 8 top : Int)) p.eMs)

/-! ### Issue -/

/-- Entries of KSHOIST: bytes of S[RE + 1]:S[RE] (11 R246). -/
def State.hoistEntries (s : State) (c : Nat) (q : QCmd) : List Nat :=
  let x := s.context c q.ctx
  let v := (x.reg q.cmd.re).toNat + 2 ^ 64 * (x.reg (q.cmd.re + 1)).toNat
  (List.range q.cmd.mNent).map (fun i => natBits v (8 * i + 7) (8 * i))

/-- Number of inputs and outputs of a macro. -/
def macroIns (op : Opcode) (w : Cmd) : Nat := if op = .anneal ∧ w.mPair then 2 else 1
def macroOuts (op : Opcode) (w : Cmd) : Nat :=
  if op = .kshoist ∧ ¬ w.mSum then w.mNent else macroIns op w

/-- The cores of the mask. -/
def maskCores (c : Nat) (w : Cmd) : List Nat := (setBits 24 w.mMask).map (· + 24 * (c / 24))

/-- Participating cores: those of the mask that are not in pewter mode. -/
def State.macroCores (s : State) (c : Nat) (w : Cmd) : List Nat := (maskCores c w).filter (fun k => !(s.core k).pewter)

/-- Intermediate drawers per participating core (11 R247), for an ANNEAL those of `n` ciphertexts (05 R112). -/
def macroNeed (op : Opcode) (n : Nat) (h : Header) (p : Option Profile) (cores : Nat) : Nat :=
  match op, p with
  | .anneal, _ => n * ceilDiv 2688 cores
  | .hrescale, _ | _, none => 0
  | _, some p => ceilDiv (2 * ceilDiv h.limbs p.alpha * (h.limbs + p.numP) * limbDrawers h.log2n) cores

/-- Drawers that context `x` owns on a core (10 R204, 09 R187). -/
def State.ownedDrawers (s : State) (c x : Nat) : Nat := if s.modeM c then 64 else if x = 0 then 256 else 0

/-- POLYS and KIND that a macro takes. -/
def macroTakes (op : Opcode) (h : Header) : Bool :=
  match op with
  | .ksrelin => h.isCt && h.polys == 3
  | .anneal | .hrescale => h.isCt
  | _ => h.isCt && h.polys == 2

/-- What the checks of one input give: wait, a status, or the output header with which it runs. -/
inductive InRes where
  | wait
  | bad (st : Nat)
  | good (h : Header)
  deriving DecidableEq, Repr

/-- The checks of R52 after the memory checks, for one input, in their order. -/
def State.macroCheck (s : State) (op : Opcode) (w : Cmd) (h : Header) : InRes :=
  let pr := s.profOf h
  let b := s.bankOf pr
  if !h.checks1to4 then .bad stHeader
  else if s.tableWait pr then .wait
  else match h.check pr b, pr with
    | some f, _ => .bad f.status
    | none, none => .bad stProfile
    | none, some p =>
      let qs := p.qs b h.limbs
      match op with
      | .anneal =>
        match b.annealSet p.anneal with
        | none => .bad stProfile
        | some a =>
          if h.kind ≠ 0x01 then .bad stProfile
          else if h.tarnish then .bad stTarnished
          else if h.scale ≠ a.inScale then .bad stScale
          else .good (a.header h)
      | .hrescale =>
        let sub := scaleOfPrime ((qs.getLast?).getD 1)
        let sc := if h.isCkks then h.scale - sub else h.scale
        let bud := rescaleBudget p qs h sc
        if !macroTakes op h then .bad stHeader
        else if h.domain ≠ 1 then .bad stDomain
        else if h.tarnish then .bad stTarnished
        else if h.limbs = 1 then .bad stLevel
        else if h.isCkks && (decide (h.scale < sub) || scaleTooLarge sc qs.dropLast) then .bad stScale
        else if h.budget ≤ p.floor ∨ !budgetOk h.isCkks p.floor bud then .bad stBudget
        else .good (((h.withLimbs (h.limbs - 1)).withScale sc).withBudget (clampBudget bud)).seal
      | _ =>
        let bud := if op = .kshoist ∧ w.mSum then ksSumBudget p qs h w.mNent else ksBudget p qs h
        if !macroTakes op h then .bad stHeader
        else if h.domain ≠ 1 then .bad stDomain
        else if h.tarnish then .bad stTarnished
        else if h.isCkks && scaleTooLarge h.scale qs then .bad stScale
        else if h.budget ≤ p.floor ∨ !budgetOk h.isCkks p.floor bud then .bad stBudget
        else .good ((h.withPolys 2).withBudget (clampBudget bud)).seal

/-- Body limbs of an input, by its header as it stands; one where its size fields are out of range (02 R52). -/
def Header.bodyLimbs (h : Header) : Nat := if h.sized then h.polys * h.limbs else 1

/-- The output header of output `j` where the checks passed; a placeholder where they did not: the input's own. -/
def outHeader (ins : List Header) (rs : List InRes) (i : Nat) : Header :=
  match rs[i]? with
  | some (.good h) => h
  | _ => (ins[i]?).getD {}

/-- Body limbs an output will have, for the memory checks. -/
def outLimbsOf (op : Opcode) (h : Header) (b : Bank) (p : Option Profile) : Nat :=
  match op with
  | .anneal => match p.bind (fun p => b.annealSet p.anneal) with
    | some a => 2 * a.outLimbs
    | none => 1
  | .hrescale => if h.sized then h.polys * (h.limbs - 1) else 1
  | _ => if h.sized then 2 * h.limbs else 1

/-- The status a macro reports: the first in the order of R248 that any output holds. -/
def macroStatus (sts : List Nat) : Nat :=
  ((sts.find? halting).orElse (fun _ => (sts.find? (· == stAborted)).orElse (fun _ => (sts.find? (· == stTimeout)).orElse (fun _ =>
    (sts.find? tarnishing).orElse (fun _ => sts.find? (· == stAbortLate)))))).getD stOk

/-- Inputs and outputs of a macro as its issue sees them: headers of the inputs, and of each table its address and its body limbs. -/
structure MacroView where
  ins : List Header
  src : Nat → Nat                  -- the input that output `j` is made of
  inK : List (Nat × Nat)           -- per input: table, body limbs
  outK : List (Nat × Nat)          -- per output: table, body limbs

def State.macroView (s : State) (op : Opcode) (c : Nat) (w : Cmd) : MacroView :=
  let it := fun i => tabOf w.inTab i
  let ins := (List.range (macroIns op w)).map (fun i => (s.core c).hdr (s.ownerWord (it i) 0).drawer)
  let src := fun (j : Nat) => if op = .anneal then j else 0
  let hin := fun i => (ins[i]?).getD {}
  { ins := ins, src := src
    inK := (List.range (macroIns op w)).map (fun i => (it i, (hin i).bodyLimbs))
    outK := (List.range (macroOuts op w)).map (fun j =>
      (tabOf w.outTab j, outLimbsOf op (hin (src j)) (s.bankOf (s.profOf (hin (src j)))) (s.profOf (hin (src j))))) }

/-- Checks of a macro's operands and of the places of its tables: ranges, 8 KiB boundaries, and memory that a command may read: no key
chest (04 R84), no pewter area (23 R496). -/
def State.macroPlace (s : State) (op : Opcode) (c : Nat) (q : QCmd) : List (Bool × Nat) :=
  let w := q.cmd
  let tabs := (List.range (macroIns op w)).map (tabOf w.inTab) ++ (List.range (macroOuts op w)).map (tabOf w.outTab)
  [(decide (w.re % 2 = 0)
      && (op != .ksrot || decide (w.stepEntry ≤ 63))
      && (op != .kshoist || (s.hoistEntries c q).all (fun e => decide (e ≤ 63))), stShape),
   (w.inTab % 8192 == 0 && w.outTab % 8192 == 0, stAlign),
   (tabs.all (fun t => inHbm t && inHbm (t + 8191) && !s.guarded t), stBounds)]

/-- The granules of the owner tables that the issue of a macro reads. -/
def State.macroReads (s : State) (op : Opcode) (c : Nat) (q : QCmd) : List Nat :=
  let v := s.macroView op c q.cmd
  if (firstFail (s.macroPlace op c q)).isSome then []
  else (v.inK ++ v.outK).flatMap (fun t => granules t.1 (8 * s.blockCount t.1 t.2))

/-- Issue of a die macro (11 R237, R246, R247; 02 R52; 05 R110 to R112). -/
def planMacro (op : Opcode) (s : State) (c : Nat) (q : QCmd) : Plan :=
  let w := q.cmd
  let x := q.ctx
  let v := s.macroView op c w
  let hin := fun i => (v.ins[i]?).getD {}
  let rs := v.ins.map (s.macroCheck op w)
  let good : Nat → Bool := fun i => match rs[i]? with
    | some (.good _) => true
    | _ => false
  let drOf := fun i => s.tabDrawers ((v.inK[i]?).getD (0, 0)).1 ((v.inK[i]?).getD (0, 0)).2 (hin i).log2n
  let is_ := List.range v.ins.length
  let js := List.range v.outK.length
  let inAll := is_.flatMap drOf
  let outs := js.map (fun j => s.tabDrawers ((v.outK[j]?).getD (0, 0)).1 ((v.outK[j]?).getD (0, 0)).2 (hin (v.src j)).log2n)
  let inPlace := op == .hrescale && w.inTab == w.outTab
  let mask := maskCores c w
  let cores := s.macroCores c w
  let need := macroNeed op v.ins.length (hin 0) (s.profOf (hin 0)) cores.length
  let reads := s.macroReads op c q
  .checks (s.macroPlace op c q ++
    [(reads.all (fun g => s.stackOnline (64 * g)), stBounds),
     (reads.all (fun g => !s.poisoned (64 * g) 64), stParity),
     ((v.inK.zipIdx).all (fun t => s.tableOk c x t.1.1 t.1.2 (hin t.2).log2n)
        && (v.outK.zipIdx).all (fun t => s.tableOk c x t.1.1 t.1.2 (hin (v.src t.2)).log2n), stBounds),
     (inPlace || outs.all (fun o => o.all (fun d => !(d ∈ inAll))), stBounds),
     (op != .anneal || outs.all (fun o => o.all (fun d => d.1 ∈ mask)), stBounds),
     (!cores.isEmpty && cores.all (fun k => decide (need ≤ s.ownedDrawers k x))
        && (op != .anneal || (mask.all (fun k => !s.modeM k) && decide ((if w.mPair then 21 else 11) ≤ cores.length))), stBounds)]) <|
  let sts := js.map (fun j => match rs[v.src j]? with
    | some (.bad st) => st
    | _ => 0)
  let profs := v.ins.map s.profOf
  let lat : Latch :=
    { prof := s.profOf (hin 0), bank := s.bankOf (s.profOf (hin 0)), ins := v.ins, dirs := v.ins.map s.dirOf, entries := s.hoistEntries c q
      profs := profs, banks := profs.map s.bankOf
      outs := js.map (fun j => (c, (s.ownerWord ((v.outK[j]?).getD (0, 0)).1 0).drawer, outHeader v.ins rs (v.src j))), tarnish := sts }
  let st := macroStatus sts
  { v := if rs.any (· == .wait) then .wait
         else if sts.all (· != 0) then (if halting st then .halt st else .tarnish st) else .ok
    inDr := if inPlace then drOf 0 else (is_.filter good).flatMap drOf, inCut := if good 0 then (drOf 0).length else 0
    outDr := if inPlace then [[]] else outs, lat := lat }

/-- The profile and the bank that output `j` latched: those of its own input, of which an ANNEAL's pair has two (05 R111, R115). -/
def Latch.profAt (l : Latch) (op : Opcode) (j : Nat) : Option Profile := if op = .anneal then (l.profs[j]?).getD none else l.prof
def Latch.bankAt (l : Latch) (op : Opcode) (j : Nat) : Bank := if op = .anneal then (l.banks[j]?).getD {} else l.bank

/-! ### Key-stream groups (04 R92) -/

def State.group (s : State) (g : Nat) : KGroup := Tab.get {} s.groups g
def State.setGroup (s : State) (g : Nat) (v : KGroup) : State := { s with groups := Tab.set {} s.groups g v }

/-- A command's name in a group. -/
def memberOf (c id : Nat) : Nat := 2 ^ 32 * c + id

/-- Is a member still in its queue? -/
def State.memberLive (s : State) (m : Nat) : Bool := ((s.core (m / 2 ^ 32)).cmd? (m % 2 ^ 32)).isSome

/-- Do both ciphertexts of a pair run under one key set (05 R113)? -/
def QCmd.samePair (q : QCmd) : Bool :=
  q.cmd.mPair && q.lat.tarnish == [0, 0] && (match q.lat.ins with
    | [a, b] => sameKey a.keytag b.keytag
    | _ => false)

/-- Join at issue: the group joined, or none with EV_DIE_GROUP_FULL; an ANNEAL's pair takes a group of its own (05 R113). -/
def State.joinGroup (s : State) (op : Opcode) (c : Nat) (q : QCmd) : State :=
  let n := q.cmd.mMembers + 1
  let put := fun (k : Nat) (v : KGroup) =>
    (s.setGroup k { v with joined := v.joined ++ [memberOf c q.id] }).modCmd c q.id
      (fun q => { q with lat := { q.lat with group := some k } })
  if op = .anneal then (if q.samePair then put (64 + memberOf c q.id) { size := 2 } else s)
  else if q.cmd.mMembers = 0 ∨ op = .hrescale then s
  else
    let k := 16 * (c / 24) + q.cmd.mGroup
    let g := s.group k
    if g.joined.isEmpty then put k { g with size := n }
    else if g.size = n ∧ g.joined.length < g.size then put k g
    else s.dieEvent 0x0206 2 (c / 24) q.cmd.mGroup 6 c q.ctx 0

/-- A member completes: the group is idle when its last member has completed, and its lines go. -/
def State.leaveGroup (s : State) (q : QCmd) : State :=
  match q.lat.group with
  | none => s
  | some k =>
    if (s.group k).joined.any s.memberLive then s
    else { (s.setGroup k {}) with groupLines := s.groupLines.filter (fun l => l.group != k) }

/-- The seat of a member in its command's group: the group, the member's name, the member count. -/
def State.seat (s : State) (q : QCmd) (me : Nat) : Option (Nat × Nat × Nat) := q.lat.group.map (fun k => (k, me, (s.group k).size))

/-- A member has read its stream. -/
def State.markServed (s : State) (q : QCmd) (me : Nat) : State :=
  match q.lat.group with
  | none => s
  | some k => s.setGroup k { s.group k with served := addOnce me (s.group k).served }

/-- The hint of a key record's chunks (04 R91). -/
def DirEntry.hint (d : DirEntry) : Nat := if d.hot then 1 else 2

/-- The streams of matched keys, by seats: each key is read once for every seat, in turn; the reading stops at the first granule that
arrives poisoned. -/
def State.readKeys (s : State) (p : Profile) (ks : List (DirEntry × Nat × Nat)) (seats : Nat × Nat → List (Option (Nat × Nat × Nat))) :
    State × Bool :=
  ks.foldl (fun r k => (seats k.2).foldl (fun r m =>
    if r.2 then r else r.1.readGranules k.1.hint m (streamGranules k.1.addr p k.2.2)) r) (s, false)

/-! ### Decisions per output -/

/-- Marks an output whose result stands committed. -/
def outDone : Nat := 0x100

/-- Set the decision of output `j`. -/
def QCmd.decide (q : QCmd) (j st : Nat) : QCmd := { q with lat := { q.lat with tarnish := q.lat.tarnish.set j st } }

def QCmd.outSt (q : QCmd) (j : Nat) : Nat := (q.lat.tarnish[j]?).getD 0

/-- Change the drawers of output `j`. -/
def State.outDrawers (s : State) (q : QCmd) (j : Nat) (f : Drawer → Drawer) : State :=
  ((q.outDr[j]?).getD []).foldl (fun s d => s.modCore d.1 (fun k => k.modDrawer d.2 f)) s

def Drawer.fill (d : Drawer) : Drawer := { d with tag := .full, claim := false }
def Drawer.tear (d : Drawer) : Drawer := { d with tag := .torn, claim := false }

/-- An output tarnished: header with TARNISH 1, its destination drawers TORN, those of an in-place command too (04 R98, 02 R51). A claim of
the command is released; before its start it has none, and another writer's stands. -/
def State.tarnishOut (s : State) (q : QCmd) (j : Nat) : State :=
  let f := if q.stage = .started then Drawer.tear else fun d => { d with tag := .torn }
  let s := s.outDrawers q j f
  let s := if q.outDr = [[]] then q.inDr.foldl (fun s d => s.modCore d.1 (fun k => k.modDrawer d.2 f)) s else s
  match q.lat.outs[j]? with
  | some o => s.putOut 0 (o.1, o.2.1, o.2.2.tarnished)
  | none => s

/-- Outputs not decided yet. -/
def QCmd.openOuts (q : QCmd) : List Nat := (List.range q.lat.outs.length).filter (fun j => q.outSt j == 0)

/-- Contents that a macro's expansion left in intermediate drawers: the spec gives none. -/
def State.scrambleDr (s : State) (ds : List (Nat × Nat)) : State :=
  ds.foldl (fun s d =>
    State.store { s with free := s.free + drawerBytes } (drawerAddr d.1 d.2)
      ((List.range drawerBytes).map (fun i => BitVec.ofNat 8 (Config.freeValue (s.free + i))))) s

def State.scramble (s : State) (q : QCmd) : State := s.scrambleDr q.macroDr

/-- Write the statuses of the outputs into S[RE + 1]:S[RE] (11 R248). -/
def State.putStatuses (s : State) (c : Nat) (q : QCmd) (sts : List Nat) : State :=
  let v := (sts.zipIdx).foldl (fun acc e => acc + e.1 % 256 * 2 ^ (8 * e.2)) 0
  s.modContext c q.ctx (fun x => (x.setReg q.cmd.re (BitVec.ofNat 64 v)).setReg (q.cmd.re + 1) (BitVec.ofNat 64 (v / 2 ^ 64)))

/-- Is a set under upload, or does it await its witness? -/
def State.setStaged (s : State) (k : KeySet) : Bool :=
  s.journal.any (fun e => e.2.kind == 2 && (e.2.state == 1 || e.2.state == 2) && e.2.body == k.dir + 1024)

/-- Key sets of replaced generations are freed when no command holds their directory (04 R87). A set that is neither its session's current
one nor the one that becomes current next, and is not under upload, is a replaced one. -/
def State.freeKeySets (s : State) : State :=
  let latched := s.cores.flatMap (fun e => e.2.q.flatMap (fun q => q.lat.dirs))
  s.releaseSets (fun k =>
    let v := Tab.get {} s.sessions k.session
    !(k.dir == v.dir || k.dir == v.readyDir || s.setStaged k || k.dir ∈ latched))

/-- Input drawers that a macro consumes: an ANNEAL's input by its own output (05 R111), any other's where an output stands. -/
def QCmd.consumed (q : QCmd) (sts : List Nat) : List (Nat × Nat) :=
  if !q.cmd.consume1 || q.outDr == [[]] then []
  else if q.cmd.op? = some .anneal then
    (if sts[0]? = some stOk then q.inDr.take q.inCut else []) ++ (if sts[1]? = some stOk then q.inDr.drop q.inCut else [])
  else if sts.any (· == stOk) then q.inDr else []

/-- A die macro completes with the statuses of its outputs. -/
def State.finishMacro (s : State) (c : Nat) (q : QCmd) (sts : List Nat) : State :=
  let st := macroStatus sts
  let s := (s.scramble q).freeMacro q
  let s := (q.consumed sts).foldl (fun s d => s.modCore d.1 (fun k => k.modDrawer d.2 (fun v => { v with closing := true }))) s
  let s := (s.putStatuses c q sts).complete c q st
  let s := s.modCore c (fun k => { k with inlet := k.inlet.filter (fun e => e.1 != q.id) })
  ((q.inDr.map (·.1)).foldl (fun s k => s.settleClosing k) s).leaveGroup q |>.freeKeySets

/-- Statuses of a macro whose open outputs end with `st`: decided outputs keep theirs; a committed one is ST_OK, or
ST_ABORT_LATE where an abort or a time-out ends the rest. -/
def QCmd.endWith (q : QCmd) (st : Nat) : List Nat :=
  (List.range q.lat.outs.length).map (fun j =>
    let v := q.outSt j
    if v = 0 then st else if v = outDone then (if st = stAborted then stAbortLate else stOk)
    else if st = stAborted ∧ tarnishing v then stAbortLate else v)

/-- Stop a started macro: its open outputs are torn. -/
def State.stopMacro (s : State) (c : Nat) (q : QCmd) (st : Nat) : State :=
  (q.openOuts.foldl (fun s j => s.tarnishOut q j) s).finishMacro c q (q.endWith st)

/-- A parity or ECC error of the expansion also halts the streams of the participating cores (05 R119). -/
def State.macroParity (s : State) (c : Nat) (q : QCmd) : State :=
  let s := s.stopMacro c q stParity
  if q.cmd.op? = some .anneal then
    (s.macroCores c q.cmd).foldl (fun s k =>
      if k = c then s
      else (s.modContext k q.ctx (fun x => match x.st with
        | .running | .preempting => { x with st := .halted, lastStatus := stParity }
        | _ => x)).holdJob k q.ctx stParity) s
  else s

/-- Outputs that the issue of a macro tarnished: header and drawers, and an event each (02 R51). -/
def State.tarnishDecided (s : State) (c : Nat) (q : QCmd) : State :=
  (List.range q.lat.tarnish.length).foldl (fun s j =>
    if tarnishing (q.outSt j) then (s.tarnishOut q j).tarnishEvent c q (q.outSt j) else s) s

/-- A macro whose command ends before its expansion, with one status for every output still open (11 R248). An aborted one has changed
nothing (10 R224). -/
def State.macroEnds (s : State) (c : Nat) (q : QCmd) (st : Nat) : State :=
  match q.cmd.op? with
  | some op =>
    if q.eng ≠ 5 ∨ q.skipped ∨ st = stAborted ∨ q.cmd.re % 2 ≠ 0 then s
    else if q.lat.outs.isEmpty then s.putStatuses c q (List.replicate (macroOuts op q.cmd) st)
    else s.putStatuses c q (q.endWith st)
  | none => s

/-- A macro tarnished or halted whole at its issue. -/
def State.endMacroAtIssue (s : State) (c : Nat) (q : QCmd) : State :=
  let sts := q.lat.tarnish
  let st := macroStatus sts
  ((s.tarnishDecided c q).putStatuses c q sts).complete c q st

/-! ### Start -/

/-- EMPTY unclaimed drawers of a context's share on a core, lowest first, outside the macro's own. -/
def State.spareDrawers (s : State) (k x : Nat) (used : List (Nat × Nat)) : List (Nat × Nat) :=
  ((List.range 256).filter (fun d => s.drawerInShare k x d && ((s.core k).drawer d).tag == .empty && !((s.core k).drawer d).claim
    && !((k, d) ∈ used))).map (fun d => (k, d))

/-- The intermediate drawers a macro would take now; none where a core has too few (11 R247). -/
def State.pickDrawers (s : State) (c : Nat) (q : QCmd) : Option (List (Nat × Nat)) :=
  match q.cmd.op? with
  | some op =>
    let cores := s.macroCores c q.cmd
    let need := macroNeed op q.openOuts.length ((q.lat.ins[0]?).getD {}) q.lat.prof cores.length
    let used := q.inDr ++ q.outDr.flatten
    let picks := cores.map (fun k => (s.spareDrawers k q.ctx used).take need)
    if picks.all (fun l => l.length == need) then some picks.flatten else none
  | none => none

/-- An ANNEAL's intermediate drawers by output: of each core's run, the first ⌈2,688 ÷ C⌉ serve the first open output (05 R112). -/
def QCmd.midsOf (q : QCmd) (cores : Nat) (mid : List (Nat × Nat)) : List (Nat × Nat × Nat) :=
  let per := ceilDiv 2688 cores
  if q.cmd.op? = some .anneal then
    (mid.zipIdx).map (fun e => ((q.openOuts[e.2 % (q.openOuts.length * per) / per]?).getD 0, e.1.1, e.1.2))
  else []

/-- Do the tags of input and output drawers permit the start (09 R189)? -/
def State.macroTags (s : State) (q : QCmd) : Bool :=
  q.inDr.all (fun d => let v := (s.core d.1).drawer d.2; v.tag == .full && !v.closing)
  && q.openOuts.all (fun j => ((q.outDr[j]?).getD []).all (fun d =>
    let v := (s.core d.1).drawer d.2
    (v.tag == .empty || v.tag == .torn) && !v.claim))

/-- Claim destinations and intermediate drawers. -/
def State.startMacro (s : State) (c : Nat) (q : QCmd) (mid : List (Nat × Nat)) : State :=
  let s := q.openOuts.foldl (fun s j => s.outDrawers q j (fun v => { v with claim := true })) s
  let s := mid.foldl (fun s d => s.modCore d.1 (fun k => k.modDrawer d.2 (fun v => { v with claim := true }))) s
  s.modCmd c q.id (fun q => { q with stage := .started, macroDr := mid, mids := q.midsOf (s.macroCores c q.cmd).length mid })

/-! ### Commit of one output -/

/-- Keys of output `j`: index and level, in streaming order. -/
def macroKeys (op : Opcode) (q : QCmd) (p : Profile) (j : Nat) : List (Nat × Nat) :=
  let h := (q.lat.ins[if op = .anneal then j else 0]?).getD {}
  match op with
  | .ksrelin => [(0, h.limbs)]
  | .ksconj => [(1, h.limbs)]
  | .ksrot => [(2 + q.cmd.stepEntry, h.limbs)]
  | .kshoist =>
    if q.cmd.mSum then q.lat.entries.map (fun e => (2 + e, h.limbs))
    else (((q.lat.entries)[j]?).map (fun e => [(2 + e, h.limbs)])).getD []
  | .anneal => match (q.lat.bankAt op j).annealSet p.anneal with
    | some a => a.keyUses h
    | none => []
  | _ => []

/-- The keys a stream matched before the first mismatch, and whether one mismatched (04 R97, R98; 05 R117). -/
def State.matchKeys (s : State) (dir : Nat) (h : Header) (p : Profile) : List (Nat × Nat) → List (DirEntry × Nat × Nat) × Bool
  | [] => ([], true)
  | k :: ks =>
    match s.keyRec dir k.1 h p with
    | none => ([], false)
    | some d =>
      let r := s.matchKeys dir h p ks
      ((d, k) :: r.1, r.2)

/-- Galois element of a key of a key-switch command; 0 for none. -/
def State.galoisFor (s : State) (op : Opcode) (dir log2n i : Nat) : Nat :=
  match op with
  | .ksrot | .kshoist => rotationElement log2n ((s.stepOf dir (i - 2)).getD 0)
  | .ksconj => conjugationElement log2n
  | _ => 0

/-- A rotation whose step-table entry is not valid has no key (04 R79). -/
def State.stepsOk (s : State) (op : Opcode) (dir : Nat) (ks : List (Nat × Nat)) : Bool :=
  !(op == .ksrot || op == .kshoist) || ks.all (fun k => (s.stepOf dir (k.1 - 2)).isSome)

/-- What the steps of an ANNEAL on input `i` work with (05 R101 to R108). -/
def State.annealCtx (s : State) (c : Nat) (q : QCmd) (p : Profile) (i : Nat) : Option AnnealCtx :=
  let b := q.lat.bankAt .anneal i
  (b.annealSet p.anneal).map (fun a =>
    let g := ((q.lat.slots.find? (fun e => e.1 == p.slot)).map (·.2)).getD 0
    { set := a, prof := p, bank := b, dir := (q.lat.dirs[i]?).getD 0
      diag := (s.annealSection (c / 24) p.slot (g % 2)).1 + b.setBase p.anneal })

/-- The body of output `j`, its keys matched. -/
def State.macroBody (s : State) (op : Opcode) (c : Nat) (q : QCmd) (p : Profile) (j : Nat) (ks : List (DirEntry × Nat × Nat)) :
    List (List Nat) :=
  let i := if op = .anneal then j else 0
  let h := (q.lat.ins[i]?).getD {}
  let tab := tabOf q.cmd.inTab i
  let dir := (q.lat.dirs[i]?).getD 0
  match op with
  | .hrescale => s.rescaleBody tab h p q.lat.bank
  | .anneal => match s.annealCtx c q p j with
    | some x => s.annealBody x tab h
    | none => []
  | _ => s.ksBody op tab h p q.lat.bank (ks.map (fun k => (k.1.addr, k.2.1, s.galoisFor op dir p.log2n k.2.1)))

/-- Wrong parity in an input drawer, or in an intermediate drawer that the expansion has written: its core and address (09 R200, 05 R119). -/
def State.macroBadParity (s : State) (q : QCmd) : Option (Nat × Nat) :=
  ((s.badpar.filterMap (fun (a : Nat) => match regionOf (a : Int) with
    | some (c + 1) => if (c, drawerOfAddr c (a : Int)) ∈ q.inDr then some (c, a) else none
    | _ => none))
   ++ (q.macroDr.filter (fun d => bitOf (s.reg .spInject d.1) 8 && s.rf .spInject d.1 0 7 0 == d.2)).map (fun d => (d.1, drawerAddr d.1 d.2))).head?

/-- A parity error that a macro meets: recorded, the drawer read TORN, an injected one used up. -/
def State.macroMeets (s : State) (q : QCmd) (k a : Nat) : State :=
  let d := drawerOfAddr k (a : Int)
  let s := s.recordParity k a
  if (k, d) ∈ q.inDr then s.modCore k (fun v => v.modDrawer d Drawer.tear) else s.setRf .spInject k 0 8 8 0

/-- The outputs that a mismatch of output `j` stops: its own, and a partner under the same key set (05 R117). -/
def QCmd.stopsWith (q : QCmd) (j : Nat) : List Nat :=
  q.openOuts.filter (fun o => o == j || (q.cmd.op? == some .anneal && q.samePair))

/-- The intermediate drawers of one output return EMPTY (05 R117). -/
def State.freeMids (s : State) (c id j : Nat) : State :=
  match (s.core c).cmd? id with
  | none => s
  | some q =>
    let ds := (q.mids.filter (fun e => e.1 == j)).map (·.2)
    let s := ds.foldl (fun s e => s.modCore e.1 (fun k => k.modDrawer e.2 (fun v => { v.emptied with claim := false }))) (s.scrambleDr ds)
    s.modCmd c id (fun q => { q with macroDr := q.macroDr.filter (fun d => !(d ∈ ds)), mids := q.mids.filter (fun e => e.1 != j) })

/-- A key's tag does not match: the outputs that need it stop there, with an event each (04 R98, R99). -/
def State.mismatch (s : State) (c : Nat) (q : QCmd) (j : Nat) : State :=
  (q.stopsWith j).foldl (fun s o =>
    (((s.tarnishOut q o).tarnishEvent c q stKeytag).modCmd c q.id (fun q => q.decide o stKeytag)).freeMids c q.id o) s

/-- Seats for which the key uses of output `j` are read: a command's own; of a pair under one key set the first output reads for both where both
use the key, the second what the first does not use (05 R113). -/
def State.seatsOf (s : State) (op : Opcode) (c : Nat) (q : QCmd) (p : Profile) (j : Nat) (k : Nat × Nat) : List (Option (Nat × Nat × Nat)) :=
  if op = .anneal ∧ q.lat.group.isSome then
    let other := k ∈ macroKeys op q p (1 - j)
    if j = 0 then (if other then [s.seat q 0, s.seat q 1] else [s.seat q 0])
    else if other && q.outSt 0 == outDone then [] else [s.seat q 1]
  else [s.seat q (memberOf c q.id)]

/-- Granules of the diagonals that output `j` reads: a pair of one table reads them once (05 R109, R113). -/
def State.diagReads (s : State) (op : Opcode) (c : Nat) (q : QCmd) (p : Profile) (j : Nat) : List Nat :=
  match op, s.annealCtx c q p j with
  | .anneal, some x =>
    if j = 1 ∧ q.outSt 0 = outDone ∧ q.lat.profs[0]? = q.lat.profs[1]? then []
    else granules x.diag (setBytes x.set.words)
  | _, _ => []

/-- Output `j` commits: its body and header, its drawers FULL (04 R93, 05 R118, 11 R247). -/
def State.commitOut (s : State) (op : Opcode) (c : Nat) (q : QCmd) (p : Profile) (j : Nat) (ks : List (DirEntry × Nat × Nat)) : State :=
  let s := ((s.macroBody op c q p j ks).zipIdx).foldl (fun s e => s.storeTabLimb (tabOf q.cmd.outTab j) p.log2n e.2 e.1) s
  let s := match q.lat.outs[j]? with
    | some o => s.putOut 0 o
    | none => s
  (s.outDrawers q j Drawer.fill).modCmd c q.id (fun q => q.decide j outDone)

/-- Decide output `j` at its commit point or at its tag decision; a parity or ECC error ends the whole command, and so does a key stream or a
diagonal on a stack that is offline (13 R286). All tags are decided before any chunk is read (DESIGN CHOICE, log entry 134). -/
def State.decideOut (s : State) (op : Opcode) (c : Nat) (q : QCmd) (p : Profile) (j : Nat) : State :=
  let i := if op = .anneal then j else 0
  let h := (q.lat.ins[i]?).getD {}
  let dir := (q.lat.dirs[i]?).getD 0
  let keys := macroKeys op q p j
  let r := s.matchKeys dir h p keys
  let gs := s.diagReads op c q p j
  match s.macroBadParity q with
  | some (k, a) => (s.macroMeets q k a).macroParity c q
  | none =>
    if !(r.2 && s.stepsOk op dir keys) then s.mismatch c q j
    else if !((r.1.flatMap (fun k => streamGranules k.1.addr p k.2.2) ++ gs).all (fun g => s.stackOnline (64 * g))) then s.stopMacro c q stBounds
    else
      let t := s.readKeys p r.1 (s.seatsOf op c q p j)
      if t.2 then t.1.macroParity c q
      else
        let t := t.1.readGranules 0 none gs
        if t.2 then t.1.macroParity c q
        else (t.1.commitOut op c q p j r.1).markServed q (memberOf c q.id)

/-- All outputs decided: the command completes. -/
def State.settleMacro (s : State) (c id : Nat) : State :=
  match (s.core c).cmd? id with
  | none => s
  | some q => if q.openOuts.isEmpty then s.finishMacro c q (q.endWith stOk) else s

/-- One commit of a started macro: the first open output. -/
def commitMacro (s : State) (c : Nat) (q : QCmd) : State :=
  match q.cmd.op?, q.openOuts with
  | some op, j :: _ => match q.lat.profAt op j with
    | some p => (s.decideOut op c q p j).settleMacro c q.id
    | none => s.settleMacro c q.id
  | _, _ => s.settleMacro c q.id

/-- The key inlet of a core serves the key-switch command at the head of its drawbench queue (04 R89): no key-switch command of the core that
arrived earlier is still under way. -/
def State.inletHead (s : State) (c : Nat) (q : QCmd) : Bool :=
  (s.core c).q.all (fun p => !(p.eng == 5 && p.cmd.op? != some .hrescale && (p.stage == .issued || p.stage == .started)
    && decide (p.arr < q.arr)))

/-- The first chunk of key number `n` of output `j` arrives (04 R95, R97): a mismatch decides the output, a match lets the chunk into the
inlet, which holds two halves. -/
def keyChunk (s : State) (c : Nat) (q : QCmd) (j n : Nat) : State :=
  match q.cmd.op? with
  | none => s
  | some op => match q.lat.profAt op j with
    | none => s
    | some p =>
      let i := if op = .anneal then j else 0
      let h := (q.lat.ins[i]?).getD {}
      let dir := (q.lat.dirs[i]?).getD 0
      match (macroKeys op q p j)[n]? with
      | none => s
      | some k =>
        if q.outSt j ≠ 0 ∨ !s.inletHead c q then s
        else match (if s.stepsOk op dir [k] then s.keyRec dir k.1 h p else none) with
          | some d => (s.modCore c (fun v => { v with inlet := (v.inlet ++ [(q.id, d.addr)]).drop (v.inlet.length - 1) })).modCmd c q.id
              (fun q => { q with tagOk := true })
          | none => (s.mismatch c q j).settleMacro c q.id

end Sys2Proof.Machine
end

