-- ==== Sys2Proof/Machine/RegCore.lean ====
section
/-!
DEFINITION. The refusal of a register command (spec 22 R490, R491): the registers that record it and its event. The
commands that are writes of one register (START of a context, an OPEN of a window, a grant) refuse through it.
-/
namespace Sys2Proof.Machine

/-- Register `r` of block instance `i`, number `x`: its local address. -/
def regAddr (r : RegName) (i : Nat := 0) (x : Nat := 0) : Nat := (RegKey.mk r i x).addr

/-- A register event (22 R491): the address, the requester, the status and the reason. -/
def State.regEvent (s : State) (code cls addr req st reason : Nat) : State :=
  s.raise { code := code, cls := cls, unit := 0x88,
            detail := addr + 2 ^ 40 * req + 2 ^ 44 * st + 2 ^ 52 * reason }

/-- REG_LAST: the most recent access refused or dropped (22 R492). -/
def State.noteLast (s : State) (addr req st reason : Nat) : State :=
  (s.setReg .regLastLo 0 0 (BitVec.ofNat 32 (addr % 2 ^ 32))).setReg .regLastHi 0 0
    (BitVec.ofNat 32 (addr / 2 ^ 32 % 2 ^ 8 + 2 ^ 8 * req + 2 ^ 12 * st + 2 ^ 20 * reason + 2 ^ 31))

/-- Record an access refused with ST_REFUSED: REG_REFUSED counts it (22 R490, R492). -/
def State.noteRefusal (s : State) (addr req st reason : Nat) : State := (s.noteLast addr req st reason).countReg .regRefused 0 0 1

/-- Refuse a register command with a status and a reason. -/
def State.refuse (s : State) (addr req st reason : Nat) : State :=
  State.regEvent { s.noteRefusal addr req st reason with regSt := st } 0x0B01 1 addr req st reason

/-- Hub state of the block whose 64 KiB hold an address. -/
def State.hubAt (s : State) (addr : Nat) : HubBlock := Tab.get {} s.hub (addr / 0x10000)
def State.modHub (s : State) (addr : Nat) (f : HubBlock → HubBlock) : State :=
  { s with hub := Tab.mod {} s.hub (addr / 0x10000) f }

/-- Refuse a write of one register by a rule of its own chapter (reason 5). In a posted block the write has been
acknowledged already: STATUS.LATE_REFUSED is set (22 R483). -/
def State.refuseState (s : State) (r : RegName) (i x req : Nat) (reason : Nat := 5) : State :=
  let s := s.refuse (regAddr r i x) req stRefused reason
  if r.block.posted then s.modHub (regAddr r i x) (fun h => { h with late := true }) else s

end Sys2Proof.Machine
end

