-- ==== Sys2Proof/Machine/Regions.lean ====
section
/-!
DEFINITION. The configured regions of stacked memory (spec 13 R547, 21 R464, 23 R496) and the writes that place them; whether
service is open; the events of the loader (21 R473).
-/
namespace Sys2Proof.Machine

/-- Service is open (21, step 13). -/
def State.serviceOpen (s : State) : Bool := bitOf (s.reg .svcStatus) 2

/-- The boot state (21, BOOT_STATUS). -/
def State.boot (s : State) : Nat := s.rf .bootStatus 0 0 3 0

/-- A configuration event (21 R473). -/
def State.cfgEvent (s : State) (code cls reason slot typ idx core test : Nat) : State :=
  s.raise { code := code, cls := cls, unit := 0x87,
            detail := reason + 2 ^ 4 * slot + 2 ^ 8 * typ + 2 ^ 16 * (idx % 65536) + 2 ^ 32 * core + 2 ^ 40 * test + 2 ^ 48 * s.boot }

/-- A region: the register that places it, its first byte and its length. -/
structure Region where
  key : RegKey
  lo : Nat
  len : Nat
  deriving DecidableEq, Repr

/-- Bytes a base register's ADDR names. -/
def addr16 (v : W32) : Nat := bits v 23 0 * 0x10000

/-- The region a base register places, as the registers stand. -/
def State.regionAt (s : State) (k : RegKey) : Region :=
  let len := match k.reg with
    | .kchestBase => s.rf .kchestSize 0 k.idx 11 0 * 0x4000000
    | .annealBase => (List.range 4).foldl (fun a t => a + 2 * s.rf .annealSect 0 t 9 0 * 0x4000000) 0
    | .jrnlBase => s.jrnlSize
    | .evRingBase => if k.addr ∈ s.based then 0x40000000 else 0
    | .progBase => if k.addr ∈ s.based then s.progLen else 0
    | .assayArea => if k.addr ∈ s.based then 0x2000000 else 0
    | .ctxSave => if k.addr ∈ s.based then 0x80000 else 0
    | _ => 0
  ⟨k, addr16 (s.regK k), len⟩

/-- Base registers of every region. -/
def regionKeys : List RegKey :=
  (List.range 4).map (fun d => ⟨.kchestBase, 0, d⟩) ++ (List.range 4).map (fun d => ⟨.annealBase, 0, d⟩)
  ++ [⟨.jrnlBase, 0, 0⟩, ⟨.evRingBase, 0, 0⟩, ⟨.progBase, 0, 0⟩, ⟨.assayArea, 0, 0⟩]
  ++ (List.range 96).flatMap (fun c => (List.range 4).map (fun x => ⟨.ctxSave, c, x⟩))

/-- The last byte of a die range taken by training (21 R464), as ranges: the last 1 MiB of each stack's offset space. -/
def State.trainingAreas (s : State) : List (Nat × Nat) :=
  (List.range 4).flatMap (fun d =>
    if granOf (s.rf .hbmMap d 0 2 0) = 0 then
      (List.range 3).map (fun k => (d * dieRange + (k + 1) * 0xC00000000 - 0x100000, 0x100000))
    else [(d * dieRange + dieRange - 0x300000, 0x300000)])

/-- The pewter areas (23 R496). -/
def pewterAreas : List (Nat × Nat) := (List.range 4).map (fun d => (d * dieRange + 0x23BFD00000, 0x40000000))

def overlaps (a n b m : Nat) : Bool := decide (0 < n ∧ 0 < m ∧ a < b + m ∧ b < a + n)

/-- Does a region overlap another configured or fixed one? -/
def State.regionFree (s : State) (r : Region) : Bool :=
  (s.trainingAreas ++ pewterAreas).all (fun a => !overlaps r.lo r.len a.1 a.2)
  && regionKeys.all (fun k => k == r.key || (let o := s.regionAt k; !overlaps r.lo r.len o.lo o.len))

/-- Does a region lie in the HBM range of one die? -/
def inOneDie (lo len : Nat) : Bool := decide (len = 0) || (decide (lo + len ≤ 4 * dieRange) && lo / dieRange == (lo + len - 1) / dieRange)

/-- The write of a register that places a region or gives its size, as its own chapter and R547 judge it. `base` is the
base register of the region after the write; `early`: refused once service has opened; `die`: the die it must lie in. -/
def State.regionWrite (s : State) (k : RegKey) (v : W32) (base : List RegKey) (early : Bool) (inRange : Region → Bool) (req : Nat) : State :=
  let s' := s.setRegK k v
  let s' := if k.reg ∈ [.evRingBase, .progBase, .assayArea, .ctxSave] then { s' with based := addOnce k.addr s'.based } else s'
  let ok := base.all (fun b => let r := s'.regionAt b; r.len == 0 || (inRange r && s'.regionFree r))
  if (early && s.serviceOpen) || !ok then s.refuseState k.reg k.inst k.idx req else s'

/-- Is a region inside the range of die `d`? -/
def inDie (d : Nat) (r : Region) : Bool := decide (d * dieRange ≤ r.lo ∧ r.lo + r.len ≤ (d + 1) * dieRange)

end Sys2Proof.Machine
end

