-- ==== Sys2Proof/Machine/Tables.lean ====
section
/-!
DEFINITION. Alloy tables (spec 03 R59 to R65; 05 R106, R107): the record, its checks, the build and its commit.
-/
namespace Sys2Proof.Machine

/-! ### The record (03 R59, R60; 05 R107) -/

/-- What the checks of a record found: its bank, or the failed check and entry. -/
inductive BuildRes where
  | built (b : Bank)
  | failed (check idx : Nat)
  deriving DecidableEq, Repr

/-- Words of 8 bytes. -/
def words64 (bs : List Byte) (n : Nat) : List Nat := (List.range n).map (fun i => leNat ((bs.drop (8 * i)).take 8))

/-- R107 on one Anneal set of 320 bytes, in a table of `count` primes. -/
def annealSetOk (count : Nat) (ws : List Nat) : Bool :=
  let a0 := (ws[0]?).getD 0
  let a1 := (ws[1]?).getD 0
  let fl := [natBits a1 3 0, natBits a1 7 4, natBits a1 11 8]
  let log2n := natBits a0 12 8
  let sparse := natBits a1 63 56
  let deg := natBits a1 47 40
  let dbl := natBits a1 39 32
  let evm := natBits a1 31 24
  let raise := natBits a0 31 24
  natBits a0 7 0 == 1 && natBits a0 47 42 == 0 && natBits a0 15 13 == 0 && natBits a1 23 12 == 0
  && (List.range 6).all (fun i => (ws[i + 2]?).getD 0 == 0)
  && decide (12 ≤ log2n ∧ log2n ≤ 17) && fl.foldl (· + ·) 0 + 1 == log2n && fl.all (fun f => decide (2 ≤ f ∧ f ≤ 7))
  && decide ((sparse + 1) / 2 + 1 ≤ natBits a1 55 48)
  && decide (dbl + 1 ≤ evm ∧ deg + 1 ≤ 2 ^ (evm - dbl - 1))
  && (List.range 32).all (fun j => decide (j ≤ deg) || (ws[8 + j]?).getD 0 == 0)
  && raise == natBits a0 23 16 + evm + 6 && decide (raise ≤ count)
  && decide ((AnnealSet.ofWords ws).rotKeys ≤ 60)

/-- Do the sets of a record fit the slot's Anneal section (R107, R108)? Several sets lie one after another (log entry 135). -/
def annealFits (sect : Nat) (sets : List (List Nat)) : Bool :=
  decide (sets.foldl (fun a ws => a + setBytes ws) 0 ≤ sect * 0x4000000)

/-- Reserved fields of an entry. -/
def entryReserved (e0 e1 : Nat) : Bool := natBits e0 63 62 == 0 && natBits e0 55 54 == 0 && natBits e1 63 59 == 0 && natBits e1 55 54 == 0

/-- The checks of R60 on a record's bytes. `sect`: units of the slot's Anneal section. -/
def buildRecord (sect : Nat) (bs : List Byte) : BuildRes :=
  let h := words64 bs 8
  let h0 := (h[0]?).getD 0
  let h7 := (h[7]?).getD 0
  let count := natBits h0 15 8
  let alen := natBits h0 63 32
  let total := 1088 + alen
  let entries := (List.range 64).map (fun i =>
    (leNat ((bs.drop (64 + 16 * i)).take 8), leNat ((bs.drop (72 + 16 * i)).take 8)))
  let used := entries.take count
  let sets := (List.range (alen / 320)).map (fun i => words64 (bs.drop (1088 + 320 * i)) 40)
  if !(natBits h0 7 0 == 1 && natBits h7 63 32 == crc32c (bs.take 60 ++ (bs.take total).drop 64)) then .failed 1 0xFF
  else if !(decide (1 ≤ count ∧ count ≤ 64) && natBits h0 31 16 == 0 && ((h.drop 1).take 6).all (· == 0) && natBits h7 31 0 == 0
      && alen % 320 == 0 && decide (alen / 320 ≤ 4) && used.all (fun e => entryReserved e.1 e.2)
      && sets.all (annealSetOk count) && annealFits sect sets) then .failed 2 0xFF
  else match checkEntries (used.map (fun e => PrimeEntry.ofWords e.1 e.2)) 0 [] with
    | some (i, ck) => .failed ck i
    | none => .built { primes := used.map (fun e => { q := natBits e.1 47 0, psi := natBits e.2 47 0 }), anneal := sets }

/-- The header and the 64 entries of a record: what every record has (03 R59). -/
def recordMin : Nat := 1088

/-! ### Building and committing (03 R62 to R64) -/

/-- Address of ALLOY_SRC. -/
def State.alloySrc (s : State) : Nat := s.rf .alloySrcLo 0 0 31 6 * 64 + s.rf .alloySrcHi 0 0 7 0 * 2 ^ 32

/-- START of a build into a slot from an address. -/
def State.alloyStart (s : State) (slot src : Nat) (commit : Bool) : State :=
  s.setTable slot { s.table slot with shadow := 1, check := 0, failIndex := 0, commitNow := commit, src := src }

/-- Is a START refused (R64)? -/
def State.alloyBusy (s : State) (slot : Nat) : Bool :=
  (List.range 4).any (fun t => (s.table t).shadow == 1) || (s.table slot).shadow == 2

/-- ALLOY_BUILD (R62 to R65): a write with START 1. A record whose header and entries leave HBM is refused (DEDUCED, log entry 46). -/
def State.alloyBuildWrite (s : State) (v : W32) (req : Nat) : State :=
  let slot := bits v 1 0
  if !bitOf v 2 then s.setReg .alloyBuild 0 0 (putBits v 2 2 0)
  else if s.alloyBusy slot || !inHbm (s.alloySrc + recordMin - 1) then s.refuseState .alloyBuild 0 0 req
  else (s.setReg .alloyBuild 0 0 (putBits v 2 2 0)).alloyStart slot s.alloySrc (bitOf v 3)

def execAlloyBuild (slot : Nat) (commit : Bool) (req : Nat) (s : State) : Host.Outcome State Fault Refusal :=
  .next (s.alloyBuildWrite (BitVec.ofNat 32 (slot % 4 + 4 + 8 * b2n commit)) req)

/-- The diagonals of a bank are written into the shadow section of its slot on every compute die (05 R108). Sections 0 and 1 alternate with
GEN. A die whose area was never placed has none. -/
def State.writeDiagonals (s : State) (t : Nat) (b : Bank) : State :=
  (List.range 4).foldl (fun s d =>
    let a := (s.annealSection d t (((s.table t).gen + 1) % 2)).1
    if a / dieRange ≠ d then s
    else (b.anneal.zipIdx).foldl (fun s e => s.hubStore (a + b.setBase e.2) (b.diagBytes e.1)) s) s

/-- Do commands issued before the slot's previous commit still use the bank that a build writes (R64)? -/
def State.shadowLatched (s : State) (t : Nat) : Bool :=
  s.cores.any (fun e => e.2.q.any (fun q => q.lat.slots.any (fun v => v.1 == t && v.2 != (s.table t).gen)))

/-- Commit of a slot (R62). -/
def State.commitTable (s : State) (t : Nat) : State :=
  let v := s.table t
  if v.shadow = 2 then
    s.setTable t { v with bank := v.shadowBank, shadowBank := {}, active := true, gen := (v.gen + 1) % 256, shadow := 0 }
  else s

/-- Length of the record at an address: its Anneal section follows the entries (03 R59; 05 R106). -/
def State.recordLength (s : State) (a : Nat) : Nat := recordMin + s.readLE (a + 4) 4

/-- What the checks find of the record at an address. A record that leaves memory or holds a poisoned byte is not whole,
so it fails check 1. -/
def State.buildAt (s : State) (t a : Nat) : BuildRes :=
  let n := s.recordLength a
  if !inHbm (a + n - 1) || s.poisoned a n then .failed 1 0xFF
  else buildRecord (s.rf .annealSect 0 t 9 0) (s.readBytes a n)

/-- The end of the build under way (R60, R62); it does not write a bank that commands still use (R64). -/
def State.alloyDone (s : State) (t : Nat) : State :=
  let v := s.table t
  match s.buildAt t v.src with
  | .failed ck i => (s.setTable t { v with shadow := 3, check := ck, failIndex := i }).cfgEvent 0x0A04 1 8 0 0 i 0 0
  | .built b =>
    if s.shadowLatched t then s
    else
      let s := (s.setTable t { v with shadow := 2, shadowBank := b }).writeDiagonals t b
      if v.commitNow then s.commitTable t else s

/-- ALLOY_BUILD_DONE: the slot whose build is under way. -/
def execAlloyBuildDone (s : State) : Host.Outcome State Fault Refusal :=
  .next (match (List.range 4).find? (fun t => (s.table t).shadow == 1) with
    | some t => s.alloyDone t
    | none => s)

end Sys2Proof.Machine
end

