-- ==== Sys2Proof/Machine/Power0.lean ====
section
/-!
DEFINITION. Loss of a compute die, the strongbox state and the device resets (spec 19 R417 to R421; 20 R428 to R446).
-/
namespace Sys2Proof.Machine

/-- In the strongbox state. -/
def State.sbActive (s : State) : Bool := bitOf (s.reg .sbStatus) 31

/-- A clock or power event (20 R446). -/
def State.pwrEvent (s : State) (code cls subject reason value : Nat) : State :=
  s.raise { code := code, cls := cls, unit := 0x86,
            detail := subject + 2 ^ 8 * reason + 2 ^ 16 * (value % 65536) + 2 ^ 32 * s.rf .sbStatus 0 0 5 0
              + 2 ^ 40 * s.rf .sbStatus 0 0 11 8 }

/-- The boot state changes (21 R473). -/
def State.setBoot (s : State) (n : Nat) : State :=
  if s.boot = n then s else (s.setRf .bootStatus 0 0 3 0 n).cfgEvent 0x0A09 3 0 0 0 0 0 0

/-- CLK_RUN of a domain. -/
def State.setRun (s : State) (d : Nat) (on : Bool) : State := s.setRf .clkRun 0 (d / 32) (d % 32) (d % 32) (b2n on)

/-- The domains of die `d` outside its retention island lose their power (20 R436). -/
def State.stopDie (s : State) (d : Nat) : State := (List.range 10).foldl (fun s k => s.setRun (11 * d + k) false) s

/-! ### Holding jobs -/

/-- A record of this device becomes HELD from ACCEPTED or PLACED; a queued job leaves its queue (19 R417). -/
def State.holdRec (s : State) (n st : Nat) : State :=
  let r := s.jrec n
  if r.kind = 1 ∧ (r.state = 3 ∨ r.state = 4) then
    (State.setRec { s with queuedJobs := s.queuedJobs.filter (· != n) } n { r with state := 6 }).accEvent 0x0604 1 r.session st r.job
  else s

/-- Jobs placed on a die, and jobs queued on it. -/
def State.holdDie (s : State) (d : Nat) : State :=
  let run := (s.placed.filter (fun p => p.die == d)).map (·.slot)
  let wait := s.queuedJobs.filter (fun n => natBits (Tab.get (0, 0) s.plcActive.sess (s.jrec n).session).1 57 56 == d)
  (run ++ wait).foldl (fun s n => s.holdRec n 0) s

/-! ### The strongbox state (19 R417, R419) -/

/-- CAUSE_ACTIVE: a latched cause still holds (R422). -/
def State.showCauses (s : State) : State :=
  s.setRf .sbStatus 0 0 30 30 (b2n (s.causes.any (fun c => bitOf (s.reg .sbStatus) c)))

/-- A cause no longer holds; its latch stays. -/
def State.causeEnds (s : State) (cause : Nat) : State := State.showCauses { s with causes := s.causes.filter (· != cause) }

/-- Pewter mode of a die ends at once: a running job becomes HELD (23 R503). -/
def State.endPewter (s : State) (d : Nat) : State :=
  let s := match Tab.find? s.pwJobs d with
    | some j => s.holdRec j.slot 0
    | none => s
  let was := bitOf (s.reg .pwState) (8 + d)
  let s := [8 + d, 4 + d, d].foldl (fun s b => s.setRf .pwState 0 0 b b 0) s
  let s := (s.setReg .pwJobLo 0 d 0).setReg .pwJobHi 0 d 0
  let s := State.modCore { s with pwJobs := Tab.erase s.pwJobs d, pwLeaving := s.pwLeaving.filter (· != d) } (24 * d)
    (fun k => { k with pewter := false })
  if was then (s.setRf .pwStatus 0 0 (4 + d) (4 + d) 1).raise { code := 0x0D02, cls := 2, unit := 24 * d, detail := d } else s

/-- Detail of a peening event: slot, KIND, TARGET and a value (24 R522). -/
def State.peenDetail (s : State) (k v : Nat) : Nat :=
  k + 2 ^ 4 * s.rf .pnCfg 0 k 23 20 + 2 ^ 8 * s.rf .pnCfg 0 k 19 0 + 2 ^ 32 * v

/-- The 1 ms window of a slot ends: a tally where it applied a perturbation (24 R522). -/
def State.peenTally (s : State) (k : Nat) : State :=
  let p := Tab.get {} s.peen k
  let s := if p.window = 0 then s
    else s.raise { code := 0x0C03, cls := 2, unit := 0x89, detail := s.peenDetail k p.window }
  { s with peen := Tab.set {} s.peen k { p with window := 0, opened := s.time } }

/-- A slot is disarmed: its last window ends, and the event. -/
def State.peenDisarm (s : State) (k : Nat) : State :=
  if bitOf (s.reg .pnCfg 0 k) 31 then
    ((s.peenTally k).raise { code := 0x0C02, cls := 2, unit := 0x89, detail := s.peenDetail k (s.rf .pnAmount 0 k 11 0) }).setRf
      .pnCfg 0 k 31 31 0
  else s

/-- ENABLE is cleared and every slot disarmed (24 R521). -/
def State.peenStop (s : State) : State := ((List.range 8).foldl State.peenDisarm s).setReg .peenCtrl 0 0 0

/-- Entry into the strongbox state (R419), as far as one step of the model shows it: the sealing of the journal is CUSTODY_SEAL. -/
def State.enterStrongbox (s : State) : State :=
  let s := (s.setRf .sbStatus 0 0 31 31 1).pwrEvent 0x0901 0 0 0 0
  let s := (List.range 4).foldl State.endPewter s.peenStop
  let s := (s.recsWhere (fun r => r.kind == 1 && r.state == 4)).foldl (fun s n => s.holdRec n 0) s
  let s := (List.range 4).foldl (fun s d => (s.setRf .railStatus 0 d 31 31 0).stopDie d) s
  State.setBoot { s with noDispatch := true, keep := [], groupLines := [], assay := {} } 15

/-- A cause is latched: entry, or a further cause of an entry made. During start-up the entry waits for the end of the step
(21 R466). The operator's command (cause 5) does not go on holding. -/
def State.latchCause (s : State) (cause : Nat) : State :=
  let fresh := !bitOf (s.reg .sbStatus) cause
  let s := { s with causes := if cause = 5 then s.causes else addOnce cause s.causes }
  let s := (s.setRf .sbStatus 0 0 cause cause 1).showCauses
  if s.sbActive then s
  else if s.boot < 11 then { s with init := { s.init with newCause := s.init.newCause || fresh } }
  else s.enterStrongbox

/-- A step of start-up ends (21 R466): a cause latched during it is answered now, else step `n` begins. -/
def State.stepEnd (s : State) (n : Nat) : State := if s.init.newCause then s.enterStrongbox else s.setBoot n

/-! ### A lost die (19 R417; 20 R429 to R441) -/

/-- The core states of a die in both placement tables. -/
def State.setCoreStates (s : State) (cs : List Nat) (v : Nat) : State :=
  let f := fun (t : PlcTable) => { t with cores := cs.foldl (fun a c => Tab.set 0 a c v) t.cores }
  { s with plcActive := f s.plcActive, plcShadow := f s.plcShadow }

def coresOf (d : Nat) : List Nat := (List.range 24).map (· + 24 * d)

/-- What the loss of die `d` does to it. Reason: bit 0 rail, 1 junction, 2 clock, 3 hub link. -/
def State.dropDie (s : State) (d reason : Nat) : State :=
  let s := (s.setRf .sbStatus 0 0 (8 + d) (8 + d) 1).setRf .jtStatus 0 d 9 9 1
  let s := (s.setCoreStates (coresOf d) 5).pwrEvent 0x0903 0 d reason 0
  let s := (((s.endPewter d).holdDie d).setRf .railStatus 0 d 31 31 0).stopDie d
  { s with keep := s.keep.filter (fun g => 64 * g / dieRange != d), groupLines := s.groupLines.filter (fun l => 64 * l.gran / dieRange != d) }

/-- Is die `d` lost? -/
def State.dieLost (s : State) (d : Nat) : Bool := bitOf (s.reg .sbStatus) (8 + d)

/-- Die `d` is lost, once; a second lost die latches cause bit 4. In the strongbox state its power is off already (R445). -/
def State.loseDie (s : State) (d reason : Nat) : State :=
  if s.sbActive ∨ s.dieLost d then s
  else
    let s := s.dropDie d reason
    if 2 ≤ ((List.range 4).filter s.dieLost).length then s.latchCause 4 else s

/-! ### Device resets (20 R443, R444) -/

/-- Registers a warm reset keeps: the hallmark, the strongbox latch and the reset cause. -/
def keptRegs (s : State) : Tab W32 := s.regs.filter (fun e =>
  let o := e.1 - controlBase
  decide (0x10000 ≤ o ∧ o < 0x20000) || e.1 == regAddr .rstCause)

/-- What a reset leaves of the pins and the always-on latches: PWRGD, RESET_N and THERMTRIP_N are levels; BOOT_FORCE stays. -/
def Boot.afterReset (b : Boot) : Boot :=
  { pwrgd := b.pwrgd, resetN := b.resetN, thermtrip := b.thermtrip, tripped := b.tripped, force := b.force }

/-- A warm reset (R443; what the stacks hold is found where the map's reset value puts it, 13 R272): everything but stacked memory, the hallmark, the strongbox latch, the TAP, and what lies outside the
device (commands to come, what it has sent). `cause`: bits of RST_CAUSE. -/
def State.warmReset (s : State) (cause : Nat) : State :=
  let latch := s.rf .sbStatus 0 0 5 0
  let s := (List.range 4).foldl (fun s d => s.remap d 3) s.peenStop
  let t : State := { State.reset with
    pending := s.pending, free := s.free, out := s.out, regs := keptRegs s, mem := s.mem.filter (fun e => inHbm e.1)
    ecc := s.ecc, repairs := s.repairs, init := s.init.afterReset, tap := s.tap }
  let t := t.setReg .rstCause 0 0 (BitVec.ofNat 32 (cause + 16 * b2n (bitOf (s.reg .rstCause) 4) + (if latch = 0 then 0 else 0x100)))
  (t.setRf .sbStatus 0 0 5 0 latch).setRf .mgmtStatus 0 0 22 16 (s.rf .mgmtStatus 0 0 22 16)

/-- The power-on reset state (R443): everything, the strongbox latch included. The contents of the stacks are undefined: bytes written
before are forgotten. `trip`: RST_CAUSE.THERMTRIP. -/
def State.powerOn (s : State) (trip : Bool) (b : Boot) : State :=
  let t : State := { State.reset with
    pending := s.pending, free := s.free, out := s.out, regs := s.regs.filter (fun e => let o := e.1 - controlBase; decide (0x10000 ≤ o ∧ o < 0x20000))
    repairs := s.repairs.filter (fun r => r.kind != 1), init := b }
  t.setReg .rstCause 0 0 (BitVec.ofNat 32 (1 + 16 * b2n trip))

end Sys2Proof.Machine
end

