-- ==== Sys2Proof/Machine/Ntt.lean ====
section
/-!
DEFINITION. The NTT engine's commands (spec 03 R72 to R77, 11 NTT engine): what their issue decides and what
their commit writes.
-/
namespace Sys2Proof.Machine

/-! Operand fields of W2 (11, NTT engine operand word W2) -/
def Cmd.nSrc (c : Cmd) : Nat := bits c.w2 63 56
def Cmd.nDst (c : Cmd) : Nat := bits c.w2 55 48
def Cmd.nSlot (c : Cmd) : Nat := bits c.w2 47 46
def Cmd.nFirst (c : Cmd) : Nat := bits c.w2 45 40
def Cmd.nCount (c : Cmd) : Nat := bits c.w2 39 33
def Cmd.nLog2n (c : Cmd) : Nat := bits c.w2 32 28
def Cmd.nGhalf (c : Cmd) : Nat := bits c.w2 27 11

/-- NTT port role (09 R203). -/
def portNtt : Nat := 1

/-- Issue of NTTO (`dom` 0) and INTTO (`dom` 1): share, alignment and bounds of both runs, header checks,
domain, tarnish, scale and budget (03 R72, R76; 02 R50, R52). -/
def planNttObject (dom : Nat) (s : State) (c : Nat) (q : QCmd) : Plan :=
  let src := q.cmd.nSrc
  let dst := q.cmd.nDst
  let h := (s.core c).hdr src
  let a := h.run src
  let b := h.run dst
  .checks
    [(s.drawerInShare c q.ctx src && s.drawerInShare c q.ctx dst, stBounds),
     (h.runAligned src && h.runAligned dst, stAlign),
     (s.drawersIn c q.ctx portNtt a && s.drawersIn c q.ctx portNtt b && sameOrDisjoint a b, stBounds)] <|
  .header s h <|
  .checks [(h.domain == dom, stDomain)] <|
  (match (if h.tarnish then some stTarnished else h.keepStatus (s.profOf h) (s.bankOf (s.profOf h)) h.limbs) with
    | some st => ({ v := .tarnish st, dsts := b } : Plan)
    | none => ({} : Plan).runs a b q.cmd.consume1).latched s h
    [(c, dst, (h.withDomain (1 - dom)).seal)]

/-- One limb, each input residue reduced as it is loaded (03 R57). -/
def transformLimb (inverse : Bool) (b : Bank) (entry n : Nat) (a : List Nat) : List Nat :=
  let q := b.q entry
  if inverse then inttLimb q (b.psi entry) n (a.map (· % q)) else nttLimb q (b.psi entry) n (a.map (· % q))

/-- Commit of NTTO and INTTO: every limb i of the object, by q_i of the profile (03 R72). -/
def runNttObject (inverse : Bool) (s : State) (c : Nat) (q : QCmd) : State :=
  match q.lat.outs, q.lat.prof with
  | (_, _, h) :: _, some p =>
    (List.range (h.polys * h.limbs)).foldl
      (fun s i => s.storeLimb c q.cmd.nDst h.log2n i
        (transformLimb inverse q.lat.bank (p.qFirst + i / h.polys) h.log2n (s.readLimb c q.cmd.nSrc h.log2n i))) s
  | _, _ => s

/-- Issue of a limb command: share, ranges, alignment, bounds, table entries (03 R73, R76). -/
def planNttLimbs (s : State) (c : Nat) (q : QCmd) : Plan :=
  let w := q.cmd
  let n := w.nLog2n
  let a := objDrawers w.nSrc w.nCount n
  let b := objDrawers w.nDst w.nCount n
  let t := s.table w.nSlot
  .checks
    [(s.drawerInShare c q.ctx w.nSrc && s.drawerInShare c q.ctx w.nDst, stBounds),
     (decide (1 ≤ w.nCount ∧ w.nCount ≤ 64 ∧ 12 ≤ n ∧ n ≤ 17), stShape),
     (w.nSrc % limbDrawers n == 0 && w.nDst % limbDrawers n == 0, stAlign),
     (s.drawersIn c q.ctx portNtt a && s.drawersIn c q.ctx portNtt b && sameOrDisjoint a b, stBounds)] <|
  if !t.active then { v := .wait }
  else .checks [(decide (w.nFirst + w.nCount ≤ t.bank.count), stProfile)] <|
    { ({} : Plan).runs a b w.consume1 with lat := { bank := t.bank } }

/-- Commit of NTTL and INTTL: limb i uses entry FIRST + i. -/
def runNttLimbs (inverse : Bool) (s : State) (c : Nat) (q : QCmd) : State :=
  let w := q.cmd
  (List.range w.nCount).foldl
    (fun s i => s.storeLimb c w.nDst w.nLog2n i
      (transformLimb inverse q.lat.bank (w.nFirst + i) w.nLog2n (s.readLimb c w.nSrc w.nLog2n i))) s

/-- Commit of AUTOL: σ_g on each limb (03 R70). -/
def runAutol (s : State) (c : Nat) (q : QCmd) : State :=
  let w := q.cmd
  (List.range w.nCount).foldl
    (fun s i =>
      let p := q.lat.bank.q (w.nFirst + i)
      s.storeLimb c w.nDst w.nLog2n i
        (autLimb w.nLog2n (galoisOf w.nLog2n w.nGhalf) ((s.readLimb c w.nSrc w.nLog2n i).map (· % p)))) s

end Sys2Proof.Machine
end

