-- ==== Sys2Proof/Machine/Life.lean ====
section
/-!
DEFINITION. The life of a command (spec 10 R207 to R217; 09 R189 to R191; 02 R52; 12 R253): dispatch, arrival, issue,
start and commit, over the plans and effects of the engines.
-/
namespace Sys2Proof.Machine

/-! ### What each operation decides at issue and does at its commit -/

/-- The issue of an operation. -/
def planOf (op : Opcode) (s : State) (c : Nat) (q : QCmd) : Plan :=
  match op with
  | .ntto => planNttObject 0 s c q
  | .intto => planNttObject 1 s c q
  | .nttl | .inttl | .autol => planNttLimbs s c q
  | .dbchain => planPass false s c q
  | .dbreduce => planPass true s c q
  | .hadd | .hsub => planObject objHadd s c q
  | .haddp | .hsubp => planObject objHaddp s c q
  | .hmulp => planObject objHmulp s c q
  | .hmulc => planObject objHmulc s c q
  | .hmuli => planObject objHmuli s c q
  | .tcfg => planTcfg s c q
  | .tload => planTload s c q
  | .tmul => planTmul s c q
  | .tzero => planTzero s c q
  | .tdrain => planTdrain s c q
  | .bconv => planModular false s c q
  | .mmulm => planModular true s c q
  | .xfer | .xobj | .qread | .xput | .xget => planTransfer op s c q
  | .ksrelin | .ksrot | .ksconj | .kshoist | .anneal | .hrescale => planMacro op s c q
  | _ => planControl op s c q

/-- What an NTT, drawbench or anvil command does at its commit point, drawers apart. -/
def engineRun (op : Opcode) (s : State) (c : Nat) (q : QCmd) : State :=
  match op with
  | .ntto => runNttObject false s c q
  | .intto => runNttObject true s c q
  | .nttl => runNttLimbs false s c q
  | .inttl => runNttLimbs true s c q
  | .autol => runAutol s c q
  | .dbchain => runDbchain s c q
  | .dbreduce => runDbreduce s c q
  | .hadd | .hsub => runObject op (fun h => h.polys) s c q
  | .haddp | .hsubp | .hmulp => runObject op (fun _ => 1) s c q
  | .hmulc => runObject op (fun _ => 2) s c q
  | .hmuli => runObject op (fun h => h.polys) s c q
  | .tcfg => runTcfg s c q
  | .tload => runTload s c q
  | .tmul => runTmul s c q
  | .tzero => runTzero s c q
  | .tdrain => runTdrain s c q
  | .bconv => runBconv s c q
  | .mmulm => runMmulm s c q
  | _ => s

/-- Is a source byte of a command wrong (09 R200), or the anvil storage it reads (06 R140)? The whole of a limb is read, and the units of
a source stream. -/
def badSource (op : Opcode) (s : State) (c : Nat) (q : QCmd) : Option BadRead :=
  let limbs := fun (log2n : Nat) => (s.badpar.find? (fun (a : Nat) => match regionOf (a : Int) with
    | some (r + 1) =>
      let d := drawerOfAddr c (a : Int)
      r == c && (d ∈ q.srcs) && decide (a - drawerAddr c d < 6 * 2 ^ log2n)
    | _ => false)).map BadRead.byte
  let streams := fun (ts : List Strm) => (s.badpar.find? (fun (a : Nat) =>
    ts.any (fun t => !t.dest && (q.desc t.dn).addrs.any (fun b => decide (b ≤ (a : Int)) && decide ((a : Int) < b + t.unit))))).map BadRead.byte
  let body := match q.lat.outs with
    | (_, _, h) :: _ => limbs h.log2n
    | [] => none
  match op with
  | .ntto | .intto | .hadd | .hsub | .haddp | .hsubp | .hmulp | .hmulc | .hmuli => body
  | .nttl | .inttl | .autol => limbs q.cmd.nLog2n
  | .dbchain | .dbreduce => streams (passStreams q.lat q.cmd (passLength q.lat q.cmd) (op == .dbreduce))
  | .bconv => streams (modularStreams q.cmd false)
  | .mmulm => streams (modularStreams q.cmd true)
  | .tload => streams (tloadStreams q.cmd ((s.core c).tile (s.tileNo c q.ctx q.cmd.tA)).desc)
  | .tmul | .tdrain => anvilBad s c q
  | _ => none

/-! ### Dispatch (10 R206 to R210, R217) -/

/-- Uncompleted commands of a context in an engine's queue. -/
def Core.queueOf (k : Core) (x eng : Nat) : List QCmd := k.q.filter (fun q => q.ctx == x && q.eng == eng)

/-- May the control core dispatch a command to an engine for a context (R208, R209, R222; 20 R428)? -/
def State.mayDispatch (s : State) (c x eng : Nat) : Bool :=
  (s.context c x).st == .running && ((s.core c).queueOf x 0).isEmpty && !s.noDispatch && s.coreLive c
  && (eng == 0 || decide (6 ≤ eng) || decide (((s.core c).queueOf x eng).length < s.narrowed c eng (s.queueShare c)))

/-- A fetch outside HBM halts the context (R206). -/
def State.fetchHalt (s : State) (c x st : Nat) : State :=
  ((s.ctxEvent c x 0x0101 1 st).modContext c x (fun y => y.haltAt y.pc 0 st)).holdJob c x st

/-- The descriptors of a context's share, copied at dispatch (12 R251). -/
def State.descCopies (s : State) (c x : Nat) : List (Nat × BitVec 320) := (s.core c).descs.filter (fun e => s.descInShare c x e.1)

/-- The control core takes the command at CTX_PC: predicate, queue entry, next address. The id of the new entry, or none
where nothing was queued. -/
def State.dispatch (s : State) (c x : Nat) (w : Cmd) : State × Option Nat :=
  let y := s.context c x
  if !inHbm y.pc then (s.fetchHalt c x stAlign, none)
  else
    let id := (s.core c).serial + 1
    let q : QCmd := { id := id, ctx := x, eng := w.engine, addr := y.pc, cmd := w, descs := s.descCopies c x
                      skipped := y.pred w.pred == w.psense }
    let s := (s.modCore c (fun k => { k with serial := id, lastDisp := x })).modContext c x (fun y => { y with pc := y.pc + 32 })
    if 6 ≤ w.engine then (s.complete c q stOpcode, none)
    else (s.modCore c (fun k => { k with q := k.q ++ [q] }), some id)

/-! ### Arrival (10 R207, R210, R212) -/

/-- Counters that must lie in the context's share (R210). -/
def QCmd.counters (q : QCmd) : List Nat := q.cmd.waits.map (·.ctr) ++ (if q.cmd.sigMode = 0 then [] else [q.cmd.sigCtr])

/-- The command next to arrive in a queue: queued, with every earlier one started. -/
def Core.nextHead (k : Core) (x eng : Nat) : Option QCmd :=
  match (k.queueOf x eng).dropWhile (fun q => q.stage == .started || q.stage == .committed) with
  | q :: _ => if q.stage = .queued then some q else none
  | [] => none

/-- A head arrives: the decode checks, the counter share check, its place in the arrival order. -/
def State.arriveHead (s : State) (c x eng : Nat) : State :=
  if (s.context c x).st ≠ .running ∨ !s.coreLive c then s
  else match (s.core c).nextHead x eng with
    | none => s
    | some q =>
      if (decodeChecks q.cmd).isNone then s.complete c q stOpcode
      else if !(q.counters.all (fun n => s.ctrInShare c x n)) then s.complete c q stBounds
      else s.modCore c (fun k => { (k.modCmd q.id (fun q => { q with stage := .arrived, arr := k.arrivals + 1 }))
                                   with arrivals := k.arrivals + 1 })

/-- Heads of every queue of a core, ties by engine and then by context (R214). -/
def State.arriveHeads (s : State) (c : Nat) : State :=
  [0, 1, 2, 3, 4, 5].foldl (fun s e => [0, 1, 2, 3].foldl (fun s x => s.arriveHead c x e) s) s

/-! ### Issue (10 R214, R216; 02 R52, R53) -/

/-- A command that waits ends its wait: it completes and leaves the groups and key sets it held. -/
def State.endWaiting (s : State) (c : Nat) (q : QCmd) (st : Nat) : State :=
  ((((s.macroEnds c q st).complete c q st).leaveGroup q).freeKeySets).modCore c
    (fun k => { k with inlet := k.inlet.filter (fun e => e.1 != q.id) })

/-- The signal of mode 2 (R216). -/
def State.signalIssue (s : State) (c : Nat) (q : QCmd) : State := if q.cmd.sigMode = 2 then s.signalOwn c q else s

/-- The plan copied into the queue entry. -/
def QCmd.withPlan (q : QCmd) (p : Plan) : QCmd :=
  { q with srcs := p.srcs, dsts := p.dsts, held := p.held, cons := p.cons, peer := p.peer, hazard := p.hazard
           inDr := p.inDr, inCut := p.inCut, outDr := p.outDr, lat := p.lat }

/-- A command tarnished at its issue (02 R51, R53): headers, and destinations TORN. -/
def State.tarnishAtIssue (s : State) (c : Nat) (q : QCmd) (st : Nat) : State :=
  let s := s.modCore c (fun k => q.dsts.foldl (fun k d => k.modDrawer d (fun v => { v with tag := .torn })) k)
  (s.tarnishOuts q).complete c q st

/-- Table slots that a command uses: those of the profiles its inputs name, or the one its operands name (03 R63). -/
def QCmd.tableSlots (q : QCmd) : List Nat :=
  match q.cmd.op? with
  | some .nttl | some .inttl => [q.cmd.nSlot]
  | some .dbchain | some .dbreduce => if q.lat.mode = 0 then [q.cmd.dSlot] else []
  | some .bconv | some .mmulm => [q.cmd.mSlot]
  | _ => (q.lat.prof.toList ++ q.lat.profs.flatMap Option.toList).map (fun (p : Profile) => p.slot)

/-- The entry with the table slots it latches, each with its GEN (03 R63, R64). -/
def State.latchSlots (s : State) (q : QCmd) : QCmd :=
  { q with lat := { q.lat with slots := q.tableSlots.map (fun t => (t, (s.table t).gen)) } }

/-- The reads of stacked memory that an issue makes: the header of an object, the owner tables of a die macro (13 R277). -/
def State.issueReads (s : State) (op : Opcode) (c : Nat) (q : QCmd) : State :=
  if op.engine = 5 then (s.readGranules 0 none (s.macroReads op c q)).1
  else match xobjReads s c q with
    | some a => (s.hbmRead a q.cmd.xHint).1
    | none => s

/-- The waits of a command have held: its issue. -/
def State.issueOne (s : State) (op : Opcode) (c : Nat) (q : QCmd) : State :=
  if q.skipped then
    let s := s.signalIssue c q
    if op = .barrier then barArrive s c q else s.complete c q stSkipped
  else
    let p := planOf op s c q
    let s := s.issueReads op c q
    let q := s.latchSlots (q.withPlan p)
    match p.v with
    | .wait => s
    | .halt st => if p.lat.tarnish.isEmpty then (s.macroEnds c q st).complete c q st else s.endMacroAtIssue c q
    | .tarnish st =>
      let s := s.signalIssue c q
      if p.lat.tarnish.isEmpty then s.tarnishAtIssue c q st else s.endMacroAtIssue c q
    | .ok =>
      let s := (s.modCmd c q.id (fun _ => { q with stage := .issued })).signalIssue c q
      if op = .barrier then barArrive s c q
      else if op.engine = 0 then controlIssued op s c q
      else if op.engine = 5 then (s.joinGroup op c q).tarnishDecided c q
      else s

/-- Does a TCFG of the context stand started before an anvil command (06 R125)? -/
def tcfgAhead (s : State) (c : Nat) (q : QCmd) : Bool :=
  q.eng == 3 && (s.core c).q.any (fun p =>
    p.ctx == q.ctx && decide (p.id < q.id) && p.stage == .started && p.cmd.op? == some .tcfg)

/-- Does an engine command wait at issue: a drawbench pass for a scalar that a pending command writes (08 R164), an anvil
command for the shapes that a TCFG before it sets (06 R125)? -/
def passHeld (s : State) (c : Nat) (q : QCmd) : Bool :=
  tcfgAhead s c q ||
  match q.cmd.op? with
  | some .dbchain | some .dbreduce =>
    (passScalars s c q).any (fun r => (s.core c).q.any (fun p => p.ctx == q.ctx && p.id != q.id && p.inFlight && (r ∈ scalarDests p.cmd)))
  | _ => false

/-- May a command issue, its counter waits apart? -/
def State.mayIssue (s : State) (op : Opcode) (c : Nat) (q : QCmd) : Bool :=
  q.stage == .arrived && (s.context c q.ctx).st == .running && s.coreLive c
  && (q.skipped || (!controlHeld s c q && !passHeld s c q && (planOf op s c q).v != .wait))
  && (op != .barrier || !s.sigsUnderWay c q.ctx)

/-- Does one wait hold, on the summed counters `s` and the claimable values `v` (R214)? -/
def waitHolds (s v : Tab W16) (w : WaitF) : Bool :=
  match w.cond with
  | 1 => ge16 (Tab.get 0 s w.ctr).toNat w.val
  | 2 => (Tab.get 0 s w.ctr).toNat == w.val
  | 3 => ge16 (Tab.get 0 v w.ctr).toNat w.val
  | _ => true

/-- A wait holds, on a counter that can be read (19 R404). -/
def waitOk (k : Core) (s v : Tab W16) (w : WaitF) : Bool := !(k.badCtr.contains w.ctr) && waitHolds s v w

/-- The claims of a command taken from a table of counters. -/
def takeClaims (ws : List WaitF) (v : Tab W16) : Tab W16 :=
  (ws.filter (fun w => w.cond == 3)).foldl (fun v w => Tab.set 0 v w.ctr (Tab.get 0 v w.ctr - BitVec.ofNat 16 w.val)) v

/-- Arrived commands of a core in arrival order. -/
def insertArr (q : QCmd) : List QCmd → List QCmd
  | [] => [q]
  | p :: ps => if q.arr < p.arr then q :: p :: ps else p :: insertArr q ps
def Core.waiting (k : Core) : List QCmd := (k.q.filter (fun q => q.stage == .arrived)).foldr insertArr []

/-- One command in the resolution of a core: the state and what the claims of the cycle leave. -/
def State.resolveOne (s : State) (c : Nat) (snap v : Tab W16) (id : Nat) : State × Tab W16 :=
  match (s.core c).cmd? id with
  | none => (s, v)
  | some q => match q.cmd.op? with
    | none => (s, v)
    | some op =>
      if s.mayIssue op c q && q.cmd.waits.all (waitOk (s.core c) snap v) then
        let s := s.modCore c (fun k => { k with counters := takeClaims q.cmd.waits k.counters })
        (s.issueOne op c q, takeClaims q.cmd.waits v)
      else (s, v)

/-- One resolution of a core's counters and waiting commands (R214). -/
def State.resolve (s : State) (c : Nat) : State :=
  let snap := (s.core c).counters
  ((s.core c).waiting.foldl (fun (a : State × Tab W16) q => a.1.resolveOne c snap a.2 q.id) (s, snap)).1

/-! ### Start (09 R189, R190; 11 R244; 12 R253) -/

/-- Engine whose port a drawer's group serves (09 R182): 0 none. -/
def State.portEngine (s : State) (c d : Nat) : Nat :=
  match s.portOf c d with
  | 1 => 1
  | 2 | 3 | 4 => 2
  | 5 => 3
  | _ => 0

/-- Drawers of its core that a command uses. -/
def QCmd.drawers (q : QCmd) : List Nat := q.srcs ++ q.dsts ++ q.held

/-- Ports of engines that a command uses, by role (09 R182, R203). -/
def QCmd.ports (q : QCmd) (s : State) (c : Nat) : List Nat := (q.drawers.map (s.portOf c)).filter (fun (r : Nat) => Decidable.decide (1 ≤ r ∧ r ≤ 5))

/-- Engines a transfer leases the ports of (11 R244). -/
def QCmd.leases (q : QCmd) (s : State) (c : Nat) : List Nat := q.drawers.map (s.portEngine c)

/-- Do the engines permit the start of a command (06 R126; 11 R244; 12 R253)? A transfer waits for the started commands that use a port it
leases; the commands of that port's engine wait for the transfer. -/
def State.engineFree (s : State) (c : Nat) (q : QCmd) : Bool :=
  let st := (s.core c).q.filter (fun p => p.stage == .started && p.id != q.id)
  let compute := fun (p : QCmd) => decide (1 ≤ p.eng ∧ p.eng ≤ 3)
  if q.eng = 4 then
    st.all (fun p => p.eng != 4) && st.all (fun p => !(compute p && (p.ports s c).any (fun r => r ∈ q.ports s c)))
      && (s.modeM c || st.all (fun p => !compute p))
  else
    st.all (fun p => !(p.eng == 4 && (q.eng ∈ p.leases s c))) && (s.modeM c || st.all (fun p => p.eng != 4))
      && (if q.eng = 3 then anvilFree s c q else st.all (fun p => p.eng != q.eng))

/-- Is a source drawer readable now? -/
def Drawer.ready (v : Drawer) : Bool := v.tag == .full && !v.closing
/-- May a destination be claimed? -/
def Drawer.open_ (v : Drawer) : Bool := (v.tag == .empty || v.tag == .torn) && !v.claim

/-- Source drawers with their cores: the own ones and those of a quad read. -/
def QCmd.sources (q : QCmd) (c : Nat) : List (Nat × Nat) :=
  q.srcs.map (fun d => (c, d)) ++ (match q.peer with
    | some (p, ds) => ds.map (fun d => (p, d))
    | none => [])

/-- Do the tags of an engine command's drawers permit its start (09 R189)? -/
def State.tagsReady (s : State) (c : Nat) (q : QCmd) : Bool :=
  (q.sources c).all (fun e => ((s.core e.1).drawer e.2).ready) && q.dsts.all (fun d => ((s.core c).drawer d).open_)

/-- Commands of a core that wait at their start and arrived before another. -/
def State.startsBefore (s : State) (c : Nat) (q : QCmd) : List QCmd :=
  (s.core c).q.filter (fun p => p.stage == .issued && p.id != q.id && decide (p.arr < q.arr) && (s.context c p.ctx).st == .running)

/-- Does a writer that arrived earlier wait on a drawer: a command of the core, or a window write (09 R190)? -/
def State.writerAhead (s : State) (c : Nat) (q : QCmd) (d : Nat) : Bool :=
  (s.startsBefore c q).any (fun p => (d ∈ p.dsts) || ((c, d) ∈ p.outDr.flatten))
  || s.waitw.any (fun w => w.owner == c && decide (w.arr < q.arr) && (d ∈ touched w.off w.data.length))

/-- Does the queue order of a lease put another command first: an engine command before a transfer that would lease its engine's port, or such a
transfer before the engine's command, where its tags are ready (11 R244)? -/
def State.leaseAhead (s : State) (c : Nat) (q : QCmd) : Bool :=
  (s.startsBefore c q).any (fun p => s.tagsReady c p &&
    ((q.eng == 4 && decide (1 ≤ p.eng ∧ p.eng ≤ 3) && (p.eng ∈ q.leases s c))
      || (p.eng == 4 && decide (1 ≤ q.eng ∧ q.eng ≤ 3) && (q.eng ∈ p.leases s c))))

/-- Can an engine command start now? -/
def State.canStart (s : State) (c : Nat) (q : QCmd) : Bool :=
  s.tagsReady c q && s.engineFree c q && (q.peer.toList.all (fun p => !(s.assay.testing && s.assay.core == some p.1)))
  && q.dsts.all (fun d => !s.writerAhead c q d) && !s.leaseAhead c q

/-- Contexts that come before `x` in a rotation that begins after context `last`. -/
def rotationBefore (last x : Nat) : List Nat := ((List.range 4).map (fun i => (last + 1 + i) % 4)).takeWhile (· != x)

/-- The next command of an engine's queue that is to start. -/
def Core.nextStart (k : Core) (x eng : Nat) : Option QCmd := (k.queueOf x eng).find? (fun q => q.stage == .issued)

/-- Is it a command's turn: in mode M, no context that comes before its own in the engine's rotation has a command that can start (10 R213)? -/
def State.startTurn (s : State) (c : Nat) (q : QCmd) : Bool :=
  !s.modeM c || (rotationBefore (Tab.get 3 (s.core c).served q.eng) q.ctx).all (fun y =>
    match (s.core c).nextStart y q.eng with
    | some p => !((s.context c y).st == .running && s.canStart c p)
    | none => true)

/-- An engine command starts: it claims its destinations in one step (09 R189); its context was served (10 R213). -/
def State.started (s : State) (c : Nat) (q : QCmd) : State :=
  s.modCore c (fun k =>
    { ((q.dsts.foldl (fun k d => k.modDrawer d (fun v => { v with claim := true })) k).modCmd q.id (fun q => { q with stage := .started }))
      with served := Tab.set 3 k.served q.eng q.ctx })

/-- The start of an engine command, or what ends its wait. -/
def State.startEngine (s : State) (c : Nat) (q : QCmd) : State :=
  let tag := fun (e : Nat × Nat) => ((s.core e.1).drawer e.2).tag
  let srcs := q.sources c
  let dsts := q.dsts.map (fun d => (c, d))
  if (srcs ++ dsts).any (fun e => tag e == .orphan) then s.endWaiting c q stOrphan
  else if srcs.any (fun e => tag e == .torn) then s.endWaiting c q stTag
  else if s.canStart c q && s.startTurn c q then s.started c q
  else s

/-- The start of a die macro, or what ends its wait (11 R247). -/
def State.startDieMacro (s : State) (c : Nat) (q : QCmd) : State :=
  let tag := fun (e : Nat × Nat) => ((s.core e.1).drawer e.2).tag
  let dsts := q.openOuts.flatMap (fun j => (q.outDr[j]?).getD [])
  if (q.inDr ++ dsts).any (fun e => tag e == .orphan) then s.endWaiting c q stOrphan
  else if q.inDr.any (fun e => tag e == .torn) then s.endWaiting c q stTag
  else if s.macroTags q && dsts.all (fun d => d.1 != c || !s.writerAhead c q d.2) then
    match s.pickDrawers c q with
    | some mid => s.startMacro c q mid
    | none => s
  else s

/-- May a command of a context go on to its start? A control-core command starts at its issue, so a halt or a pre-emption leaves it to complete
(10 R222, R227; 11 R239). -/
def Ctx.goesOn (x : Ctx) (q : QCmd) : Bool :=
  x.st == .running || (q.eng == 0 && (x.st == .halted || x.st == .preempting || x.st == .aborting))

/-- Try to start an issued command. -/
def State.tryStart (s : State) (c id : Nat) : State :=
  match (s.core c).cmd? id with
  | none => s
  | some q =>
    if q.stage ≠ .issued ∨ !(s.context c q.ctx).goesOn q ∨ !s.coreLive c then s
    else if q.eng = 0 then
      (if controlReady s c q then s.modCmd c id (fun q => { q with stage := .started }) else s)
    else if q.eng = 5 then s.startDieMacro c q
    else s.startEngine c q

/-! ### Commit and completion (09 R191; 10 R208) -/

/-- An END completes: the context is IDLE, and where it leads a job the job ends (10 R231; 16 R355). -/
def State.endOfStream (s : State) (c : Nat) (q : QCmd) : State :=
  ((s.modContext c q.ctx (fun x => { x with st := if x.st = .running then .idle else x.st })).complete c q stOk).streamEnded c q.ctx

/-- A started command reaches its commit point and completes; a remote transfer or a macro may stay under way. -/
def State.commitCmd (s : State) (op : Opcode) (c : Nat) (q : QCmd) : State :=
  match q.eng with
  | 0 =>
    if op = .endStream then s.endOfStream c q
    else
      let r := runControl op s c q
      let s := if op = .hdrop then r.1.writeOuts q else r.1
      s.complete c q r.2
  | 4 => runTransfer op s c q
  | 5 => commitMacro s c q
  | _ =>
    match badSource op s c q with
    | some b => s.badStop c b q
    | none => (((engineRun op s c q).writeOuts q).modCore c (fun k => k.commitDrawers q)).complete c q stOk

/-- Commit a started command, once. -/
def State.tryCommit (s : State) (c id : Nat) : State :=
  match (s.core c).cmd? id with
  | none => s
  | some q => match q.cmd.op? with
    | some op => if q.stage = .started ∧ s.coreLive c ∧ !tmulBehind s c q then s.commitCmd op c q else s
    | none => s

/-- Commit a started command until it completes: a die macro commits once per output. -/
def State.commitAll (s : State) (c id : Nat) : Nat → State
  | 0 => s
  | fuel + 1 => (s.tryCommit c id).commitAll c id fuel

/-! ### A stream command, from its dispatch as far as it goes -/

/-- Does a core and context exist (01 R19, 10 R204)? Context 1 to 3 of a core in mode S exist and never run. -/
def ctxExists (c x : Nat) : Bool := decide (c < 96 ∧ x < 4)

/-- Can the control core dispatch for a context now: the command at its CTX_PC, or the halt of a fetch outside HBM (10 R206)? -/
def State.canDispatch (s : State) (c x : Nat) : Bool :=
  let pc := (s.context c x).pc
  s.mayDispatch c x (if inHbm pc then (Cmd.ofBytes (s.readBytes pc 32)).engine else 0)

/-- Is it a context's turn: in mode M, no context that comes before it in the rotation can dispatch (10 R206)? -/
def State.dispatchTurn (s : State) (c x : Nat) : Bool :=
  !s.modeM c || (rotationBefore (s.core c).lastDisp x).all (fun y => !s.canDispatch c y)

/-- The command `w` stands at CTX_PC of a context: it is dispatched, where the control core may and it is the context's turn, and goes on from
there as far as its waits, its tags and its engine let it. -/
def State.runWord (s : State) (c x : Nat) (w : Cmd) : State :=
  if s.mayDispatch c x w.engine && s.dispatchTurn c x then
    let r := s.dispatch c x w
    match r.2 with
    | none => r.1
    | some id => (((r.1.arriveHeads c).resolve c).tryStart c id).commitAll c id 17
  else s

/-- A row of a stream command. -/
def runRow (op : Opcode) (c x : Nat) (f : CmdFields) (s : State) : Host.Outcome State Fault Refusal :=
  if ctxExists c x then .next (s.runWord c x (encodeCmd op f)) else .fault .noSuchPart

end Sys2Proof.Machine
end

