-- ==== Sys2Proof/Machine/Context.lean ====
section
/-!
DEFINITION. Contexts (spec 10 R222 to R235): start, halt and end of a stream's context, aborts, pre-emption, reset, the
core watchdog and the change of a core's mode; with what the ends of commands outside their own stream do.
-/
namespace Sys2Proof.Machine

/-! ### Remote answers (14 R306) -/

/-- An acknowledgement with a status to a device's core. -/
def State.ackTo (s : State) (owner dev opid core st : Nat) : State := (s.sendPacket owner dev 0x07 opid core st 0 0 []).1

/-! ### Aborts (R224 to R226) -/

/-- A command that no abort stops takes its effect (R238; 07 R154, R157; 06 R139). -/
def State.lateEffect (s : State) (op : Opcode) (c : Nat) (q : QCmd) : State :=
  if q.eng = 0 then (runControl op s c q).1
  else ((engineRun op s c q).writeOuts q).modCore c (fun k => k.commitDrawers q)

/-- The decision of one command by an abort or a reset (R224, R264). A TZERO that has not started reports ST_ABORTED and zeroes nothing
(DEDUCED, log entry 31). -/
def State.abortOne (s : State) (c : Nat) (q : QCmd) : State :=
  match q.bar with
  | .released st => (s.modContext c q.ctx (fun x => x.setReg q.cmd.rd (BitVec.ofNat 64 st))).complete c q stAbortLate
  | .waiting _ => (s.barWithdraw c q).complete c q stAborted
  | .held => s.complete c q stAborted
  | .no =>
    match q.stage with
    | .committed => s.complete c q stAbortLate
    | .started =>
      match q.cmd.op? with
      | none => s.complete c q stAborted
      | some op =>
        if notAbortable op then (s.lateEffect op c q).complete c q stAbortLate
        else if q.eng = 0 then s.complete c q stAborted
        else if q.eng = 4 then s.failTransfer c q stAborted
        else if q.eng = 5 then s.stopMacro c q stAborted
        else s.stopCmd c q stAborted
    | .issued =>
      match q.cmd.op? with
      | some .rsig => s.complete c q stAbortLate
      | some .lsdecide => (s.lateEffect .lsdecide c q).complete c q stAbortLate
      | some .lrpick => (s.lateEffect .lrpick c q).complete c q stAbortLate
      | _ => s.endWaiting c q stAborted
    | _ => s.complete c q stAborted

/-- The decision of a command by its id, if it is still there. -/
def State.abortId (s : State) (c id : Nat) : State :=
  match (s.core c).cmd? id with
  | none => s
  | some q => s.abortOne c q

/-- Uncompleted commands of a context, in dispatch order. -/
def Core.cmdsOf (k : Core) (x : Nat) : List QCmd := k.q.filter (fun q => q.ctx == x)

/-- Every command of a context decided; it is IDLE, with CTX_PC at the first that had not completed (R226). -/
def State.abortAll (s : State) (c x : Nat) : State :=
  let qs := (s.core c).cmdsOf x
  let s := qs.foldl (fun s q => s.abortId c q.id) s
  let s := s.modContext c x (fun y =>
    { y with st := .idle, pc := match qs with
        | q :: _ => q.addr
        | [] => y.pc })
  s.ctxEvent c x 0x0105 2 stAborted

/-! ### Reset (R230, R198) -/

/-- Drawers of other cores that a command under way on core `k` reads or writes there: those of a quad read, and of a die macro. -/
def QCmd.farDrawers (q : QCmd) (k : Nat) : List (Nat × Nat) :=
  (match q.peer with
    | some (p, ds) => ds.map (fun d => (p, d))
    | none => []) ++ (q.inDr ++ q.outDr.flatten).filter (fun d => d.1 != k)

/-- Does a command stand at its start or run? -/
def QCmd.underWay (q : QCmd) : Bool := q.stage == .issued || q.stage == .started

/-- Does a waiting remote reader or window writer, or a quad read or die macro of another core under way, use a drawer of core `c`? -/
def State.hasWaiter (s : State) (c d : Nat) : Bool :=
  s.waitw.any (fun w => w.owner == c && (d ∈ touched w.off w.data.length))
  || s.waitr.any (fun r => r.owner == c && (d ∈ touched r.off r.len))
  || s.cores.any (fun e => e.2.q.any (fun q => q.underWay && ((c, d) ∈ q.farDrawers e.1)))

/-- Is a drawer in an open window of a context? -/
def State.inOpenWin (s : State) (c x d : Nat) : Bool :=
  (List.range 16).any (fun w => let v := s.win c w; v.isOpen && v.ctx == x && (d ∈ v.drawers))

/-- The drawers a context owns. -/
def State.ownDrawers (s : State) (c x : Nat) : List Nat := (List.range 256).filter (fun d => s.drawerInShare c x d)

/-- Release the waiters of orphaned drawers with ST_ORPHAN, with an event at each side (R198). -/
def State.releaseOrphans (s : State) (c x : Nat) (os : List Nat) : State :=
  let hit := fun (ds : List Nat) => ds.any (fun d => d ∈ os)
  let ws := s.waitw.filter (fun w => w.owner == c && hit (touched w.off w.data.length))
  let rs := s.waitr.filter (fun r => r.owner == c && hit (touched r.off r.len))
  let s := { s with waitw := s.waitw.filter (fun w => !(w.owner == c && hit (touched w.off w.data.length)))
                    waitr := s.waitr.filter (fun r => !(r.owner == c && hit (touched r.off r.len))) }
  let owner := fun (s : State) => s.ctxEvent c x 0x0104 1 stOrphan
  let s := ws.foldl (fun s w =>
    if w.dev = s.myDev then
      match (s.core w.core).cmd? w.cmdId with
      | some q => owner (s.failTransfer w.core q stOrphan)
      | none => s
    else owner (s.ackTo c w.dev w.cmdId w.core stOrphan)) s
  let s := rs.foldl (fun s r => owner (s.ackTo c r.dev r.opid r.core stOrphan)) s
  s.cores.foldl (fun s e => e.2.q.foldl (fun s q =>
    if q.underWay && (q.farDrawers e.1).any (fun d => d.1 == c && decide (d.2 ∈ os)) then
      match (s.core e.1).cmd? q.id with
      | none => s
      | some q =>
        if q.stage ≠ .started then owner (s.endWaiting e.1 q stOrphan)
        else if q.eng = 5 then owner (s.stopMacro e.1 q stOrphan)
        else owner (s.stopCmd e.1 q stOrphan)
    else s) s) s

/-- R198 and R230 on the drawers of a context: ORPHAN where others wait or write, else EMPTY; header slots zero. -/
def State.resetDrawers (s : State) (c x : Nat) : State :=
  let own := s.ownDrawers c x
  let os := own.filter (fun d => s.hasWaiter c d || s.inOpenWin c x d)
  let s := (List.range 16).foldl (fun s w => if (s.win c w).isOpen && (s.win c w).ctx == x then s.setRf .winCfg c w 31 31 0 else s) s
  let s := s.modCore c (fun k => own.foldl (fun k d =>
    (k.setDrawer d (if d ∈ os then { tag := .orphan, gran := (k.drawer d).gran } else {})).setHdr d {}) k)
  s.releaseOrphans c x os

/-- Set registers of a core to their reset values. -/
def State.resetRegs (s : State) (c : Nat) (ks : List (RegName × Nat)) : State :=
  ks.foldl (fun s k => s.setReg k.1 c k.2 (RegKey.reset ⟨k.1, c, k.2⟩)) s

/-- The numbers of a table with `per` entries a context that a context owns (07 R158, 08 R164). -/
def State.share (s : State) (c x per : Nat) : List Nat :=
  if s.modeM c then (List.range per).map (· + per * x) else if x = 0 then List.range (4 * per) else []

/-- Clear-numerics state and drawbench tables of a context. -/
def State.clearShare (s : State) (c x : Nat) : List (RegName × Nat) :=
  let each := fun (r : RegName) (l : List Nat) => l.map (fun n => (r, n))
  let l16 := s.share c x 16
  let ctxs := s.share c x 1
  each .lossScale ctxs ++ each .lsCount ctxs ++ each .layer l16
    ++ each .histCfg (s.share c x 4) ++ each .histBin (s.share c x 256)
    ++ each .chainW0 l16 ++ each .chainW1 l16 ++ each .chainW2 l16 ++ each .chainW3 l16
    ++ each .constfLo l16 ++ each .constfHi l16 ++ each .polyt (s.share c x 32)

/-- Anvil storage of a context at reset. -/
def State.resetAnvil (s : State) (c x : Nat) : State :=
  let ts := s.tilesOf c x
  let as := s.accsOf c x
  let n := s.latchNo c x
  s.modCore c (fun k => (as.foldl (fun k a => k.setAcc a {}) (ts.foldl (fun k t => k.setTile t {}) k)).setLatch n {})

/-- A context is reset (R230): registers, counters, queue, drawers, headers, anvil storage, clear-numerics state and
drawbench tables; armed objects it owns become ORPHAN (12 R266). -/
def State.resetNow (s : State) (c x : Nat) : State :=
  let s := s.resetDrawers c x
  let s := s.resetAnvil c x
  let s := s.resetRegs c (s.clearShare c x)
  let s := (s.share c x 1).foldl (fun s n => (s.setRf .clearStatus c 0 n n 0).setRf .clearStatus c 0 (16 + n) (16 + n) 0) s
  let ds := s.share c x 16
  let ns := s.share c x 64
  let s := s.modCore c (fun k =>
    { k with descs := Tab.keep (fun n => !(n ∈ ds)) k.descs, counters := Tab.keep (fun n => !(n ∈ ns)) k.counters
             badCtr := k.badCtr.filter (fun n => !(n ∈ ns))
             q := k.q.filter (fun q => q.ctx != x), inlet := [] })
  let s := s.modContext c x (fun y => { y with st := .idle, s := [], p := 0, heldAct := .none, resetting := false, fresh := true, saved := [] })
  (s.orphanOwned c x).ctxEvent c x 0x010B 2 0

/-! ### The actions of CTX_CTRL (R226 to R231) -/

/-- START of an IDLE context. -/
def State.ctxStart (s : State) (c x : Nat) : State :=
  s.modContext c x (fun y => { y with st := .running, fresh := false })

/-- ABORT: the abort is under way, or held behind a save (R226, R228). -/
def State.ctxAbort (s : State) (c x : Nat) : State :=
  s.modContext c x (fun y => match y.st with
    | .idle | .aborting => y
    | .preempting => { y with heldAct := if y.heldAct = .reset then .reset else .abort }
    | _ => { y with st := .aborting, resetting := false })

/-- RESET: at once where the context is IDLE; else its abort comes first (R226, R228, R230). -/
def State.ctxReset (s : State) (c x : Nat) : State :=
  match (s.context c x).st with
  | .idle => s.resetNow c x
  | .aborting | .preempting => s.modContext c x (fun y => { y with heldAct := .reset })
  | _ => s.modContext c x (fun y => { y with st := .aborting, resetting := true })

/-- Every command decided: IDLE, then any RESET under way or held (R226, R230). -/
def State.abortDone (s : State) (c x : Nat) : State :=
  let y := s.context c x
  if y.st ≠ .aborting then s
  else
    let s := (s.abortAll c x).modContext c x (fun y => { y with heldAct := .none, resetting := false })
    if y.resetting ∨ y.heldAct = .reset then s.resetNow c x else s

/-- PREEMPT of a RUNNING context (R227). -/
def State.ctxPreempt (s : State) (c x : Nat) : State := s.modContext c x (fun y => { y with st := .preempting })

/-- First byte of a save area, and the most a save record takes (R227, R235). -/
def State.saveBase (s : State) (c x : Nat) : Nat := s.rf .ctxSave c x 23 0 * 2 ^ 16
def saveRecordMax : Nat := 0x60000

/-- The records of a context's anvil storage, in their order: tiles in use, the latch if it is valid, accumulators in use (06 R132). -/
def State.anvilRecs (s : State) (c x : Nat) : List AnvilRec :=
  let k := s.core c
  let n := s.latchNo c x
  ((s.tilesOf c x).filter (fun t => (k.tile t).inuse)).map (fun t => .tile t (k.tile t))
  ++ (if (k.latch n).valid then [.latch n (k.latch n)] else [])
  ++ ((s.accsOf c x).filter (fun a => (k.acc a).inuse)).map (fun a => .acc a (k.acc a))

/-- Bytes of a record: 64 of header, then the contents (06 R132). -/
def AnvilRec.bytes : AnvilRec → Nat
  | .tile .. | .latch .. => 64 + 4096 + 512
  | .acc .. => 64 + 65536

/-- Bytes of a save record: the control state, at most 16 KiB, and the anvil records (R227). -/
def saveBytes (rs : List AnvilRec) : Nat := 0x4000 + (rs.map AnvilRec.bytes).foldl (· + ·) 0

/-- The anvil storage of a context as a restore leaves it: what has a record as recorded, the contents of the rest zero (06 R132). -/
def State.restoreAnvil (s : State) (c x : Nat) (rs : List AnvilRec) : State :=
  let ts := s.tilesOf c x
  let as := s.accsOf c x
  s.modCore c (fun k =>
    let k := ts.foldl (fun k t => k.setTile t { k.tile t with bytes := [], side := [], bad := false }) k
    let k := as.foldl (fun k a => k.setAcc a { k.acc a with vals := [], bad := false }) k
    rs.foldl (fun k r => match r with
      | .tile n v => k.setTile n v
      | .latch n v => k.setLatch n v
      | .acc n v => k.setAcc n v) k)

/-- The save ends, once every started command has completed (R227, R228): PREEMPTED, or a held ABORT or RESET. A halt in
between has cancelled it. The layout of the record's control state is not given: the bytes it takes are no longer defined, and what it holds of
the anvil stands in the context. -/
def State.saveDone (s : State) (c x : Nat) : State :=
  let y := s.context c x
  if y.st ≠ .preempting then
    if y.st = .halted ∧ y.heldAct ≠ .none then
      s.modContext c x (fun y => { y with st := .aborting, resetting := y.heldAct = .reset, heldAct := .none })
    else s
  else if ((s.core c).cmdsOf x).any (fun q => q.stage == .started || q.stage == .committed) then s
  else
    let a := s.saveBase c x
    let rs := s.anvilRecs c x
    let s := (s.forget a (a + saveBytes rs)).ctxEvent c x 0x0106 3 0
    s.modContext c x (fun y => match y.heldAct with
      | .none => { y with st := .preempted, saved := rs }
      | h => { y with st := .aborting, resetting := h = .reset, heldAct := .none })

/-- RESUME of a PREEMPTED context: its commands stand where they stood; a barrier released meanwhile completes (R228,
R264). -/
def State.ctxResume (s : State) (c x : Nat) : State :=
  let s := s.restoreAnvil c x (s.context c x).saved
  let s := (s.modContext c x (fun y => { y with st := .running, saved := [] })).ctxEvent c x 0x0106 3 0
  ((s.core c).cmdsOf x).foldl (fun s q => match q.bar with
    | .released st => s.barDone c q st
    | _ => s) s

/-! ### The core watchdog (R232, R265) -/

/-- Has a command started? A control-core command starts at its issue (11 R239). -/
def QCmd.begun (q : QCmd) : Bool :=
  q.stage == .started || q.stage == .committed || (q.eng == 0 && q.stage == .issued)

/-- Is the count of a command frozen: not arrived, not started in a HALTED context (R222), or saved with a PREEMPTED one, where a waiting
control-core command counts as not started (R228, 12 R264)? -/
def State.countFrozen (s : State) (c : Nat) (q : QCmd) : Bool :=
  q.stage == .queued || (match (s.context c q.ctx).st with
    | .halted => !q.begun
    | .preempted => q.stage != .started && q.stage != .committed
    | _ => false)

/-- A command's count expires: EV_CORE_TIMEOUT, and ST_TIMEOUT for the command; one that waits at a barrier poisons it (R232, R265). A started
command stops as an abort would stop it; one that no abort stops has its effect. -/
def State.timeOut (s : State) (c : Nat) (q : QCmd) : State :=
  if s.countFrozen c q then s
  else match q.bar with
    | .released _ => s
    | .waiting _ => match q.barKey c with
      | some k => (s.cmdEvent c q 0x0103 1 stTimeout).barPoisonAny k
      | none => (s.cmdEvent c q 0x0103 1 stTimeout).barDone c q stTimeout
    | .held => (s.cmdEvent c q 0x0103 1 stTimeout).barDone c q stTimeout
    | .no =>
      let s := s.cmdEvent c q 0x0103 1 stTimeout
      match q.begun, q.cmd.op? with
      | true, some op =>
        if notAbortable op then (s.lateEffect op c q).complete c q stTimeout
        else if q.eng = 0 then s.complete c q stTimeout
        else if q.eng = 4 then s.failTransfer c q stTimeout
        else if q.eng = 5 then s.stopMacro c q stTimeout
        else s.stopCmd c q stTimeout
      | _, _ => s.endWaiting c q stTimeout

/-! ### Rows -/

/-- Run where a core and context exist. -/
def onCtx (c x : Nat) (s : State) : Host.Outcome State Fault Refusal := if ctxExists c x then .next s else .fault .noSuchPart

/-- Run where a core exists. -/
def onCore (c : Nat) (s : State) : Host.Outcome State Fault Refusal := if c < 96 then .next s else .fault .noSuchPart

/-- COMMAND_ARRIVAL: the control core fetches the command at CTX_PC, where it may and it is the context's turn, and heads of queues arrive
(10 R206, R207, R210). A fetch from a stack that is offline halts with ST_BOUNDS (13 R286). A fetch from poisoned memory halts with ST_PARITY (13 R277). -/
def State.arrival (s : State) (c x : Nat) : State :=
  let y := s.context c x
  let s :=
    if y.st ≠ .running ∨ !s.dispatchTurn c x then s
    else if !inHbm y.pc then (if s.mayDispatch c x 0 then s.fetchHalt c x stAlign else s)
    else
      let w := Cmd.ofBytes (s.readBytes y.pc 32)
      if !s.mayDispatch c x w.engine then s
      else if !s.stackOnline y.pc then s.fetchHalt c x stBounds
      else
        let r := s.hbmRead y.pc 0
        if r.2 then r.1.fetchHalt c x stParity else (r.1.dispatch c x w).1
  s.arriveHeads c

/-- The control-core storage of a context has wrong parity: the context halts, with CTX_PC at the command to be dispatched (19 R404). -/
def State.storageBad (s : State) (c x : Nat) : State :=
  if (s.context c x).st = .running ∧ s.coreLive c then s.fetchHalt c x stParity else s

/-- COMMAND_ARRIVAL; with its context, whether the storage it reads has wrong parity. -/
def execCommandArrival (core : Nat) (ctx : Nat × Bool) (s : State) : Host.Outcome State Fault Refusal :=
  onCtx core ctx.1 (if ctx.2 then s.storageBad core ctx.1 else s.arrival core ctx.1)

/-- COMMAND_ISSUE: one resolution of a core's counters and waiting commands; with its number, the counters found with wrong parity: no waiter reads them
from then on, and theirs is the watchdog's end (19 R404). -/
def execCommandIssue (core : Nat × List Nat) (s : State) : Host.Outcome State Fault Refusal :=
  onCore core.1 ((s.modCore core.1 (fun k => { k with badCtr := core.2.foldl (fun l n => addOnce n l) k.badCtr })).resolve core.1)

/-- COMMAND_START: the issued command of an engine's queue starts, if its tags and its engine permit. -/
def execCommandStart (core ctx eng : Nat) (s : State) : Host.Outcome State Fault Refusal :=
  onCtx core ctx (match (s.core core).nextStart ctx eng with
    | some q => s.tryStart core q.id
    | none => s)

/-- A started command receives a byte with wrong parity over an internal link: it ends as for wrong parity in its scratchpad (19 R404; 09
R200; 05 R119). -/
def State.linkStop (s : State) (c : Nat) (q : QCmd) : State :=
  if q.eng = 4 then s.failTransfer c q stParity else if q.eng = 5 then s.macroParity c q else s.stopCmd c q stParity

/-- COMMAND_COMMIT: a started command of an engine's queue, by its position among the started ones, commits and completes;
of a die macro, one output; with the position, whether a byte that reached it over an internal link had wrong parity. -/
def execCommandCommit (core ctx eng : Nat) (nth : Nat × Bool) (s : State) : Host.Outcome State Fault Refusal :=
  onCtx core ctx (match (((s.core core).queueOf ctx eng).filter (fun q => q.stage == .started))[nth.1]? with
    | some q => if nth.2 && s.coreLive core then s.linkStop core q else s.tryCommit core q.id
    | none => s)

/-- CORE_WATCHDOG_EXPIRY: the count of an uncompleted command of a core expires, by its place in dispatch order. -/
def execCoreWatchdogExpiry (core pos : Nat) (s : State) : Host.Outcome State Fault Refusal :=
  onCore core (match (s.core core).q[pos]? with
    | some q => s.timeOut core q
    | none => s)

/-- Is an action refused for a context (10 R235, 19 R408)? -/
def State.ctlRefused (s : State) (c x : Nat) (placedToo : Bool) : Bool :=
  (!s.modeM c && x != 0) || (placedToo && s.jobOf c x != {})

/-- CTX_START (R231). -/
def execCtxStart (core ctx req : Nat) (s : State) : Host.Outcome State Fault Refusal :=
  onCtx core ctx
    (if s.ctlRefused core ctx true || (s.context core ctx).st != .idle || (s.core core).pewter then s.refuseState .ctxCtrl core ctx req
     else s.ctxStart core ctx)

/-- CTX_PREEMPT (R227, R228). -/
def execCtxPreempt (core ctx req : Nat) (s : State) : Host.Outcome State Fault Refusal :=
  onCtx core ctx
    (if s.ctlRefused core ctx false || (s.context core ctx).st != .running then s.refuseState .ctxCtrl core ctx req
     else s.ctxPreempt core ctx)

/-- PREEMPT_SAVE_DONE (R227, R228). -/
def execPreemptSaveDone (core ctx : Nat) (s : State) : Host.Outcome State Fault Refusal := onCtx core ctx (s.saveDone core ctx)

/-- CTX_RESUME (R228). -/
def execCtxResume (core ctx req : Nat) (s : State) : Host.Outcome State Fault Refusal :=
  onCtx core ctx
    (if s.ctlRefused core ctx false || (s.context core ctx).st != .preempted then s.refuseState .ctxCtrl core ctx req
     else s.ctxResume core ctx)

/-- CTX_ABORT (R224, R226). -/
def execCtxAbort (core ctx req : Nat) (s : State) : Host.Outcome State Fault Refusal :=
  onCtx core ctx (if s.ctlRefused core ctx true then s.refuseState .ctxCtrl core ctx req else s.ctxAbort core ctx)

/-- ABORT_DONE (R226). -/
def execAbortDone (core ctx : Nat) (s : State) : Host.Outcome State Fault Refusal := onCtx core ctx (s.abortDone core ctx)

/-- CTX_RESET (R230). -/
def execCtxReset (core ctx req : Nat) (s : State) : Host.Outcome State Fault Refusal :=
  onCtx core ctx (if s.ctlRefused core ctx true then s.refuseState .ctxCtrl core ctx req else s.ctxReset core ctx)

/-- Every context of a core is IDLE. -/
def State.coreIdle (s : State) (c : Nat) : Bool := (List.range 4).all (fun x => (s.context c x).st == .idle)

/-- A write of CORE_MODE (R205): a change first resets the contexts that the core has under the old mode (R204). -/
def State.coreModeWrite (s : State) (c : Nat) (m : Bool) (req : Nat) : State :=
  if !s.coreIdle c then s.refuseState .coreMode c 0 req
  else if s.modeM c = m then s
  else ((if s.modeM c then List.range 4 else [0]).foldl (fun s x => s.resetNow c x) s).setRf .coreMode c 0 0 0 (b2n m)

/-- CORE_MODE_WRITE -/
def execCoreModeWrite (core req : Nat) (modeM : Bool) (s : State) : Host.Outcome State Fault Refusal :=
  onCore core (s.coreModeWrite core modeM req)

/-- KEY_CHUNK_ARRIVAL: the first chunk of key number `n` of output `j` of a die macro arrives; its stream starts at its issue (04 R95, R97). -/
def execKeyChunkArrival (core pos j n : Nat) (s : State) : Host.Outcome State Fault Refusal :=
  onCore core (match (s.core core).q[pos]? with
    | some q => if q.underWay ∧ q.eng = 5 then keyChunk s core q j n else s
    | none => s)

/-- GROUP_LINE_EXPIRY: a line held for a key-stream group is discarded (04 R92). -/
def execGroupLineExpiry (granule : Nat) (s : State) : Host.Outcome State Fault Refusal :=
  .next { s with groupLines := s.groupLines.filter (fun l => l.gran != granule) }

end Sys2Proof.Machine
end

