-- ==== Sys2Proof/Machine/Windows.lean ====
section
/-!
DEFINITION. Windows as commands (spec 09 R192 to R196), fault injection (R203), histogram clears (07 R151), and the die and
device objects of 12 (R257 to R269).
-/
namespace Sys2Proof.Machine

/-! ### WIN_CFG (R192, R196) -/

/-- A write of WIN_CFG reaches its core. While OPEN is 1 only OPEN 0 with the other fields unchanged is accepted. -/
def State.winCfgWrite (s : State) (c w : Nat) (v : W32) (req : Nat) : State :=
  if bitOf (s.reg .winCfg c w) 31 then
    (if v = putBits (s.reg .winCfg c w) 31 31 0 then (s.closeWin c w).setReg .winCfg c w v else s.refuseState .winCfg c w req)
  else if bitOf v 31 then
    let s' := s.setReg .winCfg c w v
    if s'.mayOpen c w (s'.win c w) then s'.setRf .winStat c w 31 16 0 else s.refuseState .winCfg c w req
  else s.setReg .winCfg c w v

/-- Run where a core and one of its windows exist. -/
def onWin (c w : Nat) (s : State) : Host.Outcome State Fault Refusal := if c < 96 ∧ w < 16 then .next s else .fault .noSuchPart

/-- WINDOW_OPEN: a write of WIN_CFG with OPEN 1 and these fields. -/
def execWindowOpen (core w ctx first count req : Nat) (s : State) : Host.Outcome State Fault Refusal :=
  onWin core w (s.winCfgWrite core w
    (BitVec.ofNat 32 (2 ^ 31 + ctx % 4 * 2 ^ 29 + first % 256 * 2 ^ 16 + count % 64)) req)

/-- WINDOW_CLOSE: a write of WIN_CFG with OPEN 0 and its other fields kept. -/
def execWindowClose (core w req : Nat) (s : State) : Host.Outcome State Fault Refusal :=
  onWin core w (s.winCfgWrite core w (putBits (s.reg .winCfg core w) 31 31 0) req)

/-! ### Window writes at their owner (R193 to R195) -/

/-- What becomes of a writer whose write landed or was refused: a command of this device, or an operation of another. -/
def State.winAnswer (s : State) (w : WaitWrite) (st : Nat) : State :=
  if w.dev = s.myDev then
    if st = stOk then s.flightDone w.core w.cmdId
    else match (s.core w.core).cmd? w.cmdId with
      | some q => s.failTransfer w.core q st
      | none => s
  else s.ackTo w.owner w.dev w.cmdId w.core st

/-- Writes of one core into one owner land in order (R194); STORE packets of one device land in order (14 R304). -/
def WaitWrite.sameStream (a b : WaitWrite) : Bool :=
  a.dev == b.dev && ((a.store && b.store) || (a.core == b.core && a.owner == b.owner))

/-- A number above those of everything that waits. -/
def State.nextOrd (s : State) : Nat :=
  ((s.waitw.map (·.ord)) ++ (s.waitr.map (·.ord))).foldl max 0 + 1

/-- Must a write wait behind an earlier load of its core (14 R304, R306)? -/
def State.behindLoad (s : State) (w : WaitWrite) : Bool :=
  w.store && s.waitr.any (fun r => !r.get && r.dev == w.dev && r.core == w.core && decide (r.ord < w.ord))

/-- A window write arrives at its owner, or lands after it has waited. -/
def State.winArrive (s : State) (w : WaitWrite) (bad : Bool) : State :=
  let w := { w with ord := s.nextOrd }
  if s.waitw.any (fun v => v.sameStream w) || s.behindLoad w then s.addWait { w with bad := bad }
  else
    let r := (s.perturb 7 w.owner).winWrite w.owner w.dev w.core w.off w.data bad
    match r.2 with
    | .landed => r.1.winAnswer w stOk
    | .waits => r.1.addWait { w with accepted := !s.portsHeld w.owner, bad := bad }
    | .refused st => r.1.winAnswer w st

/-- WINDOW_WRITE: bytes for a window arrive at its owner from a core of a device. -/
def execWindowWrite (owner off dev core id : Nat) (data : List Byte) (bad : Bool) (s : State) : Host.Outcome State Fault Refusal :=
  onCore owner (s.winArrive { dev := dev, core := core, cmdId := id, owner := owner, off := off, data := data } bad)

/-- A waiting window write tries again; it lands only behind the earlier ones of its stream and the earlier writers of its drawers. -/
def State.winResume (s : State) (i : Nat) : State :=
  match s.waitw[i]? with
  | none => s
  | some w =>
    if (s.waitw.take i).any (fun v => v.sameStream w) || s.behindLoad w || s.engineAhead w then s
    else
      let r := s.winWrite w.owner w.dev w.core w.off w.data w.bad w.accepted
      let drop := fun (s : State) => { s with waitw := s.waitw.eraseIdx i }
      match r.2 with
      | .landed => (drop r.1).winAnswer w stOk
      | .waits => if s.portsHeld w.owner then s else { s with waitw := s.waitw.set i { w with accepted := true } }
      | .refused st => (drop r.1).winAnswer w st

/-- WINDOW_WRITE_RESUME. -/
def execWindowWriteResume (i : Nat) (s : State) : Host.Outcome State Fault Refusal := .next (s.winResume i)

/-! ### SP_INJECT, SP_BIND, HIST_CFG -/

/-- The debug level permits fault injection and memory repair (21 R449). -/
def State.repairLevel (s : State) : Bool := decide (2 ≤ s.rf .hmPolicy 0 0 5 4)

def State.spInjectWrite (s : State) (c : Nat) (v : W32) (req : Nat) : State :=
  if s.repairLevel then s.setReg .spInject c 0 v else s.refuseState .spInject c 0 req

/-- SP_INJECT_ARM (09 R203). -/
def execSpInjectArm (core drawer req : Nat) (s : State) : Host.Outcome State Fault Refusal :=
  onCore core (s.spInjectWrite core (BitVec.ofNat 32 (256 + drawer % 256)) req)

/-- A legal binding (R182): two NTT groups, one of each drawbench role, two anvil groups, one transfer group. -/
def bindOk (v : W32) : Bool :=
  let rs := (List.range 8).map (fun g => bits v (4 * g + 3) (4 * g))
  let n := fun r => (rs.filter (· == r)).length
  n 1 == 2 && n 2 == 1 && n 3 == 1 && n 4 == 1 && n 5 == 2 && n 6 == 1

def State.spBindWrite (s : State) (c : Nat) (v : W32) (req : Nat) : State :=
  if s.coreIdle c && (s.core c).q.isEmpty && bindOk v then s.setReg .spBind c 0 v else s.refuseState .spBind c 0 req

/-- A write of HIST_CFG[h] (07 R151, R160): CLEAR zeroes the slot's bins; WATCH is kept. -/
def State.histCfgWrite (s : State) (c h : Nat) (v : W32) : State :=
  let s := s.setReg .histCfg c h (putBits v 1 1 0)
  if bitOf v 1 then s.clearHist c h else s

/-- HIST_CLEAR. -/
def execHistClear (core slot : Nat) (s : State) : Host.Outcome State Fault Refusal :=
  if core < 96 ∧ slot < 16 then .next (s.histCfgWrite core slot (putBits (s.reg .histCfg core slot) 1 1 1)) else .fault .noSuchPart

/-! ### Signals, counters and barriers (12) -/

/-- SIGNAL_ARRIVAL: one posted signal reaches its counter (R257). -/
def execSignalArrival (i : Nat) (s : State) : Host.Outcome State Fault Refusal := .next (s.applySig i)

/-- DIE_COUNTER_FIRE (R259). -/
def execDieCounterFire (key : Nat) (s : State) : Host.Outcome State Fault Refusal :=
  if key < 320 then .next (s.fireCtr key) else .fault .noSuchPart

/-- BARRIER_WATCHDOG of a die or device barrier (R265). -/
def execBarrierWatchdog (key : Nat) (s : State) : Host.Outcome State Fault Refusal :=
  if key < 288 then .next (s.barWatchdog key) else .fault .noSuchPart

/-- The register of a barrier's configuration. -/
def barCfgReg (k : Nat) : RegKey :=
  if k < 256 then ⟨.dieBarCfg, k / 64, k % 64⟩ else if k < 288 then ⟨.devBarCfg, 0, k - 256⟩ else ⟨.fbarCfg, 0, k - 288⟩

/-- The register of a counter's configuration. -/
def ctrCfgReg (k : Nat) : RegKey := if k < 256 then ⟨.dieCtrCfg, k / 64, k % 64⟩ else ⟨.devCtrCfg, 0, k - 256⟩

/-- Arrivals that may complete a phase (R261; 14 R311 for a fabric barrier, whose local participants are contexts of the
device). -/
def barMost (k : Nat) : Nat := if k < 256 then 96 else 384

/-- May an object of a block be armed with an owner? A die object's owner lies on its die (R269). -/
def ownerOk (k core : Nat) : Bool := decide (core < 96) && (decide (256 ≤ k) || core / 24 == k / 64)

/-- Does a barrier have waiters? -/
def State.barBusy (s : State) (k : Nat) : Bool :=
  (s.barCmds k).any (fun e => match e.2.bar with
    | .released _ => false
    | _ => true)

/-- A write of BAR_CFG reaches its block (R269). -/
def State.barCfgWrite (s : State) (k : Nat) (v : W32) (req : Nat) : State :=
  let r := barCfgReg k
  let refuse := s.refuseState r.reg r.inst r.idx req
  if barArmed (s.barCfg k) then
    (if barArmed v || s.barBusy k then refuse else s.setRegK r v)
  else if barArmed v then
    (if 1 ≤ barCount v ∧ barCount v ≤ barMost k ∧ ownerOk k (barOwner v / 4) then
      let s := (s.setRegK r v).setBar k {}
      if 288 ≤ k then s.setFbar (k - 288) {} else s
     else refuse)
  else s.setRegK r v

/-- A write of CTR_CFG reaches its block (R269). -/
def State.ctrCfgWrite (s : State) (k : Nat) (v : W32) (req : Nat) : State :=
  let r := ctrCfgReg k
  let refuse := s.refuseState r.reg r.inst r.idx req
  if ctrArmed (s.ctrCfg k) then (if ctrArmed v then refuse else s.setRegK r v)
  else if ctrArmed v then
    (if ownerOk k (bits v 28 22) then (s.setRegK r v).setCtr k { s.ctr k with value := 0, orphan := false } else refuse)
  else s.setRegK r v

end Sys2Proof.Machine
end

