-- ==== Sys2Proof/Machine/Fabric.lean ====
section
/-!
DEFINITION. The fabric's packets at this device (spec 14 R296 to R312): checks on arrival, forwarding, remote windows, answers,
signals, fabric barriers and grants.
-/
namespace Sys2Proof

/-- The packet as one of a given type. -/
def Packet.withTyp (p : Packet) (t : Nat) : Packet := { p with f0 := Machine.putBits p.f0 15 8 t }

/-- Every reserved field is zero and no field holds a reserved value (14 R299). -/
def Packet.legal (p : Packet) : Bool :=
  p.formOk && (p.typ != 0 && decide (p.typ ≤ 14)) && (decide (p.srcCore < 96) || p.srcCore == 0x7F)
    && (decide (p.dstCore < 96) || p.dstCore == 0x7F) && decide (p.len64 ≤ 64)

/-- Is the source told of a packet that was discarded on its path (R297)? The sender of a SIGNAL is not (R308). -/
def Packet.answered (p : Packet) : Bool := p.typ != 0x08

/-- Is a range inside the scratchpad of the core a packet names? -/
def Packet.inTarget (p : Packet) : Bool :=
  decide (p.dstCore < 96 ∧ Machine.spBase p.dstCore ≤ p.addr ∧ p.addr + 64 * p.len64 ≤ Machine.spBase p.dstCore + 256 * Machine.drawerBytes)

/-- Where a packet's range begins in its core's scratchpad; the end of it for an address below. -/
def Packet.offset (p : Packet) : Nat :=
  if Machine.spBase p.dstCore ≤ p.addr then p.addr - Machine.spBase p.dstCore else 256 * Machine.drawerBytes

end Sys2Proof

namespace Sys2Proof.Machine

def onPort (p : Nat) (s : State) : Host.Outcome State Fault Refusal := if p < 16 then .next s else .fault .noSuchPart

/-- FAB_CFG.JOINED (R315). -/
def State.joined (s : State) : Bool := bitOf (s.reg .fabCfg) 9

/-- An ACK with a status to the source of a packet, its OPID echoed. -/
def State.ackPacket (s : State) (p : Packet) (st : Nat) : State :=
  (s.sendPacket 0x7F p.srcDev 0x07 p.opid p.srcCore st 0 0 []).1

/-! ### Arrival (R296, R297, R299, R301, R315) -/

/-- A packet for another device is sent on by the first port that is UP, or discarded as unreachable. -/
def State.forward (s : State) (port : Nat) (p : Packet) : State :=
  match s.route p.srcDev p.dstDev with
  | some q => (s.perturb 6 port).send (.pkt q p)
  | none =>
    let s := s.fabEvent 0x0408 1 port p.dstDev 0x70
    if p.answered then s.ackPacket p 0x70 else s

/-- A packet accepted from a device: the next value is expected (R301; 18 R396). -/
def State.aliveAccept (s : State) (p : Packet) : State :=
  { s with aliveRx := Tab.set 0 s.aliveRx p.srcDev ((p.alive + 1) % 65536 + 1)
           aliveAt := Tab.set 0 s.aliveAt p.srcDev s.time
           broken := s.broken.filter (· != p.srcDev) }

/-- The destination checks (R301): the state, and whether the packet is delivered. -/
def State.aliveCheck (s : State) (port : Nat) (p : Packet) : State × Bool :=
  let d := p.srcDev
  if !s.e2eOn d then (s.aliveAccept p, true)
  else if p.f3.toNat ≠ crc64 p.e2eBytes then
    ((((s.countReg .e2eFail 0 0 1).countReg .pcvMismatch port 1 1).fabEvent 0x0407 1 port d 0x72).ackPacket p 0x72, false)
  else
    let e := Tab.get 0 s.aliveRx d
    let gap := ((s.countReg .aliveGap 0 0 1).fabEvent 0x0406 1 port d 0x71).ackPacket p 0x71
    if d ∈ s.broken then (if p.typ = 0x0D then (s.aliveAccept p, true) else (gap, false))
    else if e = 0 ∨ p.alive + 1 = e then (s.aliveAccept p, true)
    else if (e + 65535 - p.alive) % 65536 ≤ 32768 then
      ((s.countReg .aliveRepeat 0 0 1).fabEvent 0x0405 2 port d 0, false)
    else ({ gap with broken := addOnce d gap.broken }, false)

/-! ### Remote windows (R304, R306) -/

/-- The outcome of a window read at the owner. -/
def State.readTest (s : State) (c dev core off n : Nat) : WinRes :=
  let ds := touched off n
  if ds.any (fun d => ((s.core c).drawer d).tag == .orphan) then .refused stOrphan
  else match s.winAt c (off / drawerBytes) with
    | none => .refused stWindow
    | some w =>
      let v := s.win c w
      let lo := v.first * drawerBytes
      if !v.takes s dev core then .refused stWindow
      else if !(decide (lo ≤ off) && decide (off + n ≤ lo + v.bound)) then .refused stWindow
      else if off % 64 ≠ 0 ∨ n % 64 ≠ 0 then .refused stAlign
      else if ds.any (fun d => ((s.core c).drawer d).tag != .full) then .waits
      else .landed

/-- Answer a read with its data; a byte with wrong parity ends it with ST_PARITY and tears the drawer (09 R200). -/
def State.readAnswer (s : State) (r : WaitRead) : State :=
  let a := spBase r.owner + r.off
  match s.badpar.find? (fun b => decide (a ≤ b) && decide (b < a + r.len)) with
  | some b =>
    let d := drawerOfAddr r.owner (b : Int)
    ((s.recordParity r.owner b).modCore r.owner (fun k => k.modDrawer d (fun v => { v with tag := .torn }))).ackTo
      r.owner r.dev r.opid r.core stParity
  | none => (s.sendPacket r.owner r.dev (if r.get then 0x06 else 0x03) r.opid r.core 0 0 0 (s.readBytes a r.len)).1

/-- Must a read wait behind earlier accesses: a load behind every earlier STORE of its device and every earlier load of its
core (R304)? -/
def State.readBehind (s : State) (r : WaitRead) : Bool :=
  !r.get && (s.waitw.any (fun w => w.store && w.dev == r.dev && decide (w.ord < r.ord))
    || s.waitr.any (fun v => !v.get && v.dev == r.dev && v.core == r.core && decide (v.ord < r.ord)))

/-- A read request arrives at its owner. -/
def State.readArrive (s : State) (r : WaitRead) : State :=
  let r := { r with ord := s.nextOrd }
  if s.readBehind r then { s with waitr := s.waitr ++ [r] }
  else match s.readTest r.owner r.dev r.core r.off r.len with
    | .landed => s.readAnswer r
    | .waits => { s with waitr := s.waitr ++ [r] }
    | .refused st => s.ackTo r.owner r.dev r.opid r.core st

/-- A waiting read tries again. -/
def State.readServe (s : State) (i : Nat) : State :=
  match s.waitr[i]? with
  | none => s
  | some r =>
    if s.readBehind r then s
    else
      let s' := { s with waitr := s.waitr.eraseIdx i }
      match s.readTest r.owner r.dev r.core r.off r.len with
      | .landed => s'.readAnswer r
      | .waits => s
      | .refused st => s'.ackTo r.owner r.dev r.opid r.core st

/-- STORE or PUT at its target. A range that leaves the core's scratchpad is a refused window write there (09 R193). -/
def State.storeIn (s : State) (p : Packet) (store : Bool) : State :=
  if 96 ≤ p.dstCore then s.ackPacket p stWindow
  else if !p.inTarget then (s.winRefused p.dstCore p.offset stWindow).ackPacket p stWindow
  else s.winArrive { dev := p.srcDev, core := p.srcCore, cmdId := p.opid, owner := p.dstCore, off := p.addr - spBase p.dstCore
                     data := (p.payload ++ List.replicate (64 * p.len64) 0).take (64 * p.len64), store := store } false

/-- LOAD_REQ or GET_REQ at its target. -/
def State.loadIn (s : State) (p : Packet) (get : Bool) : State :=
  if !p.inTarget then s.ackPacket p stWindow
  else s.readArrive { dev := p.srcDev, core := p.srcCore, opid := p.opid, owner := p.dstCore, off := p.addr - spBase p.dstCore
                      len := 64 * p.len64, get := get }

/-! ### Answers to this device's operations (R301, R304, R309) -/

def State.fop (s : State) (opid : Nat) : Option FabOp := s.fops.find? (fun f => f.opid == opid)
def State.dropFop (s : State) (opid : Nat) : State := { s with fops := s.fops.filter (fun f => f.opid != opid) }

/-- The command of an operation ends with a status. -/
def State.endOp (s : State) (f : FabOp) (st : Nat) : State :=
  match (s.core f.core).cmd? f.cmd with
  | some q => s.failTransfer f.core q st
  | none => s.dropFop f.opid

/-- Data of a load or get is written locally (R304). -/
def State.dataIn (s : State) (p : Packet) : State :=
  match s.fop p.opid with
  | none => s
  | some f =>
    match (s.core f.core).cmd? f.cmd with
    | none => s.dropFop f.opid
    | some q =>
      let units := (List.range p.len64).map (fun i => (p.payload.drop (64 * i)).take 64)
      let w := (s.dropFop f.opid).scatter f.core q.id q.cmd.xHint (f.addrs.zip units)
      match w.stop with
      | some st => w.st.failTransfer f.core q st
      | none => State.flightDone { w.st with waitw := w.st.waitw ++ w.waits.map (fun v => { v with ord := w.st.nextOrd }) } f.core f.cmd

/-- An ACK with status. A command that ends as unreachable raises the event of R309. -/
def State.ackIn (s : State) (port : Nat) (p : Packet) : State :=
  let st := p.arg % 256
  if st = 0x71 ∨ st = 0x72 then
    let s := (s.fops.filter (fun f => f.dev == p.srcDev)).foldl (fun s f => s.endOp f st) s
    (s.sendPacket 0x7F p.srcDev 0x0D 0 0x7F 0 0 0 []).1
  else match s.fop p.opid with
    | none => s
    | some f =>
      if st = stOk then (s.dropFop f.opid).flightDone f.core f.cmd
      else if st = 0x70 then (s.endOp f st).fabEvent 0x0408 1 port p.srcDev st
      else s.endOp f st

/-! ### Signals and fabric barriers (R307, R308, R311, R312) -/

/-- SIGNAL at its target: at a level the hallmark permits (01 R25), and at hall level only under a grant; otherwise discarded as 12 R258
discards. The sender in the event is SRC_CORE. -/
def State.signalIn (s : State) (port : Nat) (p : Packet) : State :=
  let drop := s.raise { code := 0x0205, cls := 1, unit := p.dstCore, detail := dieDetail p.ctr 5 (p.dstCore / 24) p.srcCore 0 0 }
  if 96 ≤ p.dstCore then s
  else if s.maxLevel < devLevel s.myDev p.srcDev then drop
  else if devLevel s.myDev p.srcDev = 4 ∧ !s.granted p.srcDev then drop.fabEvent 0x040B 1 port p.srcDev 0
  else s.coreSignal p.dstCore p.ctr p.arg (4 * p.srcCore)

/-- BAR_ARRIVE at the home. -/
def State.barArriveIn (s : State) (p : Packet) : State :=
  let b := p.arg % 16
  let k := 288 + b
  if s.fbarHomeDev b ≠ s.myDev ∨ !barArmed (s.barCfg k) ∨ !(p.srcDev ∈ s.fbarMembers b) ∨ (s.bar k).poisoned then s
  else if natBit p.arg 15 then s.fbarPoisonHome b
  else s.fbarCount b p.srcDev (natBit p.arg 14) 512

/-- BAR_RELEASE at a member. -/
def State.barReleaseIn (s : State) (p : Packet) : State :=
  let b := p.arg % 16
  let k := 288 + b
  if s.fbarHomeDev b ≠ p.srcDev ∨ !barArmed (s.barCfg k) ∨ (s.bar k).orphan then s
  else if natBit p.arg 15 then s.barPoison k
  else if natBit p.arg 14 == (s.bar k).sense && !(s.bar k).poisoned then ((s.barReleaseOnce k).barRearrive k).fbarLocal b
  else s

/-- A delivered packet of a transfer, a signal or a barrier. -/
def State.deliverPacket (s : State) (port : Nat) (p : Packet) : State :=
  match p.typ with
  | 0x01 => s.storeIn p true
  | 0x02 => s.loadIn p false
  | 0x03 | 0x06 => s.dataIn p
  | 0x04 => s.storeIn p false
  | 0x05 => s.loadIn p true
  | 0x07 => s.ackIn port p
  | 0x08 => s.signalIn port p
  | 0x09 => s.barArriveIn p
  | 0x0A => s.barReleaseIn p
  | _ => s

/-- A packet arrives on a port: what the checks make of the state, and whether the packet is to be delivered. -/
def State.packetChecks (s : State) (port : Nat) (p : Packet) : State × Bool :=
  if !s.portUp port then (s, false)
  else if !p.legal then (s.fabEvent 0x0408 1 port p.srcDev 0x70, false)
  else if !s.joined && !(p.typ ∈ [0x0B, 0x0C, 0x0D]) then (s.ackPacket p 0x70, false)
  else if p.dstDev ≠ s.myDev then (s.forward port p, false)
  else
    let r := s.aliveCheck port p
    if r.2 then (r.1.perturb 6 port, true) else r

/-- A packet of a transfer, a signal, a barrier or RESYNC arrives on a port. -/
def State.packetIn (s : State) (port : Nat) (p : Packet) : State :=
  let r := s.packetChecks port p
  if r.2 then r.1.deliverPacket port p else r.1

/-! ### Rows: packets -/

/-- REMOTE_READ_SERVE: the load or get that waits at place `i`. -/
def execRemoteReadServe (i : Nat) (s : State) : Host.Outcome State Fault Refusal := .next (s.readServe i)

/-- STORE -/
def execStore (port : Nat) (p : Packet) (s : State) : Host.Outcome State Fault Refusal := onPort port (s.packetIn port (p.withTyp 0x01))

/-- LOAD_REQ -/
def execLoadReq (port : Nat) (p : Packet) (s : State) : Host.Outcome State Fault Refusal := onPort port (s.packetIn port (p.withTyp 0x02))

/-- LOAD_DATA -/
def execLoadData (port : Nat) (p : Packet) (s : State) : Host.Outcome State Fault Refusal := onPort port (s.packetIn port (p.withTyp 0x03))

/-- PUT -/
def execPut (port : Nat) (p : Packet) (s : State) : Host.Outcome State Fault Refusal := onPort port (s.packetIn port (p.withTyp 0x04))

/-- GET_REQ -/
def execGetReq (port : Nat) (p : Packet) (s : State) : Host.Outcome State Fault Refusal := onPort port (s.packetIn port (p.withTyp 0x05))

/-- GET_DATA -/
def execGetData (port : Nat) (p : Packet) (s : State) : Host.Outcome State Fault Refusal := onPort port (s.packetIn port (p.withTyp 0x06))

/-- ACK -/
def execAck (port : Nat) (p : Packet) (s : State) : Host.Outcome State Fault Refusal := onPort port (s.packetIn port (p.withTyp 0x07))

/-- SIGNAL -/
def execSignal (port : Nat) (p : Packet) (s : State) : Host.Outcome State Fault Refusal := onPort port (s.packetIn port (p.withTyp 0x08))

/-- BAR_ARRIVE -/
def execBarArrive (port : Nat) (p : Packet) (s : State) : Host.Outcome State Fault Refusal := onPort port (s.packetIn port (p.withTyp 0x09))

/-- BAR_RELEASE -/
def execBarRelease (port : Nat) (p : Packet) (s : State) : Host.Outcome State Fault Refusal := onPort port (s.packetIn port (p.withTyp 0x0A))

/-- RESYNC: taken by the checks of arrival. -/
def execResync (port : Nat) (p : Packet) (s : State) : Host.Outcome State Fault Refusal := onPort port (s.packetIn port (p.withTyp 0x0D))

/-- FABRIC_BARRIER_WATCHDOG: the home's watchdog, started at the first device arrival of a phase, or a member's own (R312). -/
def execFabricBarrierWatchdog (b : Nat) (home : Bool) (s : State) : Host.Outcome State Fault Refusal :=
  if b < 16 then
    let k := 288 + b
    let v := s.bar k
    .next (if !barArmed (s.barCfg k) || v.poisoned then s
      else if home then (if s.fbarHomeDev b == s.myDev && !(s.fbar b).cur.isEmpty then s.fbarPoisonHome b else s)
      else if v.orphan || v.cur.isEmpty then s else s.fbarPoisonLocal b)
  else .fault .noSuchPart

/-- ALIVE_ENTRY_AGE: a receive entry idle for 2^AGE_LOG2 cycles becomes UNSET (18 R397); with its device, whether the entry has wrong parity
as it is read: it is then broken, which is a gap (19 R404). -/
def execAliveEntryAge (dev : Nat × Bool) (s : State) : Host.Outcome State Fault Refusal :=
  .next (if dev.2 then
      ({ s with broken := addOnce dev.1 s.broken } : State).raise { code := 0x0803, cls := 0, unit := 0x85, detail := dev.1 % 2 ^ 18 * 2 ^ 8 + 2 ^ 7 }
    else if Tab.get 0 s.aliveAt dev.1 + 2 ^ s.rf .aliveCfg 0 0 5 0 ≤ s.time then
      { s with aliveRx := Tab.set 0 s.aliveRx dev.1 0, aliveAt := Tab.set 0 s.aliveAt dev.1 0, broken := s.broken.filter (· != dev.1) }
    else s)

/-! ### Grants (R307) -/

/-- Close every open hall-level window whose writer device is `dev`. -/
def State.closeGranted (s : State) (dev : Nat) : State :=
  if devLevel s.myDev dev ≠ 4 then s
  else (List.range 96).foldl (fun s c => (List.range 16).foldl (fun s w =>
    let v := s.win c w
    if v.isOpen && v.device s == dev then s.closeWin c w else s) s) s

/-- A write of FAB_GRANT[g]. -/
def State.fabGrantWrite (s : State) (g : Nat) (v : W32) : State :=
  let old := s.reg .fabGrant 0 g
  let new := putBits (putBits old 31 31 (bits v 31 31)) 17 0 (bits v 17 0)
  if old = new then s
  else
    let s := (s.setReg .fabGrant 0 g new).fabEvent 0x040A 2 0 (bits (if bitOf new 31 then new else old) 17 0) 0
    if bitOf old 31 && !(bitOf new 31 && bits new 17 0 == bits old 17 0) then s.closeGranted (bits old 17 0) else s

/-- FAB_GRANT_WRITE -/
def execFabGrantWrite (g : Nat) (v : W32) (s : State) : Host.Outcome State Fault Refusal :=
  if g < 16 then .next (s.fabGrantWrite g v) else .fault .noSuchPart

end Sys2Proof.Machine
end

