-- ==== Sys2Proof/Machine/Accept.lean ====
section
/-!
DEFINITION. Acceptance (spec 16 R346 to R358): the placement table's edits, mirrors and their messages, refusals, service programs
and models, key sets (04 R86, R87), and the acceptance of a job.
-/
namespace Sys2Proof.Machine

/-- CTRL cycles in a microsecond (14 R313: 2^16 cycles are 163.84 µs). -/
def usCycles : Nat := 400

/-- Round up to 64 bytes. -/
def pad64 (n : Nat) : Nat := (n + 63) / 64 * 64

/-! ### The placement table (16 R362, R363) -/

/-- Words E0 and E1 of a session, its ready generation included. -/
def sessWords (n : Nat) (v : Session) : Nat × Nat :=
  let k := if v.readyDir = 0 then (v.keyDie, v.gen, v.dir) else (v.readyDie, v.readyGen, v.readyDir)
  (2 ^ 63 + b2n v.partner * 2 ^ 62 + b2n v.taken * 2 ^ 61 + k.1 % 4 * 2 ^ 56 + k.2.1 % 256 * 2 ^ 48 + v.hot % 256 * 2 ^ 40
    + k.2.2 % 2 ^ 40, n * 2 ^ 40)

/-- A session's entry follows its state. -/
def State.plcSession (s : State) (n : Nat) : State :=
  let v := s.session n
  let e := if v.isOpen || v.partner then sessWords n v else (0, 0)
  s.plcEdit (fun t => { t with sess := Tab.set (0, 0) t.sess (plcKey n v) e })

/-- The core state in the shadow table. A core that can no longer be placed makes the commit due (R363). -/
def State.plcCoreState (s : State) (cs : List Nat) (v : Nat) : State :=
  let s := s.plcEdit (fun t => { t with cores := cs.foldl (fun a c => Tab.set 0 a c v) t.cores })
  if v = 0 ∨ v = 4 then s else { s with commitNow := true }

/-! ### Witness messages (16, pairing; R351, R352) -/

/-- WIT_STATUS.STATE: 0 UNPAIRED, 1 PAIRING, 2 PAIRED, 3 LOST. -/
def State.witState (s : State) : Nat := s.rf .witStatus 0 0 2 0
def State.paired (s : State) : Bool := s.witState == 2

/-- MIRROR of a piece of a body: KIND and the byte offset, then data. -/
def State.mirrorPiece (s : State) (session job kind off : Nat) (bs : List Byte) : State :=
  (List.range (ceilDiv bs.length 4032)).foldl (fun s i =>
    s.wit 0x10 session job (natLE 1 kind ++ natLE 7 (off + 4032 * i)) ((bs.drop (4032 * i)).take 4032)) s

/-- MIRROR_END of a record: KIND, GEN, BODY_LEN and the body's CRC-64. -/
def State.mirrorEnd (s : State) (n : Nat) : State :=
  let r := s.jrec n
  (s.wit 0x11 r.session r.job (natLE 1 r.kind ++ natLE 1 r.gen ++ natLE 8 r.bodyLen ++ natLE 8 (crc64 (s.readBytes r.body r.bodyLen))) []).setRec n
    { r with ended := some s.time }

/-- The whole body mirrored (again), and its end (R352). -/
def State.mirrorWhole (s : State) (n : Nat) : State :=
  let r := s.jrec n
  (s.mirrorPiece r.session r.job r.kind 0 (s.readBytes r.body r.bodyLen)).mirrorEnd n

/-! ### Refusals (15 R338; 16 R353) -/

/-- A job number has been refused (15 R338). -/
def Session.refuse (v : Session) (job : Nat) : Session := { v with highRef := max v.highRef job, refused := addOnce job v.refused }

/-- JOB_REFUSE with a reason; the job's record is freed, its mirror abandoned. -/
def State.dropJob (s : State) (n reason : Nat) (detail : List Nat) : State :=
  let r := s.jrec n
  let s := s.sendReason r.session 0x22 r.job reason detail
  let s := { s with reasm := s.reasm.filter (fun m => m.slot != n) }
  let s := (s.freeRec n).modSession r.session (fun v => v.refuse r.job)
  s.wit 0x14 r.session r.job [] []

/-- A refusal for the witness's or the journal's sake (R353). -/
def State.refuseSlot (s : State) (n st : Nat) : State :=
  let r := s.jrec n
  ((s.dropJob n 0x26 [st]).accEvent 0x0602 2 r.session st r.job).countReg .refusedCnt 0 0 1

/-! ### Service programs and the trust list (21 R460) -/

def State.progBase (s : State) : Nat := addr16 (s.reg .progBase)

/-- Part `i` of the program section: 0 programs, 1 streams, 2 trust list, 3 assay vectors: address and length. -/
def State.progPart (s : State) (i : Nat) : Nat × Nat :=
  if s.progLen = 0 then (0, 0)
  else (s.progBase + s.readLE (s.progBase + 16 * i) 8, s.readLE (s.progBase + 16 * i + 8) 8)

/-- A program descriptor. -/
structure Program where
  entry : Nat
  need : Nat
  modeS : Bool
  csplit : Nat
  outDrawer : Nat
  inDrawer : Nat
  hot : List Nat
  deriving DecidableEq, Repr

/-- The descriptor of a PROGRAM index. -/
def State.program (s : State) (p : Nat) : Option Program :=
  let t := s.progPart 0
  (List.range (min (t.2 / 64) 65536)).findSome? (fun i =>
    let a := t.1 + 64 * i
    let d0 := s.readLE a 8
    let d1 := s.readLE (a + 8) 8
    if natBits d0 15 0 = p ∧ natBits (s.readLE (a + 56) 8) 63 32 = crc32c (s.readBytes a 60) then
      some { entry := natBits d0 63 32, need := natBits d0 20 16, modeS := natBit d1 19, csplit := natBits d1 18 16
             outDrawer := natBits d1 15 8, inDrawer := natBits d1 7 0
             hot := ((List.range 8).map (fun k => s.readLE (a + 16 + 2 * k) 2)).filter (· != 0xFFFF) }
    else none)

/-- The address of the trust-list entry with an index and a role. -/
def State.trust (s : State) (idx role : Nat) : Option Nat :=
  let t := s.progPart 2
  ((List.range (min (t.2 / 2752) 64)).map (fun i => t.1 + 2752 * i)).find? (fun a =>
    s.readLE a 1 == idx && s.readLE (a + 1) 1 == role)

/-! ### Model images (15 R341; 23 R497) -/

/-- Header of a model image: VERSION byte 0, MODEL bytes 1 and 2, generation byte 3, profile slot byte 4, body length bytes 8 to
15, SHA-384 bytes 16 to 63 (the order of R341's list; assumption 81). -/
structure ModelHdr where
  version : Nat
  model : Nat
  gen : Nat
  prof : Nat
  len : Nat
  digest : List Byte
  deriving DecidableEq, Repr

def State.modelHdr (s : State) (a : Nat) : ModelHdr :=
  ⟨s.readLE a 1, s.readLE (a + 1) 2, s.readLE (a + 3) 1, s.readLE (a + 4) 1, s.readLE (a + 8) 8, s.readBytes (a + 16) 48⟩

/-- Bytes of the signature block: ECDSA P-384, ML-DSA-87. -/
def modelSigLen : Nat := 96 + 4627

/-- Both signatures verify under an operator authority of the trust list, and the digest matches. -/
def State.modelGood (s : State) (r : JRec) : Bool :=
  let h := s.modelHdr r.body
  let hd := s.readBytes r.body 64
  let sig := s.readBytes (r.body + 64 + h.len) modelSigLen
  let t := s.progPart 2
  h.version == 1 && r.bodyLen == 64 + h.len + modelSigLen && sha384 (s.readBytes (r.body + 64) h.len) == h.digest
  && (List.range (min (t.2 / 2752) 64)).any (fun i =>
    let a := t.1 + 2752 * i
    s.readLE (a + 1) 1 == 2 && p384Verify (s.readBytes (a + 8) 97) (sha384 hd) (sig.take 96)
      && dsaVerify 0x0B (s.readBytes (a + 112) 2592) (sha384 hd) (sig.drop 96))

/-- The journal slot of a usable model. -/
def State.modelSlot (s : State) (m : Nat) : Option Nat :=
  match Tab.get 0 s.models m with
  | 0 => none
  | n + 1 => some n

/-- First byte of pewter slot `k` of die `d` (23 R496). -/
def pewterSlot (d k : Nat) : Nat := d * dieRange + 0x23BFD00000 + k * 0x8000000

/-- The pewter key slot an image is for (23 R497). -/
def State.pewterKey (s : State) (n : Nat) : Option Nat :=
  let p := (s.modelHdr (s.jrec n).body).prof
  if 0xF1 ≤ p ∧ p ≤ 0xF7 then some (p - 0xF0) else none

/-- An operator key image is copied into its slot of every die. -/
def State.copyPewterKey (s : State) (n : Nat) : State :=
  match s.pewterKey n with
  | none => s
  | some k =>
    let r := s.jrec n
    let bs := s.readBytes (r.body + 64) (s.modelHdr r.body).len
    (List.range 4).foldl (fun s d => s.hubStore (pewterSlot d k) bs) s

/-- An accepted image becomes usable, or is refused. A pewter key for a slot already filled waits for the epoch commit. -/
def State.modelAccepted (s : State) (n : Nat) : State :=
  let r := s.jrec n
  if s.modelGood r then
    let m := (s.modelHdr r.body).model
    let later := match s.pewterKey n with
      | some k => s.models.any (fun e => s.pewterKey (e.2 - 1) == some k)
      | none => false
    let s := { s with models := Tab.set 0 s.models m (n + 1) }
    if later then s.plcEdit id else s.copyPewterKey n
  else
    ((s.sendReason r.session 0x22 r.job 0x27 []).freeRec n).svcEvent 0x050B 1 (s.session r.session).port r.session 0x27 r.job

/-! ### The checks of a complete job (15 R338; 23 R505, R506) -/

/-- The objects of a body from an address, and the address after them; none where they pass its end. -/
def State.jobObjects (s : State) (stop : Nat) : Nat → Nat → Option (List Nat)
  | 0, a => if a = stop then some [] else none
  | n + 1, a =>
    let z := a + pad64 (64 + (Header.ofBytes (s.readBytes a 64)).bodyLen)
    if stop < a + 64 ∨ stop < z then none else (s.jobObjects stop n z).map (a :: ·)

def State.jobProgram (s : State) (r : JRec) : Nat := natBits (s.readLE r.body 8) 47 32
def State.jobModel (s : State) (r : JRec) : Nat := natBits (s.readLE r.body 8) 31 16

/-- The die of a pewter job (23 R505). -/
def State.pewterDie (s : State) (r : JRec) : Option Nat :=
  if 0xFFF0 ≤ s.jobProgram r ∧ s.jobProgram r ≤ 0xFFF3 then some (s.jobProgram r - 0xFFF0) else none

/-- Parts of a pewter job's body: numbers of inputs, gates and outputs; addresses of the gate words, the output words and the
input records. -/
structure PwBody where
  nin : Nat
  ngate : Nat
  nout : Nat
  gates : Nat
  outs : Nat
  ins : Nat
  deriving DecidableEq, Repr

def State.readBE (s : State) (a n : Nat) : Nat := beNat (s.readBytes a n)

def State.pwBody (s : State) (r : JRec) : PwBody :=
  let a := r.body + 64
  let i := s.readBE a 4
  let g := s.readBE (a + 4) 4
  let o := s.readBE (a + 8) 4
  ⟨i, g, o, a + 64, a + 64 + pad64 (8 * g), a + 64 + pad64 (8 * g) + pad64 (4 * o)⟩

/-- The checks of R506. -/
def State.pwBodyOk (s : State) (r : JRec) : Bool :=
  let b := s.pwBody r
  decide (1 ≤ b.nin ∧ 1 ≤ b.ngate ∧ 1 ≤ b.nout ∧ b.nin + b.ngate ≤ 7680)
  && b.ins + 3072 * b.nin == r.body + r.bodyLen
  && (s.readBytes (r.body + 76) 52).all (· == 0)
  && (List.range b.ngate).all (fun g =>
    let w := s.readBE (b.gates + 8 * g) 8
    let code := natBits w 63 60
    decide (1 ≤ code ∧ code ≤ 8) && natBits w 59 51 == 0 && decide (natBits w 50 34 < b.nin + g)
    && decide (natBits w 33 17 < b.nin + g) && (if code = 8 then decide (natBits w 16 0 < b.nin + g) else natBits w 16 0 == 0))
  && (List.range b.nout).all (fun o => decide (s.readBE (b.outs + 4 * o) 4 < b.nin + b.ngate))

/-- The descriptor's own fields: VERSION, reserved fields, BODY_LEN. -/
def State.descOk (s : State) (r : JRec) : Bool :=
  let j0 := s.readLE r.body 8
  decide (64 ≤ r.bodyLen) && natBits j0 7 0 == 1 && natBits j0 63 48 == 0 && (s.readBytes (r.body + 24) 40).all (· == 0)
  && s.readLE (r.body + 8) 8 == r.bodyLen - 64

/-- R41 on an object and the session of its key tag: the failing status. -/
def State.objectFail (s : State) (session a : Nat) : Option Nat :=
  let h := Header.ofBytes (s.readBytes a 64)
  let p := s.profOf h
  match h.check p (s.bankOf p) with
  | some f => some f.status
  | none => if h.isCt && natBits h.keytag 63 40 != session then some stKeytag else none

/-- The checks before acceptance: none where all pass, else REASON and detail. -/
def State.jobCheck (s : State) (r : JRec) : Option (Nat × List Nat) :=
  let nobj := natBits (s.readLE r.body 8) 15 8
  let noKeys := if (s.session r.session).dir = 0 then some (0x24, []) else none
  if !s.descOk r then some (0x21, [])
  else match s.pewterDie r with
    | some _ =>
      if s.rf .hmPolicy 0 0 2 2 = 0 ∨ !((s.modelSlot (s.jobModel r)).bind s.pewterKey).isSome then some (0x22, [])
      else if !s.pwBodyOk r then some (0x21, []) else noKeys
    | none =>
      match (if 1 ≤ nobj ∧ nobj ≤ 16 then s.jobObjects (r.body + r.bodyLen) nobj (r.body + 64) else none) with
      | none => some (0x21, [])
      | some objs =>
        if (s.program (s.jobProgram r)).isNone ∨ (s.modelSlot (s.jobModel r)).isNone then some (0x22, [])
        else match (objs.zipIdx).findSome? (fun e => (s.objectFail r.session e.1).map (fun st => (0x23, [st, e.2]))) with
          | some f => some f
          | none => noKeys

/-! ### Acceptance (16 R346, R352 to R354) -/

/-- JOB_ACK of a job number. -/
def State.jobAck (s : State) (session job : Nat) : State := s.sendFrame session 0x21 job 0 1 false true (natLE 4 job)

/-- The instant of acceptance. -/
def State.acceptSlot (s : State) (n : Nat) : State :=
  let r := s.jrec n
  let s := s.setRec n { r with state := 3, time := s.time, confirmed := true }
  let s := ((s.countReg .acceptedCnt 0 0 1).accEvent 0x0601 3 r.session 0 r.job).modSession r.session
    (fun v => { v with highAcc := max v.highAcc r.job })
  let s := s.jobAck r.session r.job
  if r.kind = 3 then s.modelAccepted n
  else match s.pewterDie r with
    | some d => { s with pwq := Tab.set [] s.pwq d (Tab.get [] s.pwq d ++ [n]) }
    | none => s

/-- Is acceptance of a job held back by an earlier one of its session: STAGED, in DOUBT, or HELD out of DOUBT? -/
def State.heldBack (s : State) (n : Nat) : Bool :=
  let r := s.jrec n
  s.journal.any (fun e => e.2.session == r.session && e.2.origin == 0 && (e.2.kind == 1 || e.2.kind == 3)
    && decide (e.2.job < r.job) && (e.2.state == 1 || e.2.state == 2 || (e.2.state == 6 && !e.2.confirmed)))

/-- Every confirmed job of a session that nothing holds back is accepted, in job order. -/
def State.acceptReady (s : State) (session : Nat) : State :=
  let slots := s.recsWhere (fun r => r.session == session && r.origin == 0 && (r.kind == 1 || r.kind == 3)
    && (r.state == 1 || r.state == 2) && r.confirmed)
  (slots.foldl (fun acc n => s.insertByJob n acc) []).foldl (fun s n => if s.heldBack n then s else s.acceptSlot n) s

/-! ### Key sets (04 R78 to R87; 15 R335; 16 R367) -/

/-- The generation an upload must have. -/
def nextGen (v : Session) : Nat := (v.gen + 1) % 256

/-- Bytes of die `d`'s key chest in use. -/
def State.chestUsed (s : State) (d : Nat) : Nat := ((s.keysets.filter (fun k => k.die == d)).map (fun k => pad64 k.len)).sum
def State.chestFree (s : State) (d : Nat) : Nat := let r := s.chestRange d; r.2 - r.1 - s.chestUsed d

/-- The lowest place in a die's chest that takes `len` bytes. -/
def State.chestPlace (s : State) (d len : Nat) : Option Nat :=
  let r := s.chestRange d
  let used := (s.keysets.filter (fun k => k.die == d)).map (fun k => (k.dir, k.dir + pad64 k.len))
  let fits := fun a => decide (r.1 ≤ a ∧ a + len ≤ r.2 ∧ 0 < a) && used.all (fun u => decide (a + len ≤ u.1 ∨ u.2 ≤ a))
  (r.1 :: used.map (·.2)).foldl (fun best a => if fits a then (match best with
    | none => some a
    | some b => some (min a b)) else best) none

/-- Sessions whose key die is `d`. -/
def State.dieSessions (s : State) (d : Nat) : Nat := (s.sessions.filter (fun e => e.2.dir != 0 && e.2.keyDie == d)).length

/-- The die for a set: its session's own where it fits, else the one with the most free chest, then the fewest sessions, then the
lower number (16 R367). -/
def State.keyDieFor (s : State) (n len : Nat) : Option (Nat × Nat) :=
  let v := s.session n
  let best := [1, 2, 3].foldl (fun b d =>
    if s.chestFree b < s.chestFree d ∨ (s.chestFree b = s.chestFree d ∧ s.dieSessions d < s.dieSessions b) then d else b) 0
  match (if v.dir ≠ 0 then (s.chestPlace v.keyDie len).map (fun a => (v.keyDie, a)) else none) with
  | some x => some x
  | none => (s.chestPlace best len).map (fun a => (best, a))

/-- What the checks of an upload found: the address of each key's record by index, or the failing check and key index. -/
inductive KeyRes where
  | good (keys : List (Nat × Nat))
  | bad (check idx : Nat)
  deriving DecidableEq, Repr

/-- R86 on one record: the failing check, 0 where all pass. -/
def State.keyRecFail (s : State) (session gen : Nat) (valid : Nat → Bool) (seen : List Nat) (a : Nat) : Nat :=
  let k0 := s.readLE a 8
  let tag := s.readLE (a + 8) 8
  let k6 := s.readLE (a + 48) 8
  let k7 := s.readLE (a + 56) 8
  let i := tagIndex tag
  if natBits k0 7 0 ≠ 1 ∨ natBits k0 15 8 ≠ 0x31 ∨ natBits k7 63 32 ≠ crc32c (s.readBytes a 60) ∨ natBits k0 63 56 ≠ 0
      ∨ natBits k0 31 29 ≠ 0 ∨ natBits k6 63 48 ≠ 0 ∨ natBits k7 31 0 ≠ 0 then 1
  else if tagCrc tag ≠ computeTagCrc tag ∨ natBits tag 63 40 ≠ session ∨ natBits tag 39 32 ≠ gen ∨ !valid i ∨ i ∈ seen then 2
  else match s.profile (natBits k0 23 16) with
    | none => 3
    | some p =>
      if natBits k0 28 24 ≠ p.log2n ∨ natBits k0 39 32 ≠ p.dnum ∨ natBits k0 47 40 ≠ p.numQ ∨ natBits k0 55 48 ≠ p.numP then 3
      else if natBits k6 47 0 ≠ p.dnum * (p.numQ + p.numP) * 2 ^ p.log2n * 6 then 4 else 0

/-- The records of a body from an address on, in ascending key index, every one of the same profile (04 R78, R86).
The check numbers of a truncated record, a 129th, an order and another profile are a DESIGN CHOICE (log entry 133). -/
def State.keyRecords (s : State) (session gen : Nat) (valid : Nat → Bool) (stop : Nat) :
    Nat → Nat → List (Nat × Nat) → KeyRes
  | 0, _, acc => .bad 2 ((acc.length : Nat))
  | fuel + 1, a, acc =>
    if a = stop then .good acc
    else
      let i := tagIndex (s.readLE (a + 8) 8)
      if stop < a + 64 then .bad 1 0
      else
        let ck := s.keyRecFail session gen valid (acc.map (·.1)) a
        let prof := fun b => natBits (s.readLE b 8) 23 16
        let order := acc.getLast?.elim true (fun e => decide (e.1 < i))
        if ck ≠ 0 then .bad ck i
        else if !order then .bad 2 i
        else if !(acc.all (fun e => prof e.2 == prof a)) then .bad 3 i
        else s.keyRecords session gen valid stop fuel (a + 64 + natBits (s.readLE (a + 48) 8) 47 0) (acc ++ [(i, a)])

/-- The checks of a set whose step table stands at `dir + 1024`; a rotation key without a VALID step is check 2 (DESIGN CHOICE, log entry
133). -/
def State.keySetCheck (s : State) (session gen dir len : Nat) : KeyRes :=
  let ok := fun i => (dirPos i).isSome && (!(decide (2 ≤ i ∧ i ≤ 65)) || natBit (s.readLE (dir + 1024 + 4 * (i - 2)) 4) 31)
  s.keyRecords session gen ok (dir + 1024 + len) 129 (dir + 1280) []

/-- Bytes of the key records that the other sets of a die have marked HOT. -/
def State.hotHeld (s : State) (die dir : Nat) : Nat :=
  ((s.keysets.filter (fun k => k.die == die && k.dir != dir)).map (fun k =>
    ((List.range 128).map (fun e =>
      let w := s.readLE (k.dir + 8 * e) 8
      if natBit w 63 && natBit w 62 then 64 + natBits (s.readLE (natBits w 39 6 * 64 + 48) 8) 47 0 else 0)).sum)).sum

/-- The keys of a set that the engine marks HOT: index 0, then those the hot lists of the programs name, until the HOT records of the key
die reach the KEEP quota of its caches (16 R367; 13 R281). -/
def State.hotKeys (s : State) (dir die : Nat) (keys : List (Nat × Nat)) : List Nat :=
  let quota := ((List.range 3).map (fun k => s.rf .cacheCfg (3 * die + k) 0 4 0)).sum * 0x100000
  let t := s.progPart 0
  let listed := (List.range (min (t.2 / 64) 65536)).flatMap (fun i =>
    (List.range 8).map (fun k => s.readLE (t.1 + 64 * i + 16 + 2 * k) 2))
  let want := (0 :: listed).foldl (fun l i => addOnce i l) []
  (want.foldl (fun (a : List Nat × Nat) i => match keys.find? (fun e => e.1 == i) with
    | none => a
    | some e =>
      if a.2 < quota then (a.1 ++ [i], a.2 + 64 + natBits (s.readLE (e.2 + 48) 8) 47 0) else a) ([], s.hotHeld die dir)).1

/-- The directory of a checked set (04 R85). -/
def State.writeDir (s : State) (dir die : Nat) (keys : List (Nat × Nat)) : State :=
  let hot := s.hotKeys dir die keys
  let word := fun (e : Nat) => match keys.find? (fun k => dirPos k.1 == some e) with
    | some k => 2 ^ 63 + b2n (decide (k.1 ∈ hot)) * 2 ^ 62 + k.1 * 2 ^ 40 + k.2 / 64 * 64
    | none => 0
  s.hubStore dir ((List.range 128).flatMap (fun e => natLE 8 (word e)))

/-- A set is ready: it becomes current at the next epoch commit (04 R87). -/
def State.keySetReady (s : State) (n gen die dir : Nat) : State :=
  let hot := ((List.range 128).filter (fun e => natBit (s.readLE (dir + 8 * e) 8) 62)).length
  (s.modSession n (fun v => { v with readyGen := gen, readyDie := die, readyDir := dir, keyBusy := false, hot := hot })).plcSession n

/-- KEYSET_DONE (15 R335). -/
def State.keySetDone (s : State) (n reason check idx : Nat) : State :=
  let s := s.sendReason n 0x11 0 reason [check, idx % 256, idx / 256]
  if reason = 0 then s else s.svcEvent 0x050A 1 (s.session n).port n reason 0

/-- The set at a directory, whose generation never becomes current, is removed. -/
def State.dropKeySet (s : State) (n dir : Nat) : State :=
  (s.releaseSets (fun k => k.dir == dir)).modSession n (fun v => { v with keyBusy := false })

end Sys2Proof.Machine
end

