-- ==== Sys2Proof/Machine/Recover.lean ====
section
/-!
DEFINITION. The journal read back after a reset (spec 16 R347, R348, R359 step 1), and the sessions, key sets and models that its records
stand for.
-/
namespace Sys2Proof.Machine

/-- A record read from the journal, by slot: absent where nothing stands there. A record at or past acceptance has its confirmation; one
HELD without a time of acceptance was in DOUBT. -/
def State.readSlot (s : State) (n : Nat) : Option (Option JRec) :=
  let a := s.jrnlBase + 64 * n
  if (Mem.get? s.mem a).isNone then none
  else some ((JRec.ofBytes (s.readBytes a 64)).map (fun r =>
    { r with confirmed := decide (3 ≤ r.state) && !(r.state == 6 && r.time == 0) }))

/-- Step 1: the record area read back; a bad record is counted and set aside as state 7. -/
def State.readJournal (s : State) : State :=
  (List.range 65536).foldl (fun s n => match s.readSlot n with
    | none => s
    | some none =>
      (({ s with journal := Tab.set {} s.journal n { state := 7 } } : State).accEvent 0x0607 1 0 0x65 0).countReg .recordBad 0 0 1 |>.countReg .cvMismatch 0 12 1
    | some (some r) => if r.state = 0 then s else { s with journal := Tab.set {} s.journal n r }) s

/-- A session comes back from its session record, key set and jobs; an ACCEPTED pewter job waits for its die again. -/
def State.recoverSession (s : State) (k : Nat) : State :=
  let r := s.jrec k
  let n := r.session
  if r.state < 3 ∨ 6 < r.state then s
  else match r.kind with
    | 4 =>
      let b := s.readBytes r.body 64
      (s.modSession n (fun v => { v with cred := b.take 48, role := ((b.drop 48).headD 0).toNat, isOpen := v.isOpen || r.origin == 0
                                         partner := r.origin == 1 })).plcSession n
    | 2 =>
      let d := r.body / dieRange
      let ks : KeySet := { session := n, gen := r.gen, die := d, dir := r.body - 1024, len := 1024 + r.bodyLen }
      (({ s with keysets := s.keysets ++ [ks] } : State).modSession n (fun v => { v with partner := r.origin == 1 })).keySetReady n r.gen d
        (r.body - 1024)
    | 3 => if r.origin = 0 ∧ s.modelGood r then
        (({ s with models := Tab.set 0 s.models (s.modelHdr r.body).model (k + 1) } : State).modSession n
          (fun v => { v with highAcc := max v.highAcc r.job })).copyPewterKey k else s
    | _ =>
      let s := s.modSession n (fun v => { v with highAcc := max v.highAcc r.job })
      match (if r.origin = 0 ∧ r.state = 3 then s.pewterDie r else none) with
      | some d => { s with pwq := Tab.set [] s.pwq d (Tab.get [] s.pwq d ++ [k]) }
      | none => s

/-- Put a slot into a list of slots in order of acceptance. -/
def State.insertByTime (s : State) (n : Nat) : List Nat → List Nat
  | [] => [n]
  | m :: ms => if (s.jrec n).time < (s.jrec m).time then n :: m :: ms else m :: s.insertByTime n ms

/-- The journal is read once in a start, before pairing. After a power-on reset every record is FREE (R348). -/
def State.journalIn (s : State) : State :=
  if s.jrnlSize = 0 || s.init.read then s
  else
    let s : State := { s with init := { s.init with read := true } }
    let s := if bitOf (s.reg .rstCause) 0 then State.forget { s with journal := [] } s.jrnlBase (s.jrnlBase + jrnlRecordArea) else s.readJournal
    ((s.journal.map (·.1)).foldl (fun l n => s.insertByTime n l) []).foldl State.recoverSession s

end Sys2Proof.Machine
end

