-- ==== Sys2Proof/Machine/Links.lean ====
section
/-!
DEFINITION. Fabric ports and device time (spec 14 R290, R292, R300, R313 to R315): link frames, training, joining, the time
parent, and the arming of fabric barriers.
-/
namespace Sys2Proof.Machine

/-! ### Time parents (R313) -/

/-- The lowest set bit of a shelf number, as its mask. -/
def lowBit (h : Nat) : Nat := if h % 2 = 1 then 1 else if h / 2 % 2 = 1 then 2 else 4

/-- A device's time parent; none for the master of row 0. -/
def timeParent (d : Nat) : Option Nat :=
  if devIndex d ≠ 0 then
    let h := devShelf d
    if devSlot d ≠ 0 then some (d / 8 * 8)
    else some (d / 64 * 64 + 8 * (if h ∈ [1, 2, 4, 7] then 0 else h.xor (lowBit h)))
  else if devRack d ≠ 0 then some (devRow d * 4096)
  else if devRow d ≠ 0 then some 0 else none

/-- The port that joins a device to its parent within the rack; a rack master uses the routed path. -/
def parentPort (d : Nat) : Option Nat :=
  match timeParent d with
  | some q => if devIndex d = 0 then none else (rackRoutes d (devIndex q)).head?
  | none => none

/-- Is the time parent UP? -/
def State.parentUp (s : State) : Bool :=
  match timeParent s.myDev with
  | none => true
  | some q => match parentPort s.myDev with
    | some p => s.portUp p
    | none => (s.route s.myDev q).isSome

/-! ### Pairing begins (16 R349) -/

/-- WIT_STATUS.STATE changes: 0 UNPAIRED, 1 PAIRING, 2 PAIRED, 3 LOST. A partner that comes or goes is a change of the placement table
(16 R362). -/
def State.setWit (s : State) (n : Nat) : State :=
  let t := s.setRf .witStatus 0 0 2 0 n
  if (s.witState == 2) == (n == 2) then t else t.plcEdit id

/-- What PAIR and PAIR_ACK carry: device ID, session range, per session the highest accepted and released job numbers, and the
sessions this device has taken. Where a record has been set aside, no job above the released ones is claimed, so that the partner gives
back what it holds (R359). -/
def State.pairData (s : State) : List Byte :=
  let own := s.sessions.filter (fun e => e.2.isOpen || e.2.partner)
  let lost := s.journal.any (fun e => e.2.state == 7)
  natLE 4 s.myDev ++ natLE 3 (s.rf .svcSess 0 0 23 0) ++ natLE 2 (s.rf .svcSessCnt 0 0 14 0)
  ++ natLE 2 own.length ++ own.flatMap (fun e => natLE 3 e.1 ++ natLE 4 (if lost then e.2.highAck else e.2.highAcc) ++ natLE 4 e.2.highAck)
  ++ (s.sessions.filter (fun e => e.2.taken)).flatMap (fun e => natLE 3 e.1)

/-- Start pairing. -/
def State.startPairing (s : State) : State :=
  match s.partnerDev with
  | none => s.setWit 0
  | some _ => (s.setWit 1).wit 0x01 0 0 [] s.pairData

/-! ### Joining (R315) -/

/-- A port that trains: enabled, and not held DISABLED by the hallmark (R292). -/
def State.portEnabled (s : State) (p : Nat) : Bool := bitOf (s.reg .portCtrl p) 0 && !s.portDisabled p

/-- JOINED, once its three conditions hold; the master of row 0 has no parent to agree with. Start-up goes on to pairing. -/
def State.checkJoined (s : State) : State :=
  let settled := (List.range 16).all (fun p => !s.portEnabled p || decide (2 ≤ s.portState p))
  if !s.joined && settled && s.parentUp && (decide (16 ≤ s.timeGood) || timeParent s.myDev == none) then
    let s := (s.setRf .fabCfg 0 0 9 9 1).fabEvent 0x040C 2 0 s.myDev 0
    if s.boot = 8 then (let t := s.stepEnd 9; if t.boot = 9 then t.journalIn.startPairing else t) else s
  else s

/-- Fabric training has begun (21 R462 step 10). -/
def State.fabricBegan (s : State) : Bool := decide (8 ≤ s.boot ∧ s.boot ≠ 12 ∧ s.boot ≠ 14)

/-- A port's state. -/
def State.setPort (s : State) (p st : Nat) : State := s.setRf .portStatus p 0 31 29 st

/-- Fabric training starts on every enabled port. -/
def State.startFabric (s : State) : State :=
  ((List.range 16).foldl (fun s p => if s.portEnabled p then s.setPort p 1 else s) s).checkJoined

/-! ### Links (R290, R300, R314) -/

/-- A port goes down for eight failed retransmissions in a row. -/
def State.linkDown (s : State) (p : Nat) : State :=
  ((({ s with links := Tab.set {} s.links p {} } : State).setPort p 4).fabEvent 0x0402 1 p (s.rf .portStatus p 0 17 0) 0).checkJoined

def State.modLink (s : State) (p : Nat) (f : Link → Link) : State := { s with links := Tab.set {} s.links p (f (Tab.get {} s.links p)) }

/-- A retransmission is recorded. -/
def State.linkRetried (s : State) (p : Nat) : State :=
  (s.countReg .portLinkRetry p 0 1).fabEvent 0x040D 3 p (s.rf .portStatus p 0 17 0) 0

/-- The packets that a port has sent since its link came up, one link frame each, oldest first. -/
def State.framesOf (s : State) (p : Nat) : List Packet :=
  (s.out.drop (Tab.get {} s.links p).base).filterMap (fun o => match o with
    | .pkt q x => if q = p then some x else none
    | _ => none)

/-- The peer asks for a frame again: it leaves once more from the replay buffer, with its number. The ninth request in a row for one frame
says that eight retransmissions of it have failed. -/
def State.linkResend (s : State) (p n : Nat) : State :=
  let l := Tab.get {} s.links p
  let k := if l.resent ≠ 0 ∧ l.nak = n % 4096 then l.resent + 1 else 1
  match (s.framesOf p).zipIdx.reverse.find? (fun e => e.2 % 4096 == n % 4096) with
  | none => s
  | some e => if k = 9 then s.linkDown p else ((s.modLink p (fun l => { l with nak := n % 4096, resent := k })).linkRetried p).send (.resend p (n % 4096) e.1)

/-- A frame that failed its CRC or came out of sequence: the awaited one is asked for again. A first failure and eight failed
retransmissions take the port down. -/
def State.linkFailed (s : State) (p : Nat) : State :=
  let l := Tab.get {} s.links p
  if l.fails = 8 then s.linkDown p
  else ((s.modLink p (fun l => { l with fails := l.fails + 1 })).linkRetried p).send (.link p l.rxSeq)

/-- LINK_FRAME_RECEIVE: a link frame arrives: whether its CRC matches, and the frame of this side that it asks for again. -/
def execLinkFrameReceive (port seq : Nat) (frame : Bool × Option Nat) (s : State) : Host.Outcome State Fault Refusal :=
  onPort port (if !s.portUp port then s
    else if !frame.1 then ((s.countReg .portCrcErr port 0 1).countReg .pcvMismatch port 0 1).linkFailed port
    else
      let s := if seq % 4096 = (Tab.get {} s.links port).rxSeq then s.modLink port (fun l => { l with rxSeq := (l.rxSeq + 1) % 4096, fails := 0 })
        else s.linkFailed port
      match frame.2 with
      | some n => if s.portUp port then s.linkResend port n else s
      | none => s)

/-- JOIN, to the device that the wiring rule names: device ID, port number, role and hallmark maximum level (R314). -/
def State.sendJoin (s : State) (p : Nat) : State :=
  s.sendBy p 0x7F (wiredPeer s.myDev p).1 0x0C 0 0x7F 1 0 0 0
    (fill64 (natLE 4 s.myDev ++ natLE 1 p ++ natLE 1 (portRole p).1 ++ natLE 1 s.maxLevel))

/-- PORT_TRAINING: a training attempt ends; lanes trained, the port sends JOIN; otherwise it is DOWN. `width`: 1 lanes 0–1,
2 lanes 2–3, 3 all four. -/
def execPortTraining (port : Nat) (ok : Bool) (width : Nat) (s : State) : Host.Outcome State Fault Refusal :=
  onPort port (if s.portState port ≠ 1 then s
    else if ok ∧ 1 ≤ width ∧ width ≤ 3 then
      (s.setRf .portStatus port 0 28 27 width).sendJoin port
    else
      State.checkJoined (((s.setPort port 4).setRf .portStatus port 0 28 27 0).countReg .portDownCount port 0 1
        |>.fabEvent 0x0402 1 port (s.rf .portStatus port 0 17 0) 0))

/-- TRAINING_RETRY: a DOWN port trains again. -/
def execTrainingRetry (port : Nat) (s : State) : Host.Outcome State Fault Refusal :=
  onPort port (if s.portState port = 4 ∧ s.portEnabled port then s.setPort port 1 else s)

/-- PORT_WIDTH_CHANGE: the usable lanes of a running port change. -/
def execPortWidthChange (port width : Nat) (s : State) : Host.Outcome State Fault Refusal :=
  onPort port (if !s.portUp port ∨ s.rf .portStatus port 0 28 27 = width ∨ 3 < width then s
    else ((s.setPort port (if width = 0 then 4 else 1)).setRf .portStatus port 0 28 27 width).fabEvent 0x0403 1 port
      (s.rf .portStatus port 0 17 0) 0)

/-- The peer's claims are held against the wiring rule. -/
def State.joinIn (s : State) (port peerDev peerPort role : Nat) : State :=
  let w := s.rf .portStatus port 0 28 27
  if s.portState port ≠ 1 ∨ w = 0 then s
  else
    let dev := peerDev % 2 ^ 18
    let pp := peerPort % 16
    let s := (s.setRf .portStatus port 0 17 0 dev).setRf .portStatus port 0 26 23 pp
    let s := { s with links := Tab.set {} s.links port { base := s.out.length } }
    if wiredPeer s.myDev port = (dev, pp) ∧ dev ≠ s.myDev ∧ role = (portRole port).1 then
      ((s.setPort port (if w = 3 then 2 else 3)).fabEvent 0x0401 2 port dev 0).checkJoined
    else ((s.setPort port 5).fabEvent 0x0404 1 port dev 0).checkJoined

/-- JOIN: hallmark levels need not agree. -/
def execJoin (port peerDev peerPort role level : Nat) (s : State) : Host.Outcome State Fault Refusal :=
  let _ := level
  onPort port (s.joinIn port peerDev peerPort role)

/-- A write of PORT_CTRL: ENABLE is ignored while the hallmark holds the port DISABLED. -/
def State.portCtrlWrite (s : State) (p : Nat) (v : W32) : State :=
  let was := s.portEnabled p
  let s := s.setReg .portCtrl p 0 (putBits (s.reg .portCtrl p) 0 0 (bits v 0 0))
  if was == s.portEnabled p then s
  else if was then ((s.setPort p 0).setRf .portStatus p 0 28 27 0).checkJoined
  else if s.fabricBegan then s.setPort p 1 else s

/-- PORT_CTRL_WRITE -/
def execPortCtrlWrite (port : Nat) (enable : Bool) (s : State) : Host.Outcome State Fault Refusal :=
  onPort port (s.portCtrlWrite port (BitVec.ofNat 32 (b2n enable)))

/-! ### Device time (R313) -/

/-- Time is no longer within bound. -/
def State.unsync (s : State) : State :=
  State.fabEvent { s.setRf .timeStatus 0 0 31 31 0 with timeGood := 0 } 0x0409 1 ((parentPort s.myDev).getD 0)
    ((timeParent s.myDev).getD 0) 0

/-- Rate and phase follow a measured offset (signed, 1/16 ns). After service has opened time never steps backward. -/
def State.timeTrim (s : State) (off : Int) : State :=
  let old : Int := (s.time : Int) * 2 ^ 32 + s.timeFrac
  let new := old + Config.timePhase off s.timeRate
  let v := (if s.serviceOpen ∧ new < old then old else new).toNat
  { s with time := v / 2 ^ 32, timeFrac := v % 2 ^ 32, timeRate := Config.timeRate off s.timeRate }

/-- TIME from the parent on a port: the offset this device measures, as its 16 bits, and the parent's time. The first one sets time in one
step, if service has not opened. -/
def State.timeIn (s : State) (port offset stamp : Nat) : State :=
  if !s.portUp port ∨ timeParent s.myDev = none ∨ (parentPort s.myDev).getD port ≠ port then s
  else if !s.timeSet ∧ !s.serviceOpen then { s with time := stamp % 2 ^ 64, timeFrac := 0, timeSet := true, timeMissed := 0 }
  else
    let s := State.timeTrim { s.setRf .timeStatus 0 0 15 0 (offset % 65536) with timeMissed := 0, timeSet := true } (signed 16 offset)
    let off := (signed 16 offset).natAbs
    if off ≤ 20 then State.checkJoined { s.setRf .timeStatus 0 0 31 31 1 with timeGood := s.timeGood + 1 }
    else if 160 < off ∧ (parentPort s.myDev).isSome then s.unsync
    else { s with timeGood := 0 }

/-- TIME. -/
def execTime (port offset stamp : Nat) (s : State) : Host.Outcome State Fault Refusal := onPort port (s.timeIn port offset stamp)

/-- TIME_SEND: TIME, stamped, to every device that follows this one and that a path reaches: within the rack by the port that joins the
two, else by the routed path. -/
def execTimeSend (s : State) : Host.Outcome State Fault Refusal :=
  let d := s.myDev
  let cands := (List.range 64).map (· + d / 64 * 64) ++ (List.range 64).map (fun k => devRow d * 4096 + 64 * k)
    ++ (List.range 64).map (fun w => 4096 * w)
  let kids := (cands.foldl (fun l x => addOnce x l) []).filter (fun x => timeParent x == some d)
  .next (kids.foldl (fun s x =>
    let bs := fill64 (natLE 8 s.time)
    match (parentPort x).map (fun p => (wiredPeer x p).2) with
    | some p => if s.portUp p ∧ devLevel d x ≤ s.maxLevel then s.sendBy p 0x7F x 0x0B 0 0x7F 1 0 0 0 bs else s
    | none => if devLevel d x ≤ s.maxLevel ∧ (s.route d x).isSome then (s.sendPacket 0x7F x 0x0B 0 0x7F 0 0 0 bs).1 else s) s)

/-- TIME_LOSS: four TIME messages in a row have been missed. -/
def execTimeLoss (s : State) : Host.Outcome State Fault Refusal :=
  .next (if timeParent s.myDev = none then s else State.unsync { s with timeMissed := 4 })

/-! ### Arming a fabric barrier (R311) -/

/-- The widest level between the home and a member this device knows of is permitted. -/
def State.fbarLevelOk (s : State) (b : Nat) : Bool :=
  let h := s.fbarHomeDev b
  decide (devLevel h s.myDev ≤ s.maxLevel)
    && (h != s.myDev || (s.fbarMembers b).all (fun d => decide (devLevel h d ≤ s.maxLevel)))

/-- A write of FBAR_CFG[b]. -/
def State.fbarCfgWrite (s : State) (b : Nat) (v : W32) (req : Nat) : State :=
  if barArmed v && !barArmed (s.barCfg (288 + b)) && !s.fbarLevelOk b then s.refuseState .fbarCfg 0 b req
  else s.barCfgWrite (288 + b) v req

/-- BAR_CFG_WRITE: a value for the configuration of a barrier (304) or a counter (320). -/
def execBarCfgWrite (counter : Bool) (key : Nat) (v : W32) (req : Nat) (s : State) : Host.Outcome State Fault Refusal :=
  if counter then (if key < 320 then .next (s.ctrCfgWrite key (v &&& 0xFFFFFFC0) req) else .fault .noSuchPart)
  else if key < 304 then .next (if key < 288 then s.barCfgWrite key (v &&& 0xFFFFFF80) req else s.fbarCfgWrite (key - 288) (v &&& 0xFFFFFF80) req)
  else .fault .noSuchPart

end Sys2Proof.Machine
end

