-- ==== Sys2Proof/Machine/Router.lean ====
section
/-!
DEFINITION. The event router behind its queue (spec 19 R409 to R416): the ring with its held and log areas, the hold buffer, the
management FIFO, the supervisors, and the closing of LOG windows.
-/
namespace Sys2Proof.Machine

/-! ### Records (R409) -/

/-- The four words of a record. -/
def Event.words (e : Event) : List Nat :=
  [e.time, 2 ^ 48 * e.code + 2 ^ 46 * e.cls + 2 ^ 45 * b2n e.summary + 2 ^ 44 * b2n e.coalesced + 2 ^ 43 * b2n e.coarse
     + 2 ^ 32 * e.unit + e.count, 2 ^ 40 * e.session + e.job, e.detail]

/-- A record as bytes. -/
def Event.bytes (e : Event) : List Byte := e.words.flatMap (natLE 8)

/-- A record from its bytes. -/
def Event.ofBytes (bs : List Byte) : Event :=
  let w := fun k => leNat ((bs.drop (8 * k)).take 8)
  { time := w 0, code := natBits (w 1) 63 48, cls := natBits (w 1) 47 46, summary := natBit (w 1) 45, coalesced := natBit (w 1) 44
    coarse := natBit (w 1) 43, unit := natBits (w 1) 39 32, count := natBits (w 1) 31 0, session := natBits (w 2) 63 40
    job := natBits (w 2) 31 0, detail := w 3 }

/-! ### The ring (R412, R413) -/

def State.ringBase (s : State) : Nat := addr16 (s.reg .evRingBase)
def State.heldWr (s : State) : Nat := s.rf .evHeldWr 0 0 21 0
def State.heldAck (s : State) : Nat := s.rf .evHeldAck 0 0 21 0

/-- Unacknowledged records in the held area. -/
def State.heldCount (s : State) : Nat := (s.heldWr + 2 ^ 22 - s.heldAck) % 2 ^ 22

/-- Slots of the held area, and of the ring. -/
def heldSlots : Nat := 2 ^ 21
def ringSlots : Nat := 2 ^ 25

/-- Write a record to a ring slot. -/
def State.ringWrite (s : State) (slot : Nat) (e : Event) : State := s.hubStore (s.ringBase + 32 * slot) e.bytes

/-- A record enters the held area, which has room. -/
def State.heldWrite (s : State) (e : Event) : State :=
  (s.ringWrite (s.heldWr % heldSlots) e).setRf .evHeldWr 0 0 21 0 ((s.heldWr + 1) % 2 ^ 22)

/-- A record enters the log area, which wraps. -/
def State.logWrite (s : State) (e : Event) : State :=
  let n := s.rf .evLogWr 0 0 24 0
  let s := s.ringWrite n e
  if n + 1 = ringSlots then (s.setRf .evLogWr 0 0 24 0 heldSlots).setRf .evLogWr 0 0 31 31 1 else s.setRf .evLogWr 0 0 24 0 (n + 1)

/-- General entries of the hold buffer. -/
def holdSize : Nat := 3840

/-- An ALARM or ERROR record finds the held area full. -/
def State.holdRecord (s : State) (e : Event) : State :=
  let r := s.router
  if hasSame e r.hold then State.countCoalesced { s with router := { r with hold := absorbIn e r.hold } } e
  else if r.hold.length < holdSize then { s with router := { r with hold := r.hold ++ [e] } }
  else State.countCoalesced { s with router := { r with holdRes := absorbCoarse e r.holdRes } } e

/-- The ring is configured (21 R462). -/
def State.ringReady (s : State) : Bool := decide (regAddr .evRingBase ∈ s.based)

/-- The ring's part of passing a record. -/
def State.toRing (s : State) (e : Event) : State :=
  if !s.ringReady then
    if hasSame e s.router.early then
      let t : State := { s with router := { s.router with early := absorbIn e s.router.early } }
      if e.cls ≤ 1 then t.countCoalesced e else t
    else { s with router := { s.router with early := s.router.early ++ [e] } }
  else if 2 ≤ e.cls then s.logWrite e
  else if s.heldCount < heldSlots ∧ s.router.hold.isEmpty ∧ s.router.holdRes.isEmpty then s.heldWrite e
  else s.holdRecord e

/-- The hold buffer's oldest record, by its first occurrence, and the buffer without it. -/
def Router.holdTake (r : Router) : Option (Event × Router) :=
  let general := r.hold.head?.map (fun e => (e, { r with hold := r.hold.drop 1 }))
  let reserved := r.holdRes.head?.map (fun e => (e, { r with holdRes := r.holdRes.drop 1 }))
  match general, reserved with
  | some a, some b => some (if a.1.time ≤ b.1.time then a else b)
  | some a, none => some a
  | none, b => b

/-- Records leave the hold buffer for the ring in order while slots are free. -/
def State.drainHold (s : State) : Nat → State
  | 0 => s
  | fuel + 1 =>
    if heldSlots ≤ s.heldCount then s
    else match s.router.holdTake with
      | some (e, r) => (State.heldWrite { s with router := r } e).drainHold fuel
      | none => s

/-- A write of EV_HELD_ACK: an acknowledgement up to `n`, refused where it would move back or past EV_HELD_WR. -/
def State.heldAckTo (s : State) (n : Nat) : Option State :=
  if n < 2 ^ 22 ∧ (n + 2 ^ 22 - s.heldAck) % 2 ^ 22 ≤ s.heldCount then
    some ((s.setRf .evHeldAck 0 0 21 0 n).drainHold 4096)
  else none

def State.heldAckWrite (s : State) (v : W32) (req : Nat) : State :=
  match s.heldAckTo (bits v 24 0) with
  | some t => t
  | none => s.refuseState .evHeldAck 0 0 req

/-- EV_HELD_ACK_WRITE. -/
def execEvHeldAckWrite (v : W32) (req : Nat) (s : State) : Host.Outcome State Fault Refusal := .next (s.heldAckWrite v req)

/-! ### Management and supervisors (R415; 22 R489) -/

/-- I3C mode with in-band interrupts enabled, and the class selected. -/
def State.ibiFor (s : State) (cls : Nat) : Bool :=
  s.enec && bitOf (s.reg .mgmtStatus) 0 && natBit (s.rf .mgmtCfg 0 0 3 0) cls

/-- A record enters the management FIFO. -/
def State.mgmtPush (s : State) (e : Event) : State :=
  let s := { s with router := { s.router with mgmt := s.router.mgmt ++ [e] } }
  if s.ibiFor e.cls then s.send (.ibi e.cls) else s

/-- A record for management: a full FIFO drops LOG and TRACE; ALARM and ERROR wait. -/
def State.toMgmt (s : State) (e : Event) : State :=
  if !natBit (s.rf .evDest 0 0 3 0) e.cls then s
  else if s.router.mgmt.length < 256 ∧ s.router.mgmtWait.isEmpty then s.mgmtPush e
  else if 2 ≤ e.cls then s.countReg .mgmtDrop 0 0 1
  else { s with router := { s.router with mgmtWait := s.router.mgmtWait ++ [e] } }

/-- A record joins the batch of every supervisor in use. -/
def State.toSups (s : State) (e : Event) : State :=
  if !natBit (s.rf .evDest 0 0 7 4) e.cls then s
  else (List.range 4).foldl (fun s k =>
    if bitOf (s.reg .evSup 0 k) 31 then
      { s with router := { s.router with supBatch := Tab.set [] s.router.supBatch k (Tab.get [] s.router.supBatch k ++ [e]) } }
    else s) s

/-- A record goes to the ring and to each destination of its class. -/
def State.passEvent (s : State) (e : Event) : State := ((s.toRing e).toMgmt e).toSups e

/-! ### The queue (R411) -/

/-- May the record at place `i` of the queue pass ahead: it has no earlier record of its unit? -/
def aheadOfUnit (q : List Event) (i : Nat) (e : Event) : Bool := (q.take i).all (fun k => k.unit != e.unit)

/-- The place of the oldest ALARM that has no earlier record of its unit. -/
def alarmPlace (q : List Event) : Option Nat :=
  (q.zipIdx).findSome? (fun e => if e.1.cls == 0 && aheadOfUnit q e.2 e.1 then some e.2 else none)

/-- A reserved entry that may pass: no record of its unit queued before its first occurrence is left. -/
def Router.reservedReady (r : Router) : Option Event :=
  r.reserved.find? (fun e => r.q.all (fun k => k.unit != e.unit || decide (e.time < k.time)))

/-- What the next slot takes, and the router without it. One slot in 20 is reserved for ALARM. -/
def Router.take (r : Router) : Option (Event × Router) :=
  let r' := { r with slotNo := (r.slotNo + 1) % 20 }
  let queued := fun (i : Nat) => (r.q[i]?).map (fun e => (e, { r' with q := r.q.eraseIdx i }))
  match (if r.slotNo = 19 then alarmPlace r.q else none) with
  | some i => queued i
  | none =>
    match r.reservedReady with
    | some e =>
      if r.q.all (fun k => decide (e.time ≤ k.time)) then some (e, { r' with reserved := r.reserved.filter (· != e) }) else queued 0
    | none => queued 0

/-- A record that fails parity is discarded; the router's own event is written ahead of every queued record (R404, R416). -/
def State.routerParity (s : State) : State :=
  let e : Event := { time := s.time, code := 0x0E01, cls := 0, unit := 0x8A, detail := 1 }
  let s := s.countReg .routerParity 0 0 1
  let s := if !s.ringReady then { s with router := { s.router with early := e :: s.router.early } }
    else if s.heldCount < heldSlots then s.heldWrite e
    else { s with router := { s.router with holdRes := absorbCoarse e s.router.holdRes } }
  (s.toMgmt e).toSups e

/-- Records that waited for the ring enter it. -/
def State.flushEarly (s : State) : State :=
  if s.ringReady then s.router.early.foldl State.toRing { s with router := { s.router with early := [] } } else s

/-- EVENT_ROUTE: the router's next slot; `bad`: the record it takes fails parity. -/
def execEventRoute (bad : Bool) (s : State) : Host.Outcome State Fault Refusal :=
  let s := s.flushEarly
  .next (match s.router.take with
    | none => { s with router := { s.router with slotNo := (s.router.slotNo + 1) % 20 } }
    | some (e, r) => let s : State := { s with router := r }; if bad then s.routerParity else s.passEvent e)

/-- LOG_WINDOW_CLOSE: the window of a pair of CODE and UNIT closes (R414); its summary, if records were suppressed. -/
def execLogWindowClose (code unit : Nat) (s : State) : Host.Outcome State Fault Refusal :=
  let due := fun (w : LogWin) => w.code == code && w.unit == unit && decide (w.opened + s.logWindow ≤ s.time)
  .next (match s.router.wins.find? due with
    | none => s
    | some w =>
      let s : State := { s with router := { s.router with wins := dropFirst due s.router.wins } }
      match w.first with
      | none => s
      | some e => s.enqueueEvent { e with time := w.opened + s.logWindow, count := min w.suppressed (2 ^ 32 - 1), summary := true })

/-! ### Commands of the destinations -/

/-- The record shown is removed; a waiting record takes its place. -/
def State.mgmtPop (s : State) : State :=
  let s : State := { s with router := { s.router with mgmt := s.router.mgmt.drop 1 } }
  match s.router.mgmtWait with
  | e :: es => if s.router.mgmt.length < 256 then State.mgmtPush { s with router := { s.router with mgmtWait := es } } e else s
  | [] => s

/-- EV_MGMT_POP. -/
def execEvMgmtPop (s : State) : Host.Outcome State Fault Refusal := .next s.mgmtPop

/-- Position of a supervisor in the held area: never behind what the area still holds. -/
def State.supPos (s : State) (k : Nat) : Nat :=
  let p := Tab.get 0 s.router.supPos k
  if heldSlots < (s.heldWr + 2 ^ 22 - p) % 2 ^ 22 then (s.heldWr + heldSlots) % 2 ^ 22 else p

/-- Records of the held area from a position on that go to supervisors, at most 120. -/
def State.resend (s : State) (k : Nat) : List Event :=
  let p := s.supPos k
  ((List.range (min 120 ((s.heldWr + 2 ^ 22 - p) % 2 ^ 22))).map (fun i =>
    Event.ofBytes (s.readBytes (s.ringBase + 32 * ((p + i) % heldSlots)) 32))).filter (fun e => natBit (s.rf .evDest 0 0 7 4) e.cls)

/-- May records leave for a device: a path at a level the hallmark permits, and a grant at hall level (R415; 14 R307; 01 R25)? -/
def State.supReach (s : State) (dev : Nat) : Bool :=
  (s.route s.myDev dev).isSome && decide (devLevel s.myDev dev ≤ s.maxLevel) && (devLevel s.myDev dev != 4
    || (List.range 16).any (fun g => bitOf (s.reg .fabGrant 0 g) 31 && s.rf .fabGrant 0 g 17 0 == dev))

/-- A batch for a supervisor: at most 120 records that wait, or, where none does, the held records it has not acknowledged. -/
def State.supSend (s : State) (k : Nat) (ok : Bool) : State :=
  if !bitOf (s.reg .evSup 0 k) 31 then s
  else
    let wait := Tab.get [] s.router.supBatch k
    let batch := if wait.isEmpty then s.resend k else wait.take 120
    let s : State := { s with router := { s.router with supBatch := Tab.set [] s.router.supBatch k (wait.drop 120) } }
    if batch.isEmpty then s
    else if !s.supReach (s.rf .evSup 0 k 17 0) then s.countReg .supDrop 0 0 1
    else
      let s := s.hubSend (s.rf .evSup 0 k 17 0) (witHeader (Config.hubCode 2 % 256) 0 0 [] (32 * batch.length) 0 ++ fill64 (batch.flatMap Event.bytes))
      if ok then s else s.countReg .supDrop 0 0 1

def onSup (k : Nat) (s : State) : Host.Outcome State Fault Refusal := if k < 4 then .next s else .fault .noSuchPart

/-- SUPERVISOR_BATCH_SEND; `ok`: the batch does not end with a fabric status. -/
def execSupervisorBatchSend (k : Nat) (ok : Bool) (s : State) : Host.Outcome State Fault Refusal := onSup k (s.supSend k ok)

/-- A supervisor acknowledges held records up to a count. -/
def State.supAck (s : State) (k n : Nat) : State :=
  if !bitOf (s.reg .evSup 0 k) 31 || decide ((s.heldWr + 2 ^ 22 - s.supPos k) % 2 ^ 22 < (n + 2 ^ 22 - s.supPos k) % 2 ^ 22) then s
  else
    let s : State := { s with router := { s.router with supPos := Tab.set 0 s.router.supPos k (n % 2 ^ 22) } }
    if bitOf (s.reg .evDest) 8 then (s.heldAckTo (n % 2 ^ 22)).getD s else s

/-- SUPERVISOR_ACK. -/
def execSupervisorAck (k n : Nat) (s : State) : Host.Outcome State Fault Refusal := onSup k (s.supAck k n)

/-- A write of EV_SUP: a supervisor newly in use starts at the first unacknowledged record. -/
def State.evSupWrite (s : State) (k : Nat) (v : W32) : State :=
  let was := bitOf (s.reg .evSup 0 k) 31
  let s := s.setReg .evSup 0 k (v &&& 0x8003FFFF)
  if bitOf v 31 && !was then { s with router := { s.router with supPos := Tab.set 0 s.router.supPos k s.heldAck, supBatch := Tab.erase s.router.supBatch k } }
  else s

/-- IBI_REPEAT: unread records of a selected class remain (22 R489); the byte is the class of the oldest. -/
def execIbiRepeat (s : State) : Host.Outcome State Fault Refusal :=
  .next (match s.router.mgmt.find? (fun e => s.ibiFor e.cls) with
    | some e => s.send (.ibi e.cls)
    | none => s)

end Sys2Proof.Machine
end

