-- ==== Sys2Proof/Machine/Service.lean ====
section
/-!
DEFINITION. Service ports and sessions (spec 15): the checks of a received frame, set-up, keys, jobs, results and the timers.
-/
namespace Sys2Proof.Machine

def onSvc (p : Nat) (s : State) : Host.Outcome State Fault Refusal := if p < 2 then .next s else .fault .noSuchPart

/-! ### Receiving a frame (R325 to R327) -/

/-- SEQ is new (R326). -/
def Session.isNew (v : Session) (q : Nat) : Bool :=
  decide (v.rxHigh < q) || (decide (v.rxHigh < q + 1024) && !(q ∈ v.rxMarks))

/-- SEQ marked, the window moved. -/
def Session.markSeq (v : Session) (q : Nat) : Session :=
  let h := max v.rxHigh q
  { v with rxHigh := h, rxMarks := (q :: v.rxMarks).filter (fun m => decide (h < m + 1024)) }

/-- The traffic keys of a phase; none where its frames are no longer accepted (R333). -/
def Session.keysOf (v : Session) (k : Bool) : Option (List Byte) :=
  if v.keys.isEmpty then none else if k = v.kphase then some v.keys else if v.oldLeft = 0 then none else some v.oldKeys

/-- The GCM tag is correct for KPHASE (R323). -/
def Session.tagOk (v : Session) (f : SvcFrame) : Bool :=
  match v.keysOf f.kphase with
  | none => false
  | some ks => f.tag == frameTag ks false f.seq f.he f.header f.payload

/-- The payload, decrypted where HE is 0 (R323). -/
def Session.plain (v : Session) (f : SvcFrame) : List Byte :=
  match v.keysOf f.kphase with
  | none => f.payload
  | some ks => frameCrypt ks false f.seq f.he f.payload

/-- A frame has passed: counted, its SEQ marked, its address taken (R320, R333). -/
def State.svcAccept (s : State) (f : SvcFrame) : State :=
  (s.countReg .rxFrames f.port 0 1).modSession f.session (fun v =>
    { v.markSeq f.seq with addr := f.addr, idleFrom := s.time, oldLeft := v.oldLeft - 1 })

/-- The port runs with its link up, and service is open (R320, R325). -/
def State.svcRuns (s : State) (p : Nat) : Bool := s.svcUp p && s.serviceOpen

/-- Checks 1 to 3: the state with the failure counted, and whether they pass. A PAUSE or PFC frame is discarded before them (R318). -/
def State.svcForm (s : State) (f : SvcFrame) (ok : Bool) : State × Bool :=
  if f.env.pause then (s, false)
  else if !s.ethOk f then (s.countReg .malformed f.port 0 1, false)
  else if !f.crcOk then ((s.countReg .svcCrcErr f.port 0 1).countReg .cvMismatch 0 (2 * f.port) 1, false)
  else if !ok then ((s.countReg .malformed f.port 0 1).svcEvent 0x0507 2 f.port f.session 0 0, false)
  else (s, true)

/-- Every check on a frame of an open session; its payload where it passes. `he`: HE is allowed for the TYPE; `op`: only an operator
session may send it. -/
def State.svcRx (s : State) (f : SvcFrame) (he op : Bool) : State × Option (List Byte) :=
  let v := s.session f.session
  let opBad := op && v.isOpen && v.port == f.port && v.role != 2
  let r := s.svcForm f (f.formOk he && !opBad)
  if !s.svcRuns f.port then (s, none)
  else if !r.2 then (r.1, none)
  else if !(v.isOpen && v.port == f.port) then (s.countReg .dropped f.port 0 1, none)
  else if !v.isNew f.seq then ((s.countReg .repeatCnt f.port 0 1).svcEvent 0x0508 3 f.port f.session 0 0, none)
  else if !v.tagOk f then ((s.countReg .authFail f.port 0 1).svcEvent 0x0506 1 f.port f.session 0 0, none)
  else (s.svcAccept f, some (v.plain f))

/-- Act on a frame that passes. -/
def State.svcOn (s : State) (f : SvcFrame) (he op : Bool) (act : State → List Byte → State) : Host.Outcome State Fault Refusal :=
  onSvc f.port (match s.svcRx f he op with
    | (t, some pl) => act t pl
    | (t, none) => t)

/-! ### Set-up (R328 to R332) -/

/-- A frame of a set-up: no session keys are in use (R323). -/
def State.sendSetup (s : State) (port addr n typ seq : Nat) (payload : List Byte) : State :=
  s.sendSvc { port := port, addr := addr, session := n, typ := typ, seq := seq } [] payload

/-- ERROR before READY. -/
def State.setupError (s : State) (port addr n seq reason detail : Nat) : State :=
  s.sendSetup port addr n 0x5F seq (fixLen 8 [BitVec.ofNat 8 reason, BitVec.ofNat 8 detail])

/-- Bytes of the random source. -/
def State.randBytes (s : State) (n : Nat) : List Byte := (List.range n).map (fun i => BitVec.ofNat 8 (Config.randomBits s.free i))

/-- A session number of the range that no session, no record and no closed session still known to the witness uses (R328). -/
def State.freeSession (s : State) : Option Nat :=
  ((List.range (s.rf .svcSessCnt 0 0 14 0)).map (· + s.rf .svcSess 0 0 23 0)).find? (fun n =>
    n != 0 && (Tab.find? s.sessions n).isNone && !s.journal.any (fun e => e.2.session == n) && !(n ∈ s.closed))

def State.setups (s : State) : Nat := (s.sessions.filter (fun e => e.2.inSetup)).length

/-- Bytes of a run of 32-bit registers. -/
def State.regBytes (s : State) (r : RegName) (n : Nat) : List Byte := (List.range n).flatMap (fun k => natLE 4 (s.reg r 0 k).toNat)

/-- The model table: the usable models in order of their number, each number with the digest of its weights. -/
def State.modelTable (s : State) : List Byte :=
  s.models.flatMap (fun e => natLE 2 e.1 ++ (s.modelHdr (s.jrec (e.2 - 1)).body).digest)

/-- The attestation block of REPLY. -/
def State.attestation (s : State) : List Byte :=
  s.regBytes .hmPart 4 ++ s.regBytes .hmRoot 12 ++ fixLen 48 ((s.init.slots.getD (s.rf .imgStatus 0 0 0 0) {}).digest) ++ sha384 s.modelTable
  ++ natLE 4 s.myDev ++ natLE 4 (s.rf .witCfg 0 0 17 0)

/-- Whether a HELLO may resume a session (R332); the credential is compared at FINISH. -/
def State.resumable (s : State) (n : Nat) : Bool :=
  let v := s.session n
  v.cred != [] && (if v.partner then v.taken else v.isOpen)

/-- REPLY to a HELLO for session `n`: key pairs drawn, attested, signed, the signature verified (R329, R330). The touchstone runs what was
pushed before. -/
def State.replyTo (s : State) (f : SvcFrame) (n : Nat) (resume : Bool) (fault : Nat) : State :=
  let rnd := s.randBytes 128
  let s := { s with free := s.free + 1 }
  let priv := rnd.take 96
  let pub := rnd.drop 96 ++ montPublic 4 (priv.take 32) ++ (kemKeys 8 ((priv.drop 32).take 32) ((priv.drop 64).take 32)).2
    ++ s.attestation ++ (4 :: s.idPublic)
  let text := pub ++ f.payload
  let st := if s.ts.entropyBad then 0x49 else s.tsStatus 0x11 fault (if s.idVerifies text then stOk else 0x45)
  let s := s.tsServe (1 + f.port) (if st = 0x49 then 0x20 else 0x11) (if st = 0x49 then 4 else 2) st
  if st = stOk then
    (s.modSession n (fun v =>
      { v with port := if resume then v.port else f.port, inSetup := true, resume := resume, hello := f.payload, reply := pub ++ idSign text
               finish := [], setupHigh := f.seq, setupSeqs := [f.seq], setupAt := s.time, priv := priv, setupPort := f.port
               setupAddr := f.addr })).sendSetup f.port f.addr n 0x02 1 (pub ++ idSign text)
  else (s.svcEvent 0x0505 1 f.port n 0x04 0).setupError f.port f.addr n 1 0x04 st

/-- A HELLO that passes the checks. -/
def State.helloIn (s : State) (f : SvcFrame) (fault : Nat) : State :=
  let s := s.countReg .rxFrames f.port 0 1
  let n := leNat ((f.payload.drop 4).take 3)
  let err := fun reason => s.setupError f.port f.addr 0 1 reason 0
  if s.sbActive then err 0x07
  else if f.payload.length ≠ 72 then s
  else if 256 ≤ s.setups then err 0x01
  else if n = 0 then
    match s.freeSession with
    | none => err 0x05
    | some m => s.replyTo f m false fault
  else if s.resumable n then s.replyTo f n true fault
  else (err 0x06).svcEvent 0x0505 1 f.port n 0x06 0

/-- HELLO: SESSION is 0 in it; with the frame, what befalls the touchstone while it signs (1 its countermeasure finds a fault, 2 parity). -/
def execHello (f : SvcFrame × Nat) (s : State) : Host.Outcome State Fault Refusal :=
  let fault := f.2
  let f := f.1.withTyp 0x01
  let r := s.svcForm f (f.formOk false)
  onSvc f.port (if !s.svcRuns f.port then s else if !r.2 then r.1
    else if f.session ≠ 0 then s.countReg .dropped f.port 0 1 else s.helloIn f fault)

/-- The end of a set-up: a resumed session stands as it was. -/
def State.endSetup (s : State) (n : Nat) : State :=
  let v := s.session n
  if v.resume then
    s.setSession n { v with inSetup := false, resume := false, hello := [], reply := [], finish := [], setupHigh := 0, setupSeqs := []
                            priv := [], setupPort := 0, setupAddr := 0, setupAt := 0 }
  else s.setSession n {}

/-- The failure of a set-up (R330, R332). -/
def State.setupFail (s : State) (n reason detail : Nat) : State :=
  let v := s.session n
  ((s.setupError v.setupPort v.setupAddr n 2 reason detail).endSetup n).svcEvent 0x0505 1 v.setupPort n reason 0

/-- The session record (16 R351): the credential hash and the role, journalled and mirrored. -/
def State.sessionRecord (s : State) (n : Nat) : State :=
  match s.freeSlot, s.bodyAlloc 64 with
  | some k, some a =>
    let v := s.session n
    let s := (s.hubStore a (fixLen 64 (v.cred ++ [BitVec.ofNat 8 v.role]))).setRec k
      { session := n, kind := 4, state := 1, body := a, bodyLen := 64 }
    if s.paired then s.mirrorWhole k else s
  | _, _ => s

/-- Results of a session that await acknowledgement. -/
def State.waiting (s : State) (n : Nat) : Nat := (s.recsWhere (fun r => r.session == n && r.kind == 1 && r.state == 5)).length

/-- READY: the session opens, or goes on under new keys (R331, R332). -/
def State.openSession (s : State) (n : Nat) (keys hash : List Byte) (role : Nat) : State :=
  let v := s.session n
  let s := s.setSession n { v with
    port := v.setupPort, addr := v.setupAddr, isOpen := true, inSetup := false, resume := false, hello := [], reply := [], finish := []
    setupHigh := 0, setupSeqs := [], priv := [], setupPort := 0, setupAddr := 0, setupAt := 0, role := role, cred := hash, keys := keys, oldKeys := [], oldLeft := 0
    kphase := false, rxHigh := v.setupHigh, rxMarks := v.setupSeqs, txSeq := 1, idleFrom := s.time }
  let s := s.sendFrame n 0x04 0 0 1 false true
    (natLE 2 (s.payloadMax v.setupPort) ++ natLE 1 v.gen ++ natLE 4 v.highAcc ++ natLE 4 v.highAck ++ natLE 4 (s.waiting n))
  let s := s.svcEvent 0x0503 2 v.setupPort n 0 0
  let s := if v.resume then s else s.sessionRecord n
  (s.plcSession n).deliver n

/-- The agreement of a set-up (R330 check 4): its status, the operation that gave it, and the two shared secrets. -/
def State.agree (s : State) (v : Session) (ct : List Byte) (fault : Nat) : Nat × Nat × List Byte :=
  let u := montU 4 ((v.hello.drop 40).take 32)
  let x := montMul 4 (v.priv.take 32) u
  let k := kemDecaps 8 (kemKeys 8 ((v.priv.drop 32).take 32) ((v.priv.drop 64).take 32)).1 ct
  let kem := s.tsStatus 0x32 fault stOk
  if kem ≠ stOk then (kem, 0x32, [])
  else (if montP 4 ≤ u then 0x40 else if x.all (· == 0) then 0x46 else stOk, 0x21, x ++ k)

/-- FINISH has arrived whole (R330, R331). -/
def State.finishIn (s : State) (n : Nat) (b : List Byte) (fault : Nat) : State :=
  let v := s.session n
  let role := (v.hello.take 1).headD 0
  let cred := (b.drop 1088).take 6784
  let fields := sha384 (cred.take 2061)
  let ec := (cred.drop 12).take 97
  let dsa := (cred.drop 109).take 1952
  let th := sha384 (v.hello ++ v.reply ++ b.take 7872)
  let hash := sha384 (ec ++ dsa)
  match s.trust ((cred.drop 1).headD 0).toNat role.toNat with
  | none => s.setupFail n 0x02 0
  | some t =>
    let opOk := role != 2 || bitOf (s.reg .svcCtrl v.setupPort) 4
    if !opOk || cred.headD 0 != role || b.length != 11277 then s.setupFail n 0x02 0
    else if !(p384Verify (s.readBytes (t + 8) 97) fields ((cred.drop 2061).take 96)
        && dsaVerify 0x0B (s.readBytes (t + 112) 2592) fields (cred.drop 2157)) then s.setupFail n 0x02 0
    else if !(p384Verify ec th ((b.drop 7872).take 96) && dsaVerify 0x0A dsa th (b.drop 7968)) then s.setupFail n 0x03 0
    else if v.resume && hash != v.cred then s.setupFail n 0x06 0
    else
      let r := s.agree v (b.take 1088) fault
      let s := s.tsServe (1 + v.setupPort) r.2.1 (if r.2.1 = 0x32 then 8 else 4) r.1
      if r.1 = 0x40 ∨ r.1 = 0x46 then s.setupFail n 0x09 r.1
      else if r.1 ≠ stOk then s.setupFail n 0x04 r.1
      else s.openSession n (shake256 (ascii "ZD96 svc v1" ++ r.2.2 ++ th) 88) hash role.toNat

/-- SEQ is new in a set-up (R326). -/
def Session.setupNew (v : Session) (q : Nat) : Bool :=
  decide (v.setupHigh < q) || (decide (v.setupHigh < q + 1024) && !(q ∈ v.setupSeqs))

/-- FINISH: fragments of a set-up in progress on this port; with the frame, what befalls the touchstone in the agreement. -/
def execFinish (f : SvcFrame × Nat) (s : State) : Host.Outcome State Fault Refusal :=
  let fault := f.2
  let f := f.1.withTyp 0x03
  let r := s.svcForm f (f.formOk false)
  let v := s.session f.session
  onSvc f.port (if !s.svcRuns f.port then s else if !r.2 then r.1
    else if !(v.inSetup && v.setupPort == f.port) then s.countReg .dropped f.port 0 1
    else if !v.setupNew f.seq ∨ v.finish.any (fun e => e.1 == f.frag) then (s.countReg .repeatCnt f.port 0 1).svcEvent 0x0508 3 f.port f.session 0 0
    else
      let parts := v.finish ++ [(f.frag, f.payload)]
      let h := max v.setupHigh f.seq
      let s := (s.countReg .rxFrames f.port 0 1).modSession f.session (fun v =>
        { v with finish := parts, setupHigh := h, setupSeqs := (f.seq :: v.setupSeqs).filter (fun m => decide (h < m + 1024)), setupAddr := f.addr })
      if parts.length = f.count then
        s.finishIn f.session ((List.range f.count).flatMap (fun i => ((parts.find? (fun e => e.1 == i)).map (·.2)).getD [])) fault
      else s)

/-! ### Bodies in fragments (R321, R335, R337) -/

/-- Missing ranges of a body: first index and count. -/
def missingRanges (got : List Nat) (count : Nat) : List (Nat × Nat) :=
  (List.range count).foldl (fun (acc : List (Nat × Nat)) i =>
    if i ∈ got then acc
    else match acc.reverse with
      | r :: rest => if r.1 + r.2 = i then rest.reverse ++ [(r.1, r.2 + 1)] else acc ++ [(i, 1)]
      | [] => [(i, 1)]) []

/-- Ranges packed in 8 bytes each: the first index in bits [19:0], the count in [39:20]. -/
def packRanges (rs : List (Nat × Nat)) : List Byte := rs.flatMap (fun r => natLE 8 (r.1 + r.2 * 2 ^ 20))
def unpackRanges (bs : List Byte) : List (Nat × Nat) :=
  (List.range (bs.length / 8)).map (fun i => let w := leNat ((bs.drop (8 * i)).take 8); (natBits w 19 0, natBits w 39 20))

/-- The reassembly a fragment belongs to. -/
def State.reasmOf (s : State) (n job kind : Nat) : Option Reasm :=
  s.reasm.find? (fun m => m.session == n && m.job == job && m.kind == kind)

def State.modReasm (s : State) (n job kind : Nat) (g : Reasm → Reasm) : State :=
  { s with reasm := modFirst (fun m => m.session == n && m.job == job && m.kind == kind) g s.reasm }

/-- A fragment fits its body: every one but the last carries PAYLOAD_MAX bytes, the last alone sets LAST. -/
def State.fragFits (s : State) (f : SvcFrame) (pl : List Byte) (count : Nat) : Bool :=
  let m := s.payloadMax f.port
  f.count == count && (if f.frag + 1 = f.count then f.last && decide (pl.length ≤ m) else !f.last && pl.length == m)

/-- One fragment of a body in reassembly: written and mirrored; `done` acts on a complete body, given its length. -/
def State.fragment (s : State) (f : SvcFrame) (pl : List Byte) (m : Reasm) (done : State → Nat → State) : State :=
  if !s.fragFits f pl m.count then s.countReg .malformed f.port 0 1
  else if f.frag ∈ m.got then s.countReg .repeatCnt f.port 0 1
  else
    let z := s.payloadMax f.port
    let off := f.frag * z
    let r := s.jrec m.slot
    let s := s.hubStore (r.body + off) pl
    let last := if f.frag + 1 = f.count then pl.length else m.lastLen
    let s := s.modReasm m.session m.job m.kind (fun v =>
      { v with got := v.got ++ [f.frag], lastLen := last, lastAt := s.time, gapAt := s.time })
    let s := if s.paired then s.mirrorPiece m.session m.job m.kind off pl else s
    if m.got.length + 1 = m.count then done s ((m.count - 1) * z + last) else s

/-- A body starts: a STAGED record whose body may grow to `count` fragments. -/
def State.startBody (s : State) (f : SvcFrame) (kind slot body gen : Nat) : State :=
  let s := s.setRec slot { session := f.session, kind := kind, state := 1, job := if kind = 2 then 0 else f.job, gen := gen, body := body
                           bodyLen := f.count * s.payloadMax f.port }
  { s with reasm := s.reasm ++ [{ session := f.session, job := if kind = 2 then 0 else f.job, kind := kind, slot := slot
                                  count := f.count, lastAt := s.time, gapAt := s.time }] }

/-! ### Jobs and models (R336 to R338, R341) -/

/-- The refused header of a job, where its CRC fails: header unit 16 counts it (18 R394). -/
def State.noteHeader (s : State) (r : JRec) (reason : Nat) (detail : List Nat) : State :=
  match reason == 0x23, s.jobObjects (r.body + r.bodyLen) (natBits (s.readLE r.body 8) 15 8) (r.body + 64) with
  | true, some objs =>
    let h := Header.ofBytes (s.readBytes (objs.getD (detail.getD 1 0) 0) 64)
    if h.hcrc = h.computeCrc then s else s.countReg .cvMismatch 0 16 1
  | _, _ => s

/-- A complete job, with every lower number out of reassembly: checked, then on to acceptance. -/
def State.judge (s : State) (m : Reasm) : State :=
  let s := { s with reasm := s.reasm.filter (fun v => v.slot != m.slot) }
  match (if m.kind = 1 then s.jobCheck (s.jrec m.slot) else none) with
  | some (reason, detail) => (s.noteHeader (s.jrec m.slot) reason detail).dropJob m.slot reason detail
  | none => if s.paired then s.mirrorEnd m.slot else s.refuseSlot m.slot 0x60

/-- Complete jobs of a session pass on in job order. -/
def State.advance (s : State) (n : Nat) : Nat → State
  | 0 => s
  | fuel + 1 =>
    let ms := s.reasm.filter (fun m => m.session == n && m.kind != 2)
    match ms.find? (fun m => m.hold && ms.all (fun v => decide (m.job ≤ v.job))) with
    | none => s
    | some m => (s.judge m).advance n fuel

/-- A complete body of a job or model; a refusal may leave later confirmed jobs to be accepted (16 R346). -/
def State.bodyDone (s : State) (m : Reasm) (len : Nat) : State :=
  let r := s.jrec m.slot
  (((s.setRec m.slot { r with bodyLen := len }).modReasm m.session m.job m.kind (fun v => { v with hold := true })).advance m.session 9).acceptReady
    m.session

/-- May a taken session take a new job: its session record is held by a partner of this device (16 R361)? -/
def State.takenOk (s : State) (n : Nat) : Bool :=
  !(s.session n).taken || s.journal.any (fun e => e.2.session == n && e.2.kind == 4 && e.2.origin == 0 && e.2.state == 3)

/-- A fragment of a job or model image. A number that belongs to an accepted job, or to a released one, is acknowledged again; one that was
refused, or that lies below the highest accepted or refused without having been seen, is stale (R338). -/
def State.jobFrag (s : State) (f : SvcFrame) (pl : List Byte) (kind : Nat) : State :=
  let n := f.session
  let v := s.session n
  let refuse := fun reason detail => s.sendReason n 0x22 f.job reason detail
  let wit := fun st => ((refuse 0x26 [st]).accEvent 0x0602 2 n st f.job).countReg .refusedCnt 0 0 1
    |>.modSession n (fun v => v.refuse f.job)
  let has := fun (p : JRec → Bool) => s.journal.any (fun e =>
    e.2.session == n && e.2.job == f.job && (e.2.kind == 1 || e.2.kind == 3) && p e.2)
  if s.sbActive then refuse 0x07 []
  else match s.reasmOf n f.job kind with
    | some m => if m.hold then s.countReg .repeatCnt f.port 0 1 else s.fragment f pl m (fun s len => s.bodyDone m len)
    | none =>
      if has (fun r => decide (3 ≤ r.state) && r.confirmed) ∨ (f.job ≤ v.highAck ∧ f.job ∉ v.refused) then s.jobAck n f.job
      else if has (fun r => decide (1 ≤ r.state)) then s.countReg .repeatCnt f.port 0 1
      else if f.job ≤ v.highRef ∨ f.job ∈ v.refused ∨ f.job ≤ v.highAcc then refuse 0x25 []
      else if !s.paired || !s.takenOk n then wit 0x60
      else if 8 ≤ (s.reasm.filter (fun m => m.session == n && m.kind != 2)).length then s.countReg .dropped f.port 0 1
      else match s.freeSlot, s.bodyAlloc (f.count * s.payloadMax f.port) with
        | some k, some a =>
          let s := s.startBody f kind k a 0
          match s.reasmOf n f.job kind with
          | some m => s.fragment f pl m (fun s len => s.bodyDone m len)
          | none => s
        | _, _ => wit 0x62

/-- JOB -/
def execJob (f : SvcFrame) (s : State) : Host.Outcome State Fault Refusal :=
  let f := f.withTyp 0x20
  s.svcOn f true false (fun s pl => s.jobFrag f pl 1)

/-- MODEL -/
def execModel (f : SvcFrame) (s : State) : Host.Outcome State Fault Refusal :=
  let f := f.withTyp 0x40
  s.svcOn f true true (fun s pl => s.jobFrag f pl 3)

/-! ### Key sets (R335) -/

/-- A complete upload: the checks of R86, the directory, the mirror. -/
def State.keySetIn (s : State) (m : Reasm) (len : Nat) : State :=
  let s := { s with reasm := s.reasm.filter (fun v => v.slot != m.slot) }
  let r := s.jrec m.slot
  let dir := r.body - 1024
  match s.keySetCheck m.session r.gen dir len with
  | .bad ck i => ((s.freeRec m.slot).dropKeySet m.session dir).keySetDone m.session 0x10 ck i
  | .good keys =>
    let die := ((s.keysets.find? (fun k => k.dir == dir)).map (·.die)).getD 0
    let s := { s with keysets := s.keysets.map (fun (k : KeySet) => if k.dir = dir then { k with len := 1024 + len } else k) }
    let s := ((s.writeDir dir die keys).setRec m.slot { r with bodyLen := len }).keySetDone m.session 0 0 0
    if s.paired then s.mirrorEnd m.slot else s

/-- KEYSET -/
def execKeyset (f : SvcFrame) (s : State) : Host.Outcome State Fault Refusal :=
  let f := f.withTyp 0x10
  s.svcOn f true false (fun s pl =>
    let n := f.session
    let v := s.session n
    if s.sbActive then s.sendReason n 0x11 0 0x07 []
    else match s.reasmOf n 0 2 with
      | some m => if f.count ≠ m.count then s.keySetDone n 0x11 0 0 else s.fragment f pl m (fun s len => s.keySetIn m len)
      | none =>
        if v.keyBusy then s.keySetDone n 0x11 0 0
        else
          let len := 1024 + f.count * s.payloadMax f.port
          match s.freeSlot, s.keyDieFor n len with
          | some k, some (d, a) =>
            let g := nextGen v
            let s : State := { s with keysets := s.keysets ++ [{ session := n, gen := g, die := d, dir := a, len := len }] }
            let s := (s.modSession n (fun v => { v with keyBusy := true })).startBody f 2 k (a + 1024) g
            match s.reasmOf n 0 2 with
            | some m => s.fragment f pl m (fun s len => s.keySetIn m len)
            | none => s
          | _, _ => s.keySetDone n 0x10 0 0)

/-! ### Acknowledgements (R339, R340; 16 R358) -/

/-- Free the job records of a session up to a number; the witness is told. -/
def State.release (s : State) (n job : Nat) : State :=
  let s := (s.recsWhere (fun r => r.session == n && r.kind == 1 && r.state != 0 && decide (r.job ≤ job))).foldl State.freeRec s
  ((s.modSession n (fun v => { v with highAck := max v.highAck job })).wit 0x15 n job [] []).accEvent 0x060B 3 n 0 job

/-- RESULT_ACK -/
def execResultAck (f : SvcFrame) (s : State) : Host.Outcome State Fault Refusal :=
  let f := f.withTyp 0x32
  s.svcOn f false false (fun s pl =>
    let job := leNat (pl.take 4)
    if (s.session f.session).highSent < job then s.countReg .malformed f.port 0 1 else s.release f.session job)

/-- RESULT_GAP: the listed fragments of a sealed result are sent again. -/
def execResultGap (f : SvcFrame) (s : State) : Host.Outcome State Fault Refusal :=
  let f := f.withTyp 0x33
  s.svcOn f false false (fun s pl =>
    match s.findRec (fun r => r.session == f.session && r.kind == 1 && r.job == f.job && r.state == 5) with
    | none => s
    | some k =>
      let r := s.jrec k
      let m := s.payloadMax f.port
      let len := r.resultLen - receiptLen
      let cnt := max 1 (ceilDiv len m)
      let want := (unpackRanges pl).flatMap (fun e => (List.range cnt).filter (fun i => decide (e.1 ≤ i ∧ i < e.1 + e.2)))
      if len = 0 ∨ r.sentAt.isNone then s
      else want.foldl (fun s i => s.sendFrame f.session 0x30 f.job i cnt true (i + 1 == cnt)
        (s.readBytes (r.result + i * m) (min m (len - i * m)))) s)

/-! ### REKEY, KEEPALIVE, CLOSE (R333, R334) -/

/-- REKEY: one of the current phase moves the session on; one of the old phase came late. -/
def execRekey (f : SvcFrame) (s : State) : Host.Outcome State Fault Refusal :=
  let f := f.withTyp 0x50
  s.svcOn f false false (fun s _ =>
    if (s.session f.session).kphase = f.kphase then
      (s.modSession f.session (fun v => { v with kphase := !v.kphase, oldKeys := v.keys, oldLeft := 4096, keys := rekeyKeys v.keys })).svcEvent
        0x050C 3 f.port f.session 0 0
    else s)

/-- KEEPALIVE: passing the checks is all it does. -/
def execKeepalive (f : SvcFrame) (s : State) : Host.Outcome State Fault Refusal := s.svcOn (f.withTyp 0x51) false false (fun s _ => s)

/-- CLOSE -/
def execClose (f : SvcFrame) (s : State) : Host.Outcome State Fault Refusal :=
  let f := f.withTyp 0x52
  s.svcOn f false false (fun s _ => if s.retained f.session then s.sendReason f.session 0x5F 0 0x08 [] else s.closeSession f.session)

/-! ### Timers (R330, R334, R337, R339) -/

/-- SETUP_TIMEOUT of a session's set-up. -/
def execSetupTimeout (n : Nat) (s : State) : Host.Outcome State Fault Refusal :=
  let v := s.session n
  .next (if v.inSetup ∧ v.setupAt + s.rf .svcTimers v.setupPort 0 31 24 * 10000 * usCycles ≤ s.time then s.endSetup n else s)

/-- GAP_HOLD_EXPIRY of the reassembly at place `i`. -/
def execGapHoldExpiry (i : Nat) (s : State) : Host.Outcome State Fault Refusal :=
  .next (match s.reasm[i]? with
    | none => s
    | some m =>
      let p := (s.session m.session).port
      if !m.hold ∧ m.gapAt + s.rf .svcTimers p 0 7 0 * 100 * usCycles ≤ s.time then
        (s.modReasm m.session m.job m.kind (fun v => { v with gapAt := s.time })).sendFrame m.session 0x23 m.job 0 1 false true
          (packRanges ((missingRanges m.got m.count).take 128))
      else s)

/-- REASM_TIMEOUT of the reassembly at place `i`. -/
def execReasmTimeout (i : Nat) (s : State) : Host.Outcome State Fault Refusal :=
  .next (match s.reasm[i]? with
    | none => s
    | some m =>
      let p := (s.session m.session).port
      if !m.hold ∧ m.lastAt + s.rf .svcTimers p 0 15 8 * 1000 * usCycles ≤ s.time then
        let dir := (s.jrec m.slot).body - 1024
        let s := s.dropJob m.slot 0x20 []
        let s := if m.kind = 2 then s.dropKeySet m.session dir else s
        ((s.svcEvent 0x0509 2 p m.session 0x20 m.job).advance m.session 9).acceptReady m.session
      else s)

/-- RESULT_RETRY of the sealed record in a journal slot. -/
def execResultRetry (slot : Nat) (s : State) : Host.Outcome State Fault Refusal :=
  let r := s.jrec slot
  let v := s.session r.session
  .next (match r.sentAt with
    | none => s
    | some t =>
      if r.state = 5 ∧ v.isOpen ∧ s.svcUp v.port ∧ t + s.rf .svcTimers v.port 0 23 16 * 1000 * usCycles ≤ s.time then s.sendResult slot else s)

/-- IDLE_TIMEOUT of a session; 0 never. -/
def execIdleTimeout (n : Nat) (s : State) : Host.Outcome State Fault Refusal :=
  let v := s.session n
  let k := s.rf .svcIdle v.port 0 15 0
  .next (if v.isOpen ∧ k ≠ 0 ∧ v.idleFrom + k * 1000000 * usCycles ≤ s.time ∧ !s.retained n then s.closeSession n else s)

/-! ### Ethernet and IP (R318, R319, R343) -/

/-- The MAC address of a port. -/
def State.macOf (s : State) (p : Nat) : List Byte := natLE 6 (s.macPair .svcMacLo .svcMacHi p)

/-- An answer leaves for the gateway. -/
def State.sendRaw (s : State) (p kind addr : Nat) (payload : List Byte) : State :=
  s.send (.raw p kind (s.macPair .svcGwMacLo .svcGwMacHi p) addr payload)

/-- ARP_REQUEST for an IPv4 address. -/
def execArpRequest (port addr : Nat) (s : State) : Host.Outcome State Fault Refusal :=
  onSvc port (if s.ownAddr port addr false then s.sendRaw port 0 addr (s.macOf port) else s)

/-- NEIGHBOUR_SOLICITATION for an IPv6 address. -/
def execNeighbourSolicitation (port addr : Nat) (s : State) : Host.Outcome State Fault Refusal :=
  onSvc port (if s.ownAddr port addr true then s.sendRaw port 1 addr (s.macOf port) else s)

/-- ECHO_REQUEST to an IPv4 or IPv6 address, with its data. -/
def execEchoRequest (port addr : Nat) (v6 : Bool) (data : List Byte) (s : State) : Host.Outcome State Fault Refusal :=
  onSvc port (if s.ownAddr port addr v6 then s.sendRaw port (if v6 then 3 else 2) addr data else s)

/-- SERVICE_LINK_UP: frames resume on the port (R325). -/
def execServiceLinkUp (port : Nat) (s : State) : Host.Outcome State Fault Refusal :=
  onSvc port (if s.rf .svcStatus port 0 1 0 = 3 then s
    else
      let s := (s.setRf .svcStatus port 0 1 0 3).svcEvent 0x0501 2 port 0 0 0
      ((s.sessions.filter (fun e => e.2.port == port)).map (·.1)).foldl State.deliver s)

/-- SERVICE_LINK_DOWN: the sessions of the port keep their state. -/
def execServiceLinkDown (port : Nat) (s : State) : Host.Outcome State Fault Refusal :=
  onSvc port (if s.rf .svcStatus port 0 1 0 = 3 then (s.setRf .svcStatus port 0 1 0 0).svcEvent 0x0502 1 port 0 0 0 else s)

end Sys2Proof.Machine
end

