-- ==== Sys2Proof/Machine/Placement.lean ====
section
/-!
DEFINITION. The placement engine (spec 16 R362 to R368; 21 R461): placeable contexts, the placement of jobs, owner tables, the
rebuild of the shadow table and the epoch commit.
-/
namespace Sys2Proof.Machine

/-! ### Cores and contexts (R363, R364) -/

/-- The state of a core in the active table: AVAILABLE with a halted context is HALTED. -/
def State.plcState (s : State) (c : Nat) : Nat :=
  let v := Tab.get 0 s.plcActive.cores c
  if v = 0 ∧ [0, 1, 2, 3].any (fun x => (s.context c x).st == .halted) then 4 else v

/-- A context can take a job: its core's state allows it, it is IDLE and no job is assigned to it. In mode S only context 0
exists. -/
def State.placeable (s : State) (c x : Nat) : Bool :=
  let v := s.plcState c
  (v == 0 || v == 4) && (x == 0 || s.modeM c) && (s.context c x).st == .idle && s.jobOf c x == {}

def State.freeCtx (s : State) (c : Nat) : Option Nat := [0, 1, 2, 3].find? (fun x => s.placeable c x)

/-- Contexts of a core that are busy. -/
def State.busyCtxs (s : State) (c : Nat) : Nat :=
  ([0, 1, 2, 3].filter (fun x => (s.context c x).st != .idle || s.jobOf c x != {})).length

/-- Placeable contexts of each die, as HEARTBEAT carries them. -/
def State.freeOnDies (s : State) : List Nat :=
  (List.range 4).map (fun d => ((coresOf d).map (fun c => ([0, 1, 2, 3].filter (fun x => s.placeable c x)).length)).sum)

/-- Put a core into a list with the fewest busy contexts first, ties to the lower number. -/
def State.insertByBusy (s : State) (c : Nat) : List Nat → List Nat
  | [] => [c]
  | k :: ks => if s.busyCtxs c < s.busyCtxs k then c :: k :: ks else k :: s.insertByBusy c ks

/-- The cores of die `d` for a program, in ascending order; none where there are too few. -/
def State.pickCores (s : State) (d need : Nat) (modeS : Bool) : Option (List Nat) :=
  let ok := (coresOf d).filter (fun c => (s.freeCtx c).isSome && !(modeS && s.modeM c))
  let best := (ok.foldl (fun acc c => s.insertByBusy c acc) []).take need
  if best.length < need then none else some ((coresOf d).filter (fun c => c ∈ best))

/-! ### Owner tables (21 R461) -/

/-- The words of one object of `blocks` blocks, `k0` blocks after those already placed. -/
def ownerWords (dev csplit bb first k0 : Nat) (cores : List Nat) (blocks : Nat) : List Byte :=
  (List.range blocks).flatMap (fun b =>
    let c := (cores[b % cores.length]?).getD 0
    let off := (k0 + b / cores.length) * bb
    natLE 8 (OwnerWord.toNat { valid := true, off768 := off % drawerBytes / 768, csplit := csplit, device := dev, die := c / 24
                               core := c % 24, drawer := (first + off / drawerBytes) % 256 }))

/-- Bytes of a block, rounded up to 768. -/
def blockUnit (log2n csplit : Nat) : Nat := ceilDiv (blockBytes log2n csplit) 768 * 768

/-- Write the tables of a job at `tab`: its inputs, then `nout` outputs laid out as its first input is. -/
def State.writeTables (s : State) (tab nout : Nat) (p : Program) (cores : List Nat) (objs : List Header) : State :=
  let size := fun (h : Header) => min 1024 (h.polys * h.limbs * 2 ^ p.csplit)
  let put := fun (first : Nat) (a : State × Nat × Nat) (h : Header) =>
    let n := size h
    (a.1.hubStore (tab + 8192 * a.2.1) (ownerWords s.myDev p.csplit (blockUnit h.log2n p.csplit) first a.2.2 cores n),
      a.2.1 + 1, a.2.2 + ceilDiv n (max 1 cores.length))
  let r := objs.foldl (put p.inDrawer) (s, 0, 0)
  ((List.replicate nout (objs.headD {})).foldl (put p.outDrawer) (r.1, r.2.1, 0)).1

/-! ### Placing jobs (R365, R366) -/

/-- The session entry of the active table for a record. -/
def State.plcEntryOf (s : State) (r : JRec) : Nat × Nat :=
  Tab.get (0, 0) s.plcActive.sess (r.session + (if r.origin = 1 then 2 ^ 24 else 0))

/-- The key die of a record's session. -/
def State.keyDieOf (s : State) (r : JRec) : Nat := natBits (s.plcEntryOf r).1 57 56

/-- The objects of a job body. -/
def State.bodyObjects (s : State) (r : JRec) : List Nat :=
  (s.jobObjects (r.body + r.bodyLen) (natBits (s.readLE r.body 8) 15 8) (r.body + 64)).getD []

/-- Does an earlier accepted job wait on the same die? -/
def State.mustWait (s : State) (n d : Nat) : Bool :=
  (s.queuedJobs.takeWhile (· != n)).any (fun m => s.keyDieOf (s.jrec m) == d)

/-- A job waits on its die. -/
def State.queueJob (s : State) (n : Nat) : State :=
  let r := s.jrec n
  if n ∈ s.queuedJobs then s else State.accEvent { s with queuedJobs := s.queuedJobs ++ [n] } 0x060D 3 r.session 0 r.job

/-- One job: its contexts assigned, tables written, record PLACED; or sent to the partner; or queued. A context starts later, at the
address answered, when the groups of the decision are known. -/
def State.placeOne (s : State) (n : Nat) : State × Option (Placed × Nat) :=
  let r := s.jrec n
  let d := s.keyDieOf r
  match s.program (s.jobProgram r) with
  | none => (s, none)
  | some p =>
    let nobj := (s.bodyObjects r).length
    let nout := 1 + Config.outputs (s.jobProgram r) % 16
    let pc := s.progBase + p.entry
    match (if s.mustWait n d then none else s.pickCores d p.need p.modeS), s.bodyAlloc (8192 * (nobj + nout)) with
    | some cores, some tab =>
      let ctxs := cores.map (fun c => 4 * c + (s.freeCtx c).getD 0)
      let v : Placed := { slot := n, die := d, mask := (cores.map (fun c => 2 ^ (c % 24))).sum, ctxs := ctxs, intab := tab
                          outtab := tab + 8192 * nobj, nout := nout, ntab := nobj + nout }
      let s := { s with placed := s.placed ++ [v], queuedJobs := s.queuedJobs.filter (· != n)
                        assign := ctxs.foldl (fun a x => Tab.set {} a x { session := r.session, job := r.job }) s.assign }
      let s := s.writeTables tab nout p cores ((s.bodyObjects r).map (fun a => Header.ofBytes (s.readBytes a 64)))
      (s.setRec n { r with state := 4 }, some (v, pc))
    | _, _ =>
      if r.origin = 0 ∧ bitOf (s.reg .plcCtrl) 2 ∧ s.paired ∧ s.peerFree.any (fun k => decide (p.need ≤ k)) then
        ((State.setRec { s with queuedJobs := s.queuedJobs.filter (· != n) } n { r with state := 4 }).wit (Config.hubCode 0) r.session r.job [] [], none)
      else (s.queueJob n, none)

/-- The lowest idle key-stream group of a die that no running job has. -/
def State.idleGroup (s : State) (d : Nat) : Option Nat :=
  (List.range 16).find? (fun g => (s.group (16 * d + g)).joined.isEmpty && !s.placed.any (fun p => p.die == d && p.group == g + 1))

/-- Jobs of one session that start on one die in the same decision get a group: S4 of each (16 R365). -/
def State.groupOf (s : State) (vs : List Placed) (v : Placed) : Nat × Nat :=
  let mates := vs.filter (fun w => w.die == v.die && (s.jrec w.slot).session == (s.jrec v.slot).session)
  if 2 ≤ mates.length ∧ mates.length ≤ 4 then
    match s.idleGroup v.die with
    | some g => (g + 1, g + 16 * (mates.length - 1))
    | none => (0, 0)
  else (0, 0)

/-- S0 to S6 of a job's contexts (R366). -/
def placedRegs (r : JRec) (v : Placed) (s4 : Nat) : List Nat :=
  [r.body, v.intab, v.outtab, v.mask + v.die * 2 ^ 24, s4, r.job, r.session]

/-- Start the contexts of a placed job at `pc` (R366). -/
def State.startPlaced (s : State) (v : Placed) (pc s4 : Nat) : State :=
  v.ctxs.foldl (fun t a =>
    (t.modContext (a / 4) (a % 4) (fun y =>
      { ((placedRegs (s.jrec v.slot) v s4).zipIdx).foldl (fun y e => y.setReg e.2 (BitVec.ofNat 64 e.1)) y with pc := pc })).ctxStart
        (a / 4) (a % 4)) s

/-- The engine places jobs: it is enabled, the device is not in the strongbox state, and its tables are sound (16 R371; 19 R404, R419). -/
def State.placing (s : State) : Bool := bitOf (s.reg .plcCtrl) 0 && !s.sbActive && !s.plcBad

/-- A placement table fails parity: nothing is placed until a reset (19 R404). -/
def State.plcParity (s : State) : State :=
  if s.plcBad then s
  else ({ s with plcBad := true } : State).raise { code := 0x060E, cls := 0, unit := 0x83 }

/-- A decision on accepted jobs, in the order given. A pewter job bypasses placement (23 R505). -/
def State.place (s : State) (slots : List Nat) : State :=
  if !s.placing then s
  else
    let r := slots.foldl (fun (a : State × List (Placed × Nat)) n =>
      let e := a.1.jrec n
      if e.kind = 1 ∧ e.state = 3 ∧ (e.origin = 0 ∨ (a.1.session e.session).taken) ∧ (a.1.pewterDie e).isNone then
        let p := a.1.placeOne n
        (p.1, a.2 ++ p.2.toList)
      else a) (s, [])
    (r.2.foldl (fun (a : State × List (Nat × Nat)) e =>
      let v := e.1
      let k := (s.jrec v.slot).session
      let g := match a.2.find? (fun e => e.1 == 4 * k + v.die) with
        | some e => e.2
        | none => let h := a.1.groupOf (r.2.map (·.1)) v; h.1 * 64 + h.2
      let s := { a.1 with placed := a.1.placed.map (fun (w : Placed) => if w.slot = v.slot then { w with group := g / 64 } else w) }
      (s.startPlaced v e.2 (g % 64), a.2 ++ [(4 * k + v.die, g)])) (r.1, [])).1

/-- JOB_PLACEMENT: one decision on the accepted jobs in these journal slots; with them, whether the table it reads has wrong parity. -/
def execJobPlacement (slots : List Nat × Bool) (s : State) : Host.Outcome State Fault Refusal :=
  .next (if slots.2 then s.plcParity else s.place slots.1)

/-- PARTNER_JOB: a job of the partner, held here as ACCEPTED, is to run on its key die here (R365). -/
def execPartnerJob (session job : Nat) (s : State) : Host.Outcome State Fault Refusal :=
  .next (match s.findRec (fun r => r.origin == 1 && r.kind == 1 && r.session == session && r.job == job && r.state == 3) with
    | none => s
    | some n =>
      if !s.placing then s
      else match s.placeOne n with
        | (t, some v) => t.startPlaced v.1 v.2 0
        | (t, none) => t)

/-! ### Epochs (R362, R363) -/

/-- PLACEMENT_REBUILD_DONE: the shadow table is built. -/
def execPlacementRebuildDone (s : State) : Host.Outcome State Fault Refusal :=
  .next (if s.rf .plcStatus 0 0 1 0 = 1 then s.setRf .plcStatus 0 0 1 0 2 else s)

/-- Core states as PLC_EXCLUDE has them: from the next epoch on. -/
def State.applyExclude (s : State) (t : PlcTable) : PlcTable :=
  { t with cores := (List.range 96).foldl (fun a c =>
      let ex := bitOf (s.reg .plcExclude 0 (c / 32)) (c % 32)
      let v := Tab.get 0 a c
      if ex ∧ (v = 0 ∨ v = 4 ∨ (v = 3 ∧ s.assay.core ≠ some c)) then Tab.set 0 a c 1 else if !ex ∧ v = 1 then Tab.set 0 a c 0 else a) t.cores }

/-- The generation of every session that is ready becomes current (04 R87). -/
def State.commitKeys (s : State) : State :=
  s.sessions.foldl (fun s e =>
    if e.2.readyDir = 0 then s
    else s.setSession e.1 { s.session e.1 with gen := e.2.readyGen, keyDie := e.2.readyDie, dir := e.2.readyDir, readyGen := 0
                                               readyDie := 0, readyDir := 0 }) s

/-- Operator key images that replace an earlier one are copied (23 R497). -/
def State.commitPewterKeys (s : State) : State := s.models.foldl (fun s e => s.copyPewterKey (e.2 - 1)) s

/-- The epoch commit, at one instant. -/
def State.epochCommit (s : State) : State :=
  let t := s.applyExclude s.plcShadow
  let s := { s with plcActive := t, plcShadow := t, commitNow := false, lastCommit := s.time }
  let s := (s.setRf .plcStatus 0 0 31 8 (s.rf .plcStatus 0 0 31 8 + 1)).setRf .plcStatus 0 0 1 0 0
  let s := [0, 1, 2, 3].foldl State.commitTable s
  (s.commitKeys.freeKeySets.commitPewterKeys).accEvent 0x060C 3 0 0 0

/-- Something waits for a commit though the placement table has not changed (03 R64). -/
def State.idleCommit (s : State) : Bool := s.commitNow || [0, 1, 2, 3].any (fun t => (s.table t).shadow == 2)

/-- An epoch commit is due: the shadow table is built, or unchanged with something to commit; and INTERVAL has passed, or a commit is
asked for. -/
def State.commitDue (s : State) : Bool :=
  let sh := s.rf .plcStatus 0 0 1 0
  (sh == 2 || (sh == 0 && s.idleCommit))
  && (s.commitNow || decide (s.lastCommit + s.rf .plcCtrl 0 0 31 16 * 10 * usCycles ≤ s.time))

/-- EPOCH_COMMIT -/
def execEpochCommit (s : State) : Host.Outcome State Fault Refusal := .next (if s.commitDue then s.epochCommit else s)

/-- A write of PLC_CTRL: COMMIT_NOW commits at the end of the build, at once where none is under way. -/
def State.plcCtrlWrite (s : State) (v : W32) : State :=
  let s := s.setReg .plcCtrl 0 0 (putBits v 1 1 0)
  if bitOf v 1 then
    let s := { s with commitNow := true }
    if s.commitDue then s.epochCommit else s
  else s

/-- COMMIT_NOW -/
def execCommitNow (s : State) : Host.Outcome State Fault Refusal := .next (s.plcCtrlWrite (putBits (s.reg .plcCtrl) 1 1 1))

/-- A write of PLC_EXCLUDE[k]. -/
def State.plcExcludeWrite (s : State) (k : Nat) (v : W32) : State :=
  let old := s.reg .plcExclude 0 k
  let s := (s.setReg .plcExclude 0 k v).plcEdit id
  if v &&& ~~~old = 0 then s else { s with commitNow := true }

end Sys2Proof.Machine
end

