-- ==== Sys2Proof/Machine/Witness.lean ====
section
/-!
DEFINITION. The partner (spec 16 R348 to R361): pairing, heartbeats, mirrors at the witness, confirmations, doubt, recovery after a
reset, and takeover.
-/
namespace Sys2Proof.Machine

/-! ### Pairing (R349) -/

/-- The sender is the partner named here, and the session ranges are apart. -/
def State.mayPair (s : State) (dev base count : Nat) : Bool :=
  let b := s.rf .svcSess 0 0 23 0
  let n := s.rf .svcSessCnt 0 0 14 0
  s.partnerDev == some dev && (decide (b + n ≤ base) || decide (base + count ≤ b))

/-- Triples of a list. -/
def triples : List Nat → List (Nat × Nat × Nat)
  | a :: b :: c :: t => (a, b, c) :: triples t
  | _ => []

/-- Free the mirrored jobs of a session up to a number (R358). -/
def State.releaseMirror (s : State) (n job : Nat) : State :=
  let s := (s.recsWhere (fun r => r.session == n && r.origin == 1 && r.kind == 1 && r.state != 0 && decide (r.job ≤ job))).foldl
    State.freeRec s
  if (s.session n).partner then s.modSession n (fun v => { v with highAck := max v.highAck job }) else s

/-- PAIR: compared, answered. `highs`: session, highest accepted and highest released job, again and again. -/
def execPair (dev base count : Nat) (highs taken : List Nat) (s : State) : Host.Outcome State Fault Refusal :=
  let _ := taken
  .next (if !s.mayPair dev base count then (if s.partnerDev = some dev then s.setWit 0 else s)
    else
      let s := (triples highs).foldl (fun s t => s.releaseMirror t.1 t.2.2) s
      let s := s.wit 0x02 0 0 [] s.pairData
      if s.witState = 1 then s else s.startPairing)

/-- Sessions that the partner took over: their records are freed without delivery, and so are their key sets (R361). -/
def State.sessionsTaken (s : State) (ns : List Nat) : State :=
  ns.foldl (fun s n =>
    if (s.session n).partner || (!(s.session n).isOpen && !s.journal.any (fun e => e.2.session == n && e.2.origin == 0)) then s
    else (s.dropSession n).accEvent 0x0609 0 n 0x64 0) s

/-- The bytes of a record and its body, as RESTORE carries them. -/
def State.restoreData (s : State) (n : Nat) : List Byte :=
  let r := s.jrec n
  r.bytes ++ s.readBytes r.body r.bodyLen ++ (if r.state = 5 then s.readBytes r.result r.resultLen else [])

/-- The exchanges once paired (R359): DOUBT records are decided by what the witness holds; records the partner lacks go back to it;
taken sessions and closed ones are told; unconfirmed key sets and session records are mirrored again. What the partner holds as accepted and
released of this device's sessions is so here (R345). -/
def State.pairedExchange (s : State) (hs : List (Nat × Nat × Nat)) : State :=
  let acc := fun n => ((hs.find? (fun t => t.1 == n)).map (fun t => t.2.1)).getD 0
  let s := hs.foldl (fun s t => if (Tab.find? s.sessions t.1).isSome && !(s.session t.1).partner then s.modSession t.1 (fun v =>
    { v with highAcc := max v.highAcc t.2.1, highAck := max v.highAck t.2.2 }) else s) s
  let doubt := s.recsWhere (fun r => r.origin == 0 && r.state == 2)
  let s := doubt.foldl (fun s n =>
    let r := s.jrec n
    if r.job ≤ acc r.session then (s.setRec n { r with confirmed := true }).acceptReady r.session else s.freeRec n) s
  let lacks := s.recsWhere (fun r => r.origin == 1 && decide (3 ≤ r.state ∧ r.state ≤ 5)
    && (if r.kind == 1 || r.kind == 3 then decide (acc r.session < r.job) else (hs.find? (fun t => t.1 == r.session)).isNone))
  let s := lacks.foldl (fun s n => let r := s.jrec n; s.wit 0x20 r.session r.job [] (s.restoreData n)) s
  let tk := (s.sessions.filter (fun e => e.2.taken)).map (·.1)
  let s := if tk.isEmpty then s else s.wit 0x31 0 0 [] (tk.flatMap (fun n => natLE 3 n))
  let s := s.closed.foldl State.tellClosed s
  (s.recsWhere (fun r => r.origin == 0 && r.state == 1 && ((r.kind == 4 && (s.session r.session).isOpen) || (r.kind == 2
    && s.keysets.any (fun k => k.dir + 1024 == r.body) && !s.reasm.any (fun m => m.kind == 2 && m.session == r.session))))).foldl
    State.mirrorWhole s

/-- PAIR_ACK: this side is PAIRED. -/
def execPairAck (dev base count : Nat) (highs taken : List Nat) (s : State) : Host.Outcome State Fault Refusal :=
  .next (if s.witState ≠ 1 then s
    else if !s.mayPair dev base count then s.setWit 0
    else
      let s := ({ s.setWit 2 with peerDev := dev, hbMissed := 0 } : State).accEvent 0x0606 2 0 0 0
      let s := (triples highs).foldl (fun s t => s.releaseMirror t.1 t.2.2) s
      let s := (s.sessionsTaken taken).pairedExchange (triples highs)
      if s.boot = 9 then s.stepEnd 10 else s)

/-- A write of WIT_CFG: pairing runs, once the device has joined. -/
def State.witCfgWrite (s : State) (v : W32) : State :=
  let s := s.setReg .witCfg 0 0 (BitVec.ofNat 32 (bits v 31 31 * 2 ^ 31 + bits v 17 0))
  if bitOf (s.reg .fabCfg) 9 then s.startPairing else s.setWit 0

/-- WIT_CFG_WRITE -/
def execWitCfgWrite (valid : Bool) (partner : Nat) (s : State) : Host.Outcome State Fault Refusal :=
  .next (s.witCfgWrite (BitVec.ofNat 32 (b2n valid * 2 ^ 31 + partner % 2 ^ 18)))

/-! ### Heartbeats (R350) -/

/-- HEARTBEAT from the partner, with its free placeable contexts per die. -/
def execHeartbeat (free : List Nat) (s : State) : Host.Outcome State Fault Refusal :=
  .next (if s.paired then { s with peerFree := free, hbMissed := 0 } else s)

/-- HEARTBEAT_SEND: with no free contexts in the strongbox state; MIRROR_END again for every job in DOUBT (R354). -/
def execHeartbeatSend (s : State) : Host.Outcome State Fault Refusal :=
  .next (if !s.paired then s
    else
      let s := s.wit 0x03 0 0 ((if s.sbActive then [0, 0, 0, 0] else s.freeOnDies).flatMap (fun n => natLE 2 n)) []
      (s.recsWhere (fun r => r.origin == 0 && r.state == 2)).foldl State.mirrorEnd s)

/-- A DOUBT record becomes HELD (R354). -/
def State.holdDoubt (s : State) (n : Nat) : State :=
  let r := s.jrec n
  (s.setRec n { r with state := 6 }).accEvent 0x0604 1 r.session 0x63 r.job

/-- The partner is LOST. `fails`: the jobs, by session and number, whose MIRROR or only MIRROR_END ended with a fabric status: those that are
STAGED are refused (R353). -/
def State.witnessLost (s : State) (fails : List (Nat × Nat)) : State :=
  let s := (s.setWit 3).accEvent 0x0605 0 0 0 0
  let s := (s.recsWhere (fun r => r.origin == 0 && r.state == 2)).foldl State.holdDoubt s
  let ns := s.recsWhere (fun r => r.origin == 0 && (r.kind == 1 || r.kind == 3) && r.state == 1 && !r.confirmed && (r.session, r.job) ∈ fails)
  let s := ns.foldl (fun s n => s.refuseSlot n 0x60) s
  (fails.map (·.1)).foldl State.acceptReady s

/-- WITNESS_LOSS: MISS heartbeats missed in a row, or a message ended with a fabric status. -/
def execWitnessLoss (fails : Option (List (Nat × Nat))) (s : State) : Host.Outcome State Fault Refusal :=
  .next (if s.paired then State.witnessLost { s with hbMissed := s.rf .witTimers 0 0 15 8 } (fails.getD []) else s)

/-! ### Mirrors at the witness (R351, R352) -/

/-- The mirrored record of a body. -/
def State.mirrorRec (s : State) (n job kind : Nat) : Option Nat :=
  s.findRec (fun r => r.origin == 1 && r.session == n && r.job == job && r.kind == kind && r.state != 0)

/-- Room for `need` bytes of a mirrored body: what it has, or a new place with the bytes held so far; none where there is none. -/
def State.growMirror (s : State) (k need : Nat) : Option State :=
  let r := s.jrec k
  if r.body ≠ 0 ∧ need ≤ bodyUnits r.bodyLen then some s
  else (s.bodyAlloc need).map (fun a => (s.hubStore a (s.readBytes r.body r.bodyLen)).setRec k { r with body := a, bodyLen := max need r.bodyLen })

/-- MIRROR data. -/
def State.mirrorIn (s : State) (n job kind off : Nat) (bs : List Byte) : State :=
  let land := fun (s : State) (k : Nat) =>
    if 3 ≤ (s.jrec k).state then s
    else match s.growMirror k (off + bs.length) with
      | none => s.setRec k { s.jrec k with body := 0, bodyLen := 0, mirrored := 0 }
      | some t =>
        let r := t.jrec k
        (t.hubStore (r.body + off) bs).setRec k { r with bodyLen := max r.bodyLen (off + bs.length), mirrored := r.mirrored + bs.length }
  match s.mirrorRec n job kind with
  | some k => land s k
  | none =>
    match s.freeSlot with
    | none => s
    | some k => land (s.setRec k { session := n, kind := kind, origin := 1, state := 1, job := job }) k

/-- MIRROR -/
def execMirror (session job kind off : Nat) (data : List Byte) (s : State) : Host.Outcome State Fault Refusal :=
  .next (if s.paired then s.mirrorIn session job kind off data else s)

/-- CONFIRM to the partner. -/
def State.sendConfirm (s : State) (n job kind : Nat) : State := s.wit 0x12 n job (natLE 1 kind) []

/-- The witness's record becomes ACCEPTED, with what its kind brings: a key set goes into the key chest of the die its own engine
chooses, a session record gives the session, an operator key image goes into the pewter areas. None where there is no room. -/
def State.mirrorAccept (s : State) (k gen : Nat) : Option State :=
  let r := s.jrec k
  let n := r.session
  let done := fun (s : State) (r : JRec) =>
    (s.setRec k { r with state := 3, gen := gen, time := s.time }).modSession n (fun v =>
      { v with partner := true, highAcc := if r.kind == 1 || r.kind == 3 then max v.highAcc r.job else v.highAcc })
  match r.kind with
  | 2 =>
    match s.keyDieFor n (1024 + r.bodyLen) with
    | none => none
    | some (d, a) =>
      let s := s.hubStore (a + 1024) (s.readBytes r.body r.bodyLen)
      match s.keySetCheck n gen a r.bodyLen with
      | .bad _ _ => none
      | .good keys =>
        let ks : KeySet := { session := n, gen := gen, die := d, dir := a, len := 1024 + r.bodyLen }
        let s := State.writeDir { s with keysets := s.keysets ++ [ks] } a d keys
        some ((done s { r with body := a + 1024 }).keySetReady n gen d a)
  | 4 =>
    let b := s.readBytes r.body 64
    some (((done s r).modSession n (fun v => { v with cred := b.take 48, role := ((b.drop 48).headD 0).toNat })).plcSession n)
  | 3 => some ((done s r).copyPewterKey k)
  | _ => some (done s r)

/-- MIRROR_END at the witness: CONFIRM, or NOT_HELD with a status. -/
def State.mirrorEndIn (s : State) (n job kind gen len crc : Nat) : State :=
  let old := s.recsWhere (fun r => r.origin == 1 && r.session == n && (r.kind == 1 || r.kind == 3) && r.state == 1 && decide (r.job < job))
  let s := old.foldl State.freeRec s
  let notHeld := fun (s : State) st => s.wit 0x13 n job (natLE 1 kind ++ natLE 1 st) []
  match s.mirrorRec n job kind with
  | none => notHeld s (if s.freeSlot.isNone ∨ (s.bodyAlloc len).isNone then 0x61 else 0)
  | some k =>
    let r := s.jrec k
    if 3 ≤ r.state then s.sendConfirm n job kind
    else if r.body = 0 then notHeld s (if (s.bodyAlloc len).isNone then 0x61 else 0)
    else if r.mirrored < len ∨ crc64 (s.readBytes r.body len) ≠ crc then notHeld (s.setRec k { r with mirrored := 0 }) 0
    else match (s.setRec k { r with bodyLen := len }).mirrorAccept k gen with
      | none => notHeld (s.freeRec k) 0x61
      | some t => t.sendConfirm n job kind

/-- MIRROR_END -/
def execMirrorEnd (session job kind gen len crc : Nat) (s : State) : Host.Outcome State Fault Refusal :=
  .next (if s.paired then s.mirrorEndIn session job kind gen len crc else s)

/-- ABANDON: a STAGED mirror is discarded (R353). -/
def execAbandon (session job : Nat) (s : State) : Host.Outcome State Fault Refusal :=
  .next ((s.recsWhere (fun r => r.origin == 1 && r.session == session && r.job == job && (r.kind == 1 || r.kind == 3) && r.state == 1)).foldl
    State.freeRec s)

/-- RELEASE (R358). -/
def execRelease (session job : Nat) (s : State) : Host.Outcome State Fault Refusal := .next (s.releaseMirror session job)

/-- SESSION_CLOSE: the session's key set and records are released here; not those of a session taken over. -/
def execSessionClose (session : Nat) (s : State) : Host.Outcome State Fault Refusal :=
  .next (if (s.session session).partner ∧ !(s.session session).taken then s.dropSession session else s)

/-! ### Answers of the witness (R346, R352 to R354) -/

/-- The own record of a body that awaits its witness. -/
def State.ownRec (s : State) (n job kind : Nat) : Option Nat :=
  s.findRec (fun r => r.origin == 0 && r.session == n && r.job == job && r.kind == kind && (r.state == 1 || r.state == 2))

/-- CONFIRM -/
def execConfirm (session job kind : Nat) (s : State) : Host.Outcome State Fault Refusal :=
  .next (match s.ownRec session job kind with
    | none => s
    | some k =>
      let r := s.jrec k
      if r.ended.isNone then s
      else if kind = 2 then
        let d := ((s.keysets.find? (fun v => v.dir + 1024 == r.body)).map (·.die)).getD 0
        (s.setRec k { r with state := 3, time := s.time, confirmed := true }).keySetReady session r.gen d (r.body - 1024)
      else if kind = 4 then s.setRec k { r with state := 3, time := s.time, confirmed := true }
      else (s.setRec k { r with confirmed := true }).acceptReady session)

/-- NOT_HELD with a status: 0 mirrors again; ST_WIT_REFUSED refuses the job, but never one in DOUBT (R354), or
gives up a key set. -/
def execNotHeld (session job kind st : Nat) (s : State) : Host.Outcome State Fault Refusal :=
  .next (match s.ownRec session job kind with
    | none => s
    | some k =>
      let r := s.jrec k
      if r.ended.isNone then s
      else if st = 0 then s.mirrorWhole k
      else if kind = 2 then ((s.freeRec k).dropKeySet session (r.body - 1024)).keySetDone session 0x26 st 0
      else if kind = 4 ∨ r.state = 2 then s
      else (s.refuseSlot k st).acceptReady session)

/-- DOUBT_TIMEOUT of a journal slot: no answer within CONFIRM of MIRROR_END. With the witness LOST already, the job is held. -/
def execDoubtTimeout (slot : Nat) (s : State) : Host.Outcome State Fault Refusal :=
  let r := s.jrec slot
  .next (match r.ended with
    | none => s
    | some t =>
      if r.origin = 0 ∧ (r.kind = 1 ∨ r.kind = 3) ∧ r.state = 1 ∧ !r.confirmed ∧ t + s.rf .witTimers 0 0 23 16 * 100 * usCycles ≤ s.time then
        let s := ((s.setRec slot { r with state := 2 }).accEvent 0x0603 1 r.session 0x63 r.job).countReg .doubtEntered 0 0 1
        if s.witState = 3 then s.holdDoubt slot else s
      else s)

/-! ### Recovery (R348, R359; 21 R465) -/

/-- Step 5 and what precedes it: a STAGED job is discarded, a PLACED one HELD. -/
def State.recoverRec (s : State) (k : Nat) : State :=
  let r := s.jrec k
  if r.origin = 1 then s
  else if r.state = 1 then s.freeRec k
  else if r.state = 4 then (s.setRec k { r with state := 6 }).accEvent 0x0604 1 r.session 0 r.job
  else s

/-- Records recovered: those that stand. -/
def State.standing (s : State) : Nat := (s.recsWhere (fun r => decide (2 ≤ r.state ∧ r.state ≤ 6))).length

/-- The recovery of the journal before service opens, once pairing has ended. -/
def State.recover (s : State) : State :=
  if s.jrnlSize = 0 then s
  else
    let s := s.journalIn
    let s := (s.journal.map (·.1)).foldl State.recoverRec s
    let n := s.standing
    let s := (s.countReg .recovered 0 0 n).raise { code := 0x0608, cls := 2, unit := 0x82, detail := n * 2 ^ 32 }
    (s.sessions.map (·.1)).foldl State.deliver s

/-- JOURNAL_RECOVERY: step 12 of start-up. -/
def execJournalRecovery (s : State) : Host.Outcome State Fault Refusal :=
  .next (if s.boot = 10 ∧ !s.init.recovered then State.recover { s with init := { s.init with recovered := true } } else s)

/-- A record that the partner gives back: written as an own record in its state; one that was PLACED is HELD. -/
def State.restore (s : State) (n kind job st gen status time : Nat) (body result : List Byte) : State :=
  if s.journal.any (fun e => e.2.origin == 0 && e.2.session == n && e.2.kind == kind && e.2.job == job && decide (2 ≤ e.2.state ∧ e.2.state ≤ 6))
      ∨ !(3 ≤ st ∧ st ≤ 5) then s
  else match s.freeSlot, (if kind = 2 then (s.keyDieFor n (1024 + body.length)).map (fun x => x.2 + 1024) else s.bodyAlloc body.length) with
    | some k, some a =>
      let s := (s.hubStore a body).setRec k { session := n, kind := kind, state := if st = 4 then 6 else st, job := job, gen := gen,
                                                body := a, bodyLen := body.length, status := status, time := time, confirmed := true }
      let s := if st = 5 then match s.bodyAlloc result.length with
          | some b => (s.hubStore b result).setRec k { s.jrec k with result := b, resultLen := result.length }
          | none => s
        else s
      let s := if kind = 2 then match s.keySetCheck n gen (a - 1024) body.length with
          | .good keys => s.writeDir (a - 1024) (a / dieRange) keys
          | .bad _ _ => s
        else s
      let s := if st = 4 then s.accEvent 0x0604 1 n 0 job else s
      (((s.recoverSession k).countReg .recovered 0 0 1).raise { code := 0x0608, cls := 2, unit := 0x82, detail := 2 ^ 32 }).deliver n
    | _, _ => s

/-- RESTORE, with the record's STATUS and TIME. -/
def execRestore (session kind job st gen : Nat) (status : Nat × Nat) (body result : List Byte) (s : State) : Host.Outcome State Fault Refusal :=
  .next (if s.jrnlSize = 0 then s else s.restore session kind job st gen status.1 status.2 body result)

/-! ### Takeover (R360, R361) -/

/-- Sessions held as witness are taken over: their unacknowledged jobs are ACCEPTED and to be placed again, in order. -/
def State.takeOver (s : State) (ns : List Nat) : State :=
  let ns := ns.filter (fun n => (s.session n).partner && !(s.session n).taken)
  let s := ns.foldl (fun s n =>
    let s := ((s.modSession n (fun v => { v with taken := true, highSent := v.highAck })).plcSession n).accEvent 0x0609 0 n 0 0
    (s.recsWhere (fun r => r.origin == 1 && r.kind == 1 && r.session == n && decide (3 ≤ r.state))).foldl (fun s k =>
      let r := s.jrec k
      let s := if r.state = 4 then s else s.setRec k { r with state := 3 }
      match s.pewterDie r with
      | some d => { s with pwq := Tab.set [] s.pwq d (Tab.get [] s.pwq d ++ [k]) }
      | none => s) s) s
  if ns.isEmpty then s else s.setRf .witStatus 0 0 3 3 1

/-- HANDOVER: the sessions with the digest of the partner's records, and its seal, which is verified before anything else is done. -/
def execHandover (sessions : List Nat × List Byte) (sg : List Byte) (s : State) : Host.Outcome State Fault Refusal :=
  .next (let s := s.accEvent 0x060A 0 0 0 0
    if !s.paired then s
    else
      let ok := p384Verify (Config.peerKey s.peerDev) sessions.2 sg
      let s := s.tsServe 3 0x12 2 (if ok then stOk else 0x47)
      if ok then s.takeOver sessions.1 else s)

/-- TAKEN: the records of these sessions are freed. -/
def execTaken (sessions : List Nat) (s : State) : Host.Outcome State Fault Refusal :=
  .next ({ s.sessionsTaken sessions with handOpen := false } : State)

/-- A write of WIT_TAKEOVER with GO: refused unless the partner is LOST. -/
def State.takeoverWrite (s : State) (v : W32) (req : Nat) : State :=
  if !bitOf v 0 then s
  else if s.witState ≠ 3 then s.refuseState .witTakeover 0 0 req
  else s.takeOver ((s.sessions.filter (fun e => e.2.partner)).map (·.1))

/-- WIT_TAKEOVER_GO -/
def execWitTakeoverGo (req : Nat) (s : State) : Host.Outcome State Fault Refusal := .next (s.takeoverWrite 1 req)

/-- PARTNER_RESULT: the result of a job that ran at the partner is sealed and delivered here (R365). -/
def execPartnerResult (session job status : Nat) (data : List Byte) (s : State) : Host.Outcome State Fault Refusal :=
  .next (match s.findRec (fun r => r.origin == 0 && r.kind == 1 && r.session == session && r.job == job && r.state == 4) with
    | none => s
    | some k => if s.placed.any (fun p => p.slot == k) then s else s.sealRecord k (b2n (status != 0)) status (if status = 0 then data else []))

end Sys2Proof.Machine
end

