-- ==== Sys2Proof/Machine/Decide.lean ====
section
/-!
DEFINITION. Decisions with concurrence, and the strongbox state as commands show it (spec 19 R405 to R408, R417 to R421).
DEC_STATUS.STATE: 0 IDLE, 1 AWAITING, 2 EXECUTING, 3 DONE, 4 DENIED, 5 NO_ANSWER, 6 REFUSED.
-/
namespace Sys2Proof.Machine

/-- What a decision asks: the decision registers as it was submitted. -/
structure Decision where
  action : Nat
  session : Nat
  job : Nat
  unit : Nat
  ctx : Nat
  status : Nat
  addr : Nat
  deriving DecidableEq, Repr

/-- The decision registers. -/
def State.decision (s : State) : Decision :=
  { action := s.rf .decAct 0 0 31 28, session := s.rf .decAct 0 0 23 0, job := (s.reg .decJob).toNat
    unit := s.rf .decTgt 0 0 15 8, ctx := s.rf .decTgt 0 0 1 0, status := s.rf .decTgt 0 0 23 16
    addr := s.rf .decAddrHi 0 0 7 0 * 2 ^ 32 + s.rf .decAddrLo 0 0 31 5 * 32 }

def State.decState (s : State) : Nat := s.rf .decStatus 0 0 2 0
def State.setDec (s : State) (st : Nat) : State := s.setRf .decStatus 0 0 2 0 st

/-- A decision is awaiting its answer or executing: it holds the decision registers (R405). -/
def State.decBusy (s : State) : Bool := s.decState == 1 || s.decState == 2

/-- Write the decision registers; ignored while a decision holds them. -/
def State.decWrite (s : State) (d : Decision) : State :=
  if s.decBusy then s
  else
    let s := s.setReg .decAct 0 0 (BitVec.ofNat 32 (d.action % 16 * 2 ^ 28 + d.session % 2 ^ 24))
    let s := (s.setReg .decJob 0 0 (BitVec.ofNat 32 d.job)).setReg .decTgt 0 0
      (BitVec.ofNat 32 (d.status % 256 * 2 ^ 16 + d.unit % 256 * 2 ^ 8 + d.ctx % 4))
    (s.setReg .decAddrLo 0 0 (BitVec.ofNat 32 (d.addr % 2 ^ 32 / 32 * 32))).setReg .decAddrHi 0 0 (BitVec.ofNat 32 (d.addr / 2 ^ 32 % 256))

/-! ### Targets -/

/-- The journal record of a job this device runs or is to run: its own, or a taken session's. -/
def State.decJobSlot (s : State) (d : Decision) : Option Nat :=
  s.findRec (fun r => (r.origin == 0 || (s.session r.session).taken) && r.kind == 1 && r.session == d.session && r.job == d.job
    && (r.state == 3 || r.state == 4 || r.state == 6))

/-- Does the action take the target (R405)? -/
def Decision.targetOk (d : Decision) : Bool :=
  match d.action with
  | 1 => true
  | 2 => true
  | 3 => true
  | 4 => decide (d.unit < 96)
  | 5 => decide (d.unit < 96)
  | 6 => decide (d.unit < 96)
  | 7 => decide (d.unit < 0x64) || decide (0x70 ≤ d.unit ∧ d.unit < 0x80)
  | 8 => decide (d.unit < 0x64) || decide (0x70 ≤ d.unit ∧ d.unit < 0x80)
  | 9 => true
  | _ => false

/-! ### Actions (R406) -/

/-- Every context of a job is reset and freed; a pewter job stops. The record stays as it is. -/
def State.resetJob (s : State) (n : Nat) : State :=
  let xs := (s.placed.filter (fun p => p.slot == n)).flatMap (·.ctxs)
  let s := { s with placed := s.placed.filter (fun p => p.slot != n), assign := Tab.keep (fun k => !(k ∈ xs)) s.assign
                    queuedJobs := s.queuedJobs.filter (· != n) }
  let s := xs.foldl (fun s a => s.ctxReset (a / 4) (a % 4)) s
  [0, 1, 2, 3].foldl (fun s d =>
    let s : State := { s with pwq := Tab.set [] s.pwq d ((Tab.get [] s.pwq d).filter (· != n)) }
    match Tab.find? s.pwJobs d with
    | some j =>
      if j.slot = n then
        ((State.setRf { s with pwJobs := Tab.erase s.pwJobs d } .pwState 0 0 (4 + d) (4 + d) 0).setReg .pwJobLo 0 d 0).setReg .pwJobHi 0 d 0
      else s
    | none => s) s

/-- A job decided on stops where it runs. One that was HELD out of DOUBT was not accepted: the decision stands for its confirmation, and it
is accepted now, or once the earlier jobs of its session are (16 R346). -/
def State.settle (s : State) (n : Nat) : State :=
  let s := s.resetJob n
  let r := s.jrec n
  if r.confirmed || r.origin == 1 then s else (s.setRec n { r with state := 2, confirmed := true }).acceptReady r.session

/-- RERUN: the record is ACCEPTED again and placed under R365, or queued for pewter mode. -/
def State.rerun (s : State) (n : Nat) : State :=
  let old := s.jrec n
  let s := s.settle n
  if !old.confirmed && old.origin == 0 then (if (s.pewterDie (s.jrec n)).isSome then s else s.place [n])
  else
    let r := s.jrec n
    let s := s.setRec n { r with state := 3 }
    match s.pewterDie r with
    | some d => { s with pwq := Tab.set [] s.pwq d (Tab.get [] s.pwq d ++ [n]) }
    | none => s.place [n]

/-- DISCARD: a receipt with outcome 1 and the status. -/
def State.discard (s : State) (n st : Nat) : State :=
  let s := s.resetJob n
  let r := s.jrec n
  ((s.setRec n { r with confirmed := true }).sealRecord n 1 st []).acceptReady r.session

/-- MIGRATE: the job runs at the partner, once it is accepted. -/
def State.migrate (s : State) (n : Nat) : State :=
  let s := s.settle n
  let r := s.jrec n
  if r.state = 2 then s else (s.setRec n { r with state := 4 }).wit (Config.hubCode 0) r.session r.job [] []

/-- PLC_EXCLUDE bits of a core or die set or cleared; ENABLE of a port cleared or set. -/
def State.fence (s : State) (unit : Nat) (on : Bool) : State :=
  if 0x70 ≤ unit then s.portCtrlWrite (unit - 0x70) (BitVec.ofNat 32 (b2n (!on)))
  else
    let cores := if unit < 96 then [unit] else coresOf (unit - 0x60)
    [0, 1, 2].foldl (fun s k =>
      let m : W32 := BitVec.ofNat 32 ((cores.filter (fun c => c / 32 == k)).foldl (fun a c => a + 2 ^ (c % 32)) 0)
      if m = 0 then s
      else s.plcExcludeWrite k (if on then s.reg .plcExclude 0 k ||| m else s.reg .plcExclude 0 k &&& ~~~m)) s

/-- EXIT_STRONGBOX: the latch is cleared and a warm reset made (R421). -/
def State.exitStrongbox (s : State) : State :=
  let t := State.warmReset (s.setRf .sbStatus 0 0 5 0 0) 8
  t.pwrEvent 0x0902 2 0 0 0

/-- A decision executes: DONE, or REFUSED where its target no longer takes the action. -/
def State.decExecute (s : State) (d : Decision) : State :=
  let done := fun (t : State) => (t.setDec 3).setRf .decStatus 0 0 31 16 ((t.rf .decStatus 0 0 31 16 + 1) % 65536)
  let onJob := fun (f : State → Nat → State) => match s.decJobSlot d with
    | some n => done (f s n)
    | none => s.setDec 6
  let onContext := fun (ok : Bool) (f : State → State) =>
    if s.assay.core = some d.unit then s.setDec 2 else if ok && (s.modeM d.unit || d.ctx == 0) then done (f s) else s.setDec 6
  match d.action with
  | 1 => onJob (fun s n => s.rerun n)
  | 2 => onJob (fun s n => s.discard n d.status)
  | 3 => onJob (fun s n => s.migrate n)
  | 4 => onContext true (fun s => s.ctxAbort d.unit d.ctx)
  | 5 => onContext true (fun s => s.ctxReset d.unit d.ctx)
  | 6 => onContext ((s.context d.unit d.ctx).st == .idle && !(s.core d.unit).pewter) (fun s =>
      (s.modContext d.unit d.ctx (fun y => { y with pc := d.addr })).ctxStart d.unit d.ctx)
  | 7 => done (s.fence d.unit true)
  | 8 => done (s.fence d.unit false)
  | 9 => if s.sbActive ∧ !bitOf (s.reg .sbStatus) 30 then s.exitStrongbox else s.setDec 6
  | _ => s.setDec 6

/-! ### Submission (R405 to R408) -/

/-- A write of DEC_GO with GO: the decision the registers hold. -/
def State.decGo (s : State) (grant : Bool) (req : Nat) : State :=
  let d := s.decision
  if s.decBusy then s.refuseState .decGo 0 0 req
  else if grant && (req != 0 || !(s.witState == 3 || s.witState == 0) || (d.action == 9 && s.handOpen)) then s.refuseState .decGo 0 0 req
  else if !d.targetOk || (s.sbActive && d.action != 9) then s.setDec 6
  else if grant then s.decExecute d
  else
    (State.setDec { s with decAt := s.time } 1).wit 0x40 d.session d.job
      (natLE 1 d.action ++ natLE 1 d.unit ++ natLE 1 d.ctx ++ natLE 1 (if d.action = 2 then d.status else 0)) []

/-- Submit a decision: its registers written, then DEC_GO. -/
def State.submit (s : State) (d : Decision) (grant : Bool) (req : Nat) : State := (s.decWrite d).decGo grant req

/-- RERUN_JOB -/
def execRerunJob (session job : Nat) (grant : Bool) (req : Nat) (s : State) : Host.Outcome State Fault Refusal :=
  .next (s.submit ⟨1, session, job, 0, 0, 0, 0⟩ grant req)

/-- DISCARD_JOB -/
def execDiscardJob (session job status : Nat) (grant : Bool) (req : Nat) (s : State) : Host.Outcome State Fault Refusal :=
  .next (s.submit ⟨2, session, job, 0, 0, status, 0⟩ grant req)

/-- MIGRATE_JOB -/
def execMigrateJob (session job : Nat) (grant : Bool) (req : Nat) (s : State) : Host.Outcome State Fault Refusal :=
  .next (s.submit ⟨3, session, job, 0, 0, 0, 0⟩ grant req)

/-- ABORT_CTX -/
def execAbortCtx (unit ctx : Nat) (grant : Bool) (req : Nat) (s : State) : Host.Outcome State Fault Refusal :=
  .next (s.submit ⟨4, 0, 0, unit, ctx, 0, 0⟩ grant req)

/-- RESET_CTX -/
def execResetCtx (unit ctx : Nat) (grant : Bool) (req : Nat) (s : State) : Host.Outcome State Fault Refusal :=
  .next (s.submit ⟨5, 0, 0, unit, ctx, 0, 0⟩ grant req)

/-- START_CTX -/
def execStartCtx (unit ctx addr : Nat) (grant : Bool) (req : Nat) (s : State) : Host.Outcome State Fault Refusal :=
  .next (s.submit ⟨6, 0, 0, unit, ctx, 0, addr⟩ grant req)

/-- FENCE -/
def execFence (unit : Nat) (grant : Bool) (req : Nat) (s : State) : Host.Outcome State Fault Refusal :=
  .next (s.submit ⟨7, 0, 0, unit, 0, 0, 0⟩ grant req)

/-- UNFENCE -/
def execUnfence (unit : Nat) (grant : Bool) (req : Nat) (s : State) : Host.Outcome State Fault Refusal :=
  .next (s.submit ⟨8, 0, 0, unit, 0, 0, 0⟩ grant req)

/-- EXIT_STRONGBOX -/
def execExitStrongbox (grant : Bool) (req : Nat) (s : State) : Host.Outcome State Fault Refusal :=
  .next (s.submit ⟨9, 0, 0, 0, 0, 0, 0⟩ grant req)

/-- DECISION_TIMEOUT: no CONCUR within 10 × CONFIRM (R407). -/
def execDecisionTimeout (s : State) : Host.Outcome State Fault Refusal :=
  .next (if s.decState = 1 ∧ s.decAt + 10 * s.rf .witTimers 0 0 23 16 * 100 * usCycles ≤ s.time then s.setDec 5 else s)

/-- CONCUR: a grant (reason 0) or a denial of the decision that awaits it. -/
def execConcur (action reason : Nat) (s : State) : Host.Outcome State Fault Refusal :=
  .next (if s.decState ≠ 1 ∨ s.decision.action ≠ action then s
    else if reason = 0 then s.decExecute s.decision
    else (s.setDec 4).setRf .decStatus 0 0 15 8 reason)

/-! ### The witness's side (R406) -/

/-- The mirrored record of a job the partner names. -/
def State.mirrorOf (s : State) (session job : Nat) : Option Nat :=
  s.findRec (fun r => r.origin == 1 && r.kind == 1 && r.session == session && r.job == job && r.state == 3)

/-- Why a request is denied; 0 a grant. -/
def State.denyReason (s : State) (action session job : Nat) : Nat :=
  let v := s.session session
  if action ≤ 3 then
    if v.taken then 3
    else match s.mirrorOf session job with
      | none => if v.partner ∧ job ≤ v.highAck then 2 else 1
      | some n =>
        if action = 3 then
          match s.program (s.jobProgram (s.jrec n)) with
          | some p => if (s.pickCores (s.keyDieOf (s.jrec n)) p.need p.modeS).isSome then 0 else 4
          | none => 4
        else 0
  else if action = 9 then 0
  else if s.paired then 0 else 6

/-- CONCUR_REQ from the partner: decided from this device's own state and answered. -/
def execConcurReq (action session job unit ctx status : Nat) (s : State) : Host.Outcome State Fault Refusal :=
  let _ := (unit, ctx)
  .next (if action = 0 ∨ 9 < action then s
    else
      let reason := s.denyReason action session job
      let s := match (if action = 2 ∧ reason = 0 then s.mirrorOf session job else none) with
        | some n => s.setRec n { s.jrec n with status := status }
        | none => s
      s.wit 0x41 session job (natLE 1 action ++ natLE 1 reason) [])

/-! ### The strongbox state -/

/-- SB_ENTER: the operator's command, cause bit 5 (R417). -/
def execSbEnter (s : State) : Host.Outcome State Fault Refusal := .next (s.latchCause 5)

/-- The records of ORIGIN 0, as their bytes. -/
def State.journalBytes (s : State) : List Byte := (s.recsWhere (fun r => r.origin == 0)).flatMap (fun n => (s.jrec n).bytes)

/-- Their digest, and their seal (R360, R420). -/
def State.journalSeal (s : State) : List Byte := sha384 s.journalBytes ++ idSign s.journalBytes

/-- CUSTODY_SEAL: the ORIGIN 0 records have been read over the custody path and hashed; `readable`: the path served them. HANDOVER goes
out unless the hallmark failed, the clock is in BYPASS (the touchstone is stopped, 20 R435), the partner is not PAIRED or the seal does
not verify (17 R381). -/
def execCustodySeal (readable : Bool) (s : State) : Host.Outcome State Fault Refusal :=
  let k := s.stackOf s.jrnlBase
  .next (if !s.sbActive || bitOf (s.reg .sbStatus) 29 || bitOf (s.reg .sbStatus) 3 then s
    else if !readable || decide (s.rf .thermCfg k 0 7 0 < s.rf .thermStatus k 0 15 8) then s.setRf .sbStatus 0 0 28 28 1
    else if bitOf (s.reg .clkStatus) 1 || !s.paired then { s with custody := addOnce k s.custody }
    else
      let st := if s.idVerifies s.journalBytes then stOk else 0x45
      let s := State.tsServe { s with custody := addOnce k s.custody } 3 0x11 2 st
      if st ≠ stOk then s
      else
        let s := s.accEvent 0x060A 0 0 0 0
        let ns := (s.sessions.filter (fun e => e.2.isOpen && !e.2.partner)).map (·.1)
        State.wit ({ s.setRf .sbStatus 0 0 29 29 1 with handOpen := true } : State) 0x30 0 0 [] (ns.flatMap (natLE 3) ++ s.journalSeal))

/-- HUB_LINK_LOSS: the hub link of a compute die is down; the die is lost (R417). -/
def execHubLinkLoss (die : Nat) (s : State) : Host.Outcome State Fault Refusal :=
  if die < 4 then .next (s.loseDie die 8) else .fault .noSuchPart

/-- CUSTODY_STACK_IDLE: a stack served over the custody path returns to self-refresh after 1 ms idle (R418). -/
def execCustodyStackIdle (stack : Nat) (s : State) : Host.Outcome State Fault Refusal :=
  if stack < 12 then .next { s with custody := s.custody.filter (· != stack) } else .fault .noSuchPart

end Sys2Proof.Machine
end

