-- ==== Sys2Proof/Machine/HubIn.lean ====
section
/-!
DEFINITION. Packets that carry messages (spec 14 R299, R313, R314; 16, pairing; 19 R415): TIME, JOIN, and HUB from the partner or a
supervisor, taken apart and handed to the meanings of their rows; and the arrival of a packet of any TYPE.
-/
namespace Sys2Proof.Machine

/-- What a row leaves; the state as it was where it has no such part. -/
def rowState (o : Host.Outcome State Fault Refusal) (s : State) : State :=
  match o with
  | .next t => t
  | _ => s

/-- A little-endian number of `n` bytes at `i`. -/
def numAt (bs : List Byte) (i n : Nat) : Nat := leNat ((bs.drop i).take n)

/-- Numbers of `n` bytes each that fill a list. -/
def numsOf (n : Nat) (bs : List Byte) : List Nat := (List.range (bs.length / n)).map (fun i => numAt bs (n * i) n)

/-- The parts of PAIR and PAIR_ACK: device, first session, sessions; session, highest accepted and released job, again and again; taken
sessions. -/
def pairParts (d : List Byte) : (Nat × Nat × Nat) × List Nat × List Nat :=
  let n := numAt d 9 2
  ((numAt d 0 4, numAt d 4 3, numAt d 7 2),
    (List.range n).flatMap (fun i => [numAt d (11 + 11 * i) 3, numAt d (14 + 11 * i) 4, numAt d (18 + 11 * i) 4]), numsOf 3 (d.drop (11 + 11 * n)))

/-- A whole message of the partner: MSG, SESSION, JOB, fields, data. -/
def State.hubMessage (s : State) (msg n job : Nat) (f d : List Byte) : State :=
  let run := fun (r : State → Host.Outcome State Fault Refusal) => rowState (r s) s
  let p := pairParts d
  let kind := numAt f 0 1
  match msg with
  | 0x01 => run (execPair p.1.1 p.1.2.1 p.1.2.2 p.2.1 p.2.2)
  | 0x02 => run (execPairAck p.1.1 p.1.2.1 p.1.2.2 p.2.1 p.2.2)
  | 0x03 => run (execHeartbeat (numsOf 2 (f.take 8)))
  | 0x10 => run (execMirror n job kind (numAt f 1 7) d)
  | 0x11 => run (execMirrorEnd n job kind (numAt f 1 1) (numAt f 2 8) (numAt f 10 8))
  | 0x12 => run (execConfirm n job kind)
  | 0x13 => run (execNotHeld n job kind (numAt f 1 1))
  | 0x14 => run (execAbandon n job)
  | 0x15 => run (execRelease n job)
  | 0x16 => run (execSessionClose n)
  | 0x20 =>
    match JRec.ofBytes (d.take 64) with
    | none => s
    | some r => run (execRestore n r.kind job r.state r.gen (r.status, r.time) ((d.drop 64).take r.bodyLen) (d.drop (64 + r.bodyLen)))
  | 0x30 =>
    let k := d.length - 144
    run (execHandover (numsOf 3 (d.take k), (d.drop k).take 48) (d.drop (k + 48)))
  | 0x31 => run (execTaken (numsOf 3 d))
  | 0x40 => run (execConcurReq (numAt f 0 1) n job (numAt f 1 1) (numAt f 2 1) (numAt f 3 1))
  | 0x41 => run (execConcur (numAt f 0 1) (numAt f 1 1))
  | _ =>
    if msg = Config.hubCode 0 % 256 then run (execPartnerJob n job)
    else if msg = Config.hubCode 1 % 256 then run (execPartnerResult n job (numAt f 0 1) d)
    else s

/-- A packet of the partner: its piece joins the message that arrives; a whole message is acted on. A piece that does not follow on is
dropped. -/
def State.hubPiece (s : State) (b : List Byte) : State :=
  let len := numAt b 40 8
  let at_ := numAt b 48 8
  let old := if at_ = 0 then [] else s.hubRx
  if old.length ≠ at_ then s
  else
    let d := (old ++ b.drop 64).take len
    if d.length < len ∧ b.length = 4096 then { s with hubRx := d }
    else State.hubMessage { s with hubRx := [] } (numAt b 0 1) (numAt b 1 3) (numAt b 4 4) ((b.drop 8).take 32) d

/-- HUB: from the partner, or the acknowledgement of a supervisor, whose job field counts held records. -/
def State.hubIn (s : State) (p : Packet) : State :=
  match (List.range 4).find? (fun k => bitOf (s.reg .evSup 0 k) 31 && s.rf .evSup 0 k 17 0 == p.srcDev) with
  | some k =>
    if numAt p.payload 0 1 = Config.hubCode 3 % 256 then rowState (execSupervisorAck k (numAt p.payload 4 4) s) s
    else if s.partnerDev = some p.srcDev then s.hubPiece p.payload else s
  | none => if s.partnerDev = some p.srcDev then s.hubPiece p.payload else s

/-- JOIN, before its port is UP: checked as every packet is, and held against the wiring rule. -/
def State.joinPacket (s : State) (port : Nat) (p : Packet) : State :=
  if !p.legal then s.fabEvent 0x0408 1 port p.srcDev 0x70
  else
    let r := s.aliveCheck port p
    if r.2 then r.1.joinIn port (numAt p.payload 0 4) (numAt p.payload 4 1) (numAt p.payload 5 1) else r.1

/-- A packet of any TYPE arrives on a port. -/
def State.packetAny (s : State) (port : Nat) (p : Packet) : State :=
  if p.typ = 0x0C ∧ s.portState port = 1 then s.joinPacket port p
  else
    let r := s.packetChecks port p
    if !r.2 then r.1
    else match p.typ with
      | 0x0B => let t := numAt p.payload 0 8; r.1.timeIn port (Config.measured t r.1.time) t
      | 0x0E => r.1.hubIn p
      | _ => r.1.deliverPacket port p

/-- PACKET_FORWARD. -/
def execPacketForward (port : Nat) (p : Packet) (s : State) : Host.Outcome State Fault Refusal := onPort port (s.packetAny port p)

end Sys2Proof.Machine
end

