-- ==== Sys2Proof/Machine/Stream.lean ====
section
/-!
DEFINITION. The commands of the streams, one meaning each (spec 10 R207 to R247): a row is the command word that stands at the
context's program counter; it is dispatched, waits, issues, starts and completes as the shared life of a command says (assumption 15),
with the checks, plan and run of its own operation.
-/
namespace Sys2Proof.Machine

/-- NOP (R239). Control-core command that does nothing and exists only for its waits and signal. -/
def execNop (core ctx : Nat) (f : CmdFields) (s : State) : Host.Outcome State Fault Refusal := runRow .nop core ctx f s

/-- END (R231). End of stream; completes when every earlier command of the context has completed, then sets the context IDLE and ends a placed job. -/
def execEndStream (core ctx : Nat) (f : CmdFields) (s : State) : Host.Outcome State Fault Refusal := runRow .endStream core ctx f s

/-- MOVI (R239). Loads the 64-bit immediate into a scalar register. -/
def execMovi (core ctx : Nat) (f : CmdFields) (s : State) : Host.Outcome State Fault Refusal := runRow .movi core ctx f s

/-- MOV (R239). Copies one scalar register to another. -/
def execMov (core ctx : Nat) (f : CmdFields) (s : State) : Host.Outcome State Fault Refusal := runRow .mov core ctx f s

/-- ADD (R239). Adds operand B to a scalar register modulo 2^64. -/
def execAdd (core ctx : Nat) (f : CmdFields) (s : State) : Host.Outcome State Fault Refusal := runRow .add core ctx f s

/-- SUB (R239). Subtracts operand B from a scalar register modulo 2^64. -/
def execSub (core ctx : Nat) (f : CmdFields) (s : State) : Host.Outcome State Fault Refusal := runRow .sub core ctx f s

/-- MUL (R239). Writes the low 64 bits of a scalar product. -/
def execMul (core ctx : Nat) (f : CmdFields) (s : State) : Host.Outcome State Fault Refusal := runRow .mul core ctx f s

/-- AND (R239). Bitwise AND of a scalar register and operand B. -/
def execAndOp (core ctx : Nat) (f : CmdFields) (s : State) : Host.Outcome State Fault Refusal := runRow .andOp core ctx f s

/-- OR (R239). Bitwise OR of a scalar register and operand B. -/
def execOrOp (core ctx : Nat) (f : CmdFields) (s : State) : Host.Outcome State Fault Refusal := runRow .orOp core ctx f s

/-- XOR (R239). Bitwise XOR of a scalar register and operand B. -/
def execXor (core ctx : Nat) (f : CmdFields) (s : State) : Host.Outcome State Fault Refusal := runRow .xor core ctx f s

/-- SHL (R239). Shifts a scalar register left by B[5:0]. -/
def execShl (core ctx : Nat) (f : CmdFields) (s : State) : Host.Outcome State Fault Refusal := runRow .shl core ctx f s

/-- SHR (R239). Logical right shift of a scalar register by B[5:0]. -/
def execShr (core ctx : Nat) (f : CmdFields) (s : State) : Host.Outcome State Fault Refusal := runRow .shr core ctx f s

/-- SAR (R239). Arithmetic right shift of a scalar register, copying bit 63. -/
def execSar (core ctx : Nat) (f : CmdFields) (s : State) : Host.Outcome State Fault Refusal := runRow .sar core ctx f s

/-- PSET (R239). Sets a predicate register from a comparison of scalars. -/
def execPset (core ctx : Nat) (f : CmdFields) (s : State) : Host.Outcome State Fault Refusal := runRow .pset core ctx f s

/-- PLOG (R239). Sets a predicate register from a logic function of two predicates. -/
def execPlog (core ctx : Nat) (f : CmdFields) (s : State) : Host.Outcome State Fault Refusal := runRow .plog core ctx f s

/-- BRA (R219). Branches to an immediate address, faulting ST_ALIGN on a bad target. -/
def execBra (core ctx : Nat) (f : CmdFields) (s : State) : Host.Outcome State Fault Refusal := runRow .bra core ctx f s

/-- BRR (R219). Branches to the address in a scalar register. -/
def execBrr (core ctx : Nat) (f : CmdFields) (s : State) : Host.Outcome State Fault Refusal := runRow .brr core ctx f s

/-- HRD (R221). Reads one header field of a drawer's header slot into a scalar after any pending writer of that slot completes. -/
def execHrd (core ctx : Nat) (f : CmdFields) (s : State) : Host.Outcome State Fault Refusal := runRow .hrd core ctx f s

/-- HSET (R240). Writes one header field, fixes VERSION, LAYOUT, BODY_LEN and HCRC, and refuses un-tarnishing or a budget raise on a live header. -/
def execHset (core ctx : Nat) (f : CmdFields) (s : State) : Host.Outcome State Fault Refusal := runRow .hset core ctx f s

/-- HCOPY (R239). Copies one header slot to another. -/
def execHcopy (core ctx : Nat) (f : CmdFields) (s : State) : Host.Outcome State Fault Refusal := runRow .hcopy core ctx f s

/-- HDROP (R241). Drops a header in place to fewer limbs after the R52 checks, keeping BUDGET. -/
def execHdrop (core ctx : Nat) (f : CmdFields) (s : State) : Host.Outcome State Fault Refusal := runRow .hdrop core ctx f s

/-- CADD (R239). Adds an immediate to a core counter modulo 65,536. -/
def execCadd (core ctx : Nat) (f : CmdFields) (s : State) : Host.Outcome State Fault Refusal := runRow .cadd core ctx f s

/-- CRD (R239). Reads a core counter into a scalar register. -/
def execCrd (core ctx : Nat) (f : CmdFields) (s : State) : Host.Outcome State Fault Refusal := runRow .crd core ctx f s

/-- RSIG (R256). Posts a remote signal to a core, die, device or remote-device counter and completes at issue plus one. -/
def execRsig (core ctx : Nat) (f : CmdFields) (s : State) : Host.Outcome State Fault Refusal := runRow .rsig core ctx f s

/-- BARRIER (R262). Arrives at a die, device or fabric barrier and waits for the phase release. -/
def execBarrier (core ctx : Nat) (f : CmdFields) (s : State) : Host.Outcome State Fault Refusal := runRow .barrier core ctx f s

/-- DESCWR (R249). Writes a 320-bit stream descriptor from five scalar registers. -/
def execDescwr (core ctx : Nat) (f : CmdFields) (s : State) : Host.Outcome State Fault Refusal := runRow .descwr core ctx f s

/-- DRTAG (R191). Sets a run of the context's drawers EMPTY or FULL after claims and pending consumes are released. -/
def execDrtag (core ctx : Nat) (f : CmdFields) (s : State) : Host.Outcome State Fault Refusal := runRow .drtag core ctx f s

/-- LSDECIDE (R154). Decides a training step from the overflow flag, sets the predicate and halves or doubles the loss scale. -/
def execLsdecide (core ctx : Nat) (f : CmdFields) (s : State) : Host.Outcome State Fault Refusal := runRow .lsdecide core ctx f s

/-- LRPICK (R157). Sets a layer's learning-rate shift from its histogram slot and clears the slot. -/
def execLrpick (core ctx : Nat) (f : CmdFields) (s : State) : Host.Outcome State Fault Refusal := runRow .lrpick core ctx f s

/-- NTTO (R72). Forward NTT of every limb of an object, inverting DOMAIN in the result header. -/
def execNtto (core ctx : Nat) (f : CmdFields) (s : State) : Host.Outcome State Fault Refusal := runRow .ntto core ctx f s

/-- INTTO (R72). Inverse NTT of every limb of an object. -/
def execIntto (core ctx : Nat) (f : CmdFields) (s : State) : Host.Outcome State Fault Refusal := runRow .intto core ctx f s

/-- NTTL (R73). Forward transform of a run of limbs using consecutive table entries. -/
def execNttl (core ctx : Nat) (f : CmdFields) (s : State) : Host.Outcome State Fault Refusal := runRow .nttl core ctx f s

/-- INTTL (R73). Inverse transform of a run of limbs. -/
def execInttl (core ctx : Nat) (f : CmdFields) (s : State) : Host.Outcome State Fault Refusal := runRow .inttl core ctx f s

/-- AUTOL (R70). Applies the Galois automorphism to a run of NTT-domain limbs. -/
def execAutol (core ctx : Nat) (f : CmdFields) (s : State) : Host.Outcome State Fault Refusal := runRow .autol core ctx f s

/-- DBCHAIN (R162). Runs one drawbench pass of a chain entry through its stations. -/
def execDbchain (core ctx : Nat) (f : CmdFields) (s : State) : Host.Outcome State Fault Refusal := runRow .dbchain core ctx f s

/-- DBREDUCE (R176). Runs a clear chain to the mask station and reduces the survivors to one scalar. -/
def execDbreduce (core ctx : Nat) (f : CmdFields) (s : State) : Host.Outcome State Fault Refusal := runRow .dbreduce core ctx f s

/-- HADD (R177). Adds two ciphertexts and sets the result header by the budget rules. -/
def execHadd (core ctx : Nat) (f : CmdFields) (s : State) : Host.Outcome State Fault Refusal := runRow .hadd core ctx f s

/-- HSUB (R177). Subtracts two ciphertexts. -/
def execHsub (core ctx : Nat) (f : CmdFields) (s : State) : Host.Outcome State Fault Refusal := runRow .hsub core ctx f s

/-- HADDP (R177). Adds a plaintext to a ciphertext. -/
def execHaddp (core ctx : Nat) (f : CmdFields) (s : State) : Host.Outcome State Fault Refusal := runRow .haddp core ctx f s

/-- HSUBP (R177). Subtracts a plaintext from a ciphertext. -/
def execHsubp (core ctx : Nat) (f : CmdFields) (s : State) : Host.Outcome State Fault Refusal := runRow .hsubp core ctx f s

/-- HMULP (R177). Multiplies a ciphertext by a plaintext. -/
def execHmulp (core ctx : Nat) (f : CmdFields) (s : State) : Host.Outcome State Fault Refusal := runRow .hmulp core ctx f s

/-- HMULC (R177). Multiplies two ciphertexts into a three-polynomial result. -/
def execHmulc (core ctx : Nat) (f : CmdFields) (s : State) : Host.Outcome State Fault Refusal := runRow .hmulc core ctx f s

/-- HMULI (R177). Multiplies a ciphertext by plus or minus a power of two, keeping SCALE. -/
def execHmuli (core ctx : Nat) (f : CmdFields) (s : State) : Host.Outcome State Fault Refusal := runRow .hmuli core ctx f s

/-- TCFG (R125). Waits for earlier anvil commands, then sets tile shapes, zeroes tiles and invalidates the reuse latch. -/
def execTcfg (core ctx : Nat) (f : CmdFields) (s : State) : Host.Outcome State Fault Refusal := runRow .tcfg core ctx f s

/-- TLOAD (R127). Loads one tile and its side-file from the scratchpad. -/
def execTload (core ctx : Nat) (f : CmdFields) (s : State) : Host.Outcome State Fault Refusal := runRow .tload core ctx f s

/-- TMUL (R120). Multiplies two tiles into an FP32 accumulator tile. -/
def execTmul (core ctx : Nat) (f : CmdFields) (s : State) : Host.Outcome State Fault Refusal := runRow .tmul core ctx f s

/-- TZERO (R130). Zeroes an accumulator tile and clears its flags. -/
def execTzero (core ctx : Nat) (f : CmdFields) (s : State) : Host.Outcome State Fault Refusal := runRow .tzero core ctx f s

/-- TDRAIN (R130). Converts accumulator rows to an output format and writes them to the scratchpad. -/
def execTdrain (core ctx : Nat) (f : CmdFields) (s : State) : Host.Outcome State Fault Refusal := runRow .tdrain core ctx f s

/-- BCONV (R135). Converts residues from one prime set to another on the anvil. -/
def execBconv (core ctx : Nat) (f : CmdFields) (s : State) : Host.Outcome State Fault Refusal := runRow .bconv core ctx f s

/-- MMULM (R136). Multiplies limb ranges by a plaintext residue matrix modulo one prime. -/
def execMmulm (core ctx : Nat) (f : CmdFields) (s : State) : Host.Outcome State Fault Refusal := runRow .mmulm core ctx f s

/-- XFER (R243). Streams data between HBM, scratchpad groups and windows, locally or across the fabric. -/
def execXfer (core ctx : Nat) (f : CmdFields) (s : State) : Host.Outcome State Fault Refusal := runRow .xfer core ctx f s

/-- XOBJ (R245). Moves a ciphertext object between HBM and the scratchpad with its header. -/
def execXobj (core ctx : Nat) (f : CmdFields) (s : State) : Host.Outcome State Fault Refusal := runRow .xobj core ctx f s

/-- QREAD (R197). Reads drawers of another core of the quad over the crossbar. -/
def execQread (core ctx : Nat) (f : CmdFields) (s : State) : Host.Outcome State Fault Refusal := runRow .qread core ctx f s

/-- XPUT (R304). Relaxed or bulk put to a global address, signalling a completion counter. -/
def execXput (core ctx : Nat) (f : CmdFields) (s : State) : Host.Outcome State Fault Refusal := runRow .xput core ctx f s

/-- XGET (R304). Relaxed or bulk get from a global address, signalling a completion counter. -/
def execXget (core ctx : Nat) (f : CmdFields) (s : State) : Host.Outcome State Fault Refusal := runRow .xget core ctx f s

/-- KSRELIN (R93). Die macro that relinearises a three-polynomial ciphertext. -/
def execKsrelin (core ctx : Nat) (f : CmdFields) (s : State) : Host.Outcome State Fault Refusal := runRow .ksrelin core ctx f s

/-- KSROT (R93). Die macro that rotates a ciphertext by a step-table entry. -/
def execKsrot (core ctx : Nat) (f : CmdFields) (s : State) : Host.Outcome State Fault Refusal := runRow .ksrot core ctx f s

/-- KSCONJ (R93). Die macro that conjugates a ciphertext. -/
def execKsconj (core ctx : Nat) (f : CmdFields) (s : State) : Host.Outcome State Fault Refusal := runRow .ksconj core ctx f s

/-- KSHOIST (R93). Die macro that makes up to 16 rotations sharing one ModUp, optionally summed. -/
def execKshoist (core ctx : Nat) (f : CmdFields) (s : State) : Host.Outcome State Fault Refusal := runRow .kshoist core ctx f s

/-- ANNEAL (R103). Die macro that bootstraps one or two CKKS ciphertexts by the published sequence. -/
def execAnneal (core ctx : Nat) (f : CmdFields) (s : State) : Host.Outcome State Fault Refusal := runRow .anneal core ctx f s

/-- HRESCALE (R247). Die macro that rescales or modulus-switches a ciphertext, dropping its top limb. -/
def execHrescale (core ctx : Nat) (f : CmdFields) (s : State) : Host.Outcome State Fault Refusal := runRow .hrescale core ctx f s

end Sys2Proof.Machine
end

