-- ==== Sys2Proof/Machine/Torus.lean ====
section
/-!
DEFINITION. Pewter arithmetic (spec 23 R493 to R499): torus words modulo 2^32, the bootstrap of a record and the gate table. An LWE
record is the list of its words, a_0 to a_(n−1) and then b.
-/
namespace Sys2Proof.Machine

/-- Reduction of an integer to a torus word. -/
def torus (x : Int) : Nat := toBits 32 x

/-- Word by word: a sum with integer factors. -/
def lweComb (x : Int) (a : List Nat) (y : Int) (b : List Nat) : List Nat :=
  List.zipWith (fun (u v : Nat) => torus (x * u + y * v)) a b

/-- A word added to b, the last word of a record. -/
def lweShift (a : List Nat) (v : Nat) : List Nat := a.dropLast ++ [torus (a.getLastD 0 + v)]

/-- Signed digits of a value below base^n, least significant first, each in [−base/2, base/2 − 1]; the last carry is dropped. -/
def signedDigits (base : Nat) : Nat → Nat → List Int
  | 0, _ => []
  | n + 1, v =>
    let d := v % base
    if d < base / 2 then (d : Int) :: signedDigits base n (v / base) else ((d : Int) - base) :: signedDigits base n (v / base + 1)

/-- Digits of a torus word, most significant first: rounded to a multiple of 2^drop, ties upward, then split. -/
def digitsOf (base n drop t : Nat) : List Int := (signedDigits base n ((t + 2 ^ (drop - 1)) / 2 ^ drop)).reverse

/-- A coefficient of a product modulo X^2048 + 1. -/
def negCoeff (d : List Int) (p : List Nat) (k : Nat) : Int :=
  ((List.range 2048).map (fun i =>
    if i ≤ k then d.getD i 0 * (p.getD (k - i) 0 : Int) else -(d.getD i 0 * (p.getD (2048 + k - i) 0 : Int)))).sum

/-- A polynomial times X^e modulo X^2048 + 1. -/
def rotatePoly (e : Nat) (p : List Nat) : List Nat :=
  (List.range 2048).map (fun k =>
    let j := (k + 4096 - e % 4096) % 4096
    if j < 2048 then p.getD j 0 else torus (-(p.getD (j - 2048) 0 : Int)))

/-- The external product of a GLWE pair with a GGSW whose row r = 3q + j has polynomials `row r 0` and `row r 1`. -/
def extProduct (row : Nat → Nat → List Nat) (x : List Nat × List Nat) : List Nat × List Nat :=
  let dig := fun (q : List Nat) => q.map (digitsOf 128 3 11)
  let digs := fun (r : Nat) => (dig (if r < 3 then x.1 else x.2)).map (fun ds => ds.getD (r % 3) 0)
  let poly := fun (p : Nat) => (List.range 2048).map (fun k => torus (((List.range 6).map (fun r => negCoeff (digs r) (row r p) k)).sum))
  (poly 0, poly 1)

/-- Polynomials added, or subtracted. -/
def torusAdd (a b : List Nat) : List Nat := lweComb 1 a 1 b
def torusSub (a b : List Nat) : List Nat := lweComb 1 a (-1) b

/-- x scaled to 2N, half up. -/
def barOf (x : Nat) : Nat := (x + 2 ^ 19) / 2 ^ 20 % 4096

/-- The bootstrap of a record up to and including the sample extraction (R499). `bk i r p`: polynomial p of row r of GGSW i. -/
def rotateLwe (bk : Nat → Nat → Nat → List Nat) (c : List Nat) : List Nat :=
  let mu := List.replicate 2048 0x20000000
  let acc : List Nat × List Nat := (List.replicate 2048 0, rotatePoly (4096 - barOf (c.getD 744 0)) mu)
  let acc := (List.range 744).foldl (fun (a : List Nat × List Nat) i =>
    let e := barOf (c.getD i 0)
    let d := extProduct (bk i) (torusSub (rotatePoly e a.1) a.1, torusSub (rotatePoly e a.2) a.2)
    (torusAdd a.1 d.1, torusAdd a.2 d.2)) acc
  (List.range 2048).map (fun j => if j = 0 then acc.1.getD 0 0 else torus (-(acc.1.getD (2048 - j) 0 : Int))) ++ [acc.2.getD 0 0]

/-- The key switch from dimension 2,048 to 744. `ksk c j`: record 8c + j. -/
def keySwitch (ksk : Nat → Nat → List Nat) (x : List Nat) : List Nat :=
  let start := List.replicate 744 0 ++ [x.getD 2048 0]
  (List.range 2048).foldl (fun a c =>
    ((digitsOf 4 8 16 (x.getD c 0)).zipIdx).foldl (fun (a : List Nat) e => lweComb 1 a (-e.1) (ksk c e.2)) a) start

/-- The linear combination a gate bootstraps, from a constant and factors of A and B (R498). -/
def gateInput (code : Nat) (a b : List Nat) : List Nat :=
  match code with
  | 0x1 => lweShift (lweComb (-1) a (-1) b) 0x20000000
  | 0x2 => lweShift (lweComb 1 a 1 b) 0xE0000000
  | 0x3 => lweShift (lweComb 1 a 1 b) 0x20000000
  | 0x4 => lweShift (lweComb (-1) a (-1) b) 0xE0000000
  | 0x5 => lweShift (lweComb 2 a 2 b) 0x40000000
  | 0x6 => lweShift (lweComb (-2) a (-2) b) 0xC0000000
  | _ => lweShift (lweComb (-1) a 1 b) 0xE0000000

/-- A gate's output record (R498, R499). -/
def gateOutput (bk : Nat → Nat → Nat → List Nat) (ksk : Nat → Nat → List Nat) (code : Nat) (a b c : List Nat) : List Nat :=
  if code = 8 then
    let u1 := rotateLwe bk (lweShift (lweComb 1 a 1 b) 0xE0000000)
    let u2 := rotateLwe bk (lweShift (lweComb (-1) a 1 c) 0xE0000000)
    keySwitch ksk (lweShift (lweComb 1 u1 1 u2) 0x20000000)
  else keySwitch ksk (rotateLwe bk (gateInput code a b))

end Sys2Proof.Machine
end

