-- ==== Sys2Proof/Machine/Pewter.lean ====
section
/-!
DEFINITION. Pewter mode (spec 23 R493 to R510): entry and exit, the register window, jobs and gates.
-/
namespace Sys2Proof.Machine

def onDie (d : Nat) (s : State) : Host.Outcome State Fault Refusal := if d < 4 then .next s else .fault .noSuchPart

/-- A pewter event of a die (R510). -/
def State.pwEvent (s : State) (code cls d detail : Nat) : State :=
  s.raise { code := code, cls := cls, unit := 24 * d, detail := d + detail }

def State.pwBit (s : State) (b : Nat) : Bool := bitOf (s.reg .pwState) b
def State.setPwState (s : State) (b : Nat) (v : Bool) : State := s.setRf .pwState 0 0 b b (b2n v)
def State.setPwStatus (s : State) (b : Nat) : State := s.setRf .pwStatus 0 0 b b 1

/-! ### Entering and leaving (R501 to R504) -/

/-- The scratchpad of core 24d is zeroed: drawers EMPTY with no claim, header slots zero. -/
def State.zeroScratch (s : State) (d : Nat) : State :=
  let c := 24 * d
  let out := fun (a : Nat) => !(decide (spBase c ≤ a) && decide (a < spBase c + 0x2000000))
  State.modCore { s with mem := s.mem.filter (fun e => out e.1), badpar := s.badpar.filter out } c
    (fun k => { k with drawers := [], hdrs := [] })

/-- Is a core under assay, or queued for one? -/
def State.inAssay (s : State) (c : Nat) : Bool := s.assay.core == some c || decide (c ∈ s.assay.queue)

/-- ENTER is refused for a die (R504). -/
def State.enterRefused (s : State) (d : Nat) : Bool :=
  !s.serviceOpen || !bitOf (s.reg .hmPolicy) 2 || s.sbActive || s.dieLost d

/-- Entry begins: the core is set to PEWTER in the shadow table; where it is under assay, when it returns. -/
def State.pwBegin (s : State) (d : Nat) : State :=
  if s.pwBit (8 + d) || s.pwBit d then s
  else
    let s := s.setPwState d true
    if s.inAssay (24 * d) then s else s.plcCoreState [24 * d] 2

/-- PW_ENTER for a die. -/
def State.pwEnter (s : State) (d req : Nat) : State :=
  if s.enterRefused d then s.refuseState .pwCtrlHi 0 0 req else s.pwBegin d

/-- Pewter mode on a die ends. -/
def State.pwLeave (s : State) (d : Nat) : State :=
  let s := ((s.zeroScratch d).modCore (24 * d) (fun k => { k with pewter := false })).setPwState (8 + d) false
  let s : State := { s with pwLeaving := s.pwLeaving.filter (· != d) }
  ((s.setPwStatus (4 + d)).pwEvent 0x0D02 2 d 0).plcCoreState [24 * d] 0

/-- PW_EXIT for a die: an entry is cancelled; a running job completes first. -/
def State.pwExit (s : State) (d : Nat) : State :=
  if s.pwBit d then
    let s := s.setPwState d false
    if s.inAssay (24 * d) then s else s.plcCoreState [24 * d] 0
  else if !s.pwBit (8 + d) then s
  else if s.pwBit (4 + d) then { s with pwLeaving := addOnce d s.pwLeaving }
  else s.pwLeave d

/-- PW_ENTER -/
def execPwEnter (die req : Nat) (s : State) : Host.Outcome State Fault Refusal := onDie die (s.pwEnter die req)

/-- PW_EXIT -/
def execPwExit (die : Nat) (s : State) : Host.Outcome State Fault Refusal := onDie die (s.pwExit die)

/-- Every context of the core is IDLE and no window of it is open. -/
def State.pwDrained (s : State) (c : Nat) : Bool :=
  (List.range 4).all (fun x => (s.context c x).st == .idle) && (List.range 16).all (fun w => !bitOf (s.reg .winCfg c w) 31)

/-- PEWTER_ENTRY_DRAINED: the epoch has committed with the core in PEWTER, and it is drained: pewter mode begins. Where the bound has
`expired` first, the entry fails. -/
def execPewterEntryDrained (die : Nat) (expired : Bool) (s : State) : Host.Outcome State Fault Refusal :=
  onDie die (
    let c := 24 * die
    if !s.pwBit die || Tab.get 0 s.plcActive.cores c != 2 then s
    else if s.pwDrained c then
      let s := ((s.zeroScratch die).modCore c (fun k => { k with pewter := true })).setPwState die false
      (((s.setPwState (8 + die) true).setPwStatus (8 + die)).pwEvent 0x0D01 2 die 0)
    else if expired then
      (((s.setPwState die false).setPwStatus 13).pwEvent 0x0D03 1 die 0).plcCoreState [c] 0
    else s)

/-! ### The register window (R508, R509) -/

/-- A write is discarded: its bit of PW_STATUS, and the event. -/
def State.loneWrite (s : State) (bit off : Nat) : State :=
  (s.setPwStatus bit).raise { code := 0x0D04, cls := 2, unit := 0x88, detail := 4 * off }

/-- PW_LO_WRITE: a LO half is staged; a staged LO it replaces is discarded. -/
def State.pwLo (s : State) (v : W32) : State :=
  let s := match s.pwStage with
    | some e => s.loneWrite 14 e.1
    | none => s
  { s with pwStage := some (0, bits v 15 0) }

/-- PW_HI_WRITE: the staged LO of the pair is committed, or the write is discarded. A value that breaks a rule is refused whole. -/
def State.pwHi (s : State) (req : Nat) : State :=
  match s.pwStage with
  | none => s.loneWrite 15 4
  | some e =>
    let s : State := { s with pwStage := none }
    let enter := (List.range 4).filter (fun d => natBit e.2 d)
    let exit := (List.range 4).filter (fun d => natBit e.2 (4 + d))
    if enter.any (fun d => decide (d ∈ exit)) then s.refuseState .pwCtrlHi 0 0 req 4
    else if enter.any s.enterRefused then s.refuseState .pwCtrlHi 0 0 req
    else exit.foldl State.pwExit (enter.foldl State.pwBegin s)

def execPwLoWrite (v : W32) (s : State) : Host.Outcome State Fault Refusal := .next (s.pwLo v)
def execPwHiWrite (req : Nat) (s : State) : Host.Outcome State Fault Refusal := .next (s.pwHi req)

/-- PW_STATUS_READ: a read of PW_STATUS by a requester returns its bits and clears them. -/
def execPwStatusRead (req : Nat) (s : State) : Host.Outcome State Fault Refusal :=
  .next ((s.send (.read req (regAddr .pwStatus) (s.reg .pwStatus).toNat 0)).setReg .pwStatus 0 0 0)

/-! ### Jobs and gates (R505 to R507) -/

/-- Address of a wire of die `d`. -/
def wireAddr (d w : Nat) : Nat := spBase (24 * d) + 3072 * w

/-- The words of a record. -/
def State.lweAt (s : State) (a : Nat) : List Nat := (List.range 745).map (fun i => s.readBE (a + 4 * i) 4)

/-- A record as bytes, its padding zero. -/
def lweBytes (ws : List Nat) : List Byte := ws.flatMap (natBE 4) ++ List.replicate 92 0

/-- Word `w` of the bootstrap key of a key set. -/
def State.bkWord (s : State) (key w : Nat) : Nat := s.readBE (key + 3072 * (w / 745) + 4 * (w % 745)) 4

/-- Polynomial p of row r of GGSW i. -/
def State.bkPoly (s : State) (key i r p : Nat) : List Nat :=
  (List.range 2048).map (fun c => s.bkWord key (((i * 6 + r) * 2 + p) * 2048 + c))

/-- Record 8c + j of the key-switching key. -/
def State.kskRec (s : State) (key c j : Nat) : List Nat := s.lweAt (key + 75399168 + 3072 * (8 * c + j))

/-- PEWTER_JOB_START: the oldest queued job of a die in pewter mode starts: its key set latched, its inputs loaded. -/
def execPewterJobStart (die : Nat) (s : State) : Host.Outcome State Fault Refusal :=
  onDie die (match Tab.get [] s.pwq die with
    | [] => s
    | n :: ns =>
      let r := s.jrec n
      if !s.pwBit (8 + die) || s.pwBit (4 + die) || decide (die ∈ s.pwLeaving) || s.noDispatch || r.state != 3 then s
      else
        let b := s.pwBody r
        let key := match s.modelSlot (s.jobModel r) with
          | some m => (s.jrec m).body + 64
          | none => 0
        let s : State := { s with pwq := Tab.set [] s.pwq die ns, pwJobs := Tab.insert (Tab.erase s.pwJobs die) die { slot := n, key := key } }
        let s := ((s.setRec n { r with state := 4 }).setPwState (4 + die) true).setReg .pwJobLo 0 die (BitVec.ofNat 32 (r.job % 65536))
        (s.setReg .pwJobHi 0 die (BitVec.ofNat 32 (r.job / 65536))).store (wireAddr die 0) (s.readBytes b.ins (3072 * b.nin)))

/-- The job of a die has ended; an EXIT that waited for it takes effect. -/
def State.pwJobOver (s : State) (d : Nat) : State :=
  let s := State.setPwState { s with pwJobs := Tab.erase s.pwJobs d } (4 + d) false
  let s := (s.setReg .pwJobLo 0 d 0).setReg .pwJobHi 0 d 0
  if d ∈ s.pwLeaving then s.pwLeave d else s

/-- One more gate evaluated on a die: a 32-bit count in two halves, wrapping. -/
def State.countGate (s : State) (d : Nat) : State :=
  let n := (s.rf .pwGatesHi 0 d 15 0 * 65536 + s.rf .pwGatesLo 0 d 15 0 + 1) % 2 ^ 32
  (s.setReg .pwGatesLo 0 d (BitVec.ofNat 32 (n % 65536))).setReg .pwGatesHi 0 d (BitVec.ofNat 32 (n / 65536))

/-- A gate, or the writing of the result, meets wrong parity: the job is HELD. `a`: the byte of the wire store that was read (09 R200). -/
def State.pwFault (s : State) (d : Nat) (j : PwJob) (a : Option Nat) : State :=
  let s := match a with
    | some b => s.tearAt (24 * d) b
    | none => s
  (((s.setPwStatus 12).pwEvent 0x0D05 1 d (2 ^ 32 * (j.gate % 65536))).holdSlot j.slot stParity).pwJobOver d

/-- The last gate is done: the result is the output records, in order; the record is sealed. -/
def State.pwFinish (s : State) (d : Nat) (j : PwJob) : State :=
  let r := s.jrec j.slot
  let b := s.pwBody r
  let outs := (List.range b.nout).map (fun o => wireAddr d (s.readBE (b.outs + 4 * o) 4))
  match outs.findSome? (fun a => s.badIn a 3072) with
  | some a => s.pwFault d j (some a)
  | none => (s.sealRecord j.slot 0 0 (outs.flatMap (fun a => s.readBytes a 3072))).pwJobOver d

/-- PEWTER_GATE: a gate's bootstrap completes and writes its wire; `fault`: a parity error in a wire or a key read ends it. -/
def execPewterGate (die : Nat) (fault : Bool) (s : State) : Host.Outcome State Fault Refusal :=
  onDie die (match Tab.find? s.pwJobs die with
    | none => s
    | some j =>
      let b := s.pwBody (s.jrec j.slot)
      let w := s.readBE (b.gates + 8 * j.gate) 8
      let ins := [natBits w 50 34, natBits w 33 17, natBits w 16 0]
      let used := if natBits w 63 60 = 8 then ins else ins.take 2
      let bad := used.findSome? (fun i => s.badIn (wireAddr die i) 3072)
      if fault || bad.isSome then s.pwFault die j bad
      else
        let wire := fun k => s.lweAt (wireAddr die (ins.getD k 0))
        let out := gateOutput (s.bkPoly j.key) (s.kskRec j.key) (natBits w 63 60) (wire 0) (wire 1) (wire 2)
        let s := (s.store (wireAddr die (b.nin + j.gate)) (lweBytes out)).countGate die
        if j.gate + 1 = b.ngate then s.pwFinish die j
        else { s with pwJobs := Tab.set {} s.pwJobs die { j with gate := j.gate + 1 } })

/-! ### The adder of the assay (21 R468) -/

/-- The gates of the adder, in order: code and input wires. Wires 0 to 63 are a, 64 to 127 are b, wire 128 + g is gate g. Bit i from 1 on has
gates 3i − 1 to 3i + 1, of which the last is its carry. -/
def adderGates : List (Nat × Nat × Nat × Nat) :=
  [(5, 0, 64, 0), (2, 0, 64, 0)] ++ ((List.range 63).flatMap (fun k =>
    let i := k + 1
    let t := 128 + 3 * i - 1
    let carry := t - 1
    [(5, i, 64 + i, 0), (5, t, carry, 0), (8, t, carry, i)]))

/-- The wires of the outputs: s_0 to s_63, then c_64. -/
def adderOuts : List Nat := 128 :: (List.range 63).map (fun k => 128 + 3 * (k + 1)) ++ [128 + 190]

/-- Every wire of the adder over its 128 inputs. -/
def adderWires (bk : Nat → Nat → Nat → List Nat) (ksk : Nat → Nat → List Nat) (ins : List (List Nat)) : List (List Nat) :=
  adderGates.foldl (fun ws g => ws ++ [gateOutput bk ksk g.1 (ws.getD g.2.1 []) (ws.getD g.2.2.1 []) (ws.getD g.2.2.2 [])]) ins

/-- Does test 7 fail on core 24d: the output records differ from the vectors' under the key set of slot 0? An image without assay vectors has
nothing to compare. -/
def State.adderFails (s : State) (d : Nat) : Bool :=
  let v := s.progPart 3
  if v.2 = 0 then false
  else
    let recs := fun k n => (List.range n).map (fun i => v.1 + Config.vectorAt k + 3072 * i)
    let key := pewterSlot d 0
    let ws := adderWires (s.bkPoly key) (s.kskRec key) ((recs 0 64 ++ recs 1 64).map s.lweAt)
    adderOuts.flatMap (fun w => lweBytes (ws.getD w [])) != (recs 2 65).flatMap (fun a => s.readBytes a 3072)

/-- Test 7 on a die, as far as it shows: core 24d enters pewter mode, its gates are counted, it leaves (R501, R503). -/
def State.adderRun (s : State) (d : Nat) : State :=
  if (s.progPart 3).2 = 0 then s
  else
    let s := (s.setPwStatus (8 + d)).pwEvent 0x0D01 2 d 0
    let s := (List.range 191).foldl (fun s _ => s.countGate d) s
    (s.setPwStatus (4 + d)).pwEvent 0x0D02 2 d 0

end Sys2Proof.Machine
end

