-- ==== Sys2Proof/Machine/Assay.lean ====
section
/-!
DEFINITION. Assays on request (spec 21 R467 to R472): a per-core assay pre-empts the core, saves its scratchpad, tests and restores it.
The tests' own work leaves no trace; whether they pass is what a command brings.
-/
namespace Sys2Proof.Machine

/-- The next queued request begins: its core enters placement state ASSAY (R471 step 1). -/
def State.assayNext (s : State) : State :=
  match s.assay.core, s.assay.queue with
  | none, c :: cs => State.plcCoreState { s with assay := { s.assay with core := some c, queue := cs, pre := [], testing := false, test := 0 } } [c] 3
  | _, _ => s

/-- Why a per-core request is refused (R470). -/
def State.assayRefused (s : State) (c : Nat) : Bool :=
  s.sbActive || (s.core c).pewter || Tab.get 0 s.plcActive.cores c == 5 || s.dieLost (dieOf c) || s.inAssay c
    || decide (8 ≤ s.assay.queue.length)

/-- A whole-device request is accepted in FAILED and NO_SERVICE only (R469, R470). -/
def State.wholeRefused (s : State) : Bool := s.sbActive || s.serviceOpen || !(s.boot == 13 || s.boot == 14)

/-- A write of ASSAY_REQ. -/
def State.assayReqWrite (s : State) (v : W32) (req : Nat) : State :=
  let c := bits v 6 0
  if bitOf v 7 then (if s.wholeRefused then s.refuseState .assayReq 0 0 req else { s with assay := { s.assay with whole := true, test := 1 } })
  else if 95 < c then s.refuseState .assayReq 0 0 req 4
  else if s.assayRefused c then s.refuseState .assayReq 0 0 req
  else State.assayNext { s with assay := { s.assay with queue := s.assay.queue ++ [c] } }

/-- ASSAY_WHOLE -/
def execAssayWhole (req : Nat) (s : State) : Host.Outcome State Fault Refusal := .next (s.assayReqWrite 0x80 req)

/-- ASSAY_CORE -/
def execAssayCore (core req : Nat) (s : State) : Host.Outcome State Fault Refusal :=
  .next (s.assayReqWrite (BitVec.ofNat 32 (core % 128)) req)

/-- ASSAY_CORE_RUN: the epoch has committed with the core in ASSAY. Its RUNNING contexts are pre-empted; once none runs, its scratchpad
state is saved, the ports are held and the tests begin. The bytes of the saved state are not given. -/
def execAssayCoreRun (s : State) : Host.Outcome State Fault Refusal :=
  .next (match s.assay.core with
    | none => s
    | some c =>
      let run := [0, 1, 2, 3].filter (fun x => (s.context c x).st == .running)
      if Tab.get 0 s.plcActive.cores c != 3 || s.assay.testing then s
      else if !run.isEmpty then
        run.foldl (fun s x => s.ctxPreempt c x) { s with assay := { s.assay with pre := s.assay.pre ++ run.map (fun x => 4 * c + x) } }
      else if [0, 1, 2, 3].any (fun x => (s.context c x).st == .preempting) then s
      else
        let a := addr16 (s.reg .assayArea)
        State.forget { s with assay := { s.assay with testing := true, test := 1 } } a (a + 25182208))

/-- Bit of a core in ASSAY_FAIL. -/
def State.setAssayFail (s : State) (c : Nat) (bad : Bool) : State := s.setRf .assayFail 0 (c / 32) (c % 32) (c % 32) (b2n bad)

/-- An entry into pewter mode that waited for the core goes on. -/
def State.afterAssay (s : State) (c : Nat) : State :=
  if c % 24 = 0 ∧ s.pwBit (c / 24) then s.plcCoreState [c] 2 else s.plcCoreState [c] 0

/-- The tests of a core ended. `torn`: drawers that met a parity error in the save or restore. -/
def State.assayEnd (s : State) (c : Nat) (test : Nat) (ok : Bool) (torn : List Nat) : State :=
  let pre := s.assay.pre.filter (fun a => (s.context (a / 4) (a % 4)).st == .preempted)
  let s : State := { s with assay := { s.assay with core := none, pre := [], testing := false, test := 0 } }
  let s := torn.foldl (fun s d => (s.recordParity c (drawerAddr c d)).modCore c (fun k => k.modDrawer d (fun v => { v with tag := .torn }))) s
  let s := s.setAssayFail c (!(ok && torn.isEmpty))
  let s :=
    if ok && torn.isEmpty then
      let s := pre.foldl (fun s a => s.ctxResume (a / 4) (a % 4)) (s.cfgEvent 0x0A07 2 0 0 0 0 c 0)
      s.afterAssay c
    else pre.foldl (fun s a => s.holdJob (a / 4) (a % 4) 0) (s.cfgEvent 0x0A06 1 0 0 0 0 c test)
  (if s.decState = 2 ∧ s.decision.unit = c then s.decExecute s.decision else s).assayNext

/-- ASSAY_CORE_DONE: tests 1 to 6 have ended, with the first failed one, or `ok`; test 7 then runs on core 0 of a die, in pewter mode whatever
PEWTER holds, and leaves its verdict alone. -/
def execAssayCoreDone (test : Nat) (ok : Bool) (torn : List Nat) (s : State) : Host.Outcome State Fault Refusal :=
  .next (match s.assay.core with
    | none => s
    | some c =>
      let t := torn.filter (· < 256)
      if !s.assay.testing then s
      else if ok ∧ c % 24 = 0 then (s.adderRun (c / 24)).assayEnd c 7 (!s.adderFails (c / 24)) t
      else s.assayEnd c (test % 16) ok t)

end Sys2Proof.Machine
end

