-- ==== Sys2Proof/Machine/Cv.lean ====
section
/-!
DEFINITION. The check-value units as software drives them (spec 18 R390 to R400): profile, running value, START, FINISH, APPLY, feeds.
A unit number below 32 is a hub unit; 32 + 2·p + ch is channel ch (0 LINK, 1 PACKET) of fabric port p.
-/
namespace Sys2Proof.Machine

/-- The register of a unit: of the hub block, or of its port's block. -/
def cvKey (hub port : RegName) (u : Nat) : RegKey :=
  if u < 32 then ⟨hub, 0, u⟩ else ⟨port, (u - 32) / 2, (u - 32) % 2⟩

/-- A 64-bit parameter from its two words. -/
def State.cv64 (s : State) (u : Nat) (hl hh pl ph : RegName) : Nat :=
  (s.regK (cvKey hl pl u)).toNat + 2 ^ 32 * (s.regK (cvKey hh ph u)).toNat

/-- A unit's profile, as its registers stand. -/
def State.cvProfile (s : State) (u : Nat) : CrcProfile :=
  let c := s.regK (cvKey .cvCfg .pcvCfg u)
  { width := bits c 6 0
    poly := s.cv64 u .cvPolyLo .cvPolyHi .pcvPolyLo .pcvPolyHi
    init := s.cv64 u .cvInitLo .cvInitHi .pcvInitLo .pcvInitHi
    xorout := s.cv64 u .cvXoroutLo .cvXoroutHi .pcvXoroutLo .pcvXoroutHi
    refin := bitOf c 31, refout := bitOf c 30 }

/-- RUN. -/
def State.cvRun (s : State) (u : Nat) : Nat := s.cv64 u .cvRunLo .cvRunHi .pcvRunLo .pcvRunHi

def State.setCvRun (s : State) (u v : Nat) : State :=
  (s.setRegK (cvKey .cvRunLo .pcvRunLo u) (loWord v)).setRegK (cvKey .cvRunHi .pcvRunHi u) (hiWord v)

def State.setCvCheck (s : State) (u v : Nat) : State :=
  (s.setRegK (cvKey .cvCheckLo .pcvCheckLo u) (loWord v)).setRegK (cvKey .cvCheckHi .pcvCheckHi u) (hiWord v)

/-- INIT, of WIDTH bits. -/
def CrcProfile.start (p : CrcProfile) : Nat := p.init % 2 ^ p.width

/-- CV_STAT.BUSY and OWNER. -/
def State.cvBusy (s : State) (u : Nat) : Bool := bitOf (s.regK (cvKey .cvStat .pcvStat u)) 0
def State.cvOwned (s : State) (u : Nat) : Bool := bits (s.regK (cvKey .cvStat .pcvStat u)) 7 4 != 0

/-- Detail of a check-value event: the hub unit, or the port and the channel (R399). -/
def cvDetail (u : Nat) : Nat := if u < 32 then u else 32 + (u - 32) / 2 + 64 * ((u - 32) % 2)

/-- A refused write: the register refusal and EV_CV_REFUSED (R399). -/
def State.cvRefuse (s : State) (k : RegKey) (u req : Nat) : State :=
  let s := s.refuseState k.reg k.inst k.idx req
  s.raise { code := 0x0801, cls := 2, unit := 0x85, detail := cvDetail u }

/-- The bytes "123456789". -/
def nineDigits : List Byte := (List.range 9).map (fun i => BitVec.ofNat 8 (0x31 + i))

def State.cvStart (s : State) (u : Nat) : State := s.setCvRun u (s.cvProfile u).start
def State.cvFinish (s : State) (u : Nat) : State := s.setCvCheck u (crcValue (s.cvProfile u) (s.cvRun u))
def State.cvApply (s : State) (u : Nat) : State := (s.setCvCheck u (crc (s.cvProfile u) nineDigits)).cvStart u

/-- Bytes CV_FEED takes by FEEDLEN (R400). -/
def feedLen (n : Nat) : Nat := if n = 0 then 4 else n

def noUnit (u : Nat) (s : State) : Host.Outcome State Fault Refusal := if u < 64 then .next s else .fault .noSuchPart

/-- CV_START: RUN becomes INIT. -/
def execCvStart (u : Nat) (s : State) : Host.Outcome State Fault Refusal := noUnit u (s.cvStart u)

/-- CV_FINISH: CV_CHECK takes the value of RUN. -/
def execCvFinish (u : Nat) (s : State) : Host.Outcome State Fault Refusal := noUnit u (s.cvFinish u)

/-- CV_APPLY: the profile's check value; RUN becomes INIT. -/
def execCvApply (u : Nat) (s : State) : Host.Outcome State Fault Refusal := noUnit u (s.cvApply u)

/-- A write of CV_CTRL: FEEDLEN, and each action whose bit is 1. -/
def State.cvCtrlWrite (s : State) (u : Nat) (v : W32) : State :=
  let s := s.setRegK (cvKey .cvCtrl .pcvCtrl u) (v &&& 0x30)
  let s := if bitOf v 2 then s.cvFinish u else s
  let s := if bitOf v 1 then s.cvStart u else s
  if bitOf v 0 then s.cvApply u else s

/-- A write of CV_FEED: the bytes from bits [7:0] upward; refused on an assigned unit. -/
def State.cvFeedWrite (s : State) (u : Nat) (v : W32) (req : Nat) : State :=
  if s.cvOwned u then s.cvRefuse (cvKey .cvFeed .pcvFeed u) u req
  else
    let n := feedLen (bits (s.regK (cvKey .cvCtrl .pcvCtrl u)) 5 4)
    s.setCvRun u (crcFeed (s.cvProfile u) (s.cvRun u) (natLE n v.toNat))

/-- CV_FEED. -/
def execCvFeed (u : Nat) (v : W32) (req : Nat) (s : State) : Host.Outcome State Fault Refusal := noUnit u (s.cvFeedWrite u v req)

/-- A write of RUN_LO or RUN_HI (R398): the low word takes effect alone where WIDTH is at most 32; otherwise it waits for the high word. -/
def State.cvRunWrite (s : State) (u : Nat) (high : Bool) (v : W32) (req : Nat) : State :=
  let w := (s.cvProfile u).width
  if s.cvBusy u then s.cvRefuse (if high then cvKey .cvRunHi .pcvRunHi u else cvKey .cvRunLo .pcvRunLo u) u req
  else if high then
    let lo := match Tab.find? s.cvStage u with
      | some l => l.toNat
      | none => s.cvRun u % 2 ^ 32
    State.setCvRun { s with cvStage := Tab.erase s.cvStage u } u ((lo + 2 ^ 32 * v.toNat) % 2 ^ w)
  else if w ≤ 32 then s.setCvRun u (v.toNat % 2 ^ w)
  else { s with cvStage := Tab.insert (Tab.erase s.cvStage u) u v }

/-- CV_RUN_WRITE. -/
def execCvRunWrite (u : Nat) (high : Bool) (v : W32) (req : Nat) (s : State) : Host.Outcome State Fault Refusal :=
  noUnit u (s.cvRunWrite u high v req)

/-- The parameter registers of a unit. -/
def cvParams (u : Nat) : List (RegKey × Bool) :=
  [(cvKey .cvPolyLo .pcvPolyLo u, false), (cvKey .cvPolyHi .pcvPolyHi u, true), (cvKey .cvInitLo .pcvInitLo u, false),
    (cvKey .cvInitHi .pcvInitHi u, true), (cvKey .cvXoroutLo .pcvXoroutLo u, false), (cvKey .cvXoroutHi .pcvXoroutHi u, true)]

/-- Bits of a word of a parameter that lie below WIDTH; all where WIDTH is no width (R391, R12). -/
def cvMask (w : Nat) (high : Bool) : W32 :=
  if w < 8 ∨ 64 < w then (-1 : W32) else if high then hiWord (2 ^ w - 1) else loWord (2 ^ w - 1)

/-- A write of a profile register (R391, R393, R398). -/
def State.cvProfileWrite (s : State) (k : RegKey) (u : Nat) (v : W32) (req : Nat) : State :=
  let cfg := k == cvKey .cvCfg .pcvCfg u
  let w := bits v 6 0
  if s.cvBusy u || (s.cvOwned u && s.serviceOpen)
      || (if cfg then decide (w < 8 ∨ 64 < w) else k == cvKey .cvPolyLo .pcvPolyLo u && !bitOf v 0) then s.cvRefuse k u req
  else if cfg then
    (cvParams u).foldl (fun s p => s.setRegK p.1 (s.regK p.1 &&& cvMask w p.2)) (s.setRegK k (v &&& 0xF800007F))
  else match (cvParams u).find? (fun p => p.1 == k) with
    | some p => s.setRegK k (v &&& cvMask (s.cvProfile u).width p.2)
    | none => s

end Sys2Proof.Machine
end

