-- ==== Sys2Proof/Machine/Hbm.lean ====
section
/-!
DEFINITION. Stacked memory as commands (spec 13 R276 to R288): reads and writes as a controller sees them, temperature,
recalibration, caches, repair.
-/
namespace Sys2Proof.Machine

/-- Run where a stack exists. -/
def onStack (st : Nat) (s : State) : Host.Outcome State Fault Refusal := if st < 12 then .next s else .fault .noSuchPart

/-! ### Reads (R277, R278) -/

/-- A link retry, on reads and writes (R278). -/
def State.linkRetry (s : State) (a : Nat) : State := (s.countReg .hbmLinkRetry (s.stackOf a) 0 1).hbmEvent 0x0304 3 a

/-- A stack read of granule `a` returns with a severity (0 none, 1 corrected, 2 uncorrected) and link parity errors (0 none,
1 once, 2 again after the retry: the reader takes the granule poisoned). An uncorrectable granule stays so until it is written; a
correctable one too, but for the scrub that HBM_CFG.ECS enables; the severity holds for later reads. -/
def State.readResponse (s : State) (a sev link : Nat) : State :=
  if !inHbm a || !s.stackOnline a then s
  else
    let a := a / 64 * 64
    let s := s.perturb 5 (s.stackOf a)
    let par := bitOf (s.reg .hbmCfg (s.stackOf a)) 3
    let s := if par && link != 0 then s.linkRetry a else s
    if par && decide (2 ≤ link) then State.readOutcome { s with linkBad := addOnce (a / 64) s.linkBad } a 2 3
    else
      let ecs := bitOf (s.reg .hbmCfg (s.stackOf a)) 2
      let v := if s.severity a = 2 then 2 else if s.severity a = 1 ∧ ¬ ecs then max 1 (min sev 2) else min sev 2
      State.readOutcome { s with ecc := Tab.set 0 s.ecc (a / 64) v } a v 1

/-- HBM_READ_RESPONSE. -/
def execHbmReadResponse (addr severity link : Nat) (s : State) : Host.Outcome State Fault Refusal :=
  .next (s.readResponse addr severity link)

/-! ### Writes (R276, R278, R280) -/

/-- A write refused at its controller: the fault and event, and the command that issued it, if one did, halts. -/
def State.writeRefused (s : State) (a kind core id : Nat) : State :=
  let s := (s.recordHbmFault kind a).hbmEvent 0x0303 1 a
  match (s.core core).cmd? id with
  | some q => if q.stage = .started then s.failTransfer core q stParity else s
  | none => s

/-- A write of granule `a` reaches its controller with a hint; `bad`: a byte fails parity; `link`: bus errors, as for a read.
`core` and `id` name the command that issued it, id 0 a hub unit: only the upload path writes in a key chest (04 R84). -/
def State.writeRequest (s : State) (a hint : Nat) (data : List Byte) (bad : Bool) (link core id : Nat) : State :=
  if !inHbm a || !s.stackOnline a then s
  else
    let a := a / 64 * 64
    let par := bitOf (s.reg .hbmCfg (s.stackOf a)) 3
    if id != 0 && s.guarded a then
      match (s.core core).cmd? id with
      | some q => if q.stage = .started then s.failTransfer core q stBounds else s
      | none => s
    else if bad then s.writeRefused a 2 core id
    else if par && decide (2 ≤ link) then (s.linkRetry a).writeRefused a 3 core id
    else (if par && link != 0 then s.linkRetry a else s).hbmStore a hint (data.take 64)

/-- HBM_WRITE. -/
def execHbmWrite (addr hint : Nat) (data : List Byte) (bad : Bool) (link core id : Nat) (s : State) : Host.Outcome State Fault Refusal :=
  .next (s.writeRequest addr hint data bad link core id)

/-! ### Temperature (R282 to R284) -/

/-- An event with a temperature and a step or rate. -/
def State.tempEvent (s : State) (code cls st temp v : Nat) : State :=
  s.raise { code := code, cls := cls, unit := 0x64 + st, detail := st + 2 ^ 50 * (temp % 256) + 2 ^ 58 * v }

/-- The throttle step after a reading (R282). -/
def throttleStep (cfg : W32) (step temp : Nat) : Nat :=
  let th := fun k => bits cfg (8 * k - 1) (8 * k - 8)
  match [3, 2, 1].find? (fun k => decide (step < k) && decide (th k ≤ temp)) with
  | some k => k
  | none => if 0 < step ∧ temp + 3 ≤ th step then step - 1 else step

/-- A controller reads its stack's temperature, refresh rate and catastrophic indication. -/
def State.tempRead (s : State) (st temp rate : Nat) (cat : Bool) : State :=
  let old := s.rf .thermStatus st 0 1 0
  let step := throttleStep (s.reg .thermCfg st) old temp
  let r0 := s.rf .thermStatus st 0 5 4
  let s := (s.setRf .thermStatus st 0 15 8 temp).setRf .thermStatus st 0 1 0 step
  let s := if step = old then s else s.tempEvent 0x0305 2 st temp step
  let s := if rate % 4 = r0 then s else (s.setRf .thermStatus st 0 5 4 rate).tempEvent 0x0307 2 st temp rate
  if cat || decide (95 ≤ temp) then (s.tempEvent 0x0306 0 st temp step).latchCause 2
  else if (List.range 12).all (fun k => decide (s.rf .thermStatus k 0 15 8 < 95)) then s.causeEnds 2 else s

/-- HBM_TEMP_READ. -/
def execHbmTempRead (stack temp rate : Nat) (cat : Bool) (s : State) : Host.Outcome State Fault Refusal :=
  onStack stack (s.tempRead stack (temp % 256) (rate % 3) cat)

/-- HBM_RECALIBRATION (R285). -/
def execHbmRecalibration (stack : Nat) (fail : Bool) (s : State) : Host.Outcome State Fault Refusal :=
  onStack stack
    (if !bitOf (s.reg .recalCfg stack) 8 then s
     else
      let s := (s.setRf .recalStatus stack 0 31 16 (s.rf .recalStatus stack 0 31 16 + 1)).setRf .recalStatus stack 0 0 0 (b2n fail)
      if fail then s.raise { code := 0x0308, cls := 1, unit := 0x64 + stack, detail := stack } else s)

/-! ### Caches (R281) -/

/-- A write of CACHE_CTRL. -/
def State.cacheCtrlWrite (s : State) (st : Nat) (v : W32) : State :=
  if bitOf v 0 then { s with keep := s.keep.filter (fun g => s.stackOf (64 * g) != st) } else s

/-- DROP_KEEP. -/
def execDropKeep (stack : Nat) (s : State) : Host.Outcome State Fault Refusal := onStack stack (s.cacheCtrlWrite stack 1)

/-! ### Repair (R286) -/

/-- A completed operation of the memory test registers. -/
def State.mtDone (s : State) (st : Nat) : State :=
  (s.setRf .mtStatus st 0 1 0 2).raise
    { code := 0x0309, cls := 2, unit := 0x64 + st, detail := st + 2 ^ 4 * s.rf .mtRow st 0 27 22 }

/-- A write of MT_CTRL: 1 OFFLINE, 2 ONLINE, 3 soft PPR, 4 hard PPR, 5 lane remap. The number of spare lanes is not given:
after a remap it is a free value. -/
def State.mtCtrlWrite (s : State) (st op req : Nat) : State :=
  let off := bitOf (s.reg .mtStatus st) 3
  if !s.repairLevel || s.serviceOpen || (decide (3 ≤ op) && !off) then s.refuseState .mtCtrl st 0 req
  else
    let rep := fun (s : State) (kind : Nat) (row : W32) => ({ s with repairs := s.repairs ++ [{ stack := st, kind := kind, row := row }] } : State)
    match op with
    | 1 => (s.setRf .mtStatus st 0 3 3 1).mtDone st
    | 2 =>
      let s := (s.setRf .mtStatus st 0 3 3 0).mtDone st
      if st ∈ s.tap.wrapped then
        State.mtDone { s with tap := { s.tap with wrapped := s.tap.wrapped.filter (· != st) } } st
      else s
    | 3 => (rep s 1 (s.reg .mtRow st)).mtDone st
    | 4 => (rep s 2 (s.reg .mtRow st)).mtDone st
    | 5 => (State.setRf { rep s 3 (s.reg .mtLane st) with free := s.free + 1 } .mtStatus st 0 7 4 (Config.freeValue s.free)).mtDone st
    | _ => s

/-- A write of MT_ROW or MT_LANE. -/
def State.mtWrite (s : State) (k : RegKey) (v : W32) (req : Nat) : State :=
  if !s.repairLevel || s.serviceOpen then s.refuseState k.reg k.inst k.idx req else s.setRegK k v

def execOffline (stack req : Nat) (s : State) : Host.Outcome State Fault Refusal := onStack stack (s.mtCtrlWrite stack 1 req)
def execOnline (stack req : Nat) (s : State) : Host.Outcome State Fault Refusal := onStack stack (s.mtCtrlWrite stack 2 req)
def execSoftPpr (stack req : Nat) (s : State) : Host.Outcome State Fault Refusal := onStack stack (s.mtCtrlWrite stack 3 req)
def execHardPpr (stack req : Nat) (s : State) : Host.Outcome State Fault Refusal := onStack stack (s.mtCtrlWrite stack 4 req)
def execLaneRemap (stack req : Nat) (s : State) : Host.Outcome State Fault Refusal := onStack stack (s.mtCtrlWrite stack 5 req)

end Sys2Proof.Machine
end

