-- ==== Sys2Proof/Machine/Peen.lean ====
section
/-!
DEFINITION. Peening as software arms it (spec 24 R518 to R523).
-/
namespace Sys2Proof.Machine

/-- Does a TARGET fit its KIND (R519)? -/
def targetFits (kind t : Nat) : Bool :=
  match kind with
  | 1 => decide (t < 60)
  | 2 => decide (t < 2048) && decide (t % 256 < 96) && decide (1 ≤ t / 256 ∧ t / 256 ≤ 5)
  | 3 => decide (t < 96)
  | 4 => decide (t < 1024) && (match t / 64 % 4 with
      | 0 => true
      | 1 => decide (t % 64 < 32)
      | 2 => decide (t % 64 < 16)
      | _ => false)
  | 5 => decide (t < 12)
  | 6 => decide (t < 16)
  | 7 => decide (t < 96)
  | _ => false

/-- HM_POLICY.PEEN. -/
def State.peenOk (s : State) : Bool := bitOf (s.reg .hmPolicy) 1

/-- The event of a slot that is armed, or armed when ENABLE is set. -/
def State.peenEvent (s : State) (code k : Nat) : State :=
  s.raise { code := code, cls := 2, unit := 0x89, detail := s.peenDetail k (s.rf .pnAmount 0 k 11 0) }

/-- A write of PN_CFG[k]. -/
def State.pnCfgWrite (s : State) (k : Nat) (v : W32) (req : Nat) : State :=
  let v := v &&& 0xC0FFFFFF
  let old := s.reg .pnCfg 0 k
  if !s.peenOk then s.refuseState .pnCfg 0 k req
  else if bitOf old 31 then (if v = putBits old 31 31 0 then s.peenDisarm k else s.refuseState .pnCfg 0 k req)
  else if !targetFits (bits v 23 20) (bits v 19 0) then s.refuseState .pnCfg 0 k req 4
  else if !bitOf v 31 then s.setReg .pnCfg 0 k v
  else if bitOf v 30 && s.reg .pnSeed 0 k == 0 then s.refuseState .pnCfg 0 k req
  else
    let s := s.setReg .pnCfg 0 k v
    State.peenEvent { s with peen := Tab.set {} s.peen k { lfsr := (s.reg .pnSeed 0 k).toNat, opened := s.time } } 0x0C01 k

/-- A write of PN_AMOUNT[k] or PN_SEED[k]: refused while the slot is armed. -/
def State.pnSlotWrite (s : State) (r : RegName) (k : Nat) (v : W32) (req : Nat) : State :=
  if !s.peenOk || bitOf (s.reg .pnCfg 0 k) 31 then s.refuseState r 0 k req
  else s.setReg r 0 k (if r = .pnAmount then v &&& 0xF0000FFF else v)

/-- A write of PEEN_CTRL. -/
def State.peenCtrlWrite (s : State) (v : W32) (req : Nat) : State :=
  let was := bitOf (s.reg .peenCtrl) 0
  let on := bitOf v 0
  if !s.peenOk then s.refuseState .peenCtrl 0 0 req
  else
    let s := s.setReg .peenCtrl 0 0 (v &&& 1)
    if was == on then s
    else ((List.range 8).filter (fun k => bitOf (s.reg .pnCfg 0 k) 31)).foldl (fun s k => s.peenEvent (if on then 0x0C01 else 0x0C02) k) s

def onSlot (k : Nat) (s : State) : Host.Outcome State Fault Refusal := if k < 8 then .next s else .fault .noSuchPart

/-- PEEN_ARM: a write of PN_CFG[k]. -/
def execPeenArm (k : Nat) (v : W32) (req : Nat) (s : State) : Host.Outcome State Fault Refusal := onSlot k (s.pnCfgWrite k v req)

/-- PEEN_ENABLE: a write of PEEN_CTRL. -/
def execPeenEnable (enable : Bool) (req : Nat) (s : State) : Host.Outcome State Fault Refusal :=
  .next (s.peenCtrlWrite (BitVec.ofNat 32 (b2n enable)) req)

/-- PEEN_TALLY: the 1 ms window of an armed slot ends. -/
def execPeenTally (k : Nat) (s : State) : Host.Outcome State Fault Refusal :=
  onSlot k (if bitOf (s.reg .pnCfg 0 k) 31 && decide ((Tab.get {} s.peen k).opened + 400000 ≤ s.time) then s.peenTally k else s)

end Sys2Proof.Machine
end

