-- ==== Sys2Proof/Machine/Power.lean ====
section
/-!
DEFINITION. Rails, temperatures, clocks, resets and the snapshot (spec 20 R423 to R447; 22 R485).
-/
namespace Sys2Proof.Machine

/-! ### Throttling (R425, R426, R441) -/

/-- A throttle reason of a compute die starts or ends: bit 1 junction, 4 current, 5 margin. The event is raised where the die's throttle
changes. -/
def State.setThrottle (s : State) (d bit : Nat) (on : Bool) (reading : Nat) : State :=
  let was := s.rf .jtStatus 0 d 15 10
  let now := natPut was bit bit (b2n on)
  let s := (s.setRf .jtStatus 0 d 15 10 now).setRf .jtStatus 0 d 8 8 (b2n (now != 0))
  if (was != 0) == (now != 0) then s
  else s.pwrEvent 0x0905 2 d (if now = 0 then was else now) (2 ^ 15 * b2n (now != 0) + reading % 2 ^ 15)

/-! ### Rails (R424 to R430) -/

/-- The next target voltage of a rail (R425), from the smallest margin, in ps; `neg`: the margin is below zero. -/
def State.avsTarget (s : State) (r margin : Nat) (neg : Bool) : Nat :=
  let v := s.rf .railStatus 0 r 9 0
  if neg || decide (margin < s.rf .avsCfg 0 0 15 8) then min (v + 5) (s.rf .railLimit 0 r 25 16)
  else if s.rf .avsCfg 0 0 23 16 < margin then max (v - 5) (s.rf .railLimit 0 r 9 0)
  else v

/-- The third failed frame in a row on a rail (R424). -/
def State.avsFail (s : State) (r : Nat) : State :=
  (s.setRf .railStatus 0 r 28 28 1).pwrEvent 0x0906 1 r 0 (s.rf .railStatus 0 r 9 0)

/-- The margin reason of a die: below zero for ten readings with the rail at VMAX or its AVS failed. -/
def State.marginCheck (s : State) (r : Nat) (neg : Bool) : State :=
  let n := if neg then min (Tab.get 0 s.marginLow r + 1) 10 else 0
  let s : State := { s with marginLow := Tab.set 0 s.marginLow r n }
  if 4 ≤ r then s
  else if !neg then s.setThrottle r 5 false 0
  else if n = 10 ∧ (s.rf .railStatus 0 r 9 0 = s.rf .railLimit 0 r 25 16 ∨ bitOf (s.reg .railStatus 0 r) 28) then s.setThrottle r 5 true 0
  else s

def onRail (r : Nat) (s : State) : Host.Outcome State Fault Refusal := if r < 5 then .next s else .fault .noSuchPart

/-- Power-on reset, or RESET_N low: VR_ALERT_N and AVS_SDATA are ignored (25 R531). -/
def State.inReset (s : State) : Bool := !s.init.pwrgd || !s.init.resetN

/-- AVS_LOOP_STEP: `stepping`: the previous step on the rail is not yet reported done; `acked`: the new target is acknowledged, within
three retries. -/
def execAvsLoopStep (rail margin : Nat) (neg stepping acked : Bool) (s : State) : Host.Outcome State Fault Refusal :=
  onRail rail (if s.inReset || !bitOf (s.reg .avsCfg) 0 then s
    else
      let s := if bitOf (s.reg .railStatus 0 rail) 28 || stepping then s
        else if acked then s.setRf .railStatus 0 rail 9 0 (s.avsTarget rail margin neg) else s.avsFail rail
      s.marginCheck rail neg)

/-- CURRENT_READ: a rail's output current, in A. -/
def execCurrentRead (rail amps : Nat) (s : State) : Host.Outcome State Fault Refusal :=
  onRail rail (if s.inReset then s
    else
      let amps := min amps 1023
      let imax := s.rf .railImax 0 rail 9 0
      let s := s.setRf .railStatus 0 rail 19 10 amps
      if imax < amps then (if rail = 4 then s.pwrEvent 0x0905 2 4 16 (2 ^ 15 + amps) else s.setThrottle rail 4 true amps)
      else if rail < 4 ∧ 100 * amps < 95 * imax then s.setThrottle rail 4 false amps
      else s)

/-- VR_ALERT: the rail that reports a fault, 0 to 4, or 5 for a rail without a selector; its AVSBus status word; `abrupt`: it was lost
without hold-up; `junction`: the die's junction tripped in the same 10 µs (R430, R445). -/
def execVrAlert (rail status : Nat) (abrupt junction : Bool) (s : State) : Host.Outcome State Fault Refusal :=
  if 5 < rail then .fault .noSuchPart
  else .next (if s.inReset then s
    else
      let s := (if rail < 5 then s.setRf .railStatus 0 rail 30 30 1 else s).pwrEvent 0x0904 1 (min rail 4) 1 status
      if 4 ≤ rail then s.latchCause 0
      else
        let s := s.loseDie rail (1 + 2 * b2n junction)
        if abrupt then
          let s := s.setRf .railStatus 0 rail 29 29 1
          if s.jrnlSize ≠ 0 ∧ s.jrnlBase / dieRange = rail then s.latchCause 0 else s
        else s)

/-! ### Junctions (R441, R442) -/

/-- Cause 1 holds: the hub is at its trip, or a hub clock has failed. -/
def State.hubHot (s : State) : Bool :=
  decide (105 ≤ s.rf .jtStatus 0 4 7 0) || (List.range 16).any (fun k => bitOf (s.reg .clkFail 0 1) (12 + k))

/-- JUNCTION_READ: the highest reading of die 0 to 3, or of the hub die (4), in °C; `rail`: the die's regulator alerted in the same
10 µs. -/
def execJunctionRead (i temp : Nat) (rail : Bool) (s : State) : Host.Outcome State Fault Refusal :=
  if 4 < i then .fault .noSuchPart
  else .next (
    let s := s.setRf .jtStatus 0 i 7 0 (min temp 255)
    if i = 4 then (if 105 ≤ temp then s.latchCause 1 else if s.hubHot then s else s.causeEnds 1)
    else if 105 ≤ temp then s.loseDie i (2 + b2n rail)
    else if s.rf .jtCfg 0 0 7 0 ≤ temp then s.setThrottle i 1 true temp
    else if temp + 3 ≤ s.rf .jtCfg 0 0 7 0 then s.setThrottle i 1 false temp
    else s)

/-- THERMTRIP: the output falls and stays low until PWRGD falls (R442). -/
def execThermtrip (s : State) : Host.Outcome State Fault Refusal :=
  .next { s with init := { s.init with thermtrip := true, tripped := true } }

/-! ### Clocks (R431 to R437) -/

/-- CLOCK_MONITOR: a domain's clock over a 10 µs window; `bad`: off by more than 2 %. -/
def execClockMonitor (domain : Nat) (bad : Bool) (s : State) : Host.Outcome State Fault Refusal :=
  if 59 < domain then .fault .noSuchPart
  else .next (if !bad then s
    else
      let s := (s.setRf .clkFail 0 (domain / 32) (domain % 32) (domain % 32) 1).pwrEvent 0x0907 0 domain 4 0
      if domain < 44 then s.loseDie (domain / 11) 4 else s.latchCause 1)

/-- Domains that run on the reference in BYPASS. -/
def bypassDomains : List Nat := [44, 45, 55, 57, 58]

/-- PLL_UNLOCK: BYPASS (R435). -/
def execPllUnlock (s : State) : Host.Outcome State Fault Refusal :=
  .next (
    let s := (s.setRf .clkStatus 0 0 0 0 0).setRf .clkStatus 0 0 1 1 1
    let s := (s.setReg .clkRun 0 0 0).setReg .clkRun 0 1 (BitVec.ofNat 32 ((bypassDomains.map (fun d => 2 ^ (d - 32))).sum))
    let s := s.pwrEvent 0x0908 0 0 4 0
    let s := if s.sbActive then s else ((List.range 4).filter (fun d => !s.dieLost d)).foldl (fun s d => s.dropDie d 4) s
    s.latchCause 4)

/-- Domains that may stop (R436). -/
def mayStop (d : Nat) : Bool := (decide (d < 44) && (decide (d % 11 < 6) || d % 11 == 10)) || decide (d ∈ [46, 47, 48, 54, 55, 56])

/-- Quads: no live context, no queued command, no remote read in progress, no open window (R437). -/
def State.coreQuiet (s : State) (c : Nat) : Bool :=
  (List.range 4).all (fun x => (s.context c x).st == .idle) && (s.core c).q.isEmpty && s.waitr.all (fun w => w.owner != c)
    && (List.range 16).all (fun w => !bitOf (s.reg .winCfg c w) 31)
    && s.cores.all (fun e => e.2.q.all (fun q => match q.peer with
        | some p => p.1 != c
        | none => true))

/-- Does a domain have no work? -/
def State.domainIdle (s : State) (d : Nat) : Bool :=
  if d < 44 then
    (if d % 11 = 10 then (List.range 4).all (fun k => s.rf .portStatus (4 * (d / 11) + k) 0 31 29 == 0)
     else (List.range 4).all (fun k => s.coreQuiet (24 * (d / 11) + 4 * (d % 11) + k)))
  else if d = 46 then s.ts.queue.isEmpty
  else if d = 47 ∨ d = 48 then !bitOf (s.reg .svcCtrl (d - 47)) 0
  else if d = 54 then decide (11 ≤ s.boot)
  else true

/-- Is a domain powered: not one of a lost die, nor of a compute die in the strongbox state, outside the retention island? -/
def State.domainPowered (s : State) (d : Nat) : Bool := decide (44 ≤ d) || d % 11 == 10 || (!s.sbActive && !s.dieLost (d / 11))

/-- CLOCK_STOP: 1,024 cycles of a domain with no work. -/
def execClockStop (domain : Nat) (s : State) : Host.Outcome State Fault Refusal :=
  if 59 < domain then .fault .noSuchPart
  else .next (if mayStop domain && bitOf (s.reg .clkStopEn 0 (domain / 32)) (domain % 32) && s.domainIdle domain then s.setRun domain false else s)

/-- CLOCK_WAKE: a crossing into a stopped domain; in BYPASS the other domains stay stopped, and an unpowered one does. -/
def execClockWake (domain : Nat) (s : State) : Host.Outcome State Fault Refusal :=
  if 59 < domain then .fault .noSuchPart
  else .next (if mayStop domain && s.domainPowered domain && (!bitOf (s.reg .clkStatus) 1 || decide (domain ∈ bypassDomains)) then s.setRun domain true else s)

/-! ### Resets (R428, R443, R444) -/

/-- PWRGD_RISE: a power-on reset. `vaon`: VAON stayed within limits since a trip; `strap`: MGMT_ADDR1 and MGMT_ADDR0 (25 R532). -/
def execPwrgdRise (vaon : Bool) (strap : Nat) (s : State) : Host.Outcome State Fault Refusal :=
  .next (if s.init.pwrgd then s
    else
      let t := s.powerOn (vaon && s.init.tripped) { pwrgd := true, resetN := s.init.resetN }
      t.setRf .mgmtStatus 0 0 22 16 (0x58 + strap % 4))

/-- PWRGD_FALL: dispatch stops and the device is held in power-on reset until it rises; THERMTRIP_N is let go (R442). -/
def execPwrgdFall (s : State) : Host.Outcome State Fault Refusal :=
  .next { s.powerOn false { pwrgd := false, resetN := s.init.resetN, tripped := s.init.tripped } with noDispatch := true }

/-- RESET_N_LOW: a low level held for `ns`; under 50 ns it is ignored. -/
def execResetNLow (ns : Nat) (s : State) : Host.Outcome State Fault Refusal :=
  .next (if ns < 50 then s
    else
      let s : State := { s with init := { s.init with resetN := false } }
      if s.init.pwrgd then s.warmReset 2 else s)

/-- WARM: RST_CMD.WARM. -/
def execWarm (s : State) : Host.Outcome State Fault Refusal := .next (if s.init.pwrgd then s.warmReset 4 else s)

/-! ### The snapshot (R440; 22 R485) -/

/-- The alignment count (R432): an edge every four units of device time. -/
def State.align (s : State) : Nat := s.time / 4

/-- A write of SNAP_CMD. -/
def State.snapWrite (s : State) (v : W32) (req : Nat) : State :=
  if !bitOf v 0 then s
  else if bitOf (s.reg .snapStatus) 1 then s.refuseState .snapCmd 0 0 req
  else State.setRf { s with snapAt := some (s.align + 16) } .snapStatus 0 0 1 1 1

/-- SNAP -/
def execSnap (req : Nat) (s : State) : Host.Outcome State Fault Refusal := .next (s.snapWrite 1 req)

/-- Is a block instance's domain powered (22 R484)? Dies lost, and compute dies in the strongbox state, are not; the fabric ports lie in
the retention islands. -/
def State.powered (s : State) (b : Block) (i : Nat) : Bool :=
  match b.dieOf i with
  | none => true
  | some d => b == .port || (!s.sbActive && !s.dieLost d)

/-- The register at an address of the register file. -/
def regOf (a : Nat) : Option RegKey :=
  match blockOf (a - controlBase) with
  | none => none
  | some (b, i) => regAt b i ((a - controlBase) % 0x10000)

/-- Bits of a register that a snapshot holds. -/
def RegName.rosMask (r : RegName) : W32 :=
  BitVec.ofNat 32 ((r.fields.filter (fun f => f.acc == .ros)).foldl (fun a f => natPut a f.hi f.lo (2 ^ 32 - 1)) 0)

/-- The holding registers after a capture: of each powered domain the counters as they stand, of the others what they held. -/
def State.captured (s : State) : Tab W32 :=
  let on := fun (a : Nat) => match regOf a with
    | none => false
    | some k => s.powered k.reg.block k.inst
  let t := s.held.filter (fun e => !on e.1)
  s.regs.foldl (fun t e => match regOf e.1 with
    | none => t
    | some k => if k.reg.rosMask != 0 && s.powered k.reg.block k.inst then Tab.set 0 t e.1 (e.2 &&& k.reg.rosMask) else t) t

/-- SNAPSHOT_CAPTURE: the edge of a pending capture has come. -/
def execSnapshotCapture (s : State) : Host.Outcome State Fault Refusal :=
  .next (match s.snapAt with
    | none => s
    | some a =>
      if s.align < a then s
      else
        let stale := ((List.range 4).filter (fun d => !s.powered .core (24 * d))).map (fun d => 2 ^ d)
        let h := [(regAddr .snapTimeLo, loWord s.time), (regAddr .snapTimeHi, hiWord s.time), (regAddr .timeLo, loWord s.time),
          (regAddr .timeHi, hiWord s.time)].foldl (fun t e => Tab.set 0 t e.1 e.2) s.captured
        let st := (s.rf .snapStatus 0 0 31 16 + 1) % 65536 * 2 ^ 16 + stale.sum * 2 ^ 4 + 1
        (State.setReg { s with held := h, snapAt := none } .snapStatus 0 0 (BitVec.ofNat 32 st)).setReg .snapAlign 0 0 (BitVec.ofNat 32 (a % 65536)))

end Sys2Proof.Machine
end

