-- ==== Sys2Proof/Machine/Touch.lean ====
section
/-!
DEFINITION. The rows of the touchstone (spec 17 R372 to R385): its operations, the queue, aborts, and the management window.
-/
namespace Sys2Proof.Machine

/-! ### Push, abort -/

/-- A request of an operation: pushed, and run to its latch where no other request of its unit is ahead of it. -/
def State.tsRequest (s : State) (r : TsReq) (req : Nat) : State :=
  if r.who = 0 ∧ s.tsFull then s.refuseState .tsPush 0 0 req
  else
    let idle := !s.ts.queue.any (fun v => v.isHash == r.isHash)
    let t := s.tsPushReq r
    if idle && s.tsPushOk r then (t.tsStart r.isHash).tsFinish r.isHash 0 else t

/-- One request aborted. -/
def State.tsAbortOne (s : State) (r : TsReq) : State :=
  let s := if r.started then (s.tsDst r).foldl (fun s p => (s.tsFill p.slot p.slots []).modTs (fun t => t.flag p.all false false)) s else s
  (s.tsComplete r stAborted (if r.started then Config.freeValue s.free else 0)).tsStatusEvent r stAborted

/-- Abort management's requests that a test selects. -/
def State.tsAbort (s : State) (p : TsReq → Bool) : State :=
  let rs := s.ts.queue.filter (fun r => r.who == 0 && p r)
  let s := s.modTs (fun t => { t with queue := t.queue.filter (fun r => !(r.who == 0 && p r)) })
  rs.foldl State.tsAbortOne s

/-! ### Rows: operations. `who` is the requester; `req` the register requester of a management push -/

/-- The request of an operation row. -/
def tsReqOf (who op alg tag a b c dst mlen olen : Nat) (idkey : Bool) : TsReq :=
  { who := who % 6, alg := alg % 256, op := op, tag := tag % 65536, idkey := idkey, a := a % 4096, b := b % 4096, c := c % 4096
    dst := dst % 4096, mlen := mlen % 65536, olen := olen % 65536 }

/-- MODEXP -/
def execModexp (who tag a b c dst req : Nat) (s : State) : Host.Outcome State Fault Refusal :=
  .next (s.tsRequest (tsReqOf who 0x01 0 tag a b c dst 0 0 false) req)

/-- EC_KEYGEN -/
def execEcKeygen (who alg tag dst req : Nat) (s : State) : Host.Outcome State Fault Refusal :=
  .next (s.tsRequest (tsReqOf who 0x10 alg tag 0 0 0 dst 0 0 false) req)

/-- ECDSA_SIGN -/
def execEcdsaSign (who alg tag : Nat) (idkey : Bool) (a c dst mlen req : Nat) (s : State) : Host.Outcome State Fault Refusal :=
  .next (s.tsRequest (tsReqOf who 0x11 alg tag a 0 c dst mlen 0 idkey) req)

/-- ECDSA_VERIFY -/
def execEcdsaVerify (who alg tag a b c mlen req : Nat) (s : State) : Host.Outcome State Fault Refusal :=
  .next (s.tsRequest (tsReqOf who 0x12 alg tag a b c 0 mlen 0 false) req)

/-- ECDH -/
def execEcdh (who alg tag a b dst req : Nat) (s : State) : Host.Outcome State Fault Refusal :=
  .next (s.tsRequest (tsReqOf who 0x13 alg tag a b 0 dst 0 0 false) req)

/-- X_KEYGEN -/
def execXKeygen (who alg tag dst req : Nat) (s : State) : Host.Outcome State Fault Refusal :=
  .next (s.tsRequest (tsReqOf who 0x20 alg tag 0 0 0 dst 0 0 false) req)

/-- X_AGREE -/
def execXAgree (who alg tag a b dst req : Nat) (s : State) : Host.Outcome State Fault Refusal :=
  .next (s.tsRequest (tsReqOf who 0x21 alg tag a b 0 dst 0 0 false) req)

/-- ED_KEYGEN -/
def execEdKeygen (who alg tag dst req : Nat) (s : State) : Host.Outcome State Fault Refusal :=
  .next (s.tsRequest (tsReqOf who 0x28 alg tag 0 0 0 dst 0 0 false) req)

/-- ED_SIGN -/
def execEdSign (who alg tag a c dst mlen req : Nat) (s : State) : Host.Outcome State Fault Refusal :=
  .next (s.tsRequest (tsReqOf who 0x29 alg tag a 0 c dst mlen 0 false) req)

/-- ED_VERIFY -/
def execEdVerify (who alg tag a b c mlen req : Nat) (s : State) : Host.Outcome State Fault Refusal :=
  .next (s.tsRequest (tsReqOf who 0x2A alg tag a b c 0 mlen 0 false) req)

/-- KEM_KEYGEN -/
def execKemKeygen (who alg tag dst req : Nat) (s : State) : Host.Outcome State Fault Refusal :=
  .next (s.tsRequest (tsReqOf who 0x30 alg tag 0 0 0 dst 0 0 false) req)

/-- KEM_ENCAPS -/
def execKemEncaps (who alg tag a dst req : Nat) (s : State) : Host.Outcome State Fault Refusal :=
  .next (s.tsRequest (tsReqOf who 0x31 alg tag a 0 0 dst 0 0 false) req)

/-- KEM_DECAPS -/
def execKemDecaps (who alg tag a b dst req : Nat) (s : State) : Host.Outcome State Fault Refusal :=
  .next (s.tsRequest (tsReqOf who 0x32 alg tag a b 0 dst 0 0 false) req)

/-- DSA_KEYGEN -/
def execDsaKeygen (who alg tag dst req : Nat) (s : State) : Host.Outcome State Fault Refusal :=
  .next (s.tsRequest (tsReqOf who 0x38 alg tag 0 0 0 dst 0 0 false) req)

/-- DSA_SIGN -/
def execDsaSign (who alg tag a c dst mlen req : Nat) (s : State) : Host.Outcome State Fault Refusal :=
  .next (s.tsRequest (tsReqOf who 0x39 alg tag a 0 c dst mlen 0 false) req)

/-- DSA_VERIFY -/
def execDsaVerify (who alg tag a b c mlen req : Nat) (s : State) : Host.Outcome State Fault Refusal :=
  .next (s.tsRequest (tsReqOf who 0x3A alg tag a b c 0 mlen 0 false) req)

/-- CURVE_LOAD -/
def execCurveLoad (who alg tag a req : Nat) (s : State) : Host.Outcome State Fault Refusal :=
  .next (s.tsRequest (tsReqOf who 0x40 alg tag a 0 0 0 0 0 false) req)

/-- CURVE_CLEAR -/
def execCurveClear (who alg tag req : Nat) (s : State) : Host.Outcome State Fault Refusal :=
  .next (s.tsRequest (tsReqOf who 0x41 alg tag 0 0 0 0 0 0 false) req)

/-- HASH -/
def execHash (who alg tag c dst mlen olen req : Nat) (s : State) : Host.Outcome State Fault Refusal :=
  .next (s.tsRequest (tsReqOf who 0x50 alg tag 0 0 c dst mlen olen false) req)

/-! ### Rows: the queue and the registers -/

/-- TS_PUSH of the request in TS_REQ0 to TS_REQ3. -/
def State.tsPushWrite (s : State) (req : Nat) : State :=
  if s.tsFull then s.refuseState .tsPush 0 0 req
  else
    let r0 := s.reg .tsReq0
    let r1 := s.reg .tsReq1
    let r2 := s.reg .tsReq2
    let r3 := s.reg .tsReq3
    s.tsPushReq (tsReqOf 0 (bits r0 23 16) (bits r0 31 24) (bits r0 15 0) (bits r1 11 0) (bits r1 27 16) (bits r2 11 0) (bits r2 27 16)
      (bits r3 15 0) (bits r3 31 16) (bitOf r1 31))

/-- TS_PUSH -/
def execTsPush (req : Nat) (s : State) : Host.Outcome State Fault Refusal := .next (s.tsPushWrite req)

/-- TS_REQUEST_START of the touchstone or of the hash unit. -/
def execTsRequestStart (hash : Bool) (s : State) : Host.Outcome State Fault Refusal := .next (s.tsStart hash)

/-- TS_REQUEST_LATCH; `fault`: 0 none, 1 a disagreement that the countermeasures find, 2 operand memory parity. -/
def execTsRequestLatch (hash : Bool) (fault : Nat) (s : State) : Host.Outcome State Fault Refusal := .next (s.tsFinish hash fault)

/-- TS_DONE_POP -/
def State.tsPop (s : State) : State := s.modTs (fun t => { t with done := t.done.drop 1 })
def execTsDonePop (s : State) : Host.Outcome State Fault Refusal := .next s.tsPop

/-- TS_ABORT_TAG -/
def execTsAbortTag (tag : Nat) (s : State) : Host.Outcome State Fault Refusal := .next (s.tsAbort (fun r => r.tag == tag))

/-- TS_ABORT_ALL -/
def execTsAbortAll (s : State) : Host.Outcome State Fault Refusal := .next (s.tsAbort (fun _ => true))

/-- TS_SLOT_ZERO: the selected slot, unless it is BUSY (R377). -/
def State.tsZero (s : State) : State :=
  let k := s.rf .tsSlotSel 0 0 11 0
  if k ∈ s.tsBusy ∨ s.tsSlots ≤ k then s else (s.tsFill k 1 []).modTs (fun t => t.flag [k] false false)
def execTsSlotZero (s : State) : Host.Outcome State Fault Refusal := .next s.tsZero

/-- A write of word `w` of the selected slot (R377). -/
def State.tsDataWrite (s : State) (w : Nat) (v : W32) (req : Nat) : State :=
  let k := s.rf .tsSlotSel 0 0 11 0
  if k ∈ s.tsBusy ∨ k ∈ s.ts.secret ∨ k < s.rf .tsPart 0 0 11 0 then s.refuseState .tsSlotData 0 w req
  else if 2 * s.tsLen ≤ w ∨ s.tsSlots ≤ k then s
  else s.modTs (fun t => { t.flag [k] true false with
    mem := ((natLE 4 v.toNat).zipIdx).foldl (fun m e => Tab.set 0 m (s.tsSlotBytes * k + 4 * w + e.2) e.1) t.mem })

/-- TS_SLOT_DATA_WRITE -/
def execTsSlotDataWrite (word : Nat) (v : W32) (req : Nat) (s : State) : Host.Outcome State Fault Refusal :=
  if word < 256 then .next (s.tsDataWrite word v req) else .fault .noSuchPart

/-- A write of TS_CFG or TS_PART (R376): only when nothing is queued or running; every slot is zeroed. -/
def State.tsCfgWrite (s : State) (part : Bool) (v : W32) (req : Nat) : State :=
  let r : RegName := if part then .tsPart else .tsCfg
  if !s.ts.queue.isEmpty then s.refuseState r 0 0 req
  else if !part && !(decide (4 ≤ bits v 6 0 ∧ bits v 6 0 ≤ 128)) then s.refuseState r 0 0 req 4
  else (s.setReg r 0 0 v).modTs (fun t => { t with mem := [], valid := [], secret := [] })

/-- TS_CFG_WRITE: LEN64, or INT_COUNT. -/
def execTsCfgWrite (part : Bool) (value req : Nat) (s : State) : Host.Outcome State Fault Refusal :=
  .next (s.tsCfgWrite part (BitVec.ofNat 32 (value % 4096)) req)

/-- ENTROPY_TEST_CHANGE: the health test begins or ceases to report failure (R383). -/
def execEntropyTestChange (bad : Bool) (s : State) : Host.Outcome State Fault Refusal :=
  .next (if s.ts.entropyBad = bad then s
    else (s.modTs (fun t => { t with entropyBad := bad })).raise { code := 0x0704, cls := 0, unit := 0x84, detail := 0x49 * 2 ^ 32 })

end Sys2Proof.Machine
end

