-- ==== Sys2Proof/Machine/RegWrite.lean ====
section
/-!
DEFINITION. What a register write does once the hub has let it through (spec 00 R11, R12; the register tables of every chapter): the
values that are reserved, the state and range rules of each register, its effect.
-/
namespace Sys2Proof.Machine

/-! ### Masks (00 R11) -/

/-- Bits of a register whose fields have one of these access types. -/
def RegName.maskOf (r : RegName) (as : List Access) : W32 :=
  BitVec.ofNat 32 ((r.fields.filter (fun f => decide (f.acc ∈ as))).foldl (fun a f => natPut a f.hi f.lo (2 ^ 32 - 1)) 0)

/-- Bits that hold what is written. -/
def RegName.storeMask (r : RegName) : W32 := r.maskOf [.rw, .rwk, .rwp]

/-- Bits a write can act on. -/
def RegName.writeMask (r : RegName) : W32 := r.maskOf [.rw, .rwk, .rwp, .wo, .w1c]

/-- The write of a register with no behaviour of its own: stored fields take the value, W1C fields lose the bits written 1. -/
def State.plainWrite (s : State) (k : RegKey) (v : W32) : State :=
  let m := k.reg.storeMask
  let c := k.reg.maskOf [.w1c]
  s.setRegK k (((s.regK k &&& ~~~m) ||| (v &&& m)) &&& ~~~(v &&& c))

/-! ### Reserved values (00 R12) -/

/-- A field outside a range. -/
def outside (v : W32) (hi lo a b : Nat) : Bool := decide (bits v hi lo < a ∨ b < bits v hi lo)

/-- Does a value place a reserved value into an encoded field? -/
def reservedValue (k : RegKey) (v : W32) : Bool :=
  match k.reg with
  | .coreWdog => outside v 5 0 16 40
  | .layer => outside v 15 12 0 10
  | .tsReq0 => !((bits v 31 24 ≤ 5) || (8 ≤ bits v 31 24 && bits v 31 24 ≤ 11) || (0x10 ≤ bits v 31 24 && bits v 31 24 ≤ 0x17)
      || (0x20 ≤ bits v 31 24 && bits v 31 24 ≤ 0x22))
  | .ctxCtrl => outside v 2 0 0 5
  | .lsCount => outside v 31 16 1 65535
  | .dieBarCfg => outside v 12 7 10 36
  | .devBarCfg => outside v 12 7 10 36
  | .fbarCfg => outside v 12 7 10 36
  | .dieCtrCfg => outside v 13 6 1 255
  | .devCtrCfg => outside v 13 6 1 255
  | .hbmMap => outside v 2 0 0 4
  | .cacheCfg => outside v 4 0 0 16
  | .recalCfg => outside v 7 0 1 255
  | .mtCtrl => outside v 2 0 0 5
  | .svcFrag => outside v 7 0 16 140
  | .svcVlan => outside v 11 0 1 4094
  | .svcTimers => outside v 31 24 1 255 || outside v 23 16 1 255 || outside v 15 8 1 255 || outside v 7 0 1 255
  | .svcSess => outside v 23 0 1 (2 ^ 24 - 1)
  | .svcSessCnt => outside v 14 0 1 16384
  | .witTimers => outside v 23 16 1 255 || outside v 15 8 1 255 || outside v 7 0 1 255
  | .plcCtrl => outside v 31 16 1 65535
  | .cvCfg => outside v 28 27 0 2
  | .pcvCfg => outside v 28 27 0 2
  | .aliveCfg => outside v 5 0 20 28
  | .decAct => outside v 31 28 0 9
  | .evCfg => outside v 31 24 1 255 || outside v 23 16 1 255 || outside v 11 8 1 15
  | .clkPlan => outside v 3 2 0 1 || outside v 1 0 0 1
  | .clkSpread => outside v 2 0 0 5
  | .clkStopEn => (List.range 32).any (fun j => bitOf v j && decide (32 * k.idx + j < 60) && !mayStop (32 * k.idx + j))
  | .chainW0 => outside v 31 30 0 1 || outside v 27 26 0 2 || outside v 9 8 0 2 || outside v 7 6 0 2
  | .chainW1 => outside v 31 28 0 11 || outside v 27 24 0 11 || outside v 23 20 0 11 || outside v 15 14 0 1 || outside v 13 12 0 2
  | .chainW2 => outside v 3 0 0 7
  | _ => false

/-! ### Rules of single registers -/

/-- A write that a rule of the register's chapter may refuse (reason 5). -/
def State.ruleWrite (s : State) (k : RegKey) (v : W32) (ok : Bool) (req : Nat) : State :=
  if ok then s.plainWrite k v else s.refuseState k.reg k.inst k.idx req

/-- Loss-scale bounds (07 R160). -/
def lossOk (v : W32) : Bool :=
  let e := fun hi lo => signed 8 (bits v hi lo)
  decide (e 15 8 ≤ e 23 16 ∧ e 15 8 ≤ e 7 0 ∧ e 7 0 ≤ e 23 16)

/-- AVS range of a rail, in mV (20 R423, R447). -/
def railOk (r : Nat) (v : W32) : Bool :=
  let lo := if r < 4 then 620 else 700
  let hi := if r < 4 then 820 else 800
  decide (lo ≤ bits v 9 0 ∧ bits v 9 0 ≤ bits v 25 16 ∧ bits v 25 16 ≤ hi)

/-- Is a context IDLE, as CTX_PC and CTX_SAVE want it (10 R235)? -/
def State.ctxIdle (s : State) (c x : Nat) : Bool := (s.context c x).st == .idle

/-- A write of CTX_CTRL (10 R226 to R231, R235; 19 R408; 23 R502). -/
def State.ctxCtrlWrite (s : State) (c x action req : Nat) : State :=
  let no := s.refuseState .ctxCtrl c x req
  let st := (s.context c x).st
  if action ≠ 0 ∧ !s.modeM c ∧ x ≠ 0 then no
  else
    let taken := s.jobOf c x != {}
    match action with
    | 1 => if taken || st != .idle || (s.core c).pewter then no else s.ctxStart c x
    | 2 => if st != .running || (s.core c).pewter then no else s.ctxPreempt c x
    | 3 => if st != .preempted || (s.core c).pewter then no else s.ctxResume c x
    | 4 => if taken then no else s.ctxAbort c x
    | 5 => if taken then no else s.ctxReset c x
    | _ => s

/-- A write of CTX_PC_LO or CTX_PC_HI. -/
def State.ctxPcWrite (s : State) (c x : Nat) (high : Bool) (v : W32) (req : Nat) : State :=
  let r : RegName := if high then .ctxPcHi else .ctxPcLo
  if !s.ctxIdle c x || (high && decide (0x8F < bits v 7 0)) then s.refuseState r c x req
  else s.modContext c x (fun y =>
    { y with pc := if high then bits v 7 0 * 2 ^ 32 + y.pc % 2 ^ 32 else y.pc / 2 ^ 32 * 2 ^ 32 + bits v 31 5 * 32 })

/-- W1C of FIRED of a counter (12 R259, R269). -/
def State.ctrValWrite (s : State) (key : Nat) (v : W32) : State :=
  if bitOf v 16 then s.setCtr key { s.ctr key with fired := false } else s

/-- A write of a service port's registers (15 R344). -/
def State.svcWrite (s : State) (k : RegKey) (v : W32) (req : Nat) : State :=
  match k.reg with
  | .svcCtrl => s.plainWrite k v
  | .svcSess => s.ruleWrite k v (!s.serviceOpen && decide (bits v 23 0 + s.rf .svcSessCnt 0 0 14 0 ≤ 2 ^ 24)) req
  | .svcSessCnt => s.ruleWrite k v (!s.serviceOpen && decide (s.rf .svcSess 0 0 23 0 + bits v 14 0 ≤ 2 ^ 24)) req
  | _ => s.ruleWrite k v (!bitOf (s.reg .svcCtrl k.inst) 0) req

/-- A write of the decision registers: ignored while a decision holds them (19 R405). -/
def State.decRegWrite (s : State) (k : RegKey) (v : W32) : State := if s.decBusy then s else s.plainWrite k v

/-- A write of a region's register (13 R547 and the register's own chapter). -/
def State.areaWrite (s : State) (k : RegKey) (v : W32) (req : Nat) : State :=
  let die := fun (r : Region) => inOneDie r.lo r.len
  match k.reg with
  | .kchestBase => s.regionWrite k v [⟨.kchestBase, 0, k.idx⟩] true (inDie k.idx) req
  | .kchestSize => s.regionWrite k v [⟨.kchestBase, 0, k.idx⟩] true (inDie k.idx) req
  | .annealBase => s.regionWrite k v [⟨.annealBase, 0, k.idx⟩] true (inDie k.idx) req
  | .annealSect => s.regionWrite k v ((List.range 4).map (fun d => ⟨.annealBase, 0, d⟩)) true (fun r => inDie r.key.idx r) req
  | .jrnlBase => s.regionWrite k v [⟨.jrnlBase, 0, 0⟩] true die req
  | .jrnlSize => s.regionWrite k v [⟨.jrnlBase, 0, 0⟩] true die req
  | .evRingBase => s.regionWrite k v [k] true (fun r => die r && decide (r.lo % 2 ^ 30 = 0)) req
  | .ctxSave =>
    if s.ctxIdle k.inst k.idx then s.regionWrite k v [k] false (fun r => decide (r.lo + r.len ≤ 4 * dieRange)) req
    else s.refuseState k.reg k.inst k.idx req
  | _ => s.regionWrite k v [k] true die req

/-- A write of a power, clock or reset register (20 R447). -/
def State.pwrWrite (s : State) (k : RegKey) (v : W32) (req : Nat) : State :=
  match k.reg with
  | .clkPlan => s.ruleWrite k v (!s.serviceOpen) req
  | .railLimit => s.ruleWrite k v (railOk k.idx v) req
  | .avsCfg => s.ruleWrite k v (decide (bits v 15 8 < bits v 23 16)) req
  | .jtCfg => s.ruleWrite k v (decide (bits v 7 0 < 105)) req
  | .rstCmd => if bitOf v 0 then s.warmReset 4 else s
  | _ => s.plainWrite k v

/-- A write of MGMT_CFG: with I3C_DIS the port keeps legacy mode (22 R486). -/
def State.mgmtCfgWrite (s : State) (v : W32) : State :=
  let s := s.plainWrite ⟨.mgmtCfg, 0, 0⟩ v
  if bitOf v 8 then (s.setRf .mgmtStatus 0 0 14 8 0).setRf .mgmtStatus 0 0 0 0 0 else s

/-- Registers of fabric barriers that are writable only while the barrier is unarmed (14 R317). -/
def State.fbarWrite (s : State) (k : RegKey) (v : W32) (req : Nat) : State :=
  s.ruleWrite k v (!barArmed (s.barCfg (288 + k.idx))) req

/-- A write of a 32-bit word of a header slot (02 R38, R39). -/
def State.headerWrite (s : State) (c x : Nat) (v : W32) : State :=
  s.modCore c (fun k => k.setHdr (x / 16) ((k.hdr (x / 16)).setWord32 (x % 16) v))

/-! ### The effect of a write -/

/-- The write of a register reaches its block. `v` has only bits the register can take. -/
def State.regEffect (s : State) (k : RegKey) (v : W32) (req : Nat) : State :=
  let i := k.inst
  let x := k.idx
  match k.reg with
  | .alloyBuild => s.alloyBuildWrite v req
  | .kchestBase => s.areaWrite k v req
  | .kchestSize => s.areaWrite k v req
  | .annealBase => s.areaWrite k v req
  | .annealSect => s.areaWrite k v req
  | .jrnlBase => s.areaWrite k v req
  | .jrnlSize => s.areaWrite k v req
  | .evRingBase => s.areaWrite k v req
  | .progBase => s.areaWrite k v req
  | .assayArea => s.areaWrite k v req
  | .ctxSave => s.areaWrite k v req
  | .coreMode => s.coreModeWrite i (bitOf v 0) req
  | .ctxCtrl => s.ctxCtrlWrite i x (bits v 2 0) req
  | .ctxPcLo => s.ctxPcWrite i x false v req
  | .ctxPcHi => s.ctxPcWrite i x true v req
  | .lossScale => s.ruleWrite k v (lossOk v) req
  | .histCfg => s.histCfgWrite i x v
  | .headerWord => s.headerWrite i x v
  | .spBind => s.spBindWrite i v req
  | .spInject => s.spInjectWrite i v req
  | .spFault => if bitOf v 31 then s.setReg .spFault i 0 0 else s
  | .hbmFault =>
    if bitOf v 31 then ((s.setReg .hbmFault i 0 0).setReg .hbmFaultAddrLo i 0 0).setReg .hbmFaultAddrHi i 0 0 else s
  | .winCfg => s.winCfgWrite i x v req
  | .winBound => s.ruleWrite k v (!bitOf (s.reg .winCfg i x) 31) req
  | .winWdev => s.ruleWrite k v (!bitOf (s.reg .winCfg i x) 31) req
  | .winWcore0 => s.ruleWrite k v (!bitOf (s.reg .winCfg i x) 31) req
  | .winWcore1 => s.ruleWrite k v (!bitOf (s.reg .winCfg i x) 31) req
  | .winWcore2 => s.ruleWrite k v (!bitOf (s.reg .winCfg i x) 31) req
  | .dieBarCfg => s.barCfgWrite (64 * i + x) v req
  | .devBarCfg => s.barCfgWrite (256 + x) v req
  | .fbarCfg => s.fbarCfgWrite x v req
  | .fbarHome => s.fbarWrite k v req
  | .fbarListLo => s.fbarWrite k v req
  | .fbarListHi => s.fbarWrite k v req
  | .fbarDevs => s.fbarWrite k v req
  | .dieCtrCfg => s.ctrCfgWrite (64 * i + x) v req
  | .devCtrCfg => s.ctrCfgWrite (256 + x) v req
  | .dieCtrThresh => s.ruleWrite k v (!ctrArmed (s.ctrCfg (64 * i + x))) req
  | .devCtrThresh => s.ruleWrite k v (!ctrArmed (s.ctrCfg (256 + x))) req
  | .dieCtrNotify => s.ruleWrite k (v &&& 0xFFFFFF) (!ctrArmed (s.ctrCfg (64 * i + x))) req
  | .devCtrNotify => s.ruleWrite k v (!ctrArmed (s.ctrCfg (256 + x))) req
  | .dieCtrVal => s.ctrValWrite (64 * i + x) v
  | .devCtrVal => s.ctrValWrite (256 + x) v
  | .hbmMap => if s.serviceOpen then s.refuseState k.reg i x req else (s.remap i (bits v 2 0)).plainWrite k v
  | .hbmCfg => s.ruleWrite k v (!s.serviceOpen) req
  | .thermCfg => s.ruleWrite k v (decide (bits v 7 0 < bits v 15 8 ∧ bits v 15 8 < bits v 23 16 ∧ bits v 23 16 < 95)) req
  | .cacheCtrl => s.cacheCtrlWrite i v
  | .mtCtrl => s.mtCtrlWrite i (bits v 2 0) req
  | .mtRow => s.mtWrite k v req
  | .mtLane => s.mtWrite k v req
  | .portCtrl => s.portCtrlWrite i v
  | .fabId => s.ruleWrite k v (!s.fabricBegan) req
  | .fabGrant => s.fabGrantWrite x v
  | .svcCtrl => s.svcWrite k v req
  | .svcMacLo => s.svcWrite k v req
  | .svcMacHi => s.svcWrite k v req
  | .svcGwMacLo => s.svcWrite k v req
  | .svcGwMacHi => s.svcWrite k v req
  | .svcVlan => s.svcWrite k v req
  | .svcIpv4 => s.svcWrite k v req
  | .svcIpv6 => s.svcWrite k v req
  | .svcUdp => s.svcWrite k v req
  | .svcFrag => s.svcWrite k v req
  | .svcTimers => s.svcWrite k v req
  | .svcIdle => s.svcWrite k v req
  | .svcSess => s.svcWrite k v req
  | .svcSessCnt => s.svcWrite k v req
  | .witCfg => s.witCfgWrite v
  | .witTakeover => s.takeoverWrite v req
  | .plcCtrl => s.plcCtrlWrite v
  | .plcExclude => s.plcExcludeWrite x v
  | .tsCfg => s.tsCfgWrite false v req
  | .tsPart => s.tsCfgWrite true v req
  | .tsPush => if bitOf v 0 then s.tsPushWrite req else s
  | .tsDonePop => if bitOf v 0 then s.tsPop else s
  | .tsAbort => s.tsAbort (fun r => bitOf v 16 || r.tag == bits v 15 0)
  | .tsSlotCtrl => if bitOf v 0 then s.tsZero else s
  | .tsSlotData => s.tsDataWrite x v req
  | .cvCfg => s.cvProfileWrite k x v req
  | .cvPolyLo => s.cvProfileWrite k x v req
  | .cvPolyHi => s.cvProfileWrite k x v req
  | .cvInitLo => s.cvProfileWrite k x v req
  | .cvInitHi => s.cvProfileWrite k x v req
  | .cvXoroutLo => s.cvProfileWrite k x v req
  | .cvXoroutHi => s.cvProfileWrite k x v req
  | .cvRunLo => s.cvRunWrite x false v req
  | .cvRunHi => s.cvRunWrite x true v req
  | .cvCtrl => s.cvCtrlWrite x v
  | .cvFeed => s.cvFeedWrite x v req
  | .pcvCfg => s.cvProfileWrite k (32 + 2 * i + x) v req
  | .pcvPolyLo => s.cvProfileWrite k (32 + 2 * i + x) v req
  | .pcvPolyHi => s.cvProfileWrite k (32 + 2 * i + x) v req
  | .pcvInitLo => s.cvProfileWrite k (32 + 2 * i + x) v req
  | .pcvInitHi => s.cvProfileWrite k (32 + 2 * i + x) v req
  | .pcvXoroutLo => s.cvProfileWrite k (32 + 2 * i + x) v req
  | .pcvXoroutHi => s.cvProfileWrite k (32 + 2 * i + x) v req
  | .pcvRunLo => s.cvRunWrite (32 + 2 * i + x) false v req
  | .pcvRunHi => s.cvRunWrite (32 + 2 * i + x) true v req
  | .pcvCtrl => s.cvCtrlWrite (32 + 2 * i + x) v
  | .pcvFeed => s.cvFeedWrite (32 + 2 * i + x) v req
  | .sbCmd => if bitOf v 0 then s.latchCause 5 else s
  | .decAct => s.decRegWrite k v
  | .decJob => s.decRegWrite k v
  | .decTgt => s.decRegWrite k v
  | .decAddrLo => s.decRegWrite k v
  | .decAddrHi => s.decRegWrite k v
  | .decGo => if bitOf v 0 then s.decGo (bitOf v 1) req else s
  | .evHeldAck => s.heldAckWrite v req
  | .evSup => s.evSupWrite x v
  | .evMgmtPop => if bitOf v 0 then s.mgmtPop else s
  | .clkPlan => s.pwrWrite k v req
  | .railLimit => s.pwrWrite k v req
  | .avsCfg => s.pwrWrite k v req
  | .jtCfg => s.pwrWrite k v req
  | .rstCmd => s.pwrWrite k v req
  | .assayReq => s.assayReqWrite v req
  | .snapCmd => s.snapWrite v req
  | .mgmtCfg => s.mgmtCfgWrite v
  | .regLastHi => if bitOf v 31 then (s.setReg .regLastLo 0 0 0).setReg .regLastHi 0 0 0 else s
  | .pwCtrlLo => s.pwLo v
  | .pwCtrlHi => s.pwHi req
  | .peenCtrl => s.peenCtrlWrite v req
  | .pnCfg => s.pnCfgWrite x v req
  | .pnAmount => s.pnSlotWrite k.reg x v req
  | .pnSeed => s.pnSlotWrite k.reg x v req
  | _ => s.plainWrite k v

end Sys2Proof.Machine
end

