-- ==== Sys2Proof/Machine/RegIf.lean ====
section
/-!
DEFINITION. The register interface (spec 22 R475 to R492; 00 R11, R12; 21 R450): what a read returns, the path of a write through the
hub, the management port.
-/
namespace Sys2Proof.Machine

/-! ### Registers that show other state -/

def bitSum (n : Nat) (p : Nat → Bool) : Nat := ((List.range n).map (fun i => if p i then 2 ^ i else 0)).sum

/-- CTX_STATE (10 R231, R235). -/
def ctxStCode : CtxSt → Nat
  | .idle => 0
  | .running => 1
  | .halted => 2
  | .preempting => 3
  | .preempted => 4
  | .aborting => 5

def State.ctxStateWord (s : State) (c x : Nat) : Nat :=
  let v := s.context c x
  v.lastOp % 1024 * 2 ^ 22 + v.lastStatus % 256 * 2 ^ 14 + ((s.core c).q.filter (fun q => q.ctx == x && q.cmd.engine != 0)).length * 2 ^ 3 + ctxStCode v.st

/-- Does an issued command of core `k` wait for the state of drawer `d` of core `c`: a source that is not readable, a destination that is not open,
or a drawer whose tag a DRTAG is to change while it is claimed or being consumed? -/
def State.waitsOn (s : State) (k : Nat) (q : QCmd) (c d : Nat) : Bool :=
  let v := (s.core c).drawer d
  let dst := q.dsts.map (fun d => (k, d)) ++ q.openOuts.flatMap (fun j => (q.outDr[j]?).getD [])
  q.stage == .issued && ((((c, d) ∈ q.sources k ++ q.inDr) && !v.ready) || (((c, d) ∈ dst) && !v.open_)
    || (k == c && q.cmd.op? == some .drtag && (d ∈ drtagRun q.cmd) && (v.claim || v.closing)))

/-- Commands that wait on a drawer, of whatever core, and window writes and remote reads held at it. -/
def State.drawerWaiters (s : State) (c d : Nat) : Nat :=
  let a := s.cores.flatMap (fun e => e.2.q.filter (fun q => s.waitsOn e.1 q c d))
  let w := s.waitw.filter (fun w => w.owner == c && decide (d ∈ touched w.off w.data.length))
  let r := s.waitr.filter (fun w => w.owner == c && decide (d ∈ touched w.off w.len))
  a.length + w.length + r.length

def tagCode : Tag → Nat
  | .empty => 0
  | .full => 1
  | .torn => 2
  | .orphan => 3

/-- DRAWER_TAG (09 R203). -/
def State.drawerTagWord (s : State) (c d : Nat) : Nat :=
  let v := (s.core c).drawer d
  min 255 (s.drawerWaiters c d) * 2 ^ 8 + b2n v.claim * 2 ^ 3 + b2n (s.winAt c d).isSome * 2 ^ 2 + tagCode v.tag

/-- ANVIL_STATE (06 R141). -/
def State.anvilStateWord (s : State) (c : Nat) : Nat :=
  let k := s.core c
  b2n (k.latch 0).valid * 2 ^ 28 + bitSum 4 (fun a => (k.acc a).torn) * 2 ^ 24 + bitSum 4 (fun a => (k.acc a).inuse) * 2 ^ 20
    + bitSum 4 (fun a => (k.acc a).ovf) * 2 ^ 16 + bitSum 8 (fun t => (k.tile t).torn) * 2 ^ 8 + bitSum 8 (fun t => (k.tile t).inuse)

/-- BAR_STATE (12 R269). -/
def State.barStateWord (s : State) (k : Nat) : Nat :=
  let v := s.bar k
  b2n v.poisoned * 2 ^ 31 + b2n v.orphan * 2 ^ 30 + b2n v.sense * 2 ^ 29 + v.cur.length % 512 * 2 ^ 20 + v.nxt.length % 512 * 2 ^ 11
    + v.phases % 2048

/-- CTR_VAL (12 R269). -/
def State.ctrValWord (s : State) (k : Nat) : Nat :=
  let v := s.ctr k
  b2n v.orphan * 2 ^ 17 + b2n v.fired * 2 ^ 16 + v.value % 65536

/-- ALLOY_STATUS (03 R65). -/
def State.alloyWord (s : State) (t : Nat) : Nat :=
  let v := s.table t
  v.gen % 256 * 2 ^ 24 + v.failIndex % 256 * 2 ^ 16 + v.check % 16 * 2 ^ 12 + v.bank.count % 128 * 2 ^ 5 + b2n v.active * 2 ^ 2 + v.shadow % 4

/-- The word of the selected placement entry (16 R371): E0 then E1. -/
def State.plcEntryWord (s : State) (w : Nat) : Nat :=
  let e := (Tab.find? s.plcActive.sess (s.rf .plcSel 0 0 24 0)).getD (0, 0)
  (if w < 2 then e.1 / 2 ^ (32 * w) else e.2 / 2 ^ (32 * (w - 2))) % 2 ^ 32

/-- TS_STATUS (17 R389). -/
def State.tsStatusWord (s : State) : Nat :=
  let run := s.ts.queue.find? (fun r => r.started && !r.isHash)
  let op := match run with
    | some r => r.op
    | none => 0
  (s.ts.queue.filter (fun r => !r.started)).length % 32 * 2 ^ 16 + op % 256 * 2 ^ 8
    + b2n (s.ts.queue.any (fun r => r.started && r.isHash)) * 2 + b2n run.isSome

/-- TS_DONE and TS_DONE_CYC: the oldest completion not popped. -/
def State.tsDoneWord (s : State) : Nat :=
  match s.ts.done with
  | d :: _ => 2 ^ 31 + d.status % 256 * 2 ^ 16 + d.tag % 65536
  | [] => 0

def State.tsCycWord (s : State) : Nat :=
  match s.ts.done with
  | d :: _ => d.cycles
  | [] => 0

/-- TS_SLOT_STAT and TS_SLOT_DATA: slots of the internal partition and generated private values do not show (17 R376, R377). -/
def State.tsSlotStatWord (s : State) : Nat :=
  let k := s.rf .tsSlotSel 0 0 11 0
  b2n (decide (k ∈ s.tsBusy)) * 4 + b2n (decide (k ∈ s.ts.secret)) * 2 + b2n (decide (k ∈ s.ts.valid))

def State.tsSlotDataWord (s : State) (w : Nat) : Nat :=
  let k := s.rf .tsSlotSel 0 0 11 0
  if k < s.rf .tsPart 0 0 11 0 ∨ k ∈ s.ts.secret ∨ 2 * s.tsLen ≤ w ∨ s.tsSlots ≤ k then 0
  else leNat ((List.range 4).map (fun i => Tab.get 0 s.ts.mem (s.tsSlotBytes * k + 4 * w + i)))

/-- EV_MGMT_DATA: the oldest record of the management FIFO (19 R415). -/
def State.mgmtWord (s : State) (w : Nat) : Nat :=
  match s.router.mgmt with
  | e :: _ => ((e.words[w / 2]?).getD 0) / 2 ^ (32 * (w % 2)) % 2 ^ 32
  | [] => 0

/-- ASSAY_STATUS (21 R474). -/
def State.assayWord (s : State) : Nat :=
  s.assay.queue.length % 16 * 2 ^ 14 + (s.assay.core.getD 0) % 128 * 2 ^ 7 + s.assay.test % 16

/-- The word a register holds, as a read sees it; registers that show state kept elsewhere are computed from it. -/
def State.liveWord (s : State) (k : RegKey) : W32 :=
  let i := k.inst
  let x := k.idx
  let n := fun (v : Nat) => BitVec.ofNat 32 v
  let v := s.regK k
  match k.reg with
  | .idDevice => n s.myDev
  | .idCaps => putBits v 11 8 (bitSum 4 (fun d => s.powered .die d))
  | .alloyStatus => n (s.alloyWord x)
  | .anvilState => n (s.anvilStateWord i)
  | .anvilShape => n ((s.core i).tile x).desc.toNat
  | .anvilLatch => n (bitSum 4 (fun c => ((s.core i).latch c).valid) * 2 ^ 16
      + ((s.core i).latch (s.latchNo i (s.core i).lastTmulCtx)).tile.desc.toNat)
  | .drawerTag => n (s.drawerTagWord i x)
  | .winStat => putBits v 5 0 (((s.win i x).drawers.filter (fun d => ((s.core i).drawer d).tag == .full)).length)
  | .ctxState => n (s.ctxStateWord i x)
  | .ctxPcLo => n ((s.context i x).pc % 2 ^ 32)
  | .ctxPcHi => n ((s.context i x).pc / 2 ^ 32)
  | .counter => n ((s.core i).counter x).toNat
  | .desc => n ((((s.core i).desc (x / 16)).toNat) / 2 ^ (32 * (x % 16)) % 2 ^ 32)
  | .headerWord => n (((s.core i).hdr (x / 16)).word32 (x % 16))
  | .dieBarState => n (s.barStateWord (64 * i + x))
  | .devBarState => n (s.barStateWord (256 + x))
  | .fbarState => n (s.barStateWord (288 + x))
  | .dieCtrVal => n (s.ctrValWord (64 * i + x))
  | .devCtrVal => n (s.ctrValWord (256 + x))
  | .cacheStat => n (s.keepLines i)
  | .portStatus => putBits v 22 18 ((portRole i).1 * 8 + (portRole i).2)
  | .fabCfg => putBits v 2 0 s.maxLevel
  | .timeStatus => putBits (putBits v 30 30 (b2n (devIndex s.myDev == 0))) 19 16 ((parentPort s.myDev).getD 0)
  | .svcStatus => putBits v 31 17 ((s.sessions.filter (fun e => e.2.isOpen && e.2.port == i)).length)
  | .witStatus => putBits v 31 16 ((s.recsWhere (fun r => r.state == 2)).length)
  | .jrnlUsed => n ((s.recsWhere (fun r => r.state != 0)).length)
  | .plcEntry => n (s.plcEntryWord x)
  | .plcCore => n (bitSum 4 (fun c => s.placeable x c) * 2 ^ 4 + s.plcState x)
  | .tsStatus => n s.tsStatusWord
  | .tsDone => n s.tsDoneWord
  | .tsDoneCyc => n s.tsCycWord
  | .tsSlotStat => n s.tsSlotStatWord
  | .tsSlotData => n (s.tsSlotDataWord x)
  | .evMgmtStat => n (b2n (!s.router.mgmt.isEmpty) * 2 ^ 31 + s.router.mgmt.length % 512)
  | .evMgmtData => n (s.mgmtWord x)
  | .clkStatus => putBits v 31 16 s.align
  | .assayStatus => n s.assayWord
  | .bootTime => if s.boot < 11 then n ((s.time - s.init.begun) / 400) else v
  | .peenStatus => n (b2n s.peenOk * 2 ^ 9 + s.rf .peenCtrl 0 0 0 0 * 2 ^ 8 + bitSum 8 (fun j => bitOf (s.reg .pnCfg 0 j) 31))
  | _ => v

/-- The value of a read (00 R11): WO fields read as zero, RO-S fields as the last snapshot left them. -/
def State.readValue (s : State) (k : RegKey) : W32 :=
  let ros := k.reg.rosMask
  ((s.liveWord k &&& ~~~ros) &&& ~~~(k.reg.maskOf [.wo])) ||| (Tab.get 0 s.held k.addr &&& ros)

/-! ### The hub (22 R477 to R484) -/

/-- Device time after which a pending pair has expired: its window is the 64 cycles after the value write. -/
def PairPend.expired (p : PairPend) (now : Nat) : Bool := decide (p.at_ + 64 < now)

/-- The complement address of a pending pair. -/
def PairPend.compl (p : PairPend) : Nat := if p.byHm then p.addr / 0x10000 * 0x10000 + 0xFFF4 else p.addr + 4

/-- A response of the management port with its PEC (R487). -/
def withPec (bs : List Byte) : List Nat := (bs ++ [BitVec.ofNat 8 (crc8 bs)]).map BitVec.toNat

/-- Send a response and keep it for REPEAT (R488). -/
def State.respond (s : State) (status : Nat) (bs : List Byte) : State :=
  let r := withPec (bs ++ [BitVec.ofNat 8 status])
  State.send { s with resp := some (status, r) } (.mgmt status r)

/-- Did the writes between two states leave a value of theirs waiting for its complement? Their requester has no status yet (R482). -/
def State.opensPair (s t : State) (addr : Nat) : Bool := (t.hubAt addr).pair.isSome && (t.hubAt addr).pair != (s.hubAt addr).pair

/-- The status of a value write whose window has ended, to the port that waits for it. -/
def State.lateStatus (s : State) (req : Nat) : State :=
  match req with
  | 0 => s.respond stRefused []
  | 2 => { s with tap := { s.tap with dbgDone := true, dbgStatus := stRefused } }
  | _ => s

/-- The window of a block's pending pair ends: the value is refused, reason 3 (R482). -/
def State.expirePair (s : State) (addr : Nat) : State :=
  match (s.hubAt addr).pair with
  | some p =>
    if p.expired s.time then ((s.modHub addr (fun h => { h with pair := none })).refuse p.addr p.req stRefused 3).lateStatus p.req else s
  | none => s

/-- BLOCK_ID (R480). -/
def blockId (b : Block) (i : Nat) : Nat :=
  b.domain i * 2 ^ 20 + b2n b.posted * 2 ^ 16 + i * 2 ^ 8 + b.kind i

/-- STATUS, as a requester reads it (R480). -/
def HubBlock.status (h : HubBlock) (req : Nat) : Nat :=
  b2n h.late * 16 + b2n (decide (req ∈ h.keys)) * 8 + b2n h.pair.isSome * 4 + b2n h.overrun * 2 + b2n h.post.isSome

/-- An access to no register: EV_REG_UNMAPPED (R477). -/
def State.unmapped (s : State) (addr req : Nat) : State := s.regEvent 0x0B04 2 addr req 0x52 0

/-- The block of an address of control space, if it is assigned and the address is aligned (R475, R477). -/
def blockAt (addr : Nat) : Option (Block × Nat) :=
  if addr % 4 = 0 ∧ controlBase ≤ addr ∧ addr < controlBase + 0x10000000 then blockOf (addr - controlBase) else none

/-- A crossing into a stopped domain wakes it (20 R437). -/
def State.wakeFor (s : State) (b : Block) (i : Nat) : State :=
  let d := b.domain i
  if mayStop d && s.rf .clkRun 0 (d / 32) (d % 32) (d % 32) == 0 && (!bitOf (s.reg .clkStatus) 1 || decide (d ∈ bypassDomains)) then s.setRun d true
  else s

/-- A read through the hub: the state after it, the data, the status. -/
def State.hubRead (s : State) (addr req : Nat) : State × Nat × Nat :=
  match blockAt addr with
  | none => (s.unmapped addr req, 0, 0x52)
  | some (b, i) =>
    let off := addr % 0x10000
    if 0xFFF0 ≤ off then
      let s := s.expirePair addr
      (s, if off = 0xFFF0 then blockId b i else if off = 0xFFF8 then (s.hubAt addr).status req else 0, 0)
    else match regAt b i off with
      | none => if s.powered b i then (s.wakeFor b i, 0, 0) else (s, 0, 0x55)
      | some k =>
        if !s.powered b i then
          if k.reg.rosMask = 0 then (s, 0, 0x55) else (s, (Tab.get 0 s.held k.addr &&& k.reg.rosMask).toNat, 0)
        else
          let v := (s.readValue k).toNat
          let s := s.wakeFor b i
          (if k.reg = .pwStatus then s.setReg .pwStatus 0 0 0 else s, v, 0)

/-- A write reaches its block: its effect and the status the block answers. -/
def State.applyWrite (s : State) (k : RegKey) (v req : Nat) : State × Nat :=
  let t := State.regEffect { s with regSt := 0 } k (BitVec.ofNat 32 v &&& k.reg.writeMask) req
  (t, t.regSt)

/-- A write leaves the hub: posted, or straight to its block (R483). -/
def State.crossWrite (s : State) (k : RegKey) (v req : Nat) : State × Nat :=
  let s := s.wakeFor k.reg.block k.inst
  if k.reg.block.posted then (s.modHub k.addr (fun h => { h with post := some ⟨k.addr, v, req⟩ }), 0) else s.applyWrite k v req

/-- A write dropped because its block is BUSY (R483). -/
def State.dropWrite (s : State) (addr req : Nat) : State :=
  let s := (s.modHub addr (fun h => { h with overrun := true })).noteLast addr req 0x51 0
  (s.countReg .regDropped 0 0 1).regEvent 0x0B03 2 addr req 0x51 0

/-- Refuse a write at the hub. -/
def State.hubRefuse (s : State) (addr req reason : Nat) : State × Nat := (s.refuse addr req stRefused reason, stRefused)

/-- The complement of a pending pair has come (R482): equal to the complement of the value, the write takes effect; else both are
refused. -/
def State.pairEnd (s : State) (p : PairPend) (v : Nat) : State × Nat :=
  let s := s.modHub p.addr (fun h => { h with pair := none })
  match regOf p.addr with
  | none => (s, 0)
  | some k => if v = 2 ^ 32 - 1 - p.value then s.crossWrite k p.value p.req else s.hubRefuse p.addr p.req 2

/-- A write of a common word (R480 to R482). -/
def State.commonWrite (s : State) (addr v req : Nat) : State × Nat :=
  let off := addr % 0x10000
  if off = 0xFFF8 then
    (s.modHub addr (fun h => { h with late := h.late && !natBit v 4, overrun := h.overrun && !natBit v 1 }), 0)
  else if off = 0xFFFC then
    if v = 0x7A3E91C5 then (s.modHub addr (fun h => { h with keys := addOnce req h.keys }), 0)
    else
      let s := (s.modHub addr (fun h => { h with keys := h.keys.filter (· != req) })).noteRefusal addr req stRefused 6
      (s.regEvent 0x0B02 1 addr req stRefused 6, stRefused)
  else if off = 0xFFF4 then
    match (s.hubAt addr).pair with
    | some p => if p.byHm && p.req == req then s.pairEnd p v else s.hubRefuse addr req 2
    | none => s.hubRefuse addr req 2
  else (s, 0)

/-- Is a write of a register key-guarded: by its type, or by HM_KGUARD (00 R11; 21 R450)? -/
def State.keyed (s : State) (k : RegKey) : Bool :=
  k.reg.maskOf [.rwk] != 0 || (natBit (s.reg .hmKguard).toNat (k.reg.block.kind k.inst) && k.reg.maskOf [.rw, .wo, .w1c] != 0)

/-- Is a write of a register pair-written, and by HM_PWRITE (21 R450)? -/
def State.pairByHm (s : State) (k : RegKey) : Bool :=
  natBit (s.reg .hmPwrite).toNat (k.reg.block.kind k.inst) && k.reg.maskOf [.rw, .wo, .w1c] != 0
def RegName.pairTyped (r : RegName) : Bool := r.maskOf [.rwp] != 0

/-- A write of a key-guarded register consumes its requester's key, whatever becomes of the write (R481). -/
def State.takeKey (s : State) (k : RegKey) (addr req : Nat) : State :=
  if s.keyed k then s.modHub addr (fun h => { h with keys := h.keys.filter (· != req) }) else s

/-- A write of a register that no pair holds up: BUSY, the key, reserved values, then the pair or the crossing. -/
def State.valueWrite (s : State) (k : RegKey) (addr v req : Nat) : State × Nat :=
  if (s.hubAt addr).post.isSome then ((s.takeKey k addr req).dropWrite addr req, 0x51)
  else if k.reg.writeMask = 0 then (s, 0)
  else
    let armed := decide (req ∈ (s.hubAt addr).keys)
    let guarded := s.keyed k
    let s := s.takeKey k addr req
    if guarded && !armed then s.hubRefuse addr req 1
    else if reservedValue k (BitVec.ofNat 32 v &&& k.reg.writeMask) then s.hubRefuse addr req 4
    else if k.reg.pairTyped || s.pairByHm k then
      (s.modHub addr (fun h => { h with pair := some ⟨addr, v, req, s.time, !k.reg.pairTyped⟩ }), 0)
    else s.crossWrite k v req

/-- A write through the hub, and the status its requester receives. -/
def State.hubWrite (s : State) (addr value req : Nat) : State × Nat :=
  match blockAt addr with
  | none => (s.unmapped addr req, 0x52)
  | some (b, i) =>
    let v := value % 2 ^ 32
    let off := addr % 0x10000
    let s := s.expirePair addr
    if 0xFFF0 ≤ off then s.commonWrite addr v req
    else if !s.powered b i then (s, 0x55)
    else match (s.hubAt addr).pair, regAt b i off with
      | some p, some k => if p.compl = addr ∧ p.req = req then s.pairEnd p v else (s.takeKey k addr req).hubRefuse addr req 7
      | some p, none =>
        if p.compl = addr then (if p.req = req then s.pairEnd p v else s.hubRefuse addr req 7)
        else if 4 ≤ off ∧ ((regAt b i (off - 4)).any (fun k => k.reg.pairTyped)) then s.hubRefuse addr req 7
        else (s, 0)
      | none, some k => s.valueWrite k addr v req
      | none, none => if 4 ≤ off ∧ ((regAt b i (off - 4)).any (fun k => k.reg.pairTyped)) then s.hubRefuse addr req 2 else (s, 0)

/-! ### The debug port's rights (24 R514) -/

/-- HM_POLICY.DEBUG (21 R449). -/
def State.debugLevel (s : State) : Nat := s.rf .hmPolicy 0 0 5 4

/-- Registers that level 2 may write. -/
def repairWritable (addr : Nat) : Bool :=
  addr % 0x10000 == 0xFFFC || (regOf addr).any (fun k => decide (k.reg ∈ [.mtCtrl, .mtRow, .mtLane, .spInject, .scratch]))

/-- Does the debug level permit a command at an address of an assigned block? -/
def State.debugMay (s : State) (cmd addr : Nat) : Bool :=
  match s.debugLevel with
  | 0 => false
  | 1 => cmd == 1
  | 2 => cmd == 1 || repairWritable addr
  | _ => true

/-- A debug access beyond the rights of its level (22 R490). -/
def State.debugRefused (s : State) (addr : Nat) : State := (s.noteLast addr 2 0x54 0).regEvent 0x0B01 1 addr 2 0x54 0

/-- A write of a requester: the debug port's within the rights of its level, then through the hub (R478). -/
def State.reqWrite (s : State) (addr value req : Nat) : State :=
  if req = 2 && (blockAt addr).isSome && !s.debugMay 2 addr then s.debugRefused addr else (s.hubWrite addr value req).1

/-- The requesters of R478. -/
def onReq (req : Nat) (s : State) : Host.Outcome State Fault Refusal := if req < 6 then .next s else .fault .noSuchPart

/-- REGISTER_WRITE: a write of one register through the hub. -/
def execRegisterWrite (addr value req : Nat) (s : State) : Host.Outcome State Fault Refusal := onReq req (s.reqWrite addr value req)

/-- LOCK_WRITE: a write of the LOCK word of a block (R481). -/
def execLockWrite (block value req : Nat) (s : State) : Host.Outcome State Fault Refusal :=
  onReq req (s.reqWrite (controlBase + block % 4096 * 0x10000 + 0xFFFC) value req)

/-- PAIR_COMPLEMENT: the write at the complement address of the block's pending pair (R482). -/
def execPairComplement (block value req : Nat) (s : State) : Host.Outcome State Fault Refusal :=
  let base := controlBase + block % 4096 * 0x10000
  onReq req (match (s.hubAt base).pair with
    | some p => s.reqWrite p.compl value req
    | none => s.reqWrite (base + 0xFFF4) value req)

/-- PAIR_WINDOW_EXPIRY: the 64 cycles of a block's pending pair have passed (R482). -/
def execPairWindowExpiry (block : Nat) (s : State) : Host.Outcome State Fault Refusal :=
  .next (s.expirePair (controlBase + block % 4096 * 0x10000))

/-- POSTED_WRITE_ARRIVAL: the posted write of a block takes effect there, or is refused; BUSY clears (R483). -/
def execPostedWriteArrival (block : Nat) (s : State) : Host.Outcome State Fault Refusal :=
  let base := controlBase + block % 4096 * 0x10000
  .next (match (s.hubAt base).post with
    | none => s
    | some w =>
      let s := s.modHub base (fun h => { h with post := none })
      match regOf w.addr with
      | none => s
      | some k => if s.powered k.reg.block k.inst then (s.applyWrite k w.value w.req).1 else s)

/-! ### The management port (R486 to R489) -/

/-- The port answers from the lock of the root PLL, and in BYPASS. -/
def State.mgmtOn (s : State) : Bool := s.init.pwrgd && (bitOf (s.reg .clkStatus) 0 || bitOf (s.reg .clkStatus) 1)

/-- A request: the bytes after the command byte. `n` bytes precede the PEC. -/
def pecOk (cmd n : Nat) (body : List Byte) : Bool :=
  decide (body.length = n + 1) && body[n]? == some (BitVec.ofNat 8 (crc8 (BitVec.ofNat 8 cmd :: body.take n)))

/-- Four bytes of a request from a place on, little-endian. -/
def reqWord (body : List Byte) (at_ : Nat) : Nat := leNat ((body.drop at_).take 4)
def reqAddr (body : List Byte) : Nat := leNat (body.take 5)

/-- A request whose PEC or length is wrong is not executed (R488). `bs`: data bytes of its response. -/
def State.pecFail (s : State) (body bs : List Byte) : State :=
  ((s.countReg .regPecErr 0 0 1).regEvent 0x0B05 2 (reqAddr body % 2 ^ 40) 0 0x53 0).respond 0x53 bs

/-- Run the writes of a compound command in order; the first that fails ends it, and its status is the command's. -/
def State.writeSteps (s : State) : List (Nat × Nat) → State × Nat
  | [] => (s, 0)
  | (a, v) :: ws =>
    let r := s.hubWrite a v 0
    if r.2 = 0 then State.writeSteps r.1 ws else r

/-- Where the complement of a write goes: X + 4 for an RW-P field, else the PAIR word (R487). -/
def complementAddr (addr : Nat) : Nat :=
  if (regOf addr).any (fun k => k.reg.pairTyped) then addr + 4 else addr / 0x10000 * 0x10000 + 0xFFF4

def lockAddr (addr : Nat) : Nat := addr / 0x10000 * 0x10000 + 0xFFFC

/-- A management write command: its request of `n` bytes, the writes it makes. A value that waits for its complement is answered when its
window ends. -/
def State.mgmtWrite (s : State) (cmd n : Nat) (body : List Byte) (ws : List (Nat × Nat)) : State :=
  if !s.mgmtOn then s
  else if !pecOk cmd n body then s.pecFail body []
  else
    let r := s.writeSteps ws
    if s.opensPair r.1 (reqAddr body) then r.1 else r.1.respond r.2 []

/-- READ -/
def execRead (body : List Byte) (s : State) : Host.Outcome State Fault Refusal :=
  .next (if !s.mgmtOn then s
    else if !pecOk 0x01 5 body then s.pecFail body (List.replicate 4 0)
    else
      let r := s.hubRead (reqAddr body) 0
      r.1.respond r.2.2 (natLE 4 r.2.1))

/-- WRITE -/
def execWrite (body : List Byte) (s : State) : Host.Outcome State Fault Refusal :=
  .next (s.mgmtWrite 0x02 9 body [(reqAddr body, reqWord body 5)])

/-- WRITE_PAIR -/
def execWritePair (body : List Byte) (s : State) : Host.Outcome State Fault Refusal :=
  let a := reqAddr body
  .next (s.mgmtWrite 0x03 13 body [(a, reqWord body 5), (complementAddr a, reqWord body 9)])

/-- WRITE_KEYED -/
def execWriteKeyed (body : List Byte) (s : State) : Host.Outcome State Fault Refusal :=
  let a := reqAddr body
  .next (s.mgmtWrite 0x04 13 body [(lockAddr a, reqWord body 5), (a, reqWord body 9)])

/-- WRITE_KEYED_PAIR -/
def execWriteKeyedPair (body : List Byte) (s : State) : Host.Outcome State Fault Refusal :=
  let a := reqAddr body
  .next (s.mgmtWrite 0x05 17 body [(lockAddr a, reqWord body 5), (a, reqWord body 9), (complementAddr a, reqWord body 13)])

/-- REPEAT: the last response again; it executes nothing and is not kept (R488). -/
def execRepeatCmd (body : List Byte) (s : State) : Host.Outcome State Fault Refusal :=
  .next (if !s.mgmtOn then s
    else if !pecOk 0x06 0 body then
      ((s.countReg .regPecErr 0 0 1).regEvent 0x0B05 2 0 0 0x53 0).send (.mgmt 0x53 (withPec [0x53]))
    else match s.resp with
      | some r => s.send (.mgmt r.1 r.2)
      | none => (s.unmapped 0 0).send (.mgmt 0x52 (withPec [0x52])))

/-! ### Common commands (R486) -/

/-- MGMT_CFG.I3C_DIS is clear. -/
def State.i3cMay (s : State) : Bool := s.mgmtOn && !bitOf (s.reg .mgmtCfg) 8
def State.i3cMode (s : State) : Bool := s.mgmtOn && bitOf (s.reg .mgmtStatus) 0

/-- Take a dynamic address: the port leaves legacy mode. -/
def State.takeAddr (s : State) (addr : Nat) : State := (s.setRf .mgmtStatus 0 0 14 8 (addr % 128)).setRf .mgmtStatus 0 0 0 0 1

/-- ENTDAA: a target without a dynamic address takes the one the controller assigns. -/
def execEntdaa (addr : Nat) (s : State) : Host.Outcome State Fault Refusal :=
  .next (if s.i3cMay && !s.i3cMode then s.takeAddr addr else s)

/-- SETDASA: the dynamic address is set by the static one. -/
def execSetdasa (static addr : Nat) (s : State) : Host.Outcome State Fault Refusal :=
  .next (if s.i3cMay && !s.i3cMode && s.rf .mgmtStatus 0 0 22 16 == static then s.takeAddr addr else s)

/-- RSTDAA: back to legacy mode. -/
def execRstdaa (s : State) : Host.Outcome State Fault Refusal :=
  .next (if s.i3cMode then (s.setRf .mgmtStatus 0 0 14 8 0).setRf .mgmtStatus 0 0 0 0 0 else s)

/-- ENEC: in-band interrupts enabled. -/
def execEnec (s : State) : Host.Outcome State Fault Refusal := .next (if s.mgmtOn then { s with enec := true } else s)

/-- DISEC: in-band interrupts disabled. -/
def execDisec (s : State) : Host.Outcome State Fault Refusal := .next (if s.mgmtOn then { s with enec := false } else s)

/-- Answer a directed common command; in legacy mode the target has no dynamic address to be directed to. -/
def State.cccAnswer (s : State) (bs : List Nat) : State := if s.i3cMode then s.send (.mgmt 0 bs) else s

/-- GETPID: part identity bytes 0 to 5. -/
def execGetpid (s : State) : Host.Outcome State Fault Refusal :=
  .next (s.cccAnswer ((natLE 4 (s.reg .hmPart 0 0).toNat ++ (natLE 4 (s.reg .hmPart 0 1).toNat).take 2).map BitVec.toNat))

/-- GETBCR: a target that may raise in-band interrupts with a data byte, as the standard codes it. -/
def execGetbcr (s : State) : Host.Outcome State Fault Refusal := .next (s.cccAnswer [0x06])

/-- An answer of `n` bytes that the spec does not give: free. -/
def State.freeAnswer (s : State) (n : Nat) : State :=
  let v := (List.range n).map (fun i => Config.freeValue (s.free + i) % 256)
  if s.i3cMode then State.send { s with free := s.free + n } (.mgmt 0 v) else s

/-- GETDCR -/
def execGetdcr (s : State) : Host.Outcome State Fault Refusal := .next (s.freeAnswer 1)

/-- GETSTATUS -/
def execGetstatus (s : State) : Host.Outcome State Fault Refusal := .next (s.freeAnswer 2)

/-- GETMWL: 19 B, most significant byte first. -/
def execGetmwl (s : State) : Host.Outcome State Fault Refusal := .next (s.cccAnswer [0, 19])

/-- GETMRL: 7 B, and one byte of in-band interrupt data. -/
def execGetmrl (s : State) : Host.Outcome State Fault Refusal := .next (s.cccAnswer [0, 7, 1])

end Sys2Proof.Machine
end

