-- ==== Sys2Proof/Machine/Startup.lean ====
section
/-!
DEFINITION. Hallmark, configuration image and start-up (spec 21 R448 to R474; 23 R496; 20 R431): the verification of the slots, the
sections, the steps of R462.
-/
namespace Sys2Proof.Machine

/-! ### Reset release, the hallmark, the clocks (R451, R462 steps 2 to 4) -/

/-- A sense of the hallmark: `ok` where it found no integrity failure. -/
def State.sense (s : State) (ok : Bool) (corrected : Nat) : State :=
  let s := (s.setRf .hmStatus 0 0 15 0 (min corrected 65535)).setRf .hmStatus 0 0 30 30 (b2n ok)
  if ok then s else (s.cfgEvent 0x0A05 0 0 0 0 0 0 0).latchCause 3

/-- STARTUP_BEGIN: RESET_N rises, the reset sequencer starts, the hallmark is sensed. Start-up waits while a TAP instruction drives the
pins (24 R514). -/
def execStartupBegin (ok : Bool) (corrected : Nat) (s : State) : Host.Outcome State Fault Refusal :=
  .next (if !s.init.pwrgd || s.boot != 0 || s.tap.drive then s
    else
      let s : State := { s with init := { s.init with resetN := true, begun := s.time } }
      let s := (s.pwrEvent 0x0909 2 0 0 (s.reg .rstCause).toNat).setBoot 1
      let s := s.sense ok corrected
      if bitOf (s.reg .sbStatus) 3 then s.setBoot 2 else s.stepEnd 2)

/-- PLL_LOCK: the root PLL locks; with cause bit 3 latched start-up stops here. -/
def execPllLock (s : State) : Host.Outcome State Fault Refusal :=
  .next (if s.boot ≠ 2 then s
    else
      let s := s.setRf .clkStatus 0 0 0 0 1
      if bitOf (s.reg .sbStatus) 3 then s.enterStrongbox else s.stepEnd 3)

/-- HALLMARK_RESENSE: every second while the device runs. -/
def execHallmarkResense (ok : Bool) (corrected : Nat) (s : State) : Host.Outcome State Fault Refusal :=
  .next (if s.boot = 0 then s else s.sense ok corrected)

/-! ### Slots (R452 to R456) -/

/-- Word `i` of a header. -/
def hdrWord (h : List Byte) (i : Nat) : Nat := leNat ((h.drop (8 * i)).take 8)

/-- Check 1 of R455: the boot block and the reserved bytes of the header; `half`: bytes of a slot. -/
def bootBlockOk (h : List Byte) (half : Nat) : Bool :=
  let b0 := hdrWord h 0
  let b1 := hdrWord h 1
  let b2 := hdrWord h 2
  let n := natBits b0 47 40
  decide (h.length = 12288) && natBits b0 31 0 == 0x4C444E52 && natBits b0 39 32 == 1 && natBits b0 63 48 == 0
    && decide (9 ≤ n ∧ n ≤ 48) && decide (50 ≤ natBits b2 23 16 ∧ natBits b2 23 16 ≤ 200)
    && decide (4 ≤ natBits b2 12 8 ∧ natBits b2 12 8 ≤ 30) && natBits b2 15 13 == 0 && natBits (hdrWord h 3) 63 8 == 0
    && ((h.drop 32).take 224).all (· == 0) && ((h.drop 3712).take 384).all (· == 0) && decide (natBits b1 63 32 ≤ half)

/-- A section entry: TYPE word, OFFSET, LENGTH, DIGEST. -/
structure SecEntry where
  typ : Nat
  off : Nat
  len : Nat
  digest : List Byte
  deriving DecidableEq, Repr

def secEntry (h : List Byte) (i : Nat) : SecEntry :=
  let e := (h.drop (256 + 72 * i)).take 72
  ⟨hdrWord e 0, hdrWord e 1, hdrWord e 2, e.drop 24⟩

/-- Check 5: sections 0x01 to 0x09 in order, each once, aligned, apart, within IMAGE_LEN; the other entries zero. -/
def secTableOk (h : List Byte) : Bool :=
  let n := natBits (hdrWord h 0) 47 40
  let es := (List.range n).map (secEntry h)
  es.map (·.typ) == (List.range 9).map (· + 1)
    && es.all (fun e => decide (12288 ≤ e.off) && e.off % 4096 == 0 && decide (e.off + e.len ≤ natBits (hdrWord h 1) 63 32))
    && (List.range n).all (fun i => (List.range i).all (fun j => let a := secEntry h i; let b := secEntry h j; !overlaps a.off a.len b.off b.len))
    && ((h.drop (256 + 72 * n)).take (72 * (48 - n))).all (· == 0)

/-- The checks of R455 on a header of 12,288 bytes; the reason of the first that fails. -/
def State.slotCheck (s : State) (h : List Byte) (half : Nat) : Nat :=
  let sig := h.drop 4096
  let hd := sha384 (h.take 4096)
  let root := (List.range 12).flatMap (fun k => natLE 4 (s.reg .hmRoot 0 k).toNat)
  if !bootBlockOk h half then 1
  else if sha384 (sig.take 2696) != root then 2
  else if !p384Verify (sig.take 97) hd ((sig.drop 2696).take 96) then 3
  else if !dsaVerify 0x0B ((sig.drop 104).take 2592) hd ((sig.drop 2792).take 4627) then 4
  else if !secTableOk h then 5
  else 0

def State.verified (s : State) (h : List Byte) (half : Nat) : ImgSlot :=
  { digest := sha384 (h.take 4096), reject := s.slotCheck h half, ver := natBits (hdrWord h 1) 31 0
    secs := (List.range 9).map (fun i => let e := secEntry h i; (e.len, e.digest)) }

def State.slot (s : State) (i : Nat) : ImgSlot := (s.init.slots[i]?).getD {}

/-- Show the reject reason of a slot. -/
def State.showReject (s : State) (i reason : Nat) : State := s.setRf .imgStatus 0 0 (4 * i + 7) (4 * i + 4) reason

/-- No slot is left (R456). -/
def State.noImage (s : State) : State := (s.setBoot 12).cfgEvent 0x0A02 0 0 0 0 0 0 0

/-- Take a slot: its sections come next. The length of its program section is that of the PROG_BASE region (13 R547). -/
def State.takeSlot (s : State) (i : Nat) : State :=
  let s := (s.setRf .imgStatus 0 0 0 0 i).setReg .imgVer 0 0 (BitVec.ofNat 32 (s.slot i).ver)
  { s with progLen := (((s.slot i).secs[7]?).getD (0, [])).1, init := { s.init with loaded := 0, retried := false } }

/-- SLOT_VERIFY_DONE: both headers read; `mib`: the flash's capacity in MiB. BOOT_FORCE leaves one slot to consider (R457). -/
def execSlotVerifyDone (mib : Nat) (a b : List Byte) (s : State) : Host.Outcome State Fault Refusal :=
  .next (if s.boot ≠ 3 then s
    else
      let half := mib * 2 ^ 19
      let sl := [s.verified a half, s.verified b half]
      let s : State := { s with init := { s.init with slots := sl } }
      let s := s.setRf .imgStatus 0 0 1 1 (b2n s.init.force.isSome)
      let s := (List.range 2).foldl (fun (s : State) i =>
        let r := (s.slot i).reject
        if r = 0 then s else (s.showReject i r).cfgEvent 0x0A01 1 r i 0 0 0 0) s
      let good := (List.range 2).filter (fun i => (s.slot i).reject == 0 && (s.init.force.isNone || s.init.force == some i))
      match good with
      | [] => s.noImage
      | [i] => (s.takeSlot i).stepEnd 4
      | _ => (s.takeSlot (if (s.slot 0).ver < (s.slot 1).ver then 1 else 0)).stepEnd 4)

/-! ### Sections (R456 to R458) -/

/-- The type of the section that loads next, if one does. -/
def State.nextSection (s : State) : Option Nat :=
  let n := s.init.loaded
  if !s.init.recs.isEmpty then none
  else match s.boot with
    | 4 => if n < 2 then some (n + 1) else none
    | 5 => if n = 2 then some 3 else none
    | 6 => if n < 9 then some (n + 1) else none
    | _ => none

/-- The slot in use is rejected. The other slot is tried, after a warm reset where registers of this one are written (R457). -/
def State.rejectSlot (s : State) (reason typ idx : Nat) (dirty : Bool) : State :=
  let i := s.rf .imgStatus 0 0 0 0
  let s := ((s.cfgEvent 0x0A01 1 reason i typ idx 0 0).showReject i reason)
  let s : State := { s with init := { s.init with
    slots := s.init.slots.set i { s.slot i with reject := reason }, recs := [], rest := [], recIdx := 0, retried := false } }
  if (s.slot (1 - i)).reject ≠ 0 ∨ s.init.force.isSome then s.noImage
  else if dirty then State.warmReset { s with init := { s.init with force := some (1 - i) } } 0
  else s.takeSlot (1 - i)

/-- A section fails its digest: it is read once more; a second failure rejects the slot. -/
def State.sectionFail (s : State) (typ : Nat) : State :=
  if !s.init.retried then { s with init := { s.init with retried := true } }
  else s.rejectSlot 6 typ 0 (decide (1 ≤ s.init.loaded))

/-- Blocks a section's records may write (R456). -/
def sectionBlocks : Nat → List Block
  | 0x01 => [.clk]
  | 0x02 => [.power]
  | 0x04 => [.port]
  | 0x05 => [.jrnl, .plc, .svc, .ts]
  | 0x06 => [.loader]
  | 0x07 => [.core, .die, .hbm]
  | 0x09 => [.router, .cv]
  | _ => []

/-- The record at a place of a section. -/
def recAt (bs : List Byte) (i : Nat) : RegRec :=
  let w := bs.drop (16 * i)
  let w0 := leNat (w.take 8)
  let w1 := leNat ((w.drop 8).take 8)
  ⟨natBits w0 47 40, natBits w0 39 0, natBits w1 31 0, natBits w1 63 32⟩

/-- The posted write of a block arrives: the state and the status the block gives. -/
def State.arrive (s : State) (addr : Nat) : State × Nat :=
  match (s.hubAt addr).post with
  | none => (s, 0)
  | some w =>
    let s := s.modHub addr (fun h => { h with post := none })
    match regOf w.addr with
    | none => (s, 0)
    | some k => s.applyWrite k w.value w.req

/-- The loader's write of a register, by its protocol: the key, the value, the complement, and the wait for BUSY to clear. -/
def State.loaderWrite (s : State) (addr v : Nat) : State × Nat :=
  match regOf addr with
  | none => s.hubWrite addr v 1
  | some k =>
    let s := if s.keyed k then (s.hubWrite (lockAddr addr) 0x7A3E91C5 1).1 else s
    let r := s.hubWrite addr v 1
    let r := if r.2 = 0 ∧ (r.1.hubAt addr).pair.isSome then r.1.hubWrite (complementAddr addr) (2 ^ 32 - 1 - v) 1 else r
    if r.2 = 0 then r.1.arrive addr else r

/-- How the records of a section ended. -/
inductive RecRes where
  | done
  | waits (rs : List RegRec) (i : Nat)
  | refused (i : Nat)
  deriving DecidableEq, Repr

/-- Apply records in order, from index `i` on. A wait that does not hold yet stops them there. -/
def State.runRecs (s : State) (typ : Nat) : List RegRec → Nat → State × RecRes
  | [], _ => (s, .done)
  | r :: rs, i =>
    match blockAt r.addr with
    | none => (s, .refused i)
    | some (b, _) =>
      if !(b ∈ sectionBlocks typ) then (s, .refused i)
      else if r.kind = 0 then
        let t := s.loaderWrite r.addr r.value
        if t.2 = 0 then State.runRecs t.1 typ rs (i + 1) else (t.1, .refused i)
      else if r.kind = 1 then
        let t := s.hubRead r.addr 1
        if t.2.1 &&& r.mask = r.value then State.runRecs t.1 typ rs (i + 1) else (t.1, .waits (r :: rs) i)
      else (s, .refused i)

/-! ### Alloy tables and profiles (R459; 03 R36; 05 R107) -/

/-- 64 bytes of a profile record: its slot and profile, where the record itself is legal. -/
def profileOf (bs : List Byte) : Option (Nat × Profile) :=
  let w := words64 bs 8
  let p := fun (i hi lo : Nat) => natBits ((w[i]?).getD 0) hi lo
  let v : Profile := { scheme := p 0 13 12, log2n := p 0 20 16, slot := p 0 15 14, qFirst := p 0 29 24, pFirst := p 0 37 32
                       numQ := p 0 47 40, numP := p 0 55 48, dnum := p 0 63 56, scale := p 1 15 0, ptmod := p 3 47 0
                       floor := p 1 25 16, aRs := p 1 41 32, aKs := p 1 57 48, eMs := p 2 31 16, eKs := p 2 15 0, anneal := p 1 60 58 }
  let ok := p 0 7 0 == 1 && p 0 39 38 == 0 && p 0 31 30 == 0 && p 0 23 21 == 0 && p 1 63 61 == 0 && p 1 47 42 == 0 && p 1 31 26 == 0
    && p 2 63 32 == 0 && p 3 63 48 == 0 && [4, 5, 6].all (fun i => p i 63 0 == 0) && p 7 31 0 == 0 && p 7 63 32 == crc32c (bs.take 60)
  if ok then some (p 0 11 8, v) else none

/-- Largest log2 of P·Q (03 R36). -/
def securityBits : Nat → Nat
  | 12 => 109
  | 13 => 218
  | 14 => 438
  | 15 => 881
  | 16 => 1772
  | _ => 3544

/-- The limits of a profile, against its table. -/
def State.profileOk (s : State) (p : Profile) : Bool :=
  let t := s.table p.slot
  let b := t.bank
  let qs := p.qIdx.map b.q ++ p.pIdx.map b.q
  let apart := decide (p.qFirst + p.numQ ≤ p.pFirst ∨ p.pFirst + p.numP ≤ p.qFirst)
  let annealOk := p.anneal == 7 || (match b.anneal[p.anneal]? with
    | some ws => natBits ((ws[0]?).getD 0) 31 24 == p.numQ && natBits ((ws[0]?).getD 0) 12 8 == p.log2n
    | none => false)
  t.active && decide (12 ≤ p.log2n ∧ p.log2n ≤ 17) && decide (1 ≤ p.numQ ∧ p.numQ ≤ 63) && decide (1 ≤ p.numP ∧ p.numP + p.numQ ≤ 64)
    && decide (1 ≤ p.dnum ∧ p.dnum ≤ p.numQ) && decide (p.alpha ≤ p.numP) && decide (p.qFirst + p.numQ ≤ b.count ∧ p.pFirst + p.numP ≤ b.count)
    && apart && decide (qs.foldl (· * ·) 1 ≤ 2 ^ securityBits p.log2n) && decide (p.floor ≤ 512) && annealOk
    && (match p.scheme with
      | 1 => decide (256 ≤ p.scale ∧ p.scale ≤ 15360) && p.ptmod == 0
      | 2 => decide (2 ≤ p.ptmod ∧ p.ptmod < 2 ^ 32) && qs.all (fun q => Nat.gcd p.ptmod q == 1) && p.anneal == 7 && p.scale == 0
      | _ => false)

/-- Build the table of one alloy record with COMMIT 1; none where it is rejected. -/
def State.loadTable (s : State) (t : Nat) (bs : List Byte) : State × Bool :=
  match buildRecord (s.rf .annealSect 0 t 9 0) bs with
  | .failed ck i => ((s.setTable t { s.table t with shadow := 3, check := ck, failIndex := i }).cfgEvent 0x0A04 1 8 0 0 i 0 0, false)
  | .built b =>
    let s := s.setTable t { s.table t with shadow := 2, shadowBank := b, check := 0, failIndex := 0 }
    ((s.writeDiagonals t b).commitTable t, true)

/-- Alloy records one after another; the index of a rejected one, and what follows them. -/
def State.loadTables (s : State) (bs : List Byte) (i : Nat) : Nat → State × Option Nat × List Byte
  | 0 => (s, none, bs)
  | n + 1 =>
    let len := 1088 + natBits (leNat ((bs.drop 8).take 8)) 63 32
    let t := s.loadTable (natBits (leNat (bs.take 8)) 1 0) ((bs.drop 8).take len)
    if t.2 then State.loadTables t.1 (bs.drop (8 + len)) (i + 1) n else (t.1, some i, [])

/-- Profile records; the index of the first that rejects the slot. -/
def State.loadProfiles (s : State) (bs : List Byte) (i : Nat) : Nat → State × Option Nat
  | 0 => (s, none)
  | n + 1 =>
    match profileOf (bs.take 64) with
    | none => (s, some i)
    | some (k, p) =>
      if s.profileOk p then State.loadProfiles { s with profs := (Tab.erase s.profs k).insert k p } (bs.drop 64) (i + 1) n else (s, some i)

/-- A section is applied; the step ends with the last of its sections. A cause latched before this start skips the assay (R466). -/
def State.sectionDone (s : State) (typ : Nat) : State :=
  let s : State := { s with init := { s.init with loaded := typ, retried := false, recs := [], rest := [], recIdx := 0 } }
  if typ = 2 then s.stepEnd 5
  else if typ = 9 then
    if s.rf .sbStatus 0 0 5 0 = 0 then s.stepEnd 7
    else (let t := s.stepEnd 8; if t.boot = 8 then t.startFabric else t)
  else s

/-- What follows the register-write records of section 0x06. -/
def State.section6 (s : State) : State :=
  let bs := s.init.rest
  let n := natBits (leNat (bs.take 8)) 15 0
  if 4 < n then s.rejectSlot 8 6 0 true
  else
    let t := s.loadTables (bs.drop 8) 0 n
    match t.2.1 with
    | some i => t.1.rejectSlot 8 6 i true
    | none =>
      let m := natBits (leNat (t.2.2.take 8)) 15 0
      if 16 < m then t.1.rejectSlot 9 6 0 true
      else
        let p := t.1.loadProfiles (t.2.2.drop 8) 0 m
        match p.2 with
        | some i => p.1.rejectSlot 9 6 i true
        | none => p.1.sectionDone 6

/-- Apply records of a section and go on from them. -/
def State.goOn (s : State) (typ : Nat) (rs : List RegRec) (i : Nat) : State :=
  let t := s.runRecs typ rs i
  match t.2 with
  | .done => if typ = 6 then t.1.section6 else t.1.sectionDone typ
  | .waits rs' j => { t.1 with init := { t.1.init with recs := rs', recIdx := j } }
  | .refused j => (t.1.cfgEvent 0x0A03 1 7 (t.1.rf .imgStatus 0 0 0 0) typ j 0 0).rejectSlot 7 typ j (decide (1 ≤ s.init.loaded ∨ 0 < j))

/-! ### Seeds, programs (R460, R464; 23 R496) -/

/-- A repair entry of a seed record. -/
def State.seedRepair (s : State) (st e : Nat) : State :=
  let ev := fun (s : State) => s.raise { code := 0x0309, cls := 2, unit := 0x64 + st, detail := st + 2 ^ 4 * natBits e 13 8 }
  match natBits e 3 0 with
  | 1 => ev { s with repairs := s.repairs ++ [{ stack := st, kind := 1
                                                row := BitVec.ofNat 32 (natBits e 13 8 * 2 ^ 22 + natBits e 21 16 * 2 ^ 16 + natBits e 37 22) }] }
  | 2 => ev (State.setRf { s with repairs := s.repairs ++ [{ stack := st, kind := 3, row := BitVec.ofNat 32 (natBits e 13 8 % 32 * 2 ^ 8 + natBits e 45 38) }]
                                  free := s.free + 1 } .mtStatus st 0 7 4 (Config.freeValue s.free))
  | _ => s

/-- A seed record of 512 bytes: the stack's rate and its repairs. The start values only shorten training. -/
def State.seed (s : State) (bs : List Byte) : State :=
  let w := leNat (bs.take 8)
  let st := natBits w 3 0
  if 12 ≤ st then s
  else (List.range (min 15 (natBits w 12 8))).foldl (fun s i => s.seedRepair st (leNat ((bs.drop (392 + 8 * i)).take 8)))
    (s.setRf .hbmCfg st 0 0 0 (natBits w 4 4))

def State.seeds (s : State) (bs : List Byte) : State := (List.range (bs.length / 512)).foldl (fun s i => s.seed ((bs.drop (512 * i)).take 512)) s

/-- Section 0x08 goes to PROG_BASE. The assay's key sets go from the assay vectors to slot 0 of the pewter areas; where they stand in the
vectors is not given, so those bytes are left free. -/
def State.programs (s : State) (bs : List Byte) : State :=
  let s := State.hubStore { s with progLen := bs.length } s.progBase bs
  pewterAreas.foldl (fun s a => s.forget a.1 (a.1 + 0x8000000)) s

/-- SECTION_LOAD: the next section has been read in full. -/
def execSectionLoad (data : List Byte) (s : State) : Host.Outcome State Fault Refusal :=
  .next (match s.nextSection with
    | none => s
    | some typ =>
      let e := ((s.slot (s.rf .imgStatus 0 0 0 0)).secs[typ - 1]?).getD (0, [])
      if data.length ≠ e.1 ∨ sha384 data ≠ e.2 then s.sectionFail typ
      else match typ with
        | 3 => (s.seeds data).sectionDone 3
        | 8 => (s.programs data).sectionDone 8
        | 6 =>
          let n := natBits (leNat (data.take 8)) 15 0
          let s : State := { s with init := { s.init with rest := data.drop (8 + 16 * n) } }
          s.goOn 6 ((List.range n).map (recAt (data.drop 8))) 0
        | _ => s.goOn typ ((List.range (data.length / 16)).map (recAt data)) 0)

/-- FLASH_READ_TIMEOUT: the section under load counts as failing its digest (R452). -/
def execFlashReadTimeout (s : State) : Host.Outcome State Fault Refusal :=
  .next (match s.nextSection with
    | none => s
    | some typ => s.sectionFail typ)

/-- RECORD_WAIT_TIMEOUT: a wait record has been polled for 10 ms, or until it matched. -/
def execRecordWaitTimeout (s : State) : Host.Outcome State Fault Refusal :=
  .next (
    let typ := s.init.loaded + 1
    match s.init.recs with
    | [] => s
    | r :: rs =>
      let i := s.init.recIdx
      let t := s.hubRead r.addr 1
      let u : State := { t.1 with init := { t.1.init with recs := [] } }
      if t.2.1 &&& r.mask = r.value then u.goOn typ rs (i + 1)
      else (u.cfgEvent 0x0A03 1 7 (u.rf .imgStatus 0 0 0 0) typ i 0 0).rejectSlot 7 typ i (decide (1 ≤ u.init.loaded ∨ 0 < i)))

/-! ### Training and the assay (R464, R467 to R469) -/

/-- HBM_TRAINING_DONE: every stack is trained; training wrote its own areas. -/
def execHbmTrainingDone (s : State) : Host.Outcome State Fault Refusal :=
  .next (if s.boot ≠ 5 ∨ s.init.loaded ≠ 3 then s
    else (s.trainingAreas.foldl (fun s a => s.forget a.1 (a.1 + a.2)) s).stepEnd 6)

/-- What an assay of every core leaves (R467, R546): drawers EMPTY, everything in the cores zero. -/
def State.assayClean (s : State) : State :=
  { s with mem := s.mem.filter (fun e => inHbm e.1)
           cores := s.cores.foldl (fun t e => Tab.set {} t e.1
             { e.2 with drawers := [], tiles := [], accs := [], latches := [], counters := [], hdrs := [] }) [] }

/-- Cores that fail test 7 though they passed the tests before it, as ASSAY_DONE lists failures. -/
def State.adderFailures (s : State) (fails : List Nat) : List Nat :=
  ((List.range 4).filter (fun d => !fails.any (fun f => f % 128 == 24 * d) && s.adderFails d)).map (fun d => 128 * 7 + 24 * d)

/-- A hub test failed (R469): state FAILED, the ALARM, and for test 9 the unit whose known answer differed (18 R399). -/
def State.hubTestFail (s : State) (test unit : Nat) : State :=
  let s := if test = 9 then s.raise { code := 0x0802, cls := 0, unit := 0x85, detail := cvDetail unit } else s
  (s.setBoot 14).cfgEvent 0x0A06 0 0 0 0 0 0x7F test

/-- ASSAY_DONE: `fails`: per failed core 128 · test + core, for tests 1 to 6; `hub`: the failed hub test (1, 8 or 9), 0 none, and for test 9
16 times the check-value unit that failed beside it. Test 7 is evaluated here. -/
def execAssayDone (fails : List Nat) (hub : Nat) (s : State) : Host.Outcome State Fault Refusal :=
  .next (if s.boot ≠ 7 ∧ !s.assay.whole then s
    else
      let start := s.boot == 7
      let fs := (fails ++ s.adderFailures fails).filter (fun f => decide (f % 128 < 96) && !s.dieLost (dieOf (f % 128)))
      let s := ((List.range 4).filter (fun d => !s.dieLost d)).foldl State.adderRun s
      let s := State.assayClean { s with assay := {} }
      let s := (List.range 96).foldl (fun s c => s.setAssayFail c (fs.any (fun f => f % 128 == c))) s
      let s := fs.foldl (fun (s : State) f => (s.setCoreStates [f % 128] 3).cfgEvent 0x0A06 1 0 0 0 0 (f % 128) (f / 128 % 16)) s
      if hub % 16 ≠ 0 then s.hubTestFail (hub % 16) (hub / 16 % 64)
      else
        let s := if fs.isEmpty then s.cfgEvent 0x0A07 2 0 0 0 0 0 0 else s
        if start then (let t := s.stepEnd 8; if t.boot = 8 then t.startFabric else t) else s)

/-! ### Pairing, recovery and service (R462 steps 10 to 13, R465, R466) -/

/-- PAIR_WAIT_EXPIRY: start-up goes on unpaired. -/
def execPairWaitExpiry (s : State) : Host.Outcome State Fault Refusal := 
  .next (let s := if s.witState = 1 then s.setWit 0 else s
    if s.boot = 8 ∨ s.boot = 9 then s.stepEnd 10 else s)

/-- SERVICE_OPEN: the last step; a cause latched before this start leads into the strongbox state in its place, a hallmark without
SERVICE leaves the device in NO_SERVICE, and without a journal service cannot open (16 R371). -/
def execServiceOpen (s : State) : Host.Outcome State Fault Refusal :=
  .next (if s.boot ≠ 10 ∨ !s.init.recovered then s
    else if s.rf .sbStatus 0 0 5 0 ≠ 0 then s.enterStrongbox
    else if !bitOf (s.reg .hmPolicy) 0 then s.setBoot 13
    else if s.jrnlSize = 0 then s
    else
      let s := ((s.setRf .svcStatus 0 0 2 2 1).setRf .svcStatus 1 0 2 2 1).setReg .bootTime 0 0 (BitVec.ofNat 32 ((s.time - s.init.begun) / 400))
      State.cfgEvent (State.setBoot { s with init := { s.init with force := none } } 11) 0x0A08 2 0 0 0 0 0 0)

end Sys2Proof.Machine
end

