-- ==== Sys2Proof/Machine/Tap.lean ====
section
/-!
DEFINITION. The test access port (spec 24 R511 to R517): instructions, boundary scan, the debug register, the stacks' wrappers.
-/
namespace Sys2Proof.Machine

/-- What Capture-IR loads (R511). -/
def State.captureIr (s : State) : Nat :=
  1 + 4 * s.debugLevel + 16 * b2n (!s.init.resetN) + 32 * b2n s.tap.refused

/-- Shift `n` bits out on TDO. -/
def State.tdo (s : State) (n v : Nat) : State := s.send (.tdo n (v % 2 ^ n))

/-- An instruction is updated: the capture goes out, and an instruction that drove the pins ends. -/
def State.setIr (s : State) (ir : Nat) (refused : Bool) : State :=
  let s := s.tdo 8 s.captureIr
  { s with tap := { s.tap with ir := ir, refused := refused, drive := false } }

/-- A pin-driving instruction is updated: in effect only while RESET_N is low, else refused, and the TAP acts as BYPASS (R513). -/
def State.pinIr (s : State) (ir : Nat) : State :=
  if s.init.resetN then s.setIr 0xFF true
  else
    let s := s.setIr ir false
    { s with tap := { s.tap with drive := true } }

/-- Cells of the boundary scan register (R512). -/
def cellCount : Nat := 212

/-- A boundary scan: the pins captured go out, the cells are updated. -/
def State.scan (s : State) (pins cells : Nat) : State :=
  let s := s.tdo cellCount pins
  { s with tap := { s.tap with cells := (List.range cellCount).map (natBit cells) } }

/-- The bypass register captures 0. -/
def State.bypass (s : State) : State := s.tdo 1 0

/-- A scan under a pin-driving instruction, or BYPASS where it was refused. -/
def State.pinScan (s : State) (ir pins cells : Nat) : State :=
  let s := s.pinIr ir
  if s.tap.drive then s.scan pins cells else s.bypass

/-- TAP_RESET: TRST_N low, or five cycles with TMS high. -/
def execTapReset (s : State) : Host.Outcome State Fault Refusal :=
  .next { s with tap := { s.tap with ir := 0x02, refused := false, drive := false } }

/-- EXTEST -/
def execExtest (pins cells : Nat) (s : State) : Host.Outcome State Fault Refusal := .next (s.pinScan 0x00 pins cells)

/-- SAMPLE/PRELOAD -/
def execSamplePreload (pins cells : Nat) (s : State) : Host.Outcome State Fault Refusal := .next ((s.setIr 0x01 false).scan pins cells)

/-- IDCODE (R512) -/
def execIdcode (s : State) : Host.Outcome State Fault Refusal :=
  .next ((s.setIr 0x02 false).tdo 32 (s.rf .idPart 0 0 11 8 * 2 ^ 28 + 0x0D96 * 2 ^ 12 + 0x2B5 * 2 + 1))

/-- CLAMP -/
def execClamp (s : State) : Host.Outcome State Fault Refusal := .next ((s.pinIr 0x03).bypass)

/-- HIGHZ -/
def execHighz (s : State) : Host.Outcome State Fault Refusal := .next ((s.pinIr 0x04).bypass)

/-- EXTEST_PULSE -/
def execExtestPulse (pins cells : Nat) (s : State) : Host.Outcome State Fault Refusal := .next (s.pinScan 0x08 pins cells)

/-- EXTEST_TRAIN -/
def execExtestTrain (pins cells : Nat) (s : State) : Host.Outcome State Fault Refusal := .next (s.pinScan 0x09 pins cells)

/-- BYPASS -/
def execBypass (s : State) : Host.Outcome State Fault Refusal := .next ((s.setIr 0xFF false).bypass)

/-! ### The debug register (R514, R515) -/

/-- The writes of a compound debug command, in order; the first that fails ends it. -/
def State.debugSteps (s : State) : List (Nat × Nat) → State × Nat
  | [] => (s, 0)
  | (a, v) :: ws =>
    let r := s.hubWrite a v 2
    if r.2 = 0 then State.debugSteps r.1 ws else r

/-- One access of the debug port: the state, the data, the status. -/
def State.debugAccess (s : State) (cmd addr key data compl : Nat) : State × Nat × Nat :=
  let run := fun (ws : List (Nat × Nat)) => let r := s.debugSteps ws; (r.1, 0, r.2)
  if !(decide (1 ≤ cmd ∧ cmd ≤ 5)) || (blockAt addr).isNone then (s.unmapped addr 2, 0, 0x52)
  else if !s.debugMay cmd addr then (s.debugRefused addr, 0, 0x54)
  else match cmd with
    | 1 => s.hubRead addr 2
    | 2 => run [(addr, data)]
    | 3 => run [(addr, data), (complementAddr addr, compl)]
    | 4 => run [(lockAddr addr, key), (addr, data)]
    | _ => run [(lockAddr addr, key), (addr, data), (complementAddr addr, compl)]

/-- Does the last submitted access wait for its complement? It has no result yet. -/
def State.debugWaits (s : State) : Bool := s.hub.any (fun e => e.2.pair.any (fun p => p.req == 2))

/-- What Capture-DR loads into the debug register. -/
def State.debugOut (s : State) : State := s.tdo 144 (s.tap.dbgData + 2 ^ 32 * s.tap.dbgStatus + 2 ^ 40 * b2n s.tap.dbgDone)

/-- DBG_ACCESS: an update of the debug register submits an access, and is discarded while one waits; Capture-DR then loads its result. -/
def execDbgAccess (cmd addr key data compl : Nat) (s : State) : Host.Outcome State Fault Refusal :=
  let s := s.setIr 0x10 false
  .next (if s.debugWaits then s.debugOut
    else
      let addr := addr % 2 ^ 40
      let r := s.debugAccess (cmd % 16) addr (key % 2 ^ 32) (data % 2 ^ 32) (compl % 2 ^ 32)
      State.debugOut { r.1 with tap := { r.1.tap with dbgDone := !s.opensPair r.1 addr, dbgData := r.2.1, dbgStatus := r.2.2 } })

/-! ### The stacks (R516, R517) -/

/-- STACK_SEL: refused at levels 0 and 1, where the TAP acts as BYPASS. -/
def execStackSel (stack : Nat) (wir : Bool) (s : State) : Host.Outcome State Fault Refusal :=
  .next (if s.debugLevel < 2 then (s.setIr 0xFF false).bypass
    else
      let old := s.tap.stack + 16 * b2n s.tap.selWir
      let s := (s.setIr 0x11 false).tdo 5 old
      { s with tap := { s.tap with stack := stack % 16, selWir := wir } })

/-- Is HBM_1500 permitted: the level, and the stack offline or service not opened? -/
def State.wrapperMay (s : State) : Bool :=
  decide (s.tap.stack < 12) && s.repairLevel && (bitOf (s.reg .mtStatus s.tap.stack) 3 || !s.serviceOpen)

/-- HBM_1500: the TAP is connected to the wrapper of the selected stack. `kind`: a repair made through it (1 soft, 2 hard, 3 lane remap), 0
none; it is governed as one by MT_CTRL, and its event comes when the stack is online again. -/
def execHbm1500 (kind row : Nat) (s : State) : Host.Outcome State Fault Refusal :=
  .next (if !s.wrapperMay then (s.setIr 0xFF false).bypass
    else
      let s := s.setIr 0x12 false
      let st := s.tap.stack
      if 1 ≤ kind ∧ kind ≤ 3 ∧ bitOf (s.reg .mtStatus st) 3 ∧ !s.serviceOpen then
        { s with repairs := s.repairs ++ [{ stack := st, kind := kind, row := BitVec.ofNat 32 row }]
                 tap := { s.tap with wrapped := addOnce st s.tap.wrapped } }
      else s)

end Sys2Proof.Machine
end

