-- ==== Sys2Proof/Machine/Dispatch.lean ====
section
/-!
DEFINITION. What a command does: one arm per constructor, each one call of its meaning. The queue is the step's (Step.lean).
-/
namespace Sys2Proof.Machine

/-- The effect of a command on everything but the queue. -/
def exec (i : Instr) (s : State) : Host.Outcome State Fault Refusal :=
  match i with
  | .nop core ctx f => Sys2Proof.Machine.execNop core ctx f s
  | .endStream core ctx f => Sys2Proof.Machine.execEndStream core ctx f s
  | .movi core ctx f => Sys2Proof.Machine.execMovi core ctx f s
  | .mov core ctx f => Sys2Proof.Machine.execMov core ctx f s
  | .add core ctx f => Sys2Proof.Machine.execAdd core ctx f s
  | .sub core ctx f => Sys2Proof.Machine.execSub core ctx f s
  | .mul core ctx f => Sys2Proof.Machine.execMul core ctx f s
  | .andOp core ctx f => Sys2Proof.Machine.execAndOp core ctx f s
  | .orOp core ctx f => Sys2Proof.Machine.execOrOp core ctx f s
  | .xor core ctx f => Sys2Proof.Machine.execXor core ctx f s
  | .shl core ctx f => Sys2Proof.Machine.execShl core ctx f s
  | .shr core ctx f => Sys2Proof.Machine.execShr core ctx f s
  | .sar core ctx f => Sys2Proof.Machine.execSar core ctx f s
  | .pset core ctx f => Sys2Proof.Machine.execPset core ctx f s
  | .plog core ctx f => Sys2Proof.Machine.execPlog core ctx f s
  | .bra core ctx f => Sys2Proof.Machine.execBra core ctx f s
  | .brr core ctx f => Sys2Proof.Machine.execBrr core ctx f s
  | .hrd core ctx f => Sys2Proof.Machine.execHrd core ctx f s
  | .hset core ctx f => Sys2Proof.Machine.execHset core ctx f s
  | .hcopy core ctx f => Sys2Proof.Machine.execHcopy core ctx f s
  | .hdrop core ctx f => Sys2Proof.Machine.execHdrop core ctx f s
  | .cadd core ctx f => Sys2Proof.Machine.execCadd core ctx f s
  | .crd core ctx f => Sys2Proof.Machine.execCrd core ctx f s
  | .rsig core ctx f => Sys2Proof.Machine.execRsig core ctx f s
  | .barrier core ctx f => Sys2Proof.Machine.execBarrier core ctx f s
  | .descwr core ctx f => Sys2Proof.Machine.execDescwr core ctx f s
  | .drtag core ctx f => Sys2Proof.Machine.execDrtag core ctx f s
  | .lsdecide core ctx f => Sys2Proof.Machine.execLsdecide core ctx f s
  | .lrpick core ctx f => Sys2Proof.Machine.execLrpick core ctx f s
  | .ntto core ctx f => Sys2Proof.Machine.execNtto core ctx f s
  | .intto core ctx f => Sys2Proof.Machine.execIntto core ctx f s
  | .nttl core ctx f => Sys2Proof.Machine.execNttl core ctx f s
  | .inttl core ctx f => Sys2Proof.Machine.execInttl core ctx f s
  | .autol core ctx f => Sys2Proof.Machine.execAutol core ctx f s
  | .dbchain core ctx f => Sys2Proof.Machine.execDbchain core ctx f s
  | .dbreduce core ctx f => Sys2Proof.Machine.execDbreduce core ctx f s
  | .hadd core ctx f => Sys2Proof.Machine.execHadd core ctx f s
  | .hsub core ctx f => Sys2Proof.Machine.execHsub core ctx f s
  | .haddp core ctx f => Sys2Proof.Machine.execHaddp core ctx f s
  | .hsubp core ctx f => Sys2Proof.Machine.execHsubp core ctx f s
  | .hmulp core ctx f => Sys2Proof.Machine.execHmulp core ctx f s
  | .hmulc core ctx f => Sys2Proof.Machine.execHmulc core ctx f s
  | .hmuli core ctx f => Sys2Proof.Machine.execHmuli core ctx f s
  | .tcfg core ctx f => Sys2Proof.Machine.execTcfg core ctx f s
  | .tload core ctx f => Sys2Proof.Machine.execTload core ctx f s
  | .tmul core ctx f => Sys2Proof.Machine.execTmul core ctx f s
  | .tzero core ctx f => Sys2Proof.Machine.execTzero core ctx f s
  | .tdrain core ctx f => Sys2Proof.Machine.execTdrain core ctx f s
  | .bconv core ctx f => Sys2Proof.Machine.execBconv core ctx f s
  | .mmulm core ctx f => Sys2Proof.Machine.execMmulm core ctx f s
  | .xfer core ctx f => Sys2Proof.Machine.execXfer core ctx f s
  | .xobj core ctx f => Sys2Proof.Machine.execXobj core ctx f s
  | .qread core ctx f => Sys2Proof.Machine.execQread core ctx f s
  | .xput core ctx f => Sys2Proof.Machine.execXput core ctx f s
  | .xget core ctx f => Sys2Proof.Machine.execXget core ctx f s
  | .ksrelin core ctx f => Sys2Proof.Machine.execKsrelin core ctx f s
  | .ksrot core ctx f => Sys2Proof.Machine.execKsrot core ctx f s
  | .ksconj core ctx f => Sys2Proof.Machine.execKsconj core ctx f s
  | .kshoist core ctx f => Sys2Proof.Machine.execKshoist core ctx f s
  | .anneal core ctx f => Sys2Proof.Machine.execAnneal core ctx f s
  | .hrescale core ctx f => Sys2Proof.Machine.execHrescale core ctx f s
  | .commandArrival core ctx => Sys2Proof.Machine.execCommandArrival core ctx s
  | .commandIssue core => Sys2Proof.Machine.execCommandIssue core s
  | .commandStart core ctx eng => Sys2Proof.Machine.execCommandStart core ctx eng s
  | .commandCommit core ctx eng nth => Sys2Proof.Machine.execCommandCommit core ctx eng nth s
  | .coreWatchdogExpiry core pos => Sys2Proof.Machine.execCoreWatchdogExpiry core pos s
  | .ctxStart core ctx req => Sys2Proof.Machine.execCtxStart core ctx req s
  | .ctxPreempt core ctx req => Sys2Proof.Machine.execCtxPreempt core ctx req s
  | .preemptSaveDone core ctx => Sys2Proof.Machine.execPreemptSaveDone core ctx s
  | .ctxResume core ctx req => Sys2Proof.Machine.execCtxResume core ctx req s
  | .ctxAbort core ctx req => Sys2Proof.Machine.execCtxAbort core ctx req s
  | .abortDone core ctx => Sys2Proof.Machine.execAbortDone core ctx s
  | .ctxReset core ctx req => Sys2Proof.Machine.execCtxReset core ctx req s
  | .coreModeWrite core req modeM => Sys2Proof.Machine.execCoreModeWrite core req modeM s
  | .windowOpen core w ctx first count req => Sys2Proof.Machine.execWindowOpen core w ctx first count req s
  | .windowClose core w req => Sys2Proof.Machine.execWindowClose core w req s
  | .windowWrite owner off dev core id data bad => Sys2Proof.Machine.execWindowWrite owner off dev core id data bad s
  | .windowWriteResume pos => Sys2Proof.Machine.execWindowWriteResume pos s
  | .remoteReadServe pos => Sys2Proof.Machine.execRemoteReadServe pos s
  | .spInjectArm core drawer req => Sys2Proof.Machine.execSpInjectArm core drawer req s
  | .histClear core slot => Sys2Proof.Machine.execHistClear core slot s
  | .alloyBuild slot commit req => Sys2Proof.Machine.execAlloyBuild slot commit req s
  | .alloyBuildDone => Sys2Proof.Machine.execAlloyBuildDone s
  | .keyChunkArrival core pos j n => Sys2Proof.Machine.execKeyChunkArrival core pos j n s
  | .groupLineExpiry granule => Sys2Proof.Machine.execGroupLineExpiry granule s
  | .signalArrival pos => Sys2Proof.Machine.execSignalArrival pos s
  | .dieCounterFire key => Sys2Proof.Machine.execDieCounterFire key s
  | .barrierWatchdog key => Sys2Proof.Machine.execBarrierWatchdog key s
  | .barCfgWrite counter key v req => Sys2Proof.Machine.execBarCfgWrite counter key v req s
  | .hbmReadResponse addr severity link => Sys2Proof.Machine.execHbmReadResponse addr severity link s
  | .hbmWrite addr hint data bad link core id => Sys2Proof.Machine.execHbmWrite addr hint data bad link core id s
  | .hbmTempRead stack temp rate cat => Sys2Proof.Machine.execHbmTempRead stack temp rate cat s
  | .hbmRecalibration stack fail => Sys2Proof.Machine.execHbmRecalibration stack fail s
  | .dropKeep stack => Sys2Proof.Machine.execDropKeep stack s
  | .offline stack req => Sys2Proof.Machine.execOffline stack req s
  | .online stack req => Sys2Proof.Machine.execOnline stack req s
  | .softPpr stack req => Sys2Proof.Machine.execSoftPpr stack req s
  | .hardPpr stack req => Sys2Proof.Machine.execHardPpr stack req s
  | .laneRemap stack req => Sys2Proof.Machine.execLaneRemap stack req s
  | .linkFrameReceive port seq frame => Sys2Proof.Machine.execLinkFrameReceive port seq frame s
  | .packetForward port p => Sys2Proof.Machine.execPacketForward port p s
  | .store port p => Sys2Proof.Machine.execStore port p s
  | .loadReq port p => Sys2Proof.Machine.execLoadReq port p s
  | .loadData port p => Sys2Proof.Machine.execLoadData port p s
  | .put port p => Sys2Proof.Machine.execPut port p s
  | .getReq port p => Sys2Proof.Machine.execGetReq port p s
  | .getData port p => Sys2Proof.Machine.execGetData port p s
  | .ack port p => Sys2Proof.Machine.execAck port p s
  | .signal port p => Sys2Proof.Machine.execSignal port p s
  | .barArrive port p => Sys2Proof.Machine.execBarArrive port p s
  | .barRelease port p => Sys2Proof.Machine.execBarRelease port p s
  | .fabricBarrierWatchdog b home => Sys2Proof.Machine.execFabricBarrierWatchdog b home s
  | .time port offset stamp => Sys2Proof.Machine.execTime port offset stamp s
  | .timeSend => Sys2Proof.Machine.execTimeSend s
  | .timeLoss => Sys2Proof.Machine.execTimeLoss s
  | .join port peerDev peerPort role level => Sys2Proof.Machine.execJoin port peerDev peerPort role level s
  | .resync port p => Sys2Proof.Machine.execResync port p s
  | .portTraining port ok width => Sys2Proof.Machine.execPortTraining port ok width s
  | .trainingRetry port => Sys2Proof.Machine.execTrainingRetry port s
  | .aliveEntryAge dev => Sys2Proof.Machine.execAliveEntryAge dev s
  | .fabGrantWrite g v => Sys2Proof.Machine.execFabGrantWrite g v s
  | .portCtrlWrite port enable => Sys2Proof.Machine.execPortCtrlWrite port enable s
  | .arpRequest port addr => Sys2Proof.Machine.execArpRequest port addr s
  | .neighbourSolicitation port addr => Sys2Proof.Machine.execNeighbourSolicitation port addr s
  | .echoRequest port addr v6 data => Sys2Proof.Machine.execEchoRequest port addr v6 data s
  | .hello f => Sys2Proof.Machine.execHello f s
  | .finish f => Sys2Proof.Machine.execFinish f s
  | .keyset f => Sys2Proof.Machine.execKeyset f s
  | .job f => Sys2Proof.Machine.execJob f s
  | .resultAck f => Sys2Proof.Machine.execResultAck f s
  | .resultGap f => Sys2Proof.Machine.execResultGap f s
  | .model f => Sys2Proof.Machine.execModel f s
  | .rekey f => Sys2Proof.Machine.execRekey f s
  | .keepalive f => Sys2Proof.Machine.execKeepalive f s
  | .close f => Sys2Proof.Machine.execClose f s
  | .setupTimeout n => Sys2Proof.Machine.execSetupTimeout n s
  | .gapHoldExpiry pos => Sys2Proof.Machine.execGapHoldExpiry pos s
  | .reasmTimeout pos => Sys2Proof.Machine.execReasmTimeout pos s
  | .resultRetry slot => Sys2Proof.Machine.execResultRetry slot s
  | .idleTimeout n => Sys2Proof.Machine.execIdleTimeout n s
  | .serviceLinkUp port => Sys2Proof.Machine.execServiceLinkUp port s
  | .serviceLinkDown port => Sys2Proof.Machine.execServiceLinkDown port s
  | .pair dev base count highs taken => Sys2Proof.Machine.execPair dev base count highs taken s
  | .pairAck dev base count highs taken => Sys2Proof.Machine.execPairAck dev base count highs taken s
  | .heartbeat free => Sys2Proof.Machine.execHeartbeat free s
  | .heartbeatSend => Sys2Proof.Machine.execHeartbeatSend s
  | .witnessLoss fails => Sys2Proof.Machine.execWitnessLoss fails s
  | .mirror session job kind off data => Sys2Proof.Machine.execMirror session job kind off data s
  | .mirrorEnd session job kind gen len crc => Sys2Proof.Machine.execMirrorEnd session job kind gen len crc s
  | .confirm session job kind => Sys2Proof.Machine.execConfirm session job kind s
  | .notHeld session job kind st => Sys2Proof.Machine.execNotHeld session job kind st s
  | .doubtTimeout slot => Sys2Proof.Machine.execDoubtTimeout slot s
  | .abandon session job => Sys2Proof.Machine.execAbandon session job s
  | .release session job => Sys2Proof.Machine.execRelease session job s
  | .sessionClose session => Sys2Proof.Machine.execSessionClose session s
  | .restore session kind job st gen status body result => Sys2Proof.Machine.execRestore session kind job st gen status body result s
  | .handover sessions sg => Sys2Proof.Machine.execHandover sessions sg s
  | .taken sessions => Sys2Proof.Machine.execTaken sessions s
  | .partnerResult session job status data => Sys2Proof.Machine.execPartnerResult session job status data s
  | .concurReq action session job unit ctx status => Sys2Proof.Machine.execConcurReq action session job unit ctx status s
  | .concur action reason => Sys2Proof.Machine.execConcur action reason s
  | .witCfgWrite valid partner => Sys2Proof.Machine.execWitCfgWrite valid partner s
  | .witTakeoverGo req => Sys2Proof.Machine.execWitTakeoverGo req s
  | .jobPlacement slots => Sys2Proof.Machine.execJobPlacement slots s
  | .placementRebuildDone => Sys2Proof.Machine.execPlacementRebuildDone s
  | .epochCommit => Sys2Proof.Machine.execEpochCommit s
  | .commitNow => Sys2Proof.Machine.execCommitNow s
  | .journalRecovery => Sys2Proof.Machine.execJournalRecovery s
  | .modexp who tag a b c dst req => Sys2Proof.Machine.execModexp who tag a b c dst req s
  | .ecKeygen who alg tag dst req => Sys2Proof.Machine.execEcKeygen who alg tag dst req s
  | .ecdsaSign who alg tag idkey a c dst mlen req => Sys2Proof.Machine.execEcdsaSign who alg tag idkey a c dst mlen req s
  | .ecdsaVerify who alg tag a b c mlen req => Sys2Proof.Machine.execEcdsaVerify who alg tag a b c mlen req s
  | .ecdh who alg tag a b dst req => Sys2Proof.Machine.execEcdh who alg tag a b dst req s
  | .xKeygen who alg tag dst req => Sys2Proof.Machine.execXKeygen who alg tag dst req s
  | .xAgree who alg tag a b dst req => Sys2Proof.Machine.execXAgree who alg tag a b dst req s
  | .edKeygen who alg tag dst req => Sys2Proof.Machine.execEdKeygen who alg tag dst req s
  | .edSign who alg tag a c dst mlen req => Sys2Proof.Machine.execEdSign who alg tag a c dst mlen req s
  | .edVerify who alg tag a b c mlen req => Sys2Proof.Machine.execEdVerify who alg tag a b c mlen req s
  | .kemKeygen who alg tag dst req => Sys2Proof.Machine.execKemKeygen who alg tag dst req s
  | .kemEncaps who alg tag a dst req => Sys2Proof.Machine.execKemEncaps who alg tag a dst req s
  | .kemDecaps who alg tag a b dst req => Sys2Proof.Machine.execKemDecaps who alg tag a b dst req s
  | .dsaKeygen who alg tag dst req => Sys2Proof.Machine.execDsaKeygen who alg tag dst req s
  | .dsaSign who alg tag a c dst mlen req => Sys2Proof.Machine.execDsaSign who alg tag a c dst mlen req s
  | .dsaVerify who alg tag a b c mlen req => Sys2Proof.Machine.execDsaVerify who alg tag a b c mlen req s
  | .curveLoad who alg tag a req => Sys2Proof.Machine.execCurveLoad who alg tag a req s
  | .curveClear who alg tag req => Sys2Proof.Machine.execCurveClear who alg tag req s
  | .hash who alg tag c dst mlen olen req => Sys2Proof.Machine.execHash who alg tag c dst mlen olen req s
  | .tsRequestStart hash => Sys2Proof.Machine.execTsRequestStart hash s
  | .tsRequestLatch hash fault => Sys2Proof.Machine.execTsRequestLatch hash fault s
  | .tsDonePop => Sys2Proof.Machine.execTsDonePop s
  | .tsAbortTag tag => Sys2Proof.Machine.execTsAbortTag tag s
  | .tsAbortAll => Sys2Proof.Machine.execTsAbortAll s
  | .tsSlotZero => Sys2Proof.Machine.execTsSlotZero s
  | .tsSlotDataWrite word v req => Sys2Proof.Machine.execTsSlotDataWrite word v req s
  | .tsCfgWrite part value req => Sys2Proof.Machine.execTsCfgWrite part value req s
  | .entropyTestChange bad => Sys2Proof.Machine.execEntropyTestChange bad s
  | .cvStart u => Sys2Proof.Machine.execCvStart u s
  | .cvFinish u => Sys2Proof.Machine.execCvFinish u s
  | .cvApply u => Sys2Proof.Machine.execCvApply u s
  | .cvFeed u v req => Sys2Proof.Machine.execCvFeed u v req s
  | .cvRunWrite u high v req => Sys2Proof.Machine.execCvRunWrite u high v req s
  | .eventRoute bad => Sys2Proof.Machine.execEventRoute bad s
  | .logWindowClose code unit => Sys2Proof.Machine.execLogWindowClose code unit s
  | .supervisorBatchSend k ok => Sys2Proof.Machine.execSupervisorBatchSend k ok s
  | .supervisorAck k n => Sys2Proof.Machine.execSupervisorAck k n s
  | .evHeldAckWrite v req => Sys2Proof.Machine.execEvHeldAckWrite v req s
  | .evMgmtPop => Sys2Proof.Machine.execEvMgmtPop s
  | .rerunJob session job grant req => Sys2Proof.Machine.execRerunJob session job grant req s
  | .discardJob session job status grant req => Sys2Proof.Machine.execDiscardJob session job status grant req s
  | .migrateJob session job grant req => Sys2Proof.Machine.execMigrateJob session job grant req s
  | .abortCtx unit ctx grant req => Sys2Proof.Machine.execAbortCtx unit ctx grant req s
  | .resetCtx unit ctx grant req => Sys2Proof.Machine.execResetCtx unit ctx grant req s
  | .startCtx unit ctx addr grant req => Sys2Proof.Machine.execStartCtx unit ctx addr grant req s
  | .fence unit grant req => Sys2Proof.Machine.execFence unit grant req s
  | .unfence unit grant req => Sys2Proof.Machine.execUnfence unit grant req s
  | .exitStrongbox grant req => Sys2Proof.Machine.execExitStrongbox grant req s
  | .decisionTimeout => Sys2Proof.Machine.execDecisionTimeout s
  | .sbEnter => Sys2Proof.Machine.execSbEnter s
  | .custodySeal readable => Sys2Proof.Machine.execCustodySeal readable s
  | .avsLoopStep rail margin neg stepping acked => Sys2Proof.Machine.execAvsLoopStep rail margin neg stepping acked s
  | .currentRead rail amps => Sys2Proof.Machine.execCurrentRead rail amps s
  | .vrAlert rail status abrupt junction => Sys2Proof.Machine.execVrAlert rail status abrupt junction s
  | .junctionRead pos temp rail => Sys2Proof.Machine.execJunctionRead pos temp rail s
  | .thermtrip => Sys2Proof.Machine.execThermtrip s
  | .clockMonitor domain bad => Sys2Proof.Machine.execClockMonitor domain bad s
  | .pllUnlock => Sys2Proof.Machine.execPllUnlock s
  | .clockStop domain => Sys2Proof.Machine.execClockStop domain s
  | .clockWake domain => Sys2Proof.Machine.execClockWake domain s
  | .pwrgdRise vaon strap => Sys2Proof.Machine.execPwrgdRise vaon strap s
  | .pwrgdFall => Sys2Proof.Machine.execPwrgdFall s
  | .resetNLow ns => Sys2Proof.Machine.execResetNLow ns s
  | .warm => Sys2Proof.Machine.execWarm s
  | .snap req => Sys2Proof.Machine.execSnap req s
  | .snapshotCapture => Sys2Proof.Machine.execSnapshotCapture s
  | .startupBegin ok corrected => Sys2Proof.Machine.execStartupBegin ok corrected s
  | .pllLock => Sys2Proof.Machine.execPllLock s
  | .slotVerifyDone mib a b => Sys2Proof.Machine.execSlotVerifyDone mib a b s
  | .flashReadTimeout => Sys2Proof.Machine.execFlashReadTimeout s
  | .recordWaitTimeout => Sys2Proof.Machine.execRecordWaitTimeout s
  | .hbmTrainingDone => Sys2Proof.Machine.execHbmTrainingDone s
  | .sectionLoad data => Sys2Proof.Machine.execSectionLoad data s
  | .assayDone fails hub => Sys2Proof.Machine.execAssayDone fails hub s
  | .pairWaitExpiry => Sys2Proof.Machine.execPairWaitExpiry s
  | .serviceOpen => Sys2Proof.Machine.execServiceOpen s
  | .hallmarkResense ok corrected => Sys2Proof.Machine.execHallmarkResense ok corrected s
  | .assayWhole req => Sys2Proof.Machine.execAssayWhole req s
  | .assayCore core req => Sys2Proof.Machine.execAssayCore core req s
  | .assayCoreRun => Sys2Proof.Machine.execAssayCoreRun s
  | .assayCoreDone test ok torn => Sys2Proof.Machine.execAssayCoreDone test ok torn s
  | .read body => Sys2Proof.Machine.execRead body s
  | .write body => Sys2Proof.Machine.execWrite body s
  | .writePair body => Sys2Proof.Machine.execWritePair body s
  | .writeKeyed body => Sys2Proof.Machine.execWriteKeyed body s
  | .writeKeyedPair body => Sys2Proof.Machine.execWriteKeyedPair body s
  | .repeatCmd body => Sys2Proof.Machine.execRepeatCmd body s
  | .entdaa addr => Sys2Proof.Machine.execEntdaa addr s
  | .setdasa static addr => Sys2Proof.Machine.execSetdasa static addr s
  | .rstdaa => Sys2Proof.Machine.execRstdaa s
  | .enec => Sys2Proof.Machine.execEnec s
  | .disec => Sys2Proof.Machine.execDisec s
  | .getpid => Sys2Proof.Machine.execGetpid s
  | .getbcr => Sys2Proof.Machine.execGetbcr s
  | .getdcr => Sys2Proof.Machine.execGetdcr s
  | .getstatus => Sys2Proof.Machine.execGetstatus s
  | .getmwl => Sys2Proof.Machine.execGetmwl s
  | .getmrl => Sys2Proof.Machine.execGetmrl s
  | .ibiRepeat => Sys2Proof.Machine.execIbiRepeat s
  | .lockWrite block value req => Sys2Proof.Machine.execLockWrite block value req s
  | .pairComplement block value req => Sys2Proof.Machine.execPairComplement block value req s
  | .pairWindowExpiry block => Sys2Proof.Machine.execPairWindowExpiry block s
  | .postedWriteArrival block => Sys2Proof.Machine.execPostedWriteArrival block s
  | .registerWrite addr value req => Sys2Proof.Machine.execRegisterWrite addr value req s
  | .pwEnter die req => Sys2Proof.Machine.execPwEnter die req s
  | .pewterEntryDrained die expired => Sys2Proof.Machine.execPewterEntryDrained die expired s
  | .pwExit die => Sys2Proof.Machine.execPwExit die s
  | .pwLoWrite v => Sys2Proof.Machine.execPwLoWrite v s
  | .pwStatusRead req => Sys2Proof.Machine.execPwStatusRead req s
  | .pewterJobStart die => Sys2Proof.Machine.execPewterJobStart die s
  | .pewterGate die fault => Sys2Proof.Machine.execPewterGate die fault s
  | .tapReset => Sys2Proof.Machine.execTapReset s
  | .extest pins cells => Sys2Proof.Machine.execExtest pins cells s
  | .samplePreload pins cells => Sys2Proof.Machine.execSamplePreload pins cells s
  | .idcode => Sys2Proof.Machine.execIdcode s
  | .clamp => Sys2Proof.Machine.execClamp s
  | .highz => Sys2Proof.Machine.execHighz s
  | .extestPulse pins cells => Sys2Proof.Machine.execExtestPulse pins cells s
  | .extestTrain pins cells => Sys2Proof.Machine.execExtestTrain pins cells s
  | .dbgAccess cmd addr key data compl => Sys2Proof.Machine.execDbgAccess cmd addr key data compl s
  | .stackSel stack wir => Sys2Proof.Machine.execStackSel stack wir s
  | .hbm1500 kind row => Sys2Proof.Machine.execHbm1500 kind row s
  | .bypass => Sys2Proof.Machine.execBypass s
  | .peenArm k v req => Sys2Proof.Machine.execPeenArm k v req s
  | .peenEnable enable req => Sys2Proof.Machine.execPeenEnable enable req s
  | .peenTally k => Sys2Proof.Machine.execPeenTally k s
  | .tsPush req => Sys2Proof.Machine.execTsPush req s
  | .partnerJob session job => Sys2Proof.Machine.execPartnerJob session job s
  | .pwHiWrite req => Sys2Proof.Machine.execPwHiWrite req s
  | .portWidthChange port width => Sys2Proof.Machine.execPortWidthChange port width s
  | .hubLinkLoss die => Sys2Proof.Machine.execHubLinkLoss die s
  | .custodyStackIdle stack => Sys2Proof.Machine.execCustodyStackIdle stack s

end Sys2Proof.Machine
end

