-- ==== Sys2Proof/Machine/Pins.lean ====
section
/-!
DEFINITION. The levels of the device's control outputs (spec 25 R531, R533; 20 R429, R442; 24 R513).
-/
namespace Sys2Proof.Machine

/-- The control outputs of R531. -/
inductive OutPin where
  | thermtripN
  | vrEn (die : Nat)
  | tdo
  | mgmtSda
  | avsClk
  | avsMdata
  | flashDq (line : Nat)
  | flashCsN
  | flashCk
  | flashResetN
  deriving DecidableEq, Repr

/-- What an output shows: a fixed level, an open drain let go, high impedance, its interface at work, or its boundary-scan cell. -/
inductive PinLevel where
  | low
  | high
  | released
  | floating
  | working
  | cell
  deriving DecidableEq, Repr

/-- A rail-enable output: low where the die is powered down. In reset it is let go. -/
def State.vrEnLevel (s : State) (die : Nat) : PinLevel :=
  if !s.inReset && !s.tap.drive && !s.powered .core (24 * die) then .low else .released

/-- The level of an output. While a pin-driving instruction is in effect the outputs follow their boundary cells, but for the rail enables
and THERMTRIP_N, which stay as the reset column states (R533). -/
def State.outPin (s : State) (p : OutPin) : PinLevel :=
  match p with
  | .thermtripN => if s.init.thermtrip then .low else .released
  | .vrEn d => s.vrEnLevel d
  | .tdo => .working
  | .mgmtSda => if s.tap.drive then .cell else if s.mgmtOn then .working else .released
  | .avsClk => if s.tap.drive then .cell else if s.inReset then .low else .working
  | .avsMdata => if s.tap.drive then .cell else if s.inReset then .high else .working
  | .flashDq _ => if s.tap.drive then .cell else if s.inReset || s.sbActive then .floating else .working
  | .flashCsN => if s.tap.drive then .cell else if s.inReset || s.sbActive then .high else .working
  | .flashCk => if s.tap.drive then .cell else if s.inReset || s.sbActive then .low else .working
  | .flashResetN => if s.tap.drive then .cell else if s.inReset then .low else if s.sbActive then .high else .working

end Sys2Proof.Machine
end

