-- ==== Sys2Proof/WellFormed.lean ====
section
/-!
DEFINITION. Well-formed commands: every operand lies in the range the spec gives it. Decided here, once, before any meaning.
-/
namespace Sys2Proof

/-- In range: a core (01 R19). -/
def wfCore (n : Nat) : Bool := decide (n < 96)

/-- In range: a context (10 R204). -/
def wfCtx (n : Nat) : Bool := decide (n < 4)

/-- In range: a compute die (01 R19). -/
def wfDie (n : Nat) : Bool := decide (n < 4)

/-- In range: a stack (13 R271). -/
def wfStack (n : Nat) : Bool := decide (n < 12)

/-- In range: a fabric port (14 R291). -/
def wfPort (n : Nat) : Bool := decide (n < 16)

/-- In range: a service port (01 R19). -/
def wfSvcPort (n : Nat) : Bool := decide (n < 2)

/-- In range: a rail (20 R423). -/
def wfRail (n : Nat) : Bool := decide (n < 5)

/-- In range: a rail, or the regulator as a whole (20 R430). -/
def wfRailOrHub (n : Nat) : Bool := decide (n < 6)

/-- In range: a junction: a die or the hub (20 R441). -/
def wfReading (n : Nat) : Bool := decide (n < 5)

/-- In range: a clock domain (20 R435). -/
def wfDomain (n : Nat) : Bool := decide (n < 60)

/-- In range: an engine queue (10 R207). -/
def wfEngine (n : Nat) : Bool := decide (n < 6)

/-- In range: a window of a core (09 R192). -/
def wfWindow (n : Nat) : Bool := decide (n < 16)

/-- In range: a drawer (09 R188). -/
def wfDrawer (n : Nat) : Bool := decide (n < 256)

/-- In range: a histogram slot (07 R160). -/
def wfHist (n : Nat) : Bool := decide (n < 16)

/-- In range: a table slot (03 R62). -/
def wfTable (n : Nat) : Bool := decide (n < 4)

/-- In range: a check-value unit or channel (18 R393). -/
def wfUnit (n : Nat) : Bool := decide (n < 64)

/-- In range: a requester of the register hub (22 R478). -/
def wfReq (n : Nat) : Bool := decide (n < 6)

/-- In range: a supervisor (19 R415). -/
def wfSup (n : Nat) : Bool := decide (n < 4)

/-- In range: a peening slot (24 R518). -/
def wfSlot (n : Nat) : Bool := decide (n < 8)

/-- In range: a grant register (14 R307). -/
def wfGrant (n : Nat) : Bool := decide (n < 16)

/-- In range: a fabric barrier (14 R311). -/
def wfFBar (n : Nat) : Bool := decide (n < 16)

/-- In range: a die or device barrier (12 R261). -/
def wfBar (n : Nat) : Bool := decide (n < 288)

/-- In range: a die or device counter (12 R259). -/
def wfCtr (n : Nat) : Bool := decide (n < 320)

/-- In range: a block of control space (22 R475). -/
def wfBlock (n : Nat) : Bool := decide (n < 4096)

/-- In range: a word of the slot window (17 R377). -/
def wfWord (n : Nat) : Bool := decide (n < 256)

/-- In range: a local address (22 R475). -/
def wfAddr (n : Nat) : Bool := decide (n < 2 ^ 40)

/-- In range: a 32-bit value. -/
def wfW32 (n : Nat) : Bool := decide (n < 2 ^ 32)

/-- In range: a session number (15 R328). -/
def wfSession (n : Nat) : Bool := decide (n < 2 ^ 24)

/-- In range: a job number (15 R338). -/
def wfJob (n : Nat) : Bool := decide (n < 2 ^ 32)

/-- In range: a request tag (17 R373). -/
def wfTag (n : Nat) : Bool := decide (n < 2 ^ 16)

/-- In range: a device (14 R293). -/
def wfDev (n : Nat) : Bool := decide (n < 2 ^ 18)

/-- In range: a journal record (16 R347). -/
def wfRec (n : Nat) : Bool := decide (n < 2 ^ 16)

/-- In range: a slot of the touchstone (17 R375). -/
def wfOperand (n : Nat) : Bool := decide (n < 4096)

/-- In range: a byte length (17 R374). -/
def wfLen (n : Nat) : Bool := decide (n < 2 ^ 16)

/-- In range: a temperature. -/
def wfTemp (n : Nat) : Bool := decide (n < 256)

/-- In range: a cache hint (13 R280). -/
def wfHint (n : Nat) : Bool := decide (n < 8)

/-- In range: a stack select value (24 R516). -/
def wfStackSel (n : Nat) : Bool := decide (n < 16)

/-- In range: a debug command code (24 R515). -/
def wfCmd (n : Nat) : Bool := decide (n < 16)

/-- In range: a boundary scan vector (24 R512). -/
def wfScan (n : Nat) : Bool := decide (n < 2 ^ 212)

/-- In range: the address straps (22 R486). -/
def wfStrap (n : Nat) : Bool := decide (n < 4)

/-- In range: an I3C address (22 R486). -/
def wfIr (n : Nat) : Bool := decide (n < 128)

/-- In range: a requester of the touchstone (17 R372). -/
def wfWho (n : Nat) : Bool := decide (n < 6)

/-- In range: the key of any barrier, die, device or fabric (assumption 21). -/
def wfBarKey (n : Nat) : Bool := decide (n < 304)

/-- Is a command well formed? -/
def wfInstr (i : Instr) : Bool :=
  match i with
  | .nop core ctx _ => wfCore core && wfCtx ctx
  | .endStream core ctx _ => wfCore core && wfCtx ctx
  | .movi core ctx _ => wfCore core && wfCtx ctx
  | .mov core ctx _ => wfCore core && wfCtx ctx
  | .add core ctx _ => wfCore core && wfCtx ctx
  | .sub core ctx _ => wfCore core && wfCtx ctx
  | .mul core ctx _ => wfCore core && wfCtx ctx
  | .andOp core ctx _ => wfCore core && wfCtx ctx
  | .orOp core ctx _ => wfCore core && wfCtx ctx
  | .xor core ctx _ => wfCore core && wfCtx ctx
  | .shl core ctx _ => wfCore core && wfCtx ctx
  | .shr core ctx _ => wfCore core && wfCtx ctx
  | .sar core ctx _ => wfCore core && wfCtx ctx
  | .pset core ctx _ => wfCore core && wfCtx ctx
  | .plog core ctx _ => wfCore core && wfCtx ctx
  | .bra core ctx _ => wfCore core && wfCtx ctx
  | .brr core ctx _ => wfCore core && wfCtx ctx
  | .hrd core ctx _ => wfCore core && wfCtx ctx
  | .hset core ctx _ => wfCore core && wfCtx ctx
  | .hcopy core ctx _ => wfCore core && wfCtx ctx
  | .hdrop core ctx _ => wfCore core && wfCtx ctx
  | .cadd core ctx _ => wfCore core && wfCtx ctx
  | .crd core ctx _ => wfCore core && wfCtx ctx
  | .rsig core ctx _ => wfCore core && wfCtx ctx
  | .barrier core ctx _ => wfCore core && wfCtx ctx
  | .descwr core ctx _ => wfCore core && wfCtx ctx
  | .drtag core ctx _ => wfCore core && wfCtx ctx
  | .lsdecide core ctx _ => wfCore core && wfCtx ctx
  | .lrpick core ctx _ => wfCore core && wfCtx ctx
  | .ntto core ctx _ => wfCore core && wfCtx ctx
  | .intto core ctx _ => wfCore core && wfCtx ctx
  | .nttl core ctx _ => wfCore core && wfCtx ctx
  | .inttl core ctx _ => wfCore core && wfCtx ctx
  | .autol core ctx _ => wfCore core && wfCtx ctx
  | .dbchain core ctx _ => wfCore core && wfCtx ctx
  | .dbreduce core ctx _ => wfCore core && wfCtx ctx
  | .hadd core ctx _ => wfCore core && wfCtx ctx
  | .hsub core ctx _ => wfCore core && wfCtx ctx
  | .haddp core ctx _ => wfCore core && wfCtx ctx
  | .hsubp core ctx _ => wfCore core && wfCtx ctx
  | .hmulp core ctx _ => wfCore core && wfCtx ctx
  | .hmulc core ctx _ => wfCore core && wfCtx ctx
  | .hmuli core ctx _ => wfCore core && wfCtx ctx
  | .tcfg core ctx _ => wfCore core && wfCtx ctx
  | .tload core ctx _ => wfCore core && wfCtx ctx
  | .tmul core ctx _ => wfCore core && wfCtx ctx
  | .tzero core ctx _ => wfCore core && wfCtx ctx
  | .tdrain core ctx _ => wfCore core && wfCtx ctx
  | .bconv core ctx _ => wfCore core && wfCtx ctx
  | .mmulm core ctx _ => wfCore core && wfCtx ctx
  | .xfer core ctx _ => wfCore core && wfCtx ctx
  | .xobj core ctx _ => wfCore core && wfCtx ctx
  | .qread core ctx _ => wfCore core && wfCtx ctx
  | .xput core ctx _ => wfCore core && wfCtx ctx
  | .xget core ctx _ => wfCore core && wfCtx ctx
  | .ksrelin core ctx _ => wfCore core && wfCtx ctx
  | .ksrot core ctx _ => wfCore core && wfCtx ctx
  | .ksconj core ctx _ => wfCore core && wfCtx ctx
  | .kshoist core ctx _ => wfCore core && wfCtx ctx
  | .anneal core ctx _ => wfCore core && wfCtx ctx
  | .hrescale core ctx _ => wfCore core && wfCtx ctx
  | .commandArrival core ctx => wfCore core && wfCtx ctx.1
  | .commandIssue core => wfCore core.1 && core.2.all (fun n => decide (n < 64))
  | .commandStart core ctx eng => wfCore core && wfCtx ctx && wfEngine eng
  | .commandCommit core ctx eng _ => wfCore core && wfCtx ctx && wfEngine eng
  | .coreWatchdogExpiry core _ => wfCore core
  | .ctxStart core ctx req => wfCore core && wfCtx ctx && wfReq req
  | .ctxPreempt core ctx req => wfCore core && wfCtx ctx && wfReq req
  | .preemptSaveDone core ctx => wfCore core && wfCtx ctx
  | .ctxResume core ctx req => wfCore core && wfCtx ctx && wfReq req
  | .ctxAbort core ctx req => wfCore core && wfCtx ctx && wfReq req
  | .abortDone core ctx => wfCore core && wfCtx ctx
  | .ctxReset core ctx req => wfCore core && wfCtx ctx && wfReq req
  | .coreModeWrite core req _ => wfCore core && wfReq req
  | .windowOpen core w ctx first _ req => wfCore core && wfWindow w && wfCtx ctx && wfDrawer first && wfReq req
  | .windowClose core w req => wfCore core && wfWindow w && wfReq req
  | .windowWrite owner _ dev core _ _ _ => wfCore owner && wfDev dev && wfCore core
  | .windowWriteResume _ => true
  | .remoteReadServe _ => true
  | .spInjectArm core drawer req => wfCore core && wfDrawer drawer && wfReq req
  | .histClear core slot => wfCore core && wfHist slot
  | .alloyBuild slot _ req => wfTable slot && wfReq req
  | .alloyBuildDone => true
  | .keyChunkArrival core _ _ _ => wfCore core
  | .groupLineExpiry _ => true
  | .signalArrival _ => true
  | .dieCounterFire key => wfCtr key
  | .barrierWatchdog key => wfBar key
  | .barCfgWrite counter key _ req => (if counter then wfCtr key else wfBarKey key) && wfReq req
  | .hbmReadResponse addr _ _ => wfAddr addr
  | .hbmWrite addr hint _ _ _ core _ => wfAddr addr && wfHint hint && wfCore core
  | .hbmTempRead stack temp _ _ => wfStack stack && wfTemp temp
  | .hbmRecalibration stack _ => wfStack stack
  | .dropKeep stack => wfStack stack
  | .offline stack req => wfStack stack && wfReq req
  | .online stack req => wfStack stack && wfReq req
  | .softPpr stack req => wfStack stack && wfReq req
  | .hardPpr stack req => wfStack stack && wfReq req
  | .laneRemap stack req => wfStack stack && wfReq req
  | .linkFrameReceive port _ _ => wfPort port
  | .packetForward port _ => wfPort port
  | .store port _ => wfPort port
  | .loadReq port _ => wfPort port
  | .loadData port _ => wfPort port
  | .put port _ => wfPort port
  | .getReq port _ => wfPort port
  | .getData port _ => wfPort port
  | .ack port _ => wfPort port
  | .signal port _ => wfPort port
  | .barArrive port _ => wfPort port
  | .barRelease port _ => wfPort port
  | .fabricBarrierWatchdog b _ => wfFBar b
  | .time port _ _ => wfPort port
  | .timeSend => true
  | .timeLoss => true
  | .join port peerDev peerPort _ _ => wfPort port && wfDev peerDev && wfPort peerPort
  | .resync port _ => wfPort port
  | .portTraining port _ _ => wfPort port
  | .trainingRetry port => wfPort port
  | .aliveEntryAge dev => wfDev dev.1
  | .fabGrantWrite g _ => wfGrant g
  | .portCtrlWrite port _ => wfPort port
  | .arpRequest port addr => wfSvcPort port && wfW32 addr
  | .neighbourSolicitation port _ => wfSvcPort port
  | .echoRequest port _ _ _ => wfSvcPort port
  | .hello f => wfSvcPort f.1.port
  | .finish f => wfSvcPort f.1.port
  | .keyset f => wfSvcPort f.port
  | .job f => wfSvcPort f.port
  | .resultAck f => wfSvcPort f.port
  | .resultGap f => wfSvcPort f.port
  | .model f => wfSvcPort f.port
  | .rekey f => wfSvcPort f.port
  | .keepalive f => wfSvcPort f.port
  | .close f => wfSvcPort f.port
  | .setupTimeout n => wfSession n
  | .gapHoldExpiry _ => true
  | .reasmTimeout _ => true
  | .resultRetry slot => wfRec slot
  | .idleTimeout n => wfSession n
  | .serviceLinkUp port => wfSvcPort port
  | .serviceLinkDown port => wfSvcPort port
  | .pair dev _ _ _ _ => wfDev dev
  | .pairAck dev _ _ _ _ => wfDev dev
  | .heartbeat _ => true
  | .heartbeatSend => true
  | .witnessLoss _ => true
  | .mirror session job _ _ _ => wfSession session && wfJob job
  | .mirrorEnd session job _ _ _ _ => wfSession session && wfJob job
  | .confirm session job _ => wfSession session && wfJob job
  | .notHeld session job _ _ => wfSession session && wfJob job
  | .doubtTimeout slot => wfRec slot
  | .abandon session job => wfSession session && wfJob job
  | .release session job => wfSession session && wfJob job
  | .sessionClose session => wfSession session
  | .restore session _ job _ _ _ _ _ => wfSession session && wfJob job
  | .handover _ _ => true
  | .taken _ => true
  | .partnerResult session job _ _ => wfSession session && wfJob job
  | .concurReq _ session job _ ctx _ => wfSession session && wfJob job && wfCtx ctx
  | .concur _ _ => true
  | .witCfgWrite _ partner => wfDev partner
  | .witTakeoverGo req => wfReq req
  | .jobPlacement _ => true
  | .placementRebuildDone => true
  | .epochCommit => true
  | .commitNow => true
  | .journalRecovery => true
  | .modexp who tag a b c dst req => wfWho who && wfTag tag && wfOperand a && wfOperand b && wfOperand c && wfOperand dst && wfReq req
  | .ecKeygen who alg tag dst req => wfWho who && wfTemp alg && wfTag tag && wfOperand dst && wfReq req
  | .ecdsaSign who alg tag _ a c dst mlen req => wfWho who && wfTemp alg && wfTag tag && wfOperand a && wfOperand c && wfOperand dst && wfLen mlen && wfReq req
  | .ecdsaVerify who alg tag a b c mlen req => wfWho who && wfTemp alg && wfTag tag && wfOperand a && wfOperand b && wfOperand c && wfLen mlen && wfReq req
  | .ecdh who alg tag a b dst req => wfWho who && wfTemp alg && wfTag tag && wfOperand a && wfOperand b && wfOperand dst && wfReq req
  | .xKeygen who alg tag dst req => wfWho who && wfTemp alg && wfTag tag && wfOperand dst && wfReq req
  | .xAgree who alg tag a b dst req => wfWho who && wfTemp alg && wfTag tag && wfOperand a && wfOperand b && wfOperand dst && wfReq req
  | .edKeygen who alg tag dst req => wfWho who && wfTemp alg && wfTag tag && wfOperand dst && wfReq req
  | .edSign who alg tag a c dst mlen req => wfWho who && wfTemp alg && wfTag tag && wfOperand a && wfOperand c && wfOperand dst && wfLen mlen && wfReq req
  | .edVerify who alg tag a b c mlen req => wfWho who && wfTemp alg && wfTag tag && wfOperand a && wfOperand b && wfOperand c && wfLen mlen && wfReq req
  | .kemKeygen who alg tag dst req => wfWho who && wfTemp alg && wfTag tag && wfOperand dst && wfReq req
  | .kemEncaps who alg tag a dst req => wfWho who && wfTemp alg && wfTag tag && wfOperand a && wfOperand dst && wfReq req
  | .kemDecaps who alg tag a b dst req => wfWho who && wfTemp alg && wfTag tag && wfOperand a && wfOperand b && wfOperand dst && wfReq req
  | .dsaKeygen who alg tag dst req => wfWho who && wfTemp alg && wfTag tag && wfOperand dst && wfReq req
  | .dsaSign who alg tag a c dst mlen req => wfWho who && wfTemp alg && wfTag tag && wfOperand a && wfOperand c && wfOperand dst && wfLen mlen && wfReq req
  | .dsaVerify who alg tag a b c mlen req => wfWho who && wfTemp alg && wfTag tag && wfOperand a && wfOperand b && wfOperand c && wfLen mlen && wfReq req
  | .curveLoad who alg tag a req => wfWho who && wfTemp alg && wfTag tag && wfOperand a && wfReq req
  | .curveClear who alg tag req => wfWho who && wfTemp alg && wfTag tag && wfReq req
  | .hash who alg tag c dst mlen olen req => wfWho who && wfTemp alg && wfTag tag && wfOperand c && wfOperand dst && wfLen mlen && wfLen olen && wfReq req
  | .tsRequestStart _ => true
  | .tsRequestLatch _ _ => true
  | .tsDonePop => true
  | .tsAbortTag tag => wfTag tag
  | .tsAbortAll => true
  | .tsSlotZero => true
  | .tsSlotDataWrite word _ req => wfWord word && wfReq req
  | .tsCfgWrite _ value req => wfOperand value && wfReq req
  | .entropyTestChange _ => true
  | .cvStart u => wfUnit u
  | .cvFinish u => wfUnit u
  | .cvApply u => wfUnit u
  | .cvFeed u _ req => wfUnit u && wfReq req
  | .cvRunWrite u _ _ req => wfUnit u && wfReq req
  | .eventRoute _ => true
  | .logWindowClose _ _ => true
  | .supervisorBatchSend k _ => wfSup k
  | .supervisorAck k _ => wfSup k
  | .evHeldAckWrite _ req => wfReq req
  | .evMgmtPop => true
  | .rerunJob session job _ req => wfSession session && wfJob job && wfReq req
  | .discardJob session job _ _ req => wfSession session && wfJob job && wfReq req
  | .migrateJob session job _ req => wfSession session && wfJob job && wfReq req
  | .abortCtx _ ctx _ req => wfCtx ctx && wfReq req
  | .resetCtx _ ctx _ req => wfCtx ctx && wfReq req
  | .startCtx _ ctx addr _ req => wfCtx ctx && wfAddr addr && wfReq req
  | .fence _ _ req => wfReq req
  | .unfence _ _ req => wfReq req
  | .exitStrongbox _ req => wfReq req
  | .decisionTimeout => true
  | .sbEnter => true
  | .custodySeal _ => true
  | .avsLoopStep rail _ _ _ _ => wfRail rail
  | .currentRead rail _ => wfRail rail
  | .vrAlert rail _ _ _ => wfRailOrHub rail
  | .junctionRead pos temp _ => wfReading pos && wfTemp temp
  | .thermtrip => true
  | .clockMonitor domain _ => wfDomain domain
  | .pllUnlock => true
  | .clockStop domain => wfDomain domain
  | .clockWake domain => wfDomain domain
  | .pwrgdRise _ strap => wfStrap strap
  | .pwrgdFall => true
  | .resetNLow _ => true
  | .warm => true
  | .snap req => wfReq req
  | .snapshotCapture => true
  | .startupBegin _ _ => true
  | .pllLock => true
  | .slotVerifyDone _ _ _ => true
  | .flashReadTimeout => true
  | .recordWaitTimeout => true
  | .hbmTrainingDone => true
  | .sectionLoad _ => true
  | .assayDone _ _ => true
  | .pairWaitExpiry => true
  | .serviceOpen => true
  | .hallmarkResense _ _ => true
  | .assayWhole req => wfReq req
  | .assayCore core req => wfCore core && wfReq req
  | .assayCoreRun => true
  | .assayCoreDone _ _ _ => true
  | .read _ => true
  | .write _ => true
  | .writePair _ => true
  | .writeKeyed _ => true
  | .writeKeyedPair _ => true
  | .repeatCmd _ => true
  | .entdaa addr => wfIr addr
  | .setdasa static addr => wfIr static && wfIr addr
  | .rstdaa => true
  | .enec => true
  | .disec => true
  | .getpid => true
  | .getbcr => true
  | .getdcr => true
  | .getstatus => true
  | .getmwl => true
  | .getmrl => true
  | .ibiRepeat => true
  | .lockWrite block value req => wfBlock block && wfW32 value && wfReq req
  | .pairComplement block value req => wfBlock block && wfW32 value && wfReq req
  | .pairWindowExpiry block => wfBlock block
  | .postedWriteArrival block => wfBlock block
  | .registerWrite addr value req => wfAddr addr && wfW32 value && wfReq req
  | .pwEnter die req => wfDie die && wfReq req
  | .pewterEntryDrained die _ => wfDie die
  | .pwExit die => wfDie die
  | .pwLoWrite _ => true
  | .pwStatusRead req => wfReq req
  | .pewterJobStart die => wfDie die
  | .pewterGate die _ => wfDie die
  | .tapReset => true
  | .extest pins cells => wfScan pins && wfScan cells
  | .samplePreload pins cells => wfScan pins && wfScan cells
  | .idcode => true
  | .clamp => true
  | .highz => true
  | .extestPulse pins cells => wfScan pins && wfScan cells
  | .extestTrain pins cells => wfScan pins && wfScan cells
  | .dbgAccess cmd addr key data compl => wfCmd cmd && wfAddr addr && wfW32 key && wfW32 data && wfW32 compl
  | .stackSel stack _ => wfStackSel stack
  | .hbm1500 _ _ => true
  | .bypass => true
  | .peenArm k _ req => wfSlot k && wfReq req
  | .peenEnable _ req => wfReq req
  | .peenTally k => wfSlot k
  | .tsPush req => wfReq req
  | .partnerJob session job => wfSession session && wfJob job
  | .pwHiWrite req => wfReq req
  | .portWidthChange port _ => wfPort port
  | .hubLinkLoss die => wfDie die
  | .custodyStackIdle stack => wfStack stack

end Sys2Proof
end

