-- ==== Sys2Proof/Safety.lean ====
section
/-!
DEFINITION. What counts as a safe step and a sound state, and the conditions under which a stream command runs alone, in
the terms the statements use.
-/
namespace Sys2Proof

/-- Fields of OPA of a control-core command (11, control-core operand fields). -/
def CmdFields.rd (f : CmdFields) : Nat := Machine.bits f.opa 34 30
def CmdFields.ra (f : CmdFields) : Nat := Machine.bits f.opa 29 25
def CmdFields.rb (f : CmdFields) : Nat := Machine.bits f.opa 24 20
def CmdFields.pd (f : CmdFields) : Nat := Machine.bits f.opa 37 35
def CmdFields.ib (f : CmdFields) : Bool := Machine.bits f.opa 19 19 == 1
def CmdFields.fn (f : CmdFields) : Nat := Machine.bits f.opa 18 15
def CmdFields.num (f : CmdFields) : Nat := Machine.bits f.opa 14 7
def CmdFields.cnt (f : CmdFields) : Nat := Machine.bits f.opa 6 0

/-- Operand B: W2 where IB is 1, else S[RB] (11). -/
def CmdFields.operandB (f : CmdFields) (y : Machine.Ctx) : W64 := if f.ib then f.w2 else y.reg f.rb

/-- What a command's CLAIMs take from counter `n` (10 R214). -/
def CmdFields.claims (f : CmdFields) (n : Nat) : W16 :=
  (if f.waitA.cond = 3 ∧ f.waitA.ctr.toNat = n then f.waitA.val else 0)
    + (if f.waitB.cond = 3 ∧ f.waitB.ctr.toNat = n then f.waitB.val else 0)

/-- What the signal of a command that completes adds to counter `n`: its delta, whatever SIG_MODE other than 0 says of when (10 R216). -/
def CmdFields.signals (f : CmdFields) (n : Nat) : W16 :=
  if f.sigMode ≠ 0 ∧ f.sigCtr.toNat = n then f.sigDelta.setWidth 16 else 0

/-- The row of an operation of the command reference (11 R236). -/
def Instr.ofOp (op : Machine.Opcode) (core ctx : Nat) (f : CmdFields) : Instr :=
  match op with
  | .nop => .nop core ctx f
  | .endStream => .endStream core ctx f
  | .movi => .movi core ctx f
  | .mov => .mov core ctx f
  | .add => .add core ctx f
  | .sub => .sub core ctx f
  | .mul => .mul core ctx f
  | .andOp => .andOp core ctx f
  | .orOp => .orOp core ctx f
  | .xor => .xor core ctx f
  | .shl => .shl core ctx f
  | .shr => .shr core ctx f
  | .sar => .sar core ctx f
  | .pset => .pset core ctx f
  | .plog => .plog core ctx f
  | .bra => .bra core ctx f
  | .brr => .brr core ctx f
  | .hrd => .hrd core ctx f
  | .hset => .hset core ctx f
  | .hcopy => .hcopy core ctx f
  | .hdrop => .hdrop core ctx f
  | .cadd => .cadd core ctx f
  | .crd => .crd core ctx f
  | .rsig => .rsig core ctx f
  | .barrier => .barrier core ctx f
  | .descwr => .descwr core ctx f
  | .drtag => .drtag core ctx f
  | .lsdecide => .lsdecide core ctx f
  | .lrpick => .lrpick core ctx f
  | .ntto => .ntto core ctx f
  | .intto => .intto core ctx f
  | .nttl => .nttl core ctx f
  | .inttl => .inttl core ctx f
  | .autol => .autol core ctx f
  | .dbchain => .dbchain core ctx f
  | .dbreduce => .dbreduce core ctx f
  | .hadd => .hadd core ctx f
  | .hsub => .hsub core ctx f
  | .haddp => .haddp core ctx f
  | .hsubp => .hsubp core ctx f
  | .hmulp => .hmulp core ctx f
  | .hmulc => .hmulc core ctx f
  | .hmuli => .hmuli core ctx f
  | .tcfg => .tcfg core ctx f
  | .tload => .tload core ctx f
  | .tmul => .tmul core ctx f
  | .tzero => .tzero core ctx f
  | .tdrain => .tdrain core ctx f
  | .bconv => .bconv core ctx f
  | .mmulm => .mmulm core ctx f
  | .xfer => .xfer core ctx f
  | .xobj => .xobj core ctx f
  | .qread => .qread core ctx f
  | .xput => .xput core ctx f
  | .xget => .xget core ctx f
  | .ksrelin => .ksrelin core ctx f
  | .ksrot => .ksrot core ctx f
  | .ksconj => .ksconj core ctx f
  | .kshoist => .kshoist core ctx f
  | .anneal => .anneal core ctx f
  | .hrescale => .hrescale core ctx f

end Sys2Proof

namespace Sys2Proof.Machine

/-- A step that ends in a next state. -/
def Runs (o : Host.Outcome State Fault Refusal) : Prop := ∃ t, o = .next t

/-- Every command that waits is well formed. -/
def State.queueOk (s : State) : Prop := ∀ c ∈ s.pending, wfInstr c = true

/-- Context `x` of core `c` runs, its core has no uncompleted command, the control core may dispatch, and it is the
context's turn (10 R206 to R209, R222). -/
structure State.Quiet (s : State) (c x : Nat) : Prop where
  core : c < 96
  ctx : x < 4
  running : (s.context c x).st = .running
  empty : (s.core c).q = []
  dispatch : s.noDispatch = false
  live : s.coreLive c = true
  turn : s.dispatchTurn c x = true
  fetch : inHbm (s.context c x).pc = true

/-- The queue entry of a command dispatched on a quiet core, as it stands when it has arrived (10 R207, R209). -/
def State.entry (s : State) (c x : Nat) (w : Cmd) : QCmd :=
  { id := (s.core c).serial + 1, ctx := x, eng := w.engine, addr := (s.context c x).pc, cmd := w, descs := s.descCopies c x,
    skipped := (s.context c x).pred w.pred == w.psense, stage := .arrived, arr := (s.core c).arrivals + 1 }

/-- A quiet core with the command arrived. -/
def State.arrived (s : State) (c x : Nat) (w : Cmd) : State :=
  s.modCore c (fun k =>
    { (k.setContext x { (s.context c x) with pc := (s.context c x).pc + 32 }) with
      serial := k.serial + 1, arrivals := k.arrivals + 1, lastDisp := x, q := [s.entry c x w] })

/-- The same core after the command's CLAIMs (10 R214). -/
def State.claimed (s : State) (c x : Nat) (w : Cmd) : State :=
  (s.arrived c x w).modCore c (fun k => { k with counters := takeClaims w.waits k.counters })

/-- The fields every command has pass the decode checks (10 R210), its counters lie in the context's share, its waits hold, its
engine's queue has room, and its predicate lets it execute. -/
structure State.Takes (s : State) (c x : Nat) (op : Opcode) (f : CmdFields) : Prop where
  mode : f.sigMode.toNat < 4
  delta : f.sigMode = 0 ∨ f.sigDelta ≠ 0
  claims : ¬(f.waitA.cond = 3 ∧ f.waitB.cond = 3 ∧ f.waitA.ctr = f.waitB.ctr)
  shares : (s.entry c x (encodeCmd op f)).counters.all (fun n => s.ctrInShare c x n) = true
  waits : (encodeCmd op f).waits.all (waitOk (s.core c) (s.core c).counters (s.core c).counters) = true
  room : op.engine = 0 ∨ 0 < s.narrowed c op.engine (s.queueShare c)
  pred : (s.context c x).pred f.pred.toNat ≠ f.psense

/-- The same for a command that its predicate tells to be skipped. -/
structure State.TakesSkipped (s : State) (c x : Nat) (op : Opcode) (f : CmdFields) : Prop where
  mode : f.sigMode.toNat < 4
  delta : f.sigMode = 0 ∨ f.sigDelta ≠ 0
  claims : ¬(f.waitA.cond = 3 ∧ f.waitB.cond = 3 ∧ f.waitA.ctr = f.waitB.ctr)
  shares : (s.entry c x (encodeCmd op f)).counters.all (fun n => s.ctrInShare c x n) = true
  waits : (encodeCmd op f).waits.all (waitOk (s.core c) (s.core c).counters (s.core c).counters) = true
  room : op.engine = 0 ∨ 0 < s.narrowed c op.engine (s.queueShare c)
  pred : (s.context c x).pred f.pred.toNat = f.psense

/-- What the issue checks of a command decide on a quiet core (02 R52; 11, the checks of each command). -/
def State.plan (s : State) (c x : Nat) (op : Opcode) (f : CmdFields) : Plan :=
  planOf op (s.claimed c x (encodeCmd op f)) c (s.entry c x (encodeCmd op f))

/-- The issue checks pass, and the command does not wait for a table that is not active (03 R63). -/
def State.Passes (s : State) (c x : Nat) (op : Opcode) (f : CmdFields) : Prop :=
  (planOf op (s.arrived c x (encodeCmd op f)) c (s.entry c x (encodeCmd op f))).v ≠ .wait ∧ (s.plan c x op f).v = .ok

/-- The queue entry of a command that has started: the plan copied into it, and the table slots it latched (03 R63). -/
def State.startedEntry (s : State) (c x : Nat) (op : Opcode) (f : CmdFields) : QCmd :=
  { s.latchSlots ((s.entry c x (encodeCmd op f)).withPlan (s.plan c x op f)) with stage := .started }

/-- The tags let an engine command start at once (09 R189), no window write waits for a drawer it writes (09 R190), nothing it reads has
wrong parity (09 R200; 06 R140), and the core it reads over the crossbar is not under assay (21 R471). -/
structure State.Starts (s : State) (c x : Nat) (op : Opcode) (f : CmdFields) : Prop where
  sources : ((s.startedEntry c x op f).sources c).all (fun e => ((s.core e.1).drawer e.2).ready) = true
  dests : (s.plan c x op f).dsts.all (fun d => ((s.core c).drawer d).open_ && !((s.core c).drawer d).closing) = true
  window : s.waitw.all (fun w => w.owner != c || (s.plan c x op f).dsts.all (fun d => !(d ∈ touched w.off w.data.length))) = true
  parity : badSource op s c (s.startedEntry c x op f) = none
  assay : s.assay.testing = false

/-! ### What a stream command leaves -/

/-- A register a signal's perturbation may count in (24 R519, R522: kind 3). -/
def appliedAddr (a : Nat) : Prop := ∃ k, k < 8 ∧ a = RegKey.addr ⟨.pnApplied, 0, k⟩

/-- What every stream command that completes on a quiet core leaves: its queue is empty, the program counter of its context stands at
`pc` and the context is in state `st`; every other core and every other context of the core stand; and of each counter, whose value
the command's own effect takes to `k`, its claims are taken and its signal is added. -/
structure State.Done (s t : State) (c x : Nat) (f : CmdFields) (pc : Nat) (st : CtxSt) (k : Nat → W16) : Prop where
  queue : (t.core c).q = []
  pc : (t.context c x).pc = pc
  st : (t.context c x).st = st
  cores : ∀ d, d ≠ c → t.core d = s.core d
  contexts : ∀ y, y ≠ x → t.context c y = s.context c y
  counters : ∀ n, (t.core c).counter n = k n - f.claims n + f.signals n

/-- What a command changes of no state but its core: memory, the register file but for perturbation counts, barriers, counters of dies
and of the device, signals under way, what the device has sent, and the event router stand. -/
structure State.Kept (s t : State) : Prop where
  mem : ∀ a, t.readByte a = s.readByte a
  regs : ∀ a, ¬ appliedAddr a → Tab.find? t.regs a = Tab.find? s.regs a
  bars : t.bars = s.bars
  ctrs : t.ctrs = s.ctrs
  sigs : t.sigs = s.sigs
  out : t.out = s.out
  router : t.router = s.router

/-- Scalar registers and predicates of a context stand, but for one register. -/
def Ctx.onlyReg (y z : Ctx) (r : Nat) : Prop := (∀ n, n ≠ r → z.reg n = y.reg n) ∧ z.p = y.p

/-- Scalar registers and predicates of a context stand, but for one predicate. -/
def Ctx.onlyPred (y z : Ctx) (r : Nat) : Prop := (∀ n, z.reg n = y.reg n) ∧ ∀ n, n ≠ r → z.pred n = y.pred n

/-- Anvil storage, header slots and descriptors of a core stand. -/
def Core.sameStore (k l : Core) : Prop :=
  k.hdrs = l.hdrs ∧ k.descs = l.descs ∧ k.tiles = l.tiles ∧ k.accs = l.accs ∧ k.latches = l.latches

end Sys2Proof.Machine
end

