-- ==== Sys2Proof/Certificates/Slice0/Obligations.lean ====
section
/-!
DEFINITION. The statements for the provers. Each docstring names the rules of the spec a statement rests on; the vocabulary of the
stream statements stands in Sys2Proof/Safety.lean.
-/
open Sys2Proof Sys2Proof.Machine


/-! ### Frames of the commands that are not stream commands -/

/-- The counters of events that were coalesced or dropped (19 R410 to R414). -/
def Sys2Proof.Machine.eventCounter (a : Nat) : Prop :=
  ∃ r, r ∈ [RegName.alarmCoalesced, .errorCoalesced, .traceDrop, .logDrop, .logSuppressed] ∧ a = RegKey.addr ⟨r, 0, 0⟩

/-- `t` differs from `s` by events raised and by nothing else. -/
def Sys2Proof.Machine.State.eventsOnly (s t : State) : Prop :=
  { t with router := s.router, regs := s.regs } = s ∧ ∀ a, ¬ eventCounter a → Tab.find? t.regs a = Tab.find? s.regs a

/-- The registers that record a refused access (22 R490, R492). -/
def Sys2Proof.Machine.refusalRecord (a : Nat) : Prop :=
  ∃ r, r ∈ [RegName.regLastLo, .regLastHi, .regRefused] ∧ a = RegKey.addr ⟨r, 0, 0⟩

/-- A refused access: ST_REFUSED answered and counted, the record and the event of it, and nothing else but the late flag of a posted
block (22 R483, R490 to R492). -/
def Sys2Proof.Machine.State.refusedOnly (s t : State) : Prop :=
  { t with router := s.router, regs := s.regs, regSt := s.regSt, hub := s.hub } = s ∧ t.regSt = stRefused
  ∧ (t.reg .regRefused).toNat = min (2 ^ 32 - 1) ((s.reg .regRefused).toNat + 1)
  ∧ ∀ a, ¬ eventCounter a → ¬ refusalRecord a → Tab.find? t.regs a = Tab.find? s.regs a

/-- Of the cores, one context of one core has changed, and it is now `y`. -/
def Sys2Proof.Machine.State.contextNow (s t : State) (c x : Nat) (y : Ctx) : Prop :=
  t.context c x = y ∧ (∀ z, z ≠ x → t.context c z = s.context c z) ∧ (∀ d, d ≠ c → t.core d = s.core d)
  ∧ { (t.core c) with ctx := (s.core c).ctx } = s.core c

/-- The context has changed and nothing else has. -/
def Sys2Proof.Machine.State.onlyContext (s t : State) (c x : Nat) (y : Ctx) : Prop :=
  s.contextNow t c x y ∧ { t with cores := s.cores } = s

/-- The context has changed, and events were raised. -/
def Sys2Proof.Machine.State.contextAndEvents (s t : State) (c x : Nat) (y : Ctx) : Prop :=
  s.contextNow t c x y ∧ { s with cores := t.cores }.eventsOnly t

/-- Of the register file, only registers at given addresses have changed, and event counters; events were raised, and nothing else. -/
def Sys2Proof.Machine.State.onlyRegs (s t : State) (as : List Nat) : Prop :=
  { t with router := s.router, regs := s.regs } = s ∧ ∀ a, ¬ a ∈ as → ¬ eventCounter a → Tab.find? t.regs a = Tab.find? s.regs a

/-- Memory, cores and what the device has sent stand. -/
def Sys2Proof.Machine.State.sameHeart (s t : State) : Prop := t.mem = s.mem ∧ t.cores = s.cores ∧ t.out = s.out

/-- The address of a register. -/
def Sys2Proof.Machine.adr (r : RegName) (i x : Nat) : Nat := RegKey.addr ⟨r, i, x⟩
/-! ### Stream commands of the control core -/

/-- A row on a quiet core: where `pre` holds it answers a next state, of which `post` holds. -/
def Sys2Proof.Machine.OnQuiet (mk : Nat → Nat → CmdFields → Instr) (op : Opcode) (pre : State → Nat → Nat → CmdFields → Prop)
    (post : State → Nat → Nat → CmdFields → State → Prop) : Prop :=
  ∀ (s : State) (c x : Nat) (f : CmdFields), s.Quiet c x → s.Takes c x op f → pre s c x f →
    ∃ t, exec (mk c x f) s = .next t ∧ post s c x f t

/-- The frame of a control-core command that changes scalar registers, predicates or counters only: header slots, descriptors and
anvil storage stand, the rest of the state stands, and the program counter moves on. -/
def Sys2Proof.Machine.State.scalarFrame (s t : State) (c x : Nat) (f : CmdFields) : Prop :=
  (s.core c).sameStore (t.core c) ∧ s.Done t c x f ((s.context c x).pc + 32) .running (s.core c).counter ∧ s.Kept t

/-- A scalar row: S[RD] becomes a function of S[RA], operand B and W2. -/
def Sys2Proof.Machine.ScalarRow (mk : Nat → Nat → CmdFields → Instr) (op : Opcode) (val : W64 → W64 → W64 → W64) : Prop :=
  OnQuiet mk op (fun _ _ _ _ => True) (fun s c x f t =>
    (t.context c x).reg f.rd = val ((s.context c x).reg f.ra) (f.operandB (s.context c x)) f.w2
    ∧ (s.context c x).onlyReg (t.context c x) f.rd ∧ s.scalarFrame t c x f)

/-- The scalar operations of the control core (11, control-core opcodes), on every form of their operands. -/
def Obligations.ScalarCommandsWriteTheirResult : Prop :=
  ScalarRow .movi .movi (fun _ _ w => w)
  ∧ ScalarRow .mov .mov (fun a _ _ => a)
  ∧ ScalarRow .add .add (fun a b _ => a + b)
  ∧ ScalarRow .sub .sub (fun a b _ => a - b)
  ∧ ScalarRow .mul .mul (fun a b _ => a * b)
  ∧ ScalarRow .andOp .andOp (fun a b _ => a &&& b)
  ∧ ScalarRow .orOp .orOp (fun a b _ => a ||| b)
  ∧ ScalarRow .xor .xor (fun a b _ => a ^^^ b)
  ∧ ScalarRow .shl .shl (fun a b _ => a <<< (b.toNat % 64))
  ∧ ScalarRow .shr .shr (fun a b _ => a >>> (b.toNat % 64))
  ∧ ScalarRow .sar .sar (fun a b _ => a.sshiftRight (b.toNat % 64))

/-- PSET's comparison by FN (11): integer comparisons, then the FP32 comparisons of the low words. -/
def Sys2Proof.Machine.psetValue (fn : Nat) (a b : W64) (v : Bool) : Prop :=
  (fn = 0 ∧ v = decide (a = b)) ∨ (fn = 1 ∧ v = decide (a ≠ b)) ∨ (fn = 2 ∧ v = decide (a.toNat < b.toNat))
  ∨ (fn = 3 ∧ v = decide (b.toNat ≤ a.toNat)) ∨ (fn = 4 ∧ v = decide (a.toInt < b.toInt)) ∨ (fn = 5 ∧ v = decide (b.toInt ≤ a.toInt))
  ∨ (fn = 6 ∧ v = fltB (a.toNat % 2 ^ 32) (b.toNat % 2 ^ 32)) ∨ (fn = 7 ∧ v = fgeB (a.toNat % 2 ^ 32) (b.toNat % 2 ^ 32))
  ∨ (fn = 8 ∧ v = feqB (a.toNat % 2 ^ 32) (b.toNat % 2 ^ 32))

/-- PLOG's function by FN (11). -/
def Sys2Proof.Machine.plogValue (fn : Nat) (a b v : Bool) : Prop :=
  (fn = 0 ∧ v = (a && b)) ∨ (fn = 1 ∧ v = (a || b)) ∨ (fn = 2 ∧ v = (a != b)) ∨ (fn = 3 ∧ v = (a && !b))

/-- A taken branch: the program counter stands at the target, and nothing else but counters has changed. -/
def Sys2Proof.Machine.State.branched (s t : State) (c x : Nat) (f : CmdFields) (target : Nat) : Prop :=
  t.context c x = { (s.context c x) with pc := target } ∧ (s.core c).sameStore (t.core c)
  ∧ s.Done t c x f target .running (s.core c).counter ∧ s.Kept t

/-- PSET and PLOG write P[PD], of which P0 reads as 1 whatever is written (10 R211); BRA and BRR go to a legal target (10 R219). -/
def Obligations.PredicatesAndBranches : Prop :=
  OnQuiet .pset .pset (fun _ _ _ f => f.fn ≤ 8) (fun s c x f t =>
    (∃ v, psetValue f.fn ((s.context c x).reg f.ra) (f.operandB (s.context c x)) v ∧ (t.context c x).pred f.pd = (f.pd == 0 || v))
    ∧ (s.context c x).onlyPred (t.context c x) f.pd ∧ s.scalarFrame t c x f)
  ∧ OnQuiet .plog .plog (fun _ _ _ f => f.fn ≤ 3) (fun s c x f t =>
    (∃ v, plogValue f.fn ((s.context c x).pred (f.ra % 8)) ((s.context c x).pred (f.rb % 8)) v
      ∧ (t.context c x).pred f.pd = (f.pd == 0 || v))
    ∧ (s.context c x).onlyPred (t.context c x) f.pd ∧ s.scalarFrame t c x f)
  ∧ OnQuiet .bra .bra (fun _ _ _ f => bits f.w2 39 0 % 32 = 0 ∧ inHbm (bits f.w2 39 0) = true)
    (fun s c x f t => s.branched t c x f (bits f.w2 39 0))
  ∧ OnQuiet .brr .brr
    (fun s c x f => bits ((s.context c x).reg f.ra) 39 0 % 32 = 0 ∧ inHbm (bits ((s.context c x).reg f.ra) 39 0) = true)
    (fun s c x f t => s.branched t c x f (bits ((s.context c x).reg f.ra) 39 0))

/-- A command that writes one header slot: that slot, and nothing else of its core but the program counter and counters. -/
def Sys2Proof.Machine.State.headerWritten (s t : State) (c x : Nat) (f : CmdFields) (h : Header) : Prop :=
  (t.core c).hdr f.num = h ∧ (∀ d, d ≠ f.num → (t.core c).hdr d = (s.core c).hdr d)
  ∧ t.context c x = { (s.context c x) with pc := (s.context c x).pc + 32 }
  ∧ (t.core c).descs = (s.core c).descs ∧ (t.core c).tiles = (s.core c).tiles ∧ (t.core c).accs = (s.core c).accs
  ∧ s.Done t c x f ((s.context c x).pc + 32) .running (s.core c).counter ∧ s.Kept t

/-- HRD reads a field of a header slot; HSET writes one, with VERSION, LAYOUT, BODY_LEN and HCRC made right (11 R240); HCOPY copies a slot; HDROP
drops limbs and keeps BUDGET (11 R241). Where the spec is silent it states the model's choices: log entry 34. -/
def Obligations.HeaderCommands : Prop :=
  OnQuiet .hrd .hrd (fun s c x f => s.drawerInShare c x f.num = true ∧ f.fn ≤ 7) (fun s c x f t =>
    (t.context c x).reg f.rd = BitVec.ofNat 64 (hrdField f.fn ((s.core c).hdr f.num))
    ∧ (s.context c x).onlyReg (t.context c x) f.rd ∧ s.scalarFrame t c x f)
  ∧ OnQuiet .hset .hset
    (fun s c x f => s.drawerInShare c x f.num = true ∧ f.fn ≤ 12
      ∧ ((s.context c x).reg f.ra).toNat.land (hsetMask f.fn) = ((s.context c x).reg f.ra).toNat
      ∧ hsetRefused f.fn ((s.context c x).reg f.ra).toNat ((s.core c).hdr f.num) = false)
    (fun s c x f t =>
      s.headerWritten t c x f (hsetHeader f.fn ((s.context c x).reg f.ra).toNat ((s.core c).hdr f.num))
      ∧ (f.fn ≤ 7 → hrdField f.fn ((t.core c).hdr f.num) = ((s.context c x).reg f.ra).toNat)
      ∧ ((t.core c).hdr f.num).live = true ∧ ((t.core c).hdr f.num).layout = 1)
  ∧ OnQuiet .hcopy .hcopy (fun s c x f => s.drawerInShare c x f.num = true ∧ s.drawerInShare c x (bits f.w3 7 0) = true)
    (fun s c x f t => s.headerWritten t c x f ((s.core c).hdr (bits f.w3 7 0)))
  ∧ OnQuiet .hdrop .hdrop (fun s c x f => s.Passes c x .hdrop f)
    (fun s c x f t =>
      s.headerWritten t c x f (((s.core c).hdr f.num).withLimbs (bits f.w2 7 0)).seal
      ∧ ((t.core c).hdr f.num).budget = ((s.core c).hdr f.num).budget ∧ ((t.core c).hdr f.num).limbs = bits f.w2 7 0)

/-- The value a command's effect finds in counter `n`: its claims taken, its signal of mode 2 given (10 R214, R216). -/
def Sys2Proof.CmdFields.found (f : CmdFields) (k : Core) (n : Nat) : W16 :=
  k.counter n - f.claims n + (if f.sigMode = 2 then f.signals n else 0)

/-- NOP does nothing beside its waits and its signal; END leaves its context IDLE (10 R231); CADD and CRD act on a counter of the context's share;
DESCWR writes a descriptor from five scalars (12 R249); DRTAG sets tags (09 R191). Where the spec is silent it states the model's choices: log entry
15. -/
def Obligations.CountersDescriptorsAndTags : Prop :=
  OnQuiet .nop .nop (fun _ _ _ _ => True) (fun s c x f t =>
    t.context c x = { (s.context c x) with pc := (s.context c x).pc + 32 } ∧ s.scalarFrame t c x f)
  ∧ OnQuiet .endStream .endStream (fun s c x _ => ∀ p ∈ s.placed, p.ctxs.head? ≠ some (4 * c + x)) (fun s c x f t =>
    t.context c x = { (s.context c x) with pc := (s.context c x).pc + 32, st := .idle }
    ∧ (s.core c).sameStore (t.core c) ∧ s.Done t c x f ((s.context c x).pc + 32) .idle (s.core c).counter ∧ s.Kept t)
  ∧ OnQuiet .cadd .cadd (fun s c x f => s.ctrInShare c x f.num = true) (fun s c x f t =>
    t.context c x = { (s.context c x) with pc := (s.context c x).pc + 32 } ∧ (s.core c).sameStore (t.core c)
    ∧ s.Done t c x f ((s.context c x).pc + 32) .running
        (fun n => (s.core c).counter n + (if n = f.num then BitVec.ofNat 16 (bits f.w2 15 0) else 0))
    ∧ s.Kept t)
  ∧ OnQuiet .crd .crd (fun s c x f => s.ctrInShare c x f.num = true) (fun s c x f t =>
    (t.context c x).reg f.rd = (f.found (s.core c) f.num).setWidth 64
    ∧ (s.context c x).onlyReg (t.context c x) f.rd ∧ s.scalarFrame t c x f)
  ∧ OnQuiet .descwr .descwr (fun s c x f => s.descInShare c x f.num = true ∧ f.ra ≤ 27) (fun s c x f t =>
    (∀ i, i < 5 → bits ((t.core c).desc f.num) (64 * i + 63) (64 * i) = ((s.context c x).reg (f.ra + i)).toNat)
    ∧ (∀ n, n ≠ f.num → (t.core c).desc n = (s.core c).desc n) ∧ (t.core c).hdrs = (s.core c).hdrs
    ∧ t.context c x = { (s.context c x) with pc := (s.context c x).pc + 32 }
    ∧ s.Done t c x f ((s.context c x).pc + 32) .running (s.core c).counter ∧ s.Kept t)
  ∧ OnQuiet .drtag .drtag
    (fun s c x f => 1 ≤ f.cnt ∧ f.cnt ≤ 64 ∧ f.fn ≤ 1 ∧ (∀ d, f.num ≤ d → d < f.num + f.cnt → s.drawerInShare c x d = true)
      ∧ ∀ d, ((s.core c).drawer d).claim = false ∧ ((s.core c).drawer d).closing = false)
    (fun s c x f t =>
      (∀ d, f.num ≤ d → d < f.num + f.cnt → (t.core c).drawer d
        = (if f.fn = 0 then { ((s.core c).drawer d) with tag := .empty, gran := 0 } else { ((s.core c).drawer d) with tag := .full }))
      ∧ (∀ d, ¬ (f.num ≤ d ∧ d < f.num + f.cnt) → (t.core c).drawer d = (s.core c).drawer d)
      ∧ t.context c x = { (s.context c x) with pc := (s.context c x).pc + 32 } ∧ s.scalarFrame t c x f)

/-- The overflow decision LSDECIDE samples (07 R154). -/
def Sys2Proof.Machine.State.overflowed (s : State) (c x : Nat) (f : CmdFields) : Bool :=
  bitOf (s.reg .clearStatus c) x || bitOf ((s.context c x).reg f.ra) 0

/-- LSDECIDE decides a training step, sets its predicate and moves the loss scale (07 R154); LRPICK sets a layer's shift from its histogram slot and
clears the slot (07 R157). Where the spec is silent it states the model's choices: log entries 43, 44. -/
def Obligations.LossScaleAndLearningRate : Prop :=
  OnQuiet .lsdecide .lsdecide (fun _ _ _ _ => True) (fun s c x f t =>
    (t.context c x).pred f.pd = (f.pd == 0 || !s.overflowed c x f)
    ∧ (s.context c x).onlyPred (t.context c x) f.pd
    ∧ bitOf (t.reg .clearStatus c) x = false ∧ bitOf (t.reg .clearStatus c) (16 + x) = s.overflowed c x f
    ∧ (s.overflowed c x f = true →
        signed 8 (bits (t.reg .lossScale c x) 7 0)
            = max (signed 8 (bits (s.reg .lossScale c x) 7 0) - 1) (signed 8 (bits (s.reg .lossScale c x) 15 8))
          ∧ bits (t.reg .lsCount c x) 15 0 = 0)
    ∧ (s.overflowed c x f = false → bits (s.reg .lsCount c x) 31 16 ≤ bits (s.reg .lsCount c x) 15 0 + 1 →
        signed 8 (bits (t.reg .lossScale c x) 7 0)
            = min (signed 8 (bits (s.reg .lossScale c x) 7 0) + 1) (signed 8 (bits (s.reg .lossScale c x) 23 16))
          ∧ bits (t.reg .lsCount c x) 15 0 = 0)
    ∧ (s.overflowed c x f = false → ¬ bits (s.reg .lsCount c x) 31 16 ≤ bits (s.reg .lsCount c x) 15 0 + 1 →
        t.reg .lossScale c x = s.reg .lossScale c x ∧ bits (t.reg .lsCount c x) 15 0 = bits (s.reg .lsCount c x) 15 0 + 1)
    ∧ (∀ a, t.readByte a = s.readByte a) ∧ (s.core c).sameStore (t.core c) ∧ (t.core c).q = [])
  ∧ OnQuiet .lrpick .lrpick (fun s c x f => s.Passes c x .lrpick f) (fun s c x f t =>
    t.reg .layer c f.num = putBits (s.reg .layer c f.num) 7 0 (toBits 8
      (lrShift (signed 8 (bits (s.reg .clearCfg c) 15 8)) (bits (s.reg .layer c f.num) 15 12) (bits (s.reg .layer c f.num) 11 8)
        (signed 8 (bits (s.reg .layer c f.num) 7 0))
        (fun i => (s.reg .histBin c (64 * bits (s.reg .layer c f.num) 19 16 + i)).toNat)))
    ∧ (∀ i, i < 64 → t.reg .histBin c (64 * bits (s.reg .layer c f.num) 19 16 + i) = 0)
    ∧ (∀ a, t.readByte a = s.readByte a)
    ∧ t.context c x = { (s.context c x) with pc := (s.context c x).pc + 32 } ∧ (s.core c).sameStore (t.core c)
    ∧ s.Done t c x f ((s.context c x).pc + 32) .running (s.core c).counter)

/-- RSIG posts its signal (12 R256); BARRIER arrives at its barrier, and the last arrival releases the phase (12 R262). Where the spec is silent it
states the model's choices: log entries 29, 45, 141. -/
def Obligations.RemoteSignalsAndBarriers : Prop :=
  OnQuiet .rsig .rsig
    (fun s c x f => s.Passes c x .rsig f ∧ (f.fn ≤ 2 ∨ bits f.w2 41 24 = s.myDev))
    (fun s c x f t =>
      t.sigs = s.sigs ++ [{
        sender := 4 * c + x,
        scope := if f.fn = 1 then 1 else if f.fn = 2 then 2 else 0,
        unit := if f.fn = 1 then c / 24 else if f.fn = 2 then 0 else bits f.w2 22 16,
        num := f.num, delta := bits f.w2 15 0 }]
      ∧ t.context c x = { (s.context c x) with pc := (s.context c x).pc + 32 } ∧ (s.core c).sameStore (t.core c)
      ∧ s.Done t c x f ((s.context c x).pc + 32) .running (s.core c).counter ∧ ∀ a, t.readByte a = s.readByte a)
  ∧ OnQuiet .rsig .rsig
    (fun s c x f => s.Passes c x .rsig f ∧ f.fn = 3 ∧ bits f.w2 41 24 ≠ s.myDev)
    (fun s c x f t =>
      ∃ g : PostedSig, g.sender = 4 * c + x ∧ g.scope = 3 ∧ g.dev = bits f.w2 41 24 ∧ g.unit = bits f.w2 22 16 ∧ g.num = f.num
        ∧ g.delta = bits f.w2 15 0 ∧ g.gone = !s.sigs.any (fun h => h.sameTarget g && !h.gone) ∧ t.sigs = s.sigs ++ [g]
      ∧ (g.gone = false → t.out = s.out)
      ∧ (∀ port, g.gone = true → s.route s.myDev g.dev = some port → ∃ p, t.out = s.out ++ [.pkt port p] ∧ p.typ = 0x08
          ∧ p.dstDev = g.dev ∧ p.dstCore = g.unit ∧ p.ctr = g.num ∧ p.arg = g.delta)
      ∧ (g.gone = true → s.route s.myDev g.dev = none → t.out = s.out)
      ∧ t.context c x = { (s.context c x) with pc := (s.context c x).pc + 32 }
      ∧ s.Done t c x f ((s.context c x).pc + 32) .running (s.core c).counter)
  ∧ OnQuiet .barrier .barrier
    (fun s c x f => s.sigsUnderWay c x = false ∧ ∃ k, barKey c f.fn f.num = some k ∧ k < 288 ∧ barArmed (s.barCfg k) = true
      ∧ (s.bar k).orphan = false ∧ (s.bar k).poisoned = false ∧ ¬ (4 * c + x ∈ (s.bar k).cur)
      ∧ (s.bar k).cur.length + 1 ≠ barCount (s.barCfg k))
    (fun s c x f t => ∀ k, barKey c f.fn f.num = some k →
      t.bar k = { (s.bar k) with cur := (s.bar k).cur ++ [4 * c + x] }
      ∧ (t.core c).q.map (fun q => (q.ctx, q.bar)) = [(x, .waiting false)]
      ∧ (∀ d, d ≠ c → t.core d = s.core d) ∧ ∀ a, t.readByte a = s.readByte a)
  ∧ OnQuiet .barrier .barrier
    (fun s c x f => s.sigsUnderWay c x = false ∧ ∃ k, barKey c f.fn f.num = some k ∧ k < 288 ∧ barArmed (s.barCfg k) = true
      ∧ (s.bar k).orphan = false ∧ (s.bar k).poisoned = false ∧ ¬ (4 * c + x ∈ (s.bar k).cur)
      ∧ (s.bar k).cur.length + 1 = barCount (s.barCfg k) ∧ (s.bar k).nxt = [] ∧ (s.bar k).held = []
      ∧ ∀ e ∈ s.cores, ∀ q ∈ e.2.q, q.barKey e.1 = some k → q.bar ≠ .held)
    (fun s c x f t => ∀ k, barKey c f.fn f.num = some k →
      t.bar k = { (s.bar k) with sense := !(s.bar k).sense, phases := ((s.bar k).phases + 1) % 2048, cur := [], nxt := [] }
      ∧ (t.core c).q = [] ∧ (t.context c x).reg f.rd = 0 ∧ ∀ a, t.readByte a = s.readByte a)

/-- P0 reads as 1 and ignores writes, so a command with PRED 0 runs where PSENSE is 0 and is skipped where it is 1 (10 R211); a command
that its predicate tells to be skipped takes its claims and gives its signal, and does nothing else (10 R216). -/
def Obligations.SkippedCommandsDoNothing : Prop :=
  (∀ (y : Ctx) (b : Bool), y.pred 0 = true ∧ y.setPred 0 b = y)
  ∧ (∀ (op : Opcode) (s : State) (c x : Nat) (f : CmdFields), f.pred = 0 →
      (s.Takes c x op f → f.psense = false) ∧ (s.TakesSkipped c x op f → f.psense = true))
  ∧ ∀ (op : Opcode) (s : State) (c x : Nat) (f : CmdFields), op ≠ .barrier → s.Quiet c x → s.TakesSkipped c x op f →
    (∀ d, ((s.core c).drawer d).closing = false) →
    ∃ t, exec (Instr.ofOp op c x f) s = .next t
      ∧ t.context c x = { (s.context c x) with pc := (s.context c x).pc + 32 } ∧ (t.core c).drawers = (s.core c).drawers
      ∧ s.scalarFrame t c x f

/-! ### Engine commands -/

/-- The tags an engine command leaves: its destinations FULL and unclaimed; a source it consumes EMPTY, or closing while another core
still reads it; every other drawer as it was, unless it was closing (09 R191). -/
def Sys2Proof.Machine.State.tagsLeft (s t : State) (c : Nat) (p : Plan) : Prop :=
  (∀ d, d ∈ p.dsts → ((t.core c).drawer d).tag = .full ∧ ((t.core c).drawer d).claim = false)
  ∧ (∀ d, d ∈ p.cons → ¬ d ∈ p.held → ((t.core c).drawer d).tag = .empty ∨ ((t.core c).drawer d).closing = true)
  ∧ ∀ d, ¬ d ∈ p.dsts → ¬ d ∈ p.cons → ((s.core c).drawer d).closing = false → (t.core c).drawer d = (s.core c).drawer d

/-- A row of the NTT engine, the drawbench or the anvil on a quiet core, its checks passed and its drawers ready: it completes with its
tags, and of the next state `post` holds. -/
def Sys2Proof.Machine.EngineRow (mk : Nat → Nat → CmdFields → Instr) (op : Opcode) (pre : State → Nat → Nat → CmdFields → Prop)
    (post : State → Nat → Nat → CmdFields → State → Prop) : Prop :=
  OnQuiet mk op (fun s c x f => s.Passes c x op f ∧ s.Starts c x op f ∧ pre s c x f) (fun s c x f t =>
    post s c x f t ∧ s.tagsLeft t c (s.plan c x op f)
    ∧ s.Done t c x f ((s.context c x).pc + 32) .running (s.core c).counter
    ∧ (t.core c).descs = (s.core c).descs ∧ t.bars = s.bars ∧ t.ctrs = s.ctrs ∧ t.sigs = s.sigs ∧ t.out = s.out)

/-- The bytes of residues, six each (02 R34). -/
def Sys2Proof.Machine.residueBytes (vs : List Nat) : List Byte := vs.flatMap (natLE 6)

/-- Limbs `i < n` of a run from drawer `d` hold given residues, and every other byte of memory stands. -/
def Sys2Proof.Machine.State.limbsWritten (s t : State) (c d log2n n : Nat) (v : Nat → List Nat) : Prop :=
  (∀ i, i < n → t.readBytes (limbAddr c d log2n i) (6 * 2 ^ log2n) = residueBytes (v i))
  ∧ ∀ a, (∀ i, i < n → ¬ (limbAddr c d log2n i ≤ a ∧ a < limbAddr c d log2n i + 6 * 2 ^ log2n)) → t.readByte a = s.readByte a

/-- The only header slot written, its context and the anvil's storage. -/
def Sys2Proof.Machine.State.onlyHeader (s t : State) (c x d : Nat) (h : Header) : Prop :=
  (t.core c).hdr d = h ∧ (∀ e, e ≠ d → (t.core c).hdr e = (s.core c).hdr e)
  ∧ t.context c x = { (s.context c x) with pc := (s.context c x).pc + 32 } ∧ (t.core c).tiles = (s.core c).tiles
  ∧ (t.core c).accs = (s.core c).accs

/-- NTTO and INTTO transform every limb of an object by its profile's primes and invert DOMAIN (03 R72); NTTL and INTTL transform a run of limbs by
consecutive table entries (03 R73); AUTOL applies the automorphism to each limb (03 R70). Where the spec is silent it states the model's choices:
log entries 34, 35, 132. -/
def Obligations.NttCommandsTransformLimbs : Prop :=
  (∀ inverse : Bool,
    EngineRow (if inverse then .intto else .ntto) (if inverse then .intto else .ntto)
      (fun s c _ f => ((s.core c).hdr (bits f.w2 63 56)).sized = true) (fun s c x f t =>
        ∃ p, s.profOf ((s.core c).hdr (bits f.w2 63 56)) = some p
          ∧ s.limbsWritten t c (bits f.w2 55 48) ((s.core c).hdr (bits f.w2 63 56)).log2n
              (((s.core c).hdr (bits f.w2 63 56)).polys * ((s.core c).hdr (bits f.w2 63 56)).limbs)
              (fun i => transformLimb inverse (s.table p.slot).bank (p.qFirst + i / ((s.core c).hdr (bits f.w2 63 56)).polys)
                ((s.core c).hdr (bits f.w2 63 56)).log2n (s.readLimb c (bits f.w2 63 56) ((s.core c).hdr (bits f.w2 63 56)).log2n i))
          ∧ s.onlyHeader t c x (bits f.w2 55 48) ((((s.core c).hdr (bits f.w2 63 56)).withDomain (if inverse then 0 else 1)).seal)))
  ∧ (∀ inverse : Bool,
    EngineRow (if inverse then .inttl else .nttl) (if inverse then .inttl else .nttl) (fun _ _ _ _ => True) (fun s c x f t =>
      s.limbsWritten t c (bits f.w2 55 48) (bits f.w2 32 28) (bits f.w2 39 33)
        (fun i => transformLimb inverse (s.table (bits f.w2 47 46)).bank (bits f.w2 45 40 + i) (bits f.w2 32 28)
          (s.readLimb c (bits f.w2 63 56) (bits f.w2 32 28) i))
      ∧ (t.core c).hdrs = (s.core c).hdrs ∧ t.context c x = { (s.context c x) with pc := (s.context c x).pc + 32 }))
  ∧ EngineRow .autol .autol (fun _ _ _ _ => True) (fun s c x f t =>
      s.limbsWritten t c (bits f.w2 55 48) (bits f.w2 32 28) (bits f.w2 39 33)
        (fun i => autLimb (bits f.w2 32 28) (galoisOf (bits f.w2 32 28) (bits f.w2 27 11))
          ((s.readLimb c (bits f.w2 63 56) (bits f.w2 32 28) i).map (· % (s.table (bits f.w2 47 46)).bank.q (bits f.w2 45 40 + i))))
      ∧ (t.core c).hdrs = (s.core c).hdrs ∧ t.context c x = { (s.context c x) with pc := (s.context c x).pc + 32 })

/-- An object command of the drawbench: limb by limb each residue of the result is a function of the residues of its inputs at the same
position, modulo the prime of its limb; `xp` and `yp` are the polynomials of the inputs, and the result header is the one 08 R177
gives. -/
def Sys2Proof.Machine.ObjectRow (mk : Nat → Nat → CmdFields → Instr) (op : Opcode) (o : ObjOp) (xp yp : Header → Nat)
    (val : CmdFields → Nat → Nat → (Nat → Nat) → (Nat → Nat) → Nat) : Prop :=
  EngineRow mk op (fun s c _ f => ((s.core c).hdr (bits f.w2 63 56)).sized = true) (fun s c x f t =>
    ∃ p h, s.profOf ((s.core c).hdr (bits f.w2 63 56)) = some p
      ∧ h = objHeader o p (s.table p.slot).bank ((s.core c).hdr (bits f.w2 63 56)) ((s.core c).hdr (bits f.w2 55 48))
          (if o.arg = .imm then bits f.w3 5 0 else 0)
      ∧ s.onlyHeader t c x (bits f.w2 47 40) h
      ∧ s.limbsWritten t c (bits f.w2 47 40) h.log2n (h.limbs * h.polys) (fun m =>
          (List.range (2 ^ h.log2n)).map (fun k =>
            val f ((s.table p.slot).bank.q (p.qFirst + m / h.polys)) (m % h.polys)
              (fun a => s.readLE (limbAddr c (bits f.w2 63 56) h.log2n (m / h.polys * xp h + a) + 6 * k) 6
                % (s.table p.slot).bank.q (p.qFirst + m / h.polys))
              (fun a => s.readLE (limbAddr c (bits f.w2 55 48) h.log2n (m / h.polys * yp h + a) + 6 * k) 6
                % (s.table p.slot).bank.q (p.qFirst + m / h.polys)))))

/-- HADD, HSUB, HADDP, HSUBP, HMULP, HMULC and HMULI (08 R177): sums, differences and products of residues, the product of two ciphertexts in three
polynomials. Where the spec is silent it states the model's choices: log entries 34, 35, 129, 130, 132. -/
def Obligations.ObjectCommandsCombineResidues : Prop :=
  ObjectRow .hadd .hadd objHadd (·.polys) (·.polys) (fun _ q j x y => addMod q (x j) (y j))
  ∧ ObjectRow .hsub .hsub objHadd (·.polys) (·.polys) (fun _ q j x y => subMod q (x j) (y j))
  ∧ ObjectRow .haddp .haddp objHaddp (·.polys) (fun _ => 1) (fun _ q j x y => if j = 0 then addMod q (x 0) (y 0) else x j % q)
  ∧ ObjectRow .hsubp .hsubp objHaddp (·.polys) (fun _ => 1) (fun _ q j x y => if j = 0 then subMod q (x 0) (y 0) else x j % q)
  ∧ ObjectRow .hmulp .hmulp objHmulp (·.polys) (fun _ => 1) (fun _ q j x y => mulMod q (x j) (y 0))
  ∧ ObjectRow .hmulc .hmulc objHmulc (fun _ => 2) (fun _ => 2) (fun _ q j x y =>
      if j = 0 then mulMod q (x 0) (y 0)
      else if j = 1 then addMod q (mulMod q (x 0) (y 1)) (mulMod q (x 1) (y 0))
      else mulMod q (x 1) (y 1))
  ∧ ObjectRow .hmuli .hmuli objHmuli (·.polys) (·.polys) (fun f q j x _ =>
      if bitOf f.w3 6 then subMod q 0 (x j * 2 ^ bits f.w3 5 0 % q) else x j * 2 ^ bits f.w3 5 0 % q)

/-- Memory after storing values of `u` bytes at addresses in visit order (12 R252). -/
def Sys2Proof.Machine.State.storesLeft (s t : State) (as : List Int) (u : Nat) (vs : List Nat) : Prop :=
  ∀ a, t.readByte a = (s.storeUnits as u vs).readByte a

/-- DBCHAIN in modular mode without masked lanes stores, lane by lane, what its stations make of X, Y and the lane's constant (08 R162 to R170); in
clear mode it stores the converted results (08 R171 to R175). DBREDUCE reduces its surviving lanes into one scalar and stores nothing (08 R176).
Where the spec is silent it states the model's choices: log entries 2, 38, 40, 42. -/
def Obligations.DrawbenchPasses : Prop :=
  EngineRow .dbchain .dbchain
    (fun s c x f => (s.plan c x .dbchain f).lat.mode = 0 ∧ ∀ e, (s.plan c x .dbchain f).lat.laneMasked e = false)
    (fun s c x f t =>
      let q := s.startedEntry c x .dbchain f
      let l := q.lat
      let xs := s.readUnits (q.desc q.cmd.dXd).addrs 6
      let ys := if l.ysrc = 1 then s.readUnits (q.desc q.cmd.dYd).addrs 6 else []
      s.storesLeft t (q.desc q.cmd.dZd).addrs 6 (xs.zipIdx.map (fun z =>
        modElem l (l.bank.q (q.cmd.dFirst + z.2 / q.cmd.dLen)) z.1 ((ys[z.2]?).getD 0) (l.constOf (z.2 / q.cmd.dLen))))
      ∧ (t.core c).hdrs = (s.core c).hdrs ∧ t.context c x = { (s.context c x) with pc := (s.context c x).pc + 32 })
  ∧ EngineRow .dbchain .dbchain
    (fun s c x f => (s.plan c x .dbchain f).lat.mode ≠ 0 ∧ (s.plan c x .dbchain f).lat.keepMode = false
      ∧ 8 ≤ fmtBits (s.plan c x .dbchain f).lat.ofmt ∧ fmtScaled (s.plan c x .dbchain f).lat.ofmt = false)
    (fun s c x f t =>
      let q := s.startedEntry c x .dbchain f
      let l := q.lat
      s.storesLeft t (q.desc q.cmd.dZd).addrs (fmtUnit l.ofmt)
        (convertAll l.ofmt l.ovfInf l.strict l.oblk
          ((passLanes s q).map (fun a => if a.masked && l.maskzero then 0 else a.t))).elems
      ∧ (t.core c).hdrs = (s.core c).hdrs ∧ t.context c x = { (s.context c x) with pc := (s.context c x).pc + 32 })
  ∧ EngineRow .dbreduce .dbreduce (fun _ _ _ _ => True) (fun s c x f t =>
      (t.context c x).reg (bits f.opa 37 33)
        = BitVec.ofNat 64 (reduceLanes (bits f.opa 32 30) (passLanes s (s.startedEntry c x .dbreduce f)))
      ∧ (s.context c x).onlyReg (t.context c x) (bits f.opa 37 33)
      ∧ (∀ a, t.readByte a = s.readByte a) ∧ (t.core c).hdrs = (s.core c).hdrs)

/-- Anvil storage of a core but for one tile. -/
def Sys2Proof.Machine.State.onlyTile (s t : State) (c n : Nat) : Prop :=
  (∀ m, m ≠ n → (t.core c).tile m = (s.core c).tile m) ∧ (t.core c).accs = (s.core c).accs ∧ (t.core c).latches = (s.core c).latches
  ∧ (t.core c).hdrs = (s.core c).hdrs ∧ ∀ a, t.readByte a = s.readByte a

/-- TCFG sets shapes, zeroes the context's tiles and invalidates its reuse latch (06 R125); TLOAD fills one tile and its side-file (06 R127); TMUL
adds the products of two tiles to an accumulator, one rounding per step (06 R128); TZERO clears an accumulator; TDRAIN stores converted rows (06
R130). Where the spec is silent it states the model's choices: log entries 2, 29, 36, 42, 43, 137, 138. -/
def Obligations.AnvilCommands : Prop :=
  EngineRow .tcfg .tcfg (fun _ _ _ _ => True) (fun s c x f t =>
    (∀ e ∈ (s.tilesOf c x).zipIdx, (t.core c).tile e.1
      = { desc := BitVec.ofNat 16 (natBits (f.w2.toNat + 2 ^ 64 * f.w3.toNat) (16 * e.2 + 15) (16 * e.2)) })
    ∧ (∀ n, ¬ n ∈ s.tilesOf c x → (t.core c).tile n = (s.core c).tile n)
    ∧ ((t.core c).latch (s.latchNo c x)).valid = false ∧ (t.core c).accs = (s.core c).accs
    ∧ (t.core c).hdrs = (s.core c).hdrs ∧ ∀ a, t.readByte a = s.readByte a)
  ∧ EngineRow .tload .tload (fun _ _ _ _ => True) (fun s c x f t =>
    let q := s.startedEntry c x .tload f
    let d := ((s.core c).tile (s.tileNo c x (bits f.opa 37 35))).desc
    let unit := if tdFmt d = 9 then 2 else 1
    (t.core c).tile (s.tileNo c x (bits f.opa 37 35))
      = { desc := d, inuse := true, torn := false,
          bytes := (s.readUnits (q.desc (bits f.w2 63 58)).addrs unit).flatMap (natLE unit),
          side := if fmtScaled (tdFmt d) then (s.readUnits (q.desc (bits f.w2 57 52)).addrs 1).map (BitVec.ofNat 8) else [] }
    ∧ s.onlyTile t c (s.tileNo c x (bits f.opa 37 35)))
  ∧ EngineRow .tmul .tmul (fun _ _ _ _ => True) (fun s c x f t =>
    let q := s.startedEntry c x .tmul f
    let a := ((s.core c).tile (s.tileNo c x (bits f.opa 37 35))).seen
    let b := if bits f.opa 28 28 = 1 then tmulB s c q else (tmulB s c q).seen
    let an := s.accNo c x (bits f.opa 31 30)
    let old := ((s.core c).acc an).seen
    (∀ m n, m < min 128 (tdCols a.desc) → n < min 128 (tdCols b.desc) →
      Tab.get 0 ((t.core c).acc an).vals (128 * m + n)
        = BitVec.ofNat 32 (tmulEntry a b m n (if bits f.opa 29 29 = 1 then 0 else (Tab.get 0 old (128 * m + n)).toNat)))
    ∧ (∀ m n, n < 128 → (min 128 (tdCols a.desc) ≤ m ∨ min 128 (tdCols b.desc) ≤ n) →
      Tab.get 0 ((t.core c).acc an).vals (128 * m + n) = Tab.get 0 old (128 * m + n))
    ∧ ((t.core c).acc an).inuse = true ∧ (∀ m, m ≠ an → (t.core c).acc m = (s.core c).acc m)
    ∧ (t.core c).hdrs = (s.core c).hdrs ∧ ∀ a, t.readByte a = s.readByte a)
  ∧ EngineRow .tzero .tzero (fun _ _ _ _ => True) (fun s c x f t =>
    (t.core c).acc (s.accNo c x (bits f.opa 31 30)) = {}
    ∧ (∀ m, m ≠ s.accNo c x (bits f.opa 31 30) → (t.core c).acc m = (s.core c).acc m)
    ∧ (t.core c).tiles = (s.core c).tiles ∧ (t.core c).hdrs = (s.core c).hdrs ∧ ∀ a, t.readByte a = s.readByte a)
  ∧ EngineRow .tdrain .tdrain
    (fun _ _ _ f => 8 ≤ fmtBits (bits f.w3 49 46) ∧ fmtScaled (bits f.w3 49 46) = false ∧ bits f.w3 32 31 = 0 ∧ bits f.w3 30 29 = 0)
    (fun s c x f t =>
      let q := s.startedEntry c x .tdrain f
      let acc := (s.core c).acc (s.accNo c x (bits f.opa 31 30))
      s.storesLeft t (q.desc (bits f.w2 63 58)).addrs (fmtUnit (bits f.w3 49 46))
        ((List.range (bits f.w3 63 57 + 1)).flatMap (fun r =>
          (convertAll (bits f.w3 49 46) q.lat.ovfInf q.lat.strict (bits f.w3 45 44)
            ((List.range (bits f.w3 56 50 + 1)).map (fun n => (Tab.get 0 acc.seen (128 * r + n)).toNat))).elems))
      ∧ (t.core c).acc (s.accNo c x (bits f.opa 31 30)) = (if bits f.opa 29 29 = 1 then { torn := acc.torn } else acc)
      ∧ (t.core c).hdrs = (s.core c).hdrs)

/-- BCONV stores the approximate conversion sums (06 R135), MMULM a product of residue matrices modulo one prime (06 R136). -/
def Obligations.ModularMatrixCommands : Prop :=
  EngineRow .bconv .bconv (fun _ _ _ _ => True) (fun s c x f t =>
    let q := s.startedEntry c x .bconv f
    let b := (s.table (bits f.opa 37 36)).bank
    let ins := setBits 64 f.w2.toNat
    let len := 128 * bits f.opa 29 20
    let xs := s.readUnits (q.desc (bits f.opa 19 14)).addrs 6
    s.storesLeft t (q.desc (bits f.opa 13 8)).addrs 6 ((setBits 64 f.w3.toNat).flatMap (fun j => (List.range len).map (fun k =>
      ((ins.map (fun i => (b.q i, (ins.filter (· != i)).foldl (fun acc r => acc * b.q r % b.q j) (1 % b.q j)))).zipIdx.foldl
        (fun acc e => acc + ((xs[e.2 * len + k]?).getD 0) % e.1.1 * e.1.2) 0) % b.q j)))
    ∧ (t.core c).hdrs = (s.core c).hdrs ∧ (t.core c).tiles = (s.core c).tiles ∧ (t.core c).accs = (s.core c).accs)
  ∧ EngineRow .mmulm .mmulm (fun _ _ _ _ => True) (fun s c x f t =>
    let q := s.startedEntry c x .mmulm f
    let p := (s.table (bits f.opa 37 36)).bank.q (bits f.opa 35 30)
    let len := 128 * bits f.opa 29 20
    let xs := s.readUnits (q.desc (bits f.opa 19 14)).addrs 6
    let ws := s.readUnits (q.desc (bits f.opa 7 2)).addrs 6
    let ni := bits f.w2 15 8 + 1
    s.storesLeft t (q.desc (bits f.opa 13 8)).addrs 6 ((List.range (bits f.w2 7 0 + 1)).flatMap (fun j => (List.range len).map (fun k =>
      ((List.range ni).foldl (fun acc i => acc + ((ws[j * ni + i]?).getD 0) * ((xs[i * len + k]?).getD 0)) 0) % p)))
    ∧ (t.core c).hdrs = (s.core c).hdrs ∧ (t.core c).tiles = (s.core c).tiles ∧ (t.core c).accs = (s.core c).accs)

/-! ### Transfers -/

/-- The descriptors of a started transfer. -/
def Sys2Proof.Machine.State.xferD (s : State) (c x : Nat) (op : Opcode) (f : CmdFields) : Desc × Desc :=
  xferDescs op (s.startedEntry c x op f)

/-- Every unit a transfer reads is sound: no uncorrectable granule, no wrong parity. -/
def Sys2Proof.Machine.State.readsClean (s : State) (hint : Nat) (as : List Int) : Prop := (s.gather hint as).stop = none

/-- The units at the source addresses stored at the destination addresses, in visit order (12 R252). -/
def Sys2Proof.Machine.State.copied (s : State) (d : Desc × Desc) : State :=
  (d.2.addrs.zip (d.1.addrs.map (fun a => s.readBytes a.toNat 64))).foldl (fun u e => u.writeBytes e.1.toNat e.2) s

/-- What a local transfer on a quiet core needs beside its checks: its drawers ready, sound sources, and a destination in stacked
memory or in its own scratchpad. -/
def Sys2Proof.Machine.LocalXfer (op : Opcode) (s : State) (c x : Nat) (f : CmdFields) : Prop :=
  s.Passes c x op f ∧ s.Starts c x op f ∧ s.xferFar op (encodeCmd op f) = false
  ∧ s.readsClean (bits f.opa 25 24) (s.xferD c x op f).1.addrs
  ∧ ((s.xferD c x op f).2.region 64 = some 0 ∨ (s.xferD c x op f).2.region 64 = some (1 + c))

/-- A transfer whose two sides are on this device stores its units in visit order, sets its tags, and with XPUT and XGET adds one to its
completion counter (14 R304). -/
def Sys2Proof.Machine.LocalRow (mk : Nat → Nat → CmdFields → Instr) (op : Opcode) : Prop :=
  OnQuiet mk op (LocalXfer op) (fun s c x f t =>
    (∀ a, t.readByte a = (s.copied (s.xferD c x op f)).readByte a)
    ∧ s.tagsLeft t c (s.plan c x op f)
    ∧ s.Done t c x f ((s.context c x).pc + 32) .running
        (fun n => (s.core c).counter n + (if (op = .xput ∨ op = .xget) ∧ n = bits f.opa 23 16 then 1 else 0))
    ∧ (t.core c).hdrs = (s.core c).hdrs ∧ (t.core c).descs = (s.core c).descs ∧ (t.core c).tiles = (s.core c).tiles
    ∧ t.context c x = { (s.context c x) with pc := (s.context c x).pc + 32 } ∧ t.out = s.out ∧ t.sigs = s.sigs)

/-- Local transfers: XFER, XPUT and XGET copy units (11 R243; 12 R252); XFER into a window of another core of the device lands there (09 R193); XOBJ
copies a body and takes its header from the 64 bytes below it, or puts it there (11 R245); QREAD copies whole drawers of a peer of the quad (09
R197). Where the spec is silent it states the model's choices: log entries 18, 53, 131. -/
def Obligations.LocalTransfersCopy : Prop :=
  LocalRow .xfer .xfer ∧ LocalRow .xput .xput ∧ LocalRow .xget .xget
  ∧ OnQuiet .xfer .xfer (fun s c x f =>
      s.Passes c x .xfer f ∧ s.Starts c x .xfer f ∧ s.xferFar .xfer (encodeCmd .xfer f) = false
      ∧ s.readsClean (bits f.opa 25 24) (s.xferD c x .xfer f).1.addrs
      ∧ (∃ o, (s.xferD c x .xfer f).2.region 64 = some (1 + o) ∧ o ≠ c)
      ∧ (s.scatter c ((s.core c).serial + 1) (bits f.opa 25 24)
          ((s.xferD c x .xfer f).2.addrs.zip ((s.xferD c x .xfer f).1.addrs.map (fun a => s.readBytes a.toNat 64)))).stop = none
      ∧ (s.scatter c ((s.core c).serial + 1) (bits f.opa 25 24)
          ((s.xferD c x .xfer f).2.addrs.zip ((s.xferD c x .xfer f).1.addrs.map (fun a => s.readBytes a.toNat 64)))).waits = [])
    (fun s c x f t =>
      (∀ a, t.readByte a = (s.copied (s.xferD c x .xfer f)).readByte a)
      ∧ (t.core c).q = [] ∧ t.context c x = { (s.context c x) with pc := (s.context c x).pc + 32 }
      ∧ ∀ d, d ≠ c → (s.xferD c x .xfer f).2.region 64 ≠ some (1 + d) → t.core d = s.core d)
  ∧ OnQuiet .xobj .xobj (fun s c x f => LocalXfer .xobj s c x f ∧ bits f.opa 7 7 = 0) (fun s c x f t =>
      (∀ a, t.readByte a = (s.copied (s.xferD c x .xobj f)).readByte a)
      ∧ (t.core c).hdr (bits f.opa 15 8) = Header.ofBytes (s.readBytes ((s.xferD c x .xobj f).1.base - 64) 64)
      ∧ (∀ d, d ≠ bits f.opa 15 8 → (t.core c).hdr d = (s.core c).hdr d)
      ∧ s.tagsLeft t c (s.plan c x .xobj f)
      ∧ s.Done t c x f ((s.context c x).pc + 32) .running (s.core c).counter ∧ (t.core c).descs = (s.core c).descs)
  ∧ OnQuiet .xobj .xobj (fun s c x f => LocalXfer .xobj s c x f ∧ bits f.opa 7 7 = 1) (fun s c x f t =>
      (∀ a, t.readByte a = ((s.copied (s.xferD c x .xobj f)).writeBytes ((s.xferD c x .xobj f).2.base - 64)
        ((s.core c).hdr (bits f.opa 15 8)).bytes).readByte a)
      ∧ (t.core c).hdrs = (s.core c).hdrs ∧ s.tagsLeft t c (s.plan c x .xobj f)
      ∧ s.Done t c x f ((s.context c x).pc + 32) .running (s.core c).counter ∧ (t.core c).descs = (s.core c).descs)
  ∧ OnQuiet .qread .qread (fun s c x f => s.Passes c x .qread f ∧ s.Starts c x .qread f
      ∧ s.parityHit (c / 4 * 4 + bits f.w2 63 62) (drawerRun (bits f.w2 61 54) (bits f.w2 45 40)) = none
      ∧ ∀ d, ((s.core (c / 4 * 4 + bits f.w2 63 62)).drawer d).closing = false)
    (fun s c x f t =>
      (∀ i, i < bits f.w2 45 40 →
        t.readBytes (drawerAddr c (bits f.w2 53 46 + i)) drawerBytes
          = s.readBytes (drawerAddr (c / 4 * 4 + bits f.w2 63 62) (bits f.w2 61 54 + i)) drawerBytes)
      ∧ (∀ a, (∀ i, i < bits f.w2 45 40 → ¬ (drawerAddr c (bits f.w2 53 46 + i) ≤ a
          ∧ a < drawerAddr c (bits f.w2 53 46 + i) + drawerBytes)) → t.readByte a = s.readByte a)
      ∧ s.tagsLeft t c (s.plan c x .qread f)
      ∧ s.Done t c x f ((s.context c x).pc + 32) .running (s.core c).counter ∧ (t.core c).hdrs = (s.core c).hdrs)

/-- The operation number `k` sends after `n` (14 R301). -/
def Sys2Proof.Machine.opidAfter (n : Nat) : Nat → Nat
  | 0 => n
  | k + 1 => opidAfter n k % (2 ^ 19 - 1) + 1

/-- The packets of a remote transfer: one for each run of units whose far addresses follow one another, in order, on the port of the
route, each with an operation number of its own, its type, its far address and length, and the payload `pay`; the command waits for
their answers, its claims taken and nothing else done. -/
def Sys2Proof.Machine.State.packetsSent (s t : State) (c x : Nat) (op : Opcode) (f : CmdFields) (typ : Nat)
    (runs : List (List (Int × Int))) (pay : List (Int × Int) → List Byte) (notes : List (Int × Int) → List Int) : Prop :=
  (∃ (port : Nat) (ps : List Packet), s.route s.myDev (bits f.w2 57 40) = some port ∧ t.out = s.out ++ ps.map (Out.pkt port) ∧ ps.length = runs.length
    ∧ ∀ (i : Nat) (p : Packet) (r : List (Int × Int)), ps[i]? = some p → runs[i]? = some r →
      p.typ = typ ∧ p.srcCore = c ∧ p.srcDev = s.myDev ∧ p.dstDev = bits f.w2 57 40 ∧ p.opid = opidAfter s.opid (i + 1)
      ∧ p.len64 = r.length ∧ p.addr = ((r.head?.map Prod.snd).getD 0).toNat % 2 ^ 40 ∧ p.payload = pay r)
  ∧ (∃ fs, t.fops = s.fops ++ fs ∧ fs.map (fun e => (e.opid, e.dev, e.core, e.ctx, e.packets, e.cctr, e.addrs))
      = runs.zipIdx.map (fun r => (opidAfter s.opid (r.2 + 1), bits f.w2 57 40, c, x, 1,
          (if op = .xfer then none else some (bits f.opa 23 16)), notes r.1)))
  ∧ t.opid = opidAfter s.opid runs.length
  ∧ (t.core c).q.map (fun q => (q.ctx, q.stage == .started, q.remote)) = [(x, true, 1)]
  ∧ t.context c x = { (s.context c x) with pc := (s.context c x).pc + 32 }
  ∧ (∀ n, (t.core c).counter n = f.found (s.core c) n) ∧ (∀ d, d ≠ c → t.core d = s.core d) ∧ (∀ a, t.readByte a = s.readByte a)
  ∧ (∀ d, d ∈ (s.plan c x op f).dsts → ((t.core c).drawer d).claim = true)
  ∧ ∀ d, ¬ d ∈ (s.plan c x op f).dsts → (t.core c).drawer d = (s.core c).drawer d

/-- A remote transfer one of whose far units lies in no scratchpad, or in a second core's, moves no byte (14 R303). -/
def Sys2Proof.Machine.UnwholeRow (mk : Nat → Nat → CmdFields → Instr) (op : Opcode) : Prop :=
  OnQuiet mk op (fun s c x f =>
      s.Passes c x op f ∧ s.Starts c x op f ∧ s.xferFar op (encodeCmd op f) = true ∧ s.jobOf c x = {}
      ∧ farWhole (if xferSide op (encodeCmd op f) = some true then (s.xferD c x op f).1.addrs else (s.xferD c x op f).2.addrs) = false
      ∧ (op = .xfer → s.pathHeld (bits f.w2 57 40) = false))
    (fun s c x _ t =>
      t.out = s.out ∧ (∀ a, t.readByte a = s.readByte a) ∧ (t.core c).q = []
      ∧ t.context c x = { (s.context c x) with st := .halted, lastOp := op.code, lastStatus := stWindow })

/-- A transfer to another device sends its units; one from another device asks for them (14 R302 to R304). -/
def Sys2Proof.Machine.FarRow (mk : Nat → Nat → CmdFields → Instr) (op : Opcode) : Prop :=
  OnQuiet mk op (fun s c x f =>
      s.Passes c x op f ∧ s.Starts c x op f ∧ s.xferFar op (encodeCmd op f) = true ∧ xferSide op (encodeCmd op f) = some false
      ∧ s.readsClean (bits f.opa 25 24) (s.xferD c x op f).1.addrs ∧ (s.route s.myDev (bits f.w2 57 40)).isSome
      ∧ farWhole (s.xferD c x op f).2.addrs = true
      ∧ (op = .xfer → s.pathHeld (bits f.w2 57 40) = false))
    (fun s c x f t => s.packetsSent t c x op f (if op = .xfer then 0x01 else 0x04)
      (packRuns ((s.xferD c x op f).2.addrs.zipIdx.map (fun e => ((e.2 : Int), e.1))))
      (fun r => r.flatMap (fun e => s.readBytes (((s.xferD c x op f).1.addrs[e.1.toNat]?).getD 0).toNat 64)) (fun _ => []))
  ∧ OnQuiet mk op (fun s c x f =>
      s.Passes c x op f ∧ s.Starts c x op f ∧ s.xferFar op (encodeCmd op f) = true ∧ xferSide op (encodeCmd op f) = some true
      ∧ (s.route s.myDev (bits f.w2 57 40)).isSome ∧ farWhole (s.xferD c x op f).1.addrs = true
      ∧ (op = .xfer → s.pathHeld (bits f.w2 57 40) = false))
    (fun s c x f t => s.packetsSent t c x op f (if op = .xfer then 0x02 else 0x05)
      (packRuns ((s.xferD c x op f).2.addrs.zip (s.xferD c x op f).1.addrs)) (fun _ => []) (fun r => r.map (·.1)))

/-- Remote transfers: XFER with REMOTE 1, XPUT and XGET (14 R302 to R304). An XFER whose path has changed while a STORE or LOAD_REQ of its pair is
unacknowledged waits, started, and sends nothing (14 R297). Where the spec is silent it states the model's choices: log entries 18, 65, 66, 67. -/
def Obligations.RemoteTransfersSendPackets : Prop :=
  FarRow .xfer .xfer ∧ FarRow .xput .xput ∧ FarRow .xget .xget
  ∧ UnwholeRow .xfer .xfer ∧ UnwholeRow .xput .xput ∧ UnwholeRow .xget .xget
  ∧ OnQuiet .xfer .xfer (fun s c x f =>
      s.Passes c x .xfer f ∧ s.Starts c x .xfer f ∧ s.xferFar .xfer (encodeCmd .xfer f) = true ∧ s.pathHeld (bits f.w2 57 40) = true)
    (fun s c x _ t =>
      t.out = s.out ∧ t.fops = s.fops ∧ (∀ a, t.readByte a = s.readByte a)
      ∧ (t.core c).q.map (fun q => (q.ctx, q.stage == .started, q.remote)) = [(x, true, 0)])

/-! ### Die macros -/

/-- No window write waits for a drawer that a macro writes on its own core (09 R190). -/
def Sys2Proof.Machine.State.noWriter (s : State) (c : Nat) (ds : List (Nat × Nat)) : Prop :=
  ∀ w ∈ s.waitw, w.owner = c → ∀ e ∈ ds, e.1 = c → ¬ e.2 ∈ touched w.off w.data.length

/-- No key set stands that a completion frees: each is its session's, becomes its session's, or is under upload (04 R87). -/
def Sys2Proof.Machine.State.setsCurrent (s : State) : Prop :=
  ∀ k ∈ s.keysets, k.dir = (Tab.get {} s.sessions k.session).dir ∨ k.dir = (Tab.get {} s.sessions k.session).readyDir ∨ s.setStaged k = true

/-- Input of output `j` of a macro, and its directory (11 R246). -/
def Sys2Proof.Machine.macroIn (op : Opcode) (q : QCmd) (j : Nat) : Header := (q.lat.ins[if op = .anneal then j else 0]?).getD {}
def Sys2Proof.Machine.macroDir (op : Opcode) (q : QCmd) (j : Nat) : Nat := (q.lat.dirs[if op = .anneal then j else 0]?).getD 0

/-- What output `j` streams: its keys with what the directory gives. -/
def Sys2Proof.Machine.State.macroStream (s : State) (op : Opcode) (q : QCmd) (p : Profile) (j : Nat) :
    List (DirEntry × Nat × Nat) × Bool :=
  s.matchKeys (macroDir op q j) (macroIn op q j) p (macroKeys op q p j)

/-- The drawers of a macro permit its start: inputs ready, outputs open, `mid` its intermediate drawers, and nothing it reads has wrong
parity (09 R189, R200; 11 R247). -/
def Sys2Proof.Machine.State.MacroStarts (s : State) (c : Nat) (q : QCmd) (mid : List (Nat × Nat)) : Prop :=
  s.pickDrawers c q = some mid
  ∧ (∀ e ∈ q.inDr, ((s.core e.1).drawer e.2).ready = true)
  ∧ (∀ o ∈ q.outDr, ∀ e ∈ o, ((s.core e.1).drawer e.2).open_ = true ∧ ((s.core e.1).drawer e.2).closing = false)
  ∧ s.noWriter c q.outDr.flatten ∧ s.macroBadParity { q with macroDr := mid } = none ∧ s.setsCurrent

/-- A macro whose checks pass starts and runs to its end: its drawers permit the start, every key matches, and what it streams is on line
and sound. `p j` is the profile of output `j`. -/
def Sys2Proof.Machine.State.MacroReady (s : State) (c x : Nat) (op : Opcode) (f : CmdFields) (p : Nat → Profile)
    (mid : List (Nat × Nat)) : Prop :=
  let q := s.startedEntry c x op f
  s.Passes c x op f ∧ q.lat.tarnish.all (· == 0) = true ∧ s.MacroStarts c q mid
  ∧ ∀ j, j < q.lat.outs.length →
      q.lat.profAt op j = some (p j)
      ∧ (s.macroStream op q (p j) j).2 = true ∧ s.stepsOk op (macroDir op q j) (macroKeys op q (p j) j) = true
      ∧ ∀ g ∈ (s.macroStream op q (p j) j).1.flatMap (fun k => streamGranules k.1.addr (p j) k.2.2) ++ s.diagReads op c q (p j) j,
          s.stackOnline (64 * g) = true ∧ s.severity (64 * g) ≠ 2 ∧ ¬ g ∈ s.linkBad

/-- Memory after the outputs of a macro are stored through their owner tables (14 R310). -/
def Sys2Proof.Machine.State.macroStored (s : State) (op : Opcode) (c : Nat) (q : QCmd) (p : Nat → Profile) : State :=
  (List.range q.lat.outs.length).foldl (fun u j =>
    ((s.macroBody op c q (p j) j (s.macroStream op q (p j) j).1).zipIdx).foldl
      (fun u e => u.storeTabLimb (tabOf q.cmd.outTab j) (p j).log2n e.2 e.1) u) s

/-- A die macro on a quiet core: bodies stored, result headers written, outputs FULL, statuses zero in S[RE] and S[RE + 1]; only the
intermediate drawers are left with bytes the spec does not give, and EMPTY (11 R246 to R248). -/
def Sys2Proof.Machine.MacroRow (mk : Nat → Nat → CmdFields → Instr) (op : Opcode) : Prop :=
  ∀ (s : State) (c x : Nat) (f : CmdFields) (p : Nat → Profile) (mid : List (Nat × Nat)), s.Quiet c x → s.Takes c x op f →
    s.MacroReady c x op f p mid →
    ∃ t, exec (mk c x f) s = .next t
      ∧ (∀ a, (∀ e ∈ mid, ¬ (drawerAddr e.1 e.2 ≤ a ∧ a < drawerAddr e.1 e.2 + drawerBytes)) →
          t.readByte a = (s.macroStored op c (s.startedEntry c x op f) p).readByte a)
      ∧ (∀ d, (t.core c).hdr d
          = ((s.startedEntry c x op f).lat.outs.foldl (fun k o => k.setHdr o.2.1 o.2.2) (s.core c)).hdr d)
      ∧ (∀ o ∈ (s.startedEntry c x op f).outDr, ∀ e ∈ o, ((t.core e.1).drawer e.2).tag = .full ∧ ((t.core e.1).drawer e.2).claim = false)
      ∧ (∀ e ∈ mid, ((t.core e.1).drawer e.2).tag = .empty)
      ∧ (t.context c x).reg (encodeCmd op f).re = 0 ∧ (t.context c x).reg ((encodeCmd op f).re + 1) = 0
      ∧ (∀ n, n ≠ (encodeCmd op f).re → n ≠ (encodeCmd op f).re + 1 → (t.context c x).reg n = (s.context c x).reg n)
      ∧ (t.context c x).pc = (s.context c x).pc + 32 ∧ (t.context c x).st = .running ∧ (t.core c).q = []
      ∧ (∀ n, (t.core c).counter n = (s.core c).counter n - f.claims n + f.signals n)
      ∧ ∀ d, d / 24 ≠ c / 24 → t.core d = s.core d

/-- Key switching (04 R93), ANNEAL (05 R103) and HRESCALE (11 R247) on every number of outputs they take. Where the spec is silent it states the
model's choices: log entries 4, 5, 47, 48, 50, 132, 134, 136, 140. -/
def Obligations.DieMacrosStoreTheirOutputs : Prop :=
  MacroRow .ksrelin .ksrelin ∧ MacroRow .ksrot .ksrot ∧ MacroRow .ksconj .ksconj ∧ MacroRow .kshoist .kshoist
  ∧ MacroRow .anneal .anneal ∧ MacroRow .hrescale .hrescale

/-! ### Streams that stop -/

/-- The context halts at the command with a halting status, and the rest of its stream is not fetched (10 R222); of counter `n` the
command leaves `k n`. -/
def Sys2Proof.Machine.State.haltedBy (s t : State) (c x st : Nat) (op : Opcode) (k : Nat → W16) : Prop :=
  t.context c x = { (s.context c x) with st := .halted, lastOp := op.code, lastStatus := st } ∧ (t.core c).q = []
  ∧ (t.core c).drawers = (s.core c).drawers ∧ (s.core c).sameStore (t.core c) ∧ (∀ a, t.readByte a = s.readByte a)
  ∧ (∀ y, y ≠ x → t.context c y = s.context c y) ∧ ∀ n, (t.core c).counter n = k n

/-- A context that runs no job, on a core none of whose drawers is closing. -/
def Sys2Proof.Machine.State.plainCore (s : State) (c x : Nat) : Prop :=
  s.jobOf c x = {} ∧ ∀ d, ((s.core c).drawer d).closing = false

/-- The state with a status in the byte of every output of a die macro in S[RE + 1]:S[RE] (11 R248). -/
def Sys2Proof.Machine.State.macroStatusesWritten (s : State) (c x : Nat) (op : Opcode) (f : CmdFields) (st : Nat) : State :=
  let v := ((List.range (macroOuts op (encodeCmd op f))).map (fun j => st * 2 ^ (8 * j))).foldl (· + ·) 0
  s.modContext c x (fun y =>
    (y.setReg (encodeCmd op f).re (BitVec.ofNat 64 v)).setReg ((encodeCmd op f).re + 1) (BitVec.ofNat 64 (v / 2 ^ 64)))

/-- A command that fails a decode check halts its context with ST_OPCODE before it waits (10 R210); one whose counter lies outside its context's
share halts it with ST_BOUNDS; one whose issue checks find a halting status halts it with that status, its claims taken and no signal given (02 R52;
10 R222). Where the spec is silent it states the model's choices: log entry 30. -/
def Obligations.BadCommandsHaltTheirContext : Prop :=
  (∀ (op : Opcode) (s : State) (c x : Nat) (f : CmdFields), s.Quiet c x → s.plainCore c x →
    (op.engine = 0 ∨ 0 < s.narrowed c op.engine (s.queueShare c)) →
    (4 ≤ f.sigMode.toNat ∨ (f.sigMode ≠ 0 ∧ f.sigDelta = 0)
      ∨ (f.waitA.cond = 3 ∧ f.waitB.cond = 3 ∧ f.waitA.ctr = f.waitB.ctr)) →
    ∃ t, exec (Instr.ofOp op c x f) s = .next t ∧ s.haltedBy t c x stOpcode op (s.core c).counter)
  ∧ (∀ (op : Opcode) (s : State) (c x : Nat) (f : CmdFields), s.Quiet c x → s.plainCore c x →
    (op.engine = 0 ∨ 0 < s.narrowed c op.engine (s.queueShare c)) →
    f.sigMode.toNat < 4 → (f.sigMode = 0 ∨ f.sigDelta ≠ 0) →
    ¬ (f.waitA.cond = 3 ∧ f.waitB.cond = 3 ∧ f.waitA.ctr = f.waitB.ctr) →
    (s.entry c x (encodeCmd op f)).counters.all (fun n => s.ctrInShare c x n) = false →
    ∃ t, exec (Instr.ofOp op c x f) s = .next t ∧ s.haltedBy t c x stBounds op (s.core c).counter)
  ∧ ∀ (op : Opcode) (s : State) (c x st : Nat) (f : CmdFields), op ≠ .barrier → s.Quiet c x → s.plainCore c x → s.Takes c x op f →
    (planOf op (s.arrived c x (encodeCmd op f)) c (s.entry c x (encodeCmd op f))).v ≠ .wait →
    (s.plan c x op f).v = .halt st → halting st = true → (s.plan c x op f).lat.tarnish = [] → (s.plan c x op f).lat.outs = [] →
    (s.plan c x op f).peer = none →
    ∃ t, exec (Instr.ofOp op c x f) s = .next t
      ∧ (if op.engine = 5 ∧ (encodeCmd op f).re % 2 = 0 then s.macroStatusesWritten c x op f st else s).haltedBy t c x st op
          (fun n => (s.core c).counter n - f.claims n)

/-- The first mismatch of a key with the object's header decides a key switch of one output: its drawers are TORN, its header has TARNISH 1 and
BUDGET 0, and S[RE] says ST_KEYTAG; the body is not written (04 R97, R98). Where the spec is silent it states the model's choices: log entries 35,
50, 134. -/
def Obligations.WrongKeyTarnishesTheOutput : Prop :=
  ∀ (op : Opcode) (s : State) (c x : Nat) (f : CmdFields) (p : Profile) (mid : List (Nat × Nat)) (h : Header) (d : Nat),
    (op = .ksrelin ∨ op = .ksrot ∨ op = .ksconj) → s.Quiet c x → s.Takes c x op f → s.Passes c x op f →
    let q := s.startedEntry c x op f
    q.lat.prof = some p → q.lat.tarnish = [0] → q.lat.outs = [(c, d, h)] → s.MacroStarts c q mid → (s.macroStream op q p 0).2 = false →
    ∃ t, exec (Instr.ofOp op c x f) s = .next t
      ∧ (t.core c).hdr d = h.tarnished ∧ h.tarnished.tarnish = true ∧ h.tarnished.budget = 0
      ∧ (∀ o ∈ q.outDr, ∀ e ∈ o, ((t.core e.1).drawer e.2).tag = .torn)
      ∧ (∀ a, (∀ e ∈ mid, ¬ (drawerAddr e.1 e.2 ≤ a ∧ a < drawerAddr e.1 e.2 + drawerBytes)) → t.readByte a = s.readByte a)
      ∧ (t.context c x).reg q.cmd.re = BitVec.ofNat 64 stKeytag ∧ (t.context c x).st = .running ∧ (t.core c).q = []

/-! ### Contexts -/

/-- What a record of a save holds of one tile, accumulator or latch. -/
def Sys2Proof.Machine.AnvilRec.asTile (n : Nat) : AnvilRec → Option Tile
  | .tile m v => if m = n then some v else none
  | _ => none
def Sys2Proof.Machine.AnvilRec.asAcc (n : Nat) : AnvilRec → Option Acc
  | .acc m v => if m = n then some v else none
  | _ => none
def Sys2Proof.Machine.AnvilRec.asLatch (n : Nat) : AnvilRec → Option RLatch
  | .latch m v => if m = n then some v else none
  | _ => none

/-- The actions of CTX_CTRL, the end of a save and the end of an abort (10 R224 to R231): what they make of the context's state, and that a refused
action (10 R235) changes nothing. Where the spec is silent it states the model's choices: log entries 26, 30. -/
def Obligations.ContextActions : Prop :=
  (∀ (s : State) (c x req : Nat), c < 96 → x < 4 → s.ctlRefused c x true = false → (s.context c x).st = .idle → (s.core c).pewter = false →
    ∃ t, exec (.ctxStart c x req) s = .next t ∧ s.onlyContext t c x { (s.context c x) with st := .running, fresh := false })
  ∧ (∀ (s : State) (c x req : Nat), c < 96 → x < 4 → ((s.context c x).st ≠ .idle ∨ s.jobOf c x ≠ {} ∨ (s.modeM c = false ∧ x ≠ 0)) →
    ∃ t, exec (.ctxStart c x req) s = .next t ∧ s.refusedOnly t)
  ∧ (∀ (s : State) (c x req : Nat), c < 96 → x < 4 → s.ctlRefused c x false = false → (s.context c x).st = .running →
    ∃ t, exec (.ctxPreempt c x req) s = .next t ∧ s.onlyContext t c x { (s.context c x) with st := .preempting })
  ∧ (∀ (s : State) (c x : Nat), c < 96 → x < 4 → (s.context c x).st = .preempting →
    (∀ q ∈ (s.core c).q, q.ctx = x → q.stage ≠ .started ∧ q.stage ≠ .committed) →
    ∃ t, exec (.preemptSaveDone c x) s = .next t
      ∧ s.contextNow t c x (match (s.context c x).heldAct with
          | .none => { (s.context c x) with st := .preempted, saved := s.anvilRecs c x }
          | h => { (s.context c x) with st := .aborting, resetting := h = .reset, heldAct := .none })
      ∧ ({ s with cores := t.cores, mem := t.mem }.eventsOnly t)
      ∧ ∀ a, ¬ (s.saveBase c x ≤ a ∧ a < s.saveBase c x + 0x60000) → t.readByte a = s.readByte a)
  ∧ (∀ (s : State) (c x req : Nat), c < 96 → x < 4 → s.ctlRefused c x false = false → (s.context c x).st = .preempted →
    (∀ q ∈ (s.core c).q, q.ctx = x → ∀ st, q.bar ≠ .released st) →
    ∃ t, exec (.ctxResume c x req) s = .next t ∧ t.context c x = { (s.context c x) with st := .running, saved := [] }
      ∧ (∀ y, y ≠ x → t.context c y = s.context c y) ∧ (∀ d, d ≠ c → t.core d = s.core d) ∧ { s with cores := t.cores }.eventsOnly t
      ∧ { (t.core c) with ctx := (s.core c).ctx, tiles := (s.core c).tiles, accs := (s.core c).accs, latches := (s.core c).latches } = s.core c
      ∧ (∀ n, (t.core c).tile n = (((s.context c x).saved.reverse.findSome? (AnvilRec.asTile n)).getD
          (if n ∈ s.tilesOf c x then { ((s.core c).tile n) with bytes := [], side := [], bad := false } else (s.core c).tile n)))
      ∧ (∀ n, (t.core c).acc n = (((s.context c x).saved.reverse.findSome? (AnvilRec.asAcc n)).getD
          (if n ∈ s.accsOf c x then { ((s.core c).acc n) with vals := [], bad := false } else (s.core c).acc n)))
      ∧ ∀ n, (t.core c).latch n = (((s.context c x).saved.reverse.findSome? (AnvilRec.asLatch n)).getD ((s.core c).latch n)))
  ∧ (∀ (s : State) (c x req : Nat), c < 96 → x < 4 → s.ctlRefused c x true = false →
    ∃ t, exec (.ctxAbort c x req) s = .next t ∧ s.onlyContext t c x (match (s.context c x).st with
      | .idle | .aborting => s.context c x
      | .preempting => { (s.context c x) with heldAct := if (s.context c x).heldAct = .reset then .reset else .abort }
      | _ => { (s.context c x) with st := .aborting, resetting := false }))
  ∧ (∀ (s : State) (c x : Nat), c < 96 → x < 4 → (s.context c x).st = .aborting → (s.context c x).resetting = false →
    (s.context c x).heldAct ≠ .reset → ((s.core c).q.map (·.id)).Nodup → (∀ d, ((s.core c).drawer d).closing = false) →
    (∀ q ∈ (s.core c).q, q.ctx = x → (q.stage = .queued ∨ q.stage = .arrived) ∧ q.bar = .no ∧ q.cmd.sigMode ≠ 3 ∧ q.peer = none) →
    ∃ t, exec (.abortDone c x) s = .next t ∧ (t.context c x).st = .idle
      ∧ (t.context c x).pc = (match (s.core c).q.filter (fun q => q.ctx == x) with
          | q :: _ => q.addr
          | [] => (s.context c x).pc)
      ∧ (∀ n, (t.context c x).reg n = (s.context c x).reg n) ∧ (t.context c x).p = (s.context c x).p
      ∧ (∀ q ∈ (t.core c).q, q.ctx ≠ x) ∧ (∀ n, (t.core c).counter n = (s.core c).counter n)
      ∧ (∀ d, (t.core c).drawer d = (s.core c).drawer d) ∧ (∀ d, d ≠ c → t.core d = s.core d) ∧ ∀ a, t.readByte a = s.readByte a)

/-- A reset zeroes a context's registers, counters, headers, descriptors and drawers' tags, orphans the counters it owns, and leaves it IDLE until
the next start (10 R230; 12 R258, R266); a change of a core's mode resets its contexts under the old mode (10 R205). Where the spec is silent it
states the model's choices: log entry 57. -/
def Obligations.ContextReset : Prop :=
  (∀ (s : State) (c x req : Nat), c < 96 → x < 4 → s.ctlRefused c x true = false → (s.context c x).st = .idle →
    (∀ d, s.drawerInShare c x d = true → s.hasWaiter c d = false) →
    (∀ k, k < 304 → barArmed (s.barCfg k) = true → barOwner (s.barCfg k) ≠ 4 * c + x) →
    ∃ t, exec (.ctxReset c x req) s = .next t
      ∧ t.context c x = { (s.context c x) with st := .idle, s := [], p := 0, heldAct := .none, resetting := false, fresh := true, saved := [] }
      ∧ (∀ n, s.ctrInShare c x n = true → (t.core c).counter n = 0)
      ∧ (∀ n, s.descInShare c x n = true → (t.core c).desc n = 0)
      ∧ (∀ d, s.drawerInShare c x d = true → (t.core c).hdr d = {}
          ∧ ((t.core c).drawer d).tag = (if s.inOpenWin c x d then .orphan else .empty) ∧ ((t.core c).drawer d).claim = false)
      ∧ (∀ n ∈ s.tilesOf c x, (t.core c).tile n = {}) ∧ (∀ n ∈ s.accsOf c x, (t.core c).acc n = {})
      ∧ ((t.core c).latch (s.latchNo c x)).valid = false
      ∧ (∀ y, y ≠ x → t.context c y = s.context c y) ∧ (∀ d, d ≠ c → t.core d = s.core d)
      ∧ (∀ d, s.drawerInShare c x d = false → (t.core c).drawer d = (s.core c).drawer d ∧ (t.core c).hdr d = (s.core c).hdr d)
      ∧ (∀ k, k < 320 → ctrArmed (s.ctrCfg k) = true → 4 * bits (s.ctrCfg k) 28 22 + bits (s.ctrCfg k) 30 29 = 4 * c + x →
          (t.ctr k).orphan = true)
      ∧ ∀ a, t.readByte a = s.readByte a)
  ∧ (∀ (s : State) (c x req : Nat), c < 96 → x < 4 → s.ctlRefused c x true = false →
    ((s.context c x).st = .running ∨ (s.context c x).st = .halted ∨ (s.context c x).st = .preempted) →
    ∃ t, exec (.ctxReset c x req) s = .next t
      ∧ s.onlyContext t c x { (s.context c x) with st := .aborting, resetting := true })
  ∧ (∀ (s : State) (c req : Nat) (m : Bool), c < 96 → (∀ x, x < 4 → (s.context c x).st = .idle) → s.modeM c = m →
    exec (.coreModeWrite c req m) s = .next s)
  ∧ (∀ (s : State) (c req : Nat) (m : Bool), c < 96 → (∀ x, x < 4 → (s.context c x).st = .idle) → s.modeM c ≠ m →
    (∀ e ∈ s.cores, e.2 = s.core e.1) →
    ∃ t, exec (.coreModeWrite c req m) s = .next t ∧ t.modeM c = m
      ∧ ∀ x, x < 4 → (s.modeM c = true ∨ x = 0) → (t.context c x).st = .idle ∧ (t.context c x).s = [] ∧ (t.context c x).p = 0 ∧ (t.context c x).fresh = true)
  ∧ ∀ (s : State) (c x req : Nat) (m : Bool), c < 96 → x < 4 → (s.context c x).st ≠ .idle →
    ∃ t, exec (.coreModeWrite c req m) s = .next t ∧ s.refusedOnly t

/-- The life of a command, step by step (10 R206 to R217; 09 R189 to R191; 04 R92, R97; 10 R232): it is fetched at CTX_PC and arrives; its waits
hold and it issues; its tags permit and it starts; it commits and completes. Its count may expire; the first chunk of a key is compared; a line held
for a group is discarded. Storage of the control core with wrong parity halts its context, a counter with wrong parity is known as such, and a byte
that comes wrong over an internal link tears the destinations (19 R404). Where the spec is silent it states the model's choices: log entries 15, 18,
27, 28, 33, 49, 139, 147. -/
def Obligations.CommandLifeStepByStep : Prop :=
  (∀ (s : State) (c x : Nat) (op : Opcode), s.Quiet c x → s.stackOnline (s.context c x).pc = true → (s.hbmRead (s.context c x).pc 0).2 = false →
    let w := Cmd.ofBytes (s.readBytes (s.context c x).pc 32)
    decodeChecks w = some op → (op.engine = 0 ∨ 0 < s.narrowed c op.engine (s.queueShare c)) →
    (s.entry c x w).counters.all (fun n => s.ctrInShare c x n) = true →
    ∃ t, exec (.commandArrival c (x, false)) s = .next t ∧ (t.core c).q = [s.entry c x w]
      ∧ t.context c x = { (s.context c x) with pc := (s.context c x).pc + 32 } ∧ (t.core c).counters = (s.core c).counters
      ∧ (t.core c).drawers = (s.core c).drawers ∧ (∀ d, d ≠ c → t.core d = s.core d) ∧ ∀ a, t.readByte a = s.readByte a)
  ∧ (∀ (s : State) (c x : Nat) (op : Opcode) (f : CmdFields), s.Quiet c x → s.Takes c x op f → s.Passes c x op f →
    (op.engine = 1 ∨ op.engine = 2 ∨ op.engine = 3) →
    ∃ t, exec (.commandIssue (c, [])) (s.arrived c x (encodeCmd op f)) = .next t
      ∧ (t.core c).q = [{ (s.startedEntry c x op f) with stage := .issued }]
      ∧ (∀ n, (t.core c).counter n = f.found (s.core c) n) ∧ (t.core c).drawers = (s.core c).drawers
      ∧ ∀ a, t.readByte a = s.readByte a)
  ∧ (∀ (s : State) (c x : Nat) (q : QCmd), c < 96 → x < 4 → (s.core c).q = [q] → q.stage = .issued → q.ctx = x →
    (q.eng = 1 ∨ q.eng = 2 ∨ q.eng = 3) → (s.context c x).st = .running → s.coreLive c = true → q.peer = none →
    (∀ d ∈ q.srcs, ((s.core c).drawer d).ready = true) → (∀ d ∈ q.dsts, ((s.core c).drawer d).open_ = true) →
    (∀ w ∈ s.waitw, w.owner = c → ∀ d ∈ q.dsts, ¬ d ∈ touched w.off w.data.length) →
    ∃ t, exec (.commandStart c x q.eng) s = .next t ∧ (t.core c).q = [{ q with stage := .started }]
      ∧ (∀ d ∈ q.dsts, (t.core c).drawer d = { ((s.core c).drawer d) with claim := true })
      ∧ (∀ d, ¬ d ∈ q.dsts → (t.core c).drawer d = (s.core c).drawer d) ∧ { t with cores := s.cores } = s)
  ∧ (∀ (s : State) (c x : Nat) (op : Opcode) (q : QCmd), c < 96 → x < 4 → (s.core c).q = [q] → q.stage = .started → q.ctx = x →
    (q.eng = 1 ∨ q.eng = 2 ∨ q.eng = 3) → q.cmd.op? = some op → s.coreLive c = true → q.peer = none →
    badSource op s c q = none → (∀ d, ((s.core c).drawer d).closing = false) →
    ∃ t, exec (.commandCommit c x q.eng (0, false)) s = .next t ∧ (t.core c).q = []
      ∧ (∀ d ∈ q.dsts, ¬ d ∈ q.cons → ((t.core c).drawer d).tag = .full ∧ ((t.core c).drawer d).claim = false)
      ∧ (∀ d ∈ q.cons, ¬ d ∈ q.held → ((t.core c).drawer d).tag = .empty ∨ ((t.core c).drawer d).closing = true)
      ∧ ∀ d, ¬ d ∈ q.dsts → ¬ d ∈ q.cons → (t.core c).drawer d = (s.core c).drawer d)
  ∧ (∀ (s : State) (c pos : Nat) (q : QCmd), c < 96 → (s.core c).q[pos]? = some q → q.stage = .arrived → q.bar = .no →
    (s.context c q.ctx).st = .running → q.cmd.sigMode ≠ 3 → q.peer = none → q.lat.group = none → q.eng ≠ 5 → s.setsCurrent →
    (∀ d, ((s.core c).drawer d).closing = false) →
    ∃ t, exec (.coreWatchdogExpiry c pos) s = .next t ∧ (t.core c).q = (s.core c).q.filter (fun p => p.id != q.id)
      ∧ (∀ y, t.context c y = s.context c y) ∧ (t.core c).counters = (s.core c).counters
      ∧ (t.core c).drawers = (s.core c).drawers ∧ { s with cores := t.cores }.eventsOnly t)
  ∧ (∀ (s : State) (c pos j n : Nat) (q : QCmd) (op : Opcode) (p : Profile) (k : Nat × Nat), c < 96 → (s.core c).q = [q] → pos = 0 →
    (q.stage = .issued ∨ q.stage = .started) → q.eng = 5 → q.cmd.op? = some op → q.lat.profAt op j = some p →
    (macroKeys op q p j)[n]? = some k →
    q.outSt j = 0 → (s.keyRec (macroDir op q j) k.1 (macroIn op q j) p).isSome → s.stepsOk op (macroDir op q j) [k] = true →
    ∃ t, exec (.keyChunkArrival c pos j n) s = .next t ∧ (t.core c).q = [{ q with tagOk := true }]
      ∧ (∃ e, (t.core c).inlet = ((s.core c).inlet ++ [(q.id, e)]).drop ((s.core c).inlet.length - 1)) ∧ (t.core c).drawers = (s.core c).drawers ∧ (t.core c).hdrs = (s.core c).hdrs ∧ { t with cores := s.cores } = s)
  ∧ (∀ (s : State) (c x : Nat), c < 96 → x < 4 → (s.context c x).st = .running → s.coreLive c = true →
    ∃ t, exec (.commandArrival c (x, true)) s = .next t ∧ (t.context c x).st = .halted ∧ (t.context c x).lastStatus = stParity
      ∧ (t.core c).drawers = (s.core c).drawers ∧ (t.core c).counters = (s.core c).counters ∧ (∀ d, d ≠ c → t.core d = s.core d))
  ∧ (∀ (s : State) (c : Nat) (bad : List Nat), c < 96 → s.coreLive c = true → (s.core c).q = [] →
    ∃ t, exec (.commandIssue (c, bad)) s = .next t ∧ (∀ n, n ∈ (t.core c).badCtr ↔ n ∈ bad ∨ n ∈ (s.core c).badCtr)
      ∧ (t.core c).drawers = (s.core c).drawers ∧ (t.core c).counters = (s.core c).counters ∧ (∀ d, d ≠ c → t.core d = s.core d))
  ∧ (∀ (s : State) (c x : Nat) (q : QCmd), c < 96 → x < 4 → (s.core c).q = [q] → q.stage = .started → q.ctx = x → (s.context c x).st = .running →
    (q.eng = 1 ∨ q.eng = 2 ∨ q.eng = 3) → q.held = [] → q.macroDr = [] → s.coreLive c = true → q.peer = none →
    (∀ d, ((s.core c).drawer d).closing = false) →
    ∃ t, exec (.commandCommit c x q.eng (0, true)) s = .next t ∧ (t.core c).q = [] ∧ (t.context c x).st = .halted
      ∧ (t.context c x).lastStatus = stParity ∧ (∀ d ∈ q.dsts, ((t.core c).drawer d).tag = .torn)
      ∧ ∀ d, ¬ d ∈ q.dsts → (t.core c).drawer d = (s.core c).drawer d)
  ∧ ∀ (s : State) (g : Nat), ∃ t, exec (.groupLineExpiry g) s = .next t 
      ∧ (∀ l, l ∈ t.groupLines ↔ l ∈ s.groupLines ∧ l.gran ≠ g) ∧ { t with groupLines := s.groupLines } = s

/-! ### Windows, injected faults, histograms -/

/-- The value of a write of WIN_CFG that opens a window. -/
def Sys2Proof.Machine.winOpenValue (x first count : Nat) : W32 := BitVec.ofNat 32 (2 ^ 31 + x * 2 ^ 29 + first * 2 ^ 16 + count)

/-- Opening and closing windows (09 R192, R196), the arrival of window writes (09 R193, R194), the arming of SP_INJECT (09 R203), and the clearing
of a histogram slot (07 R151). Where the spec is silent it states the model's choices: log entry 75. -/
def Obligations.WindowsOpenCloseAndTakeWrites : Prop :=
  (∀ (s : State) (c w x first count req : Nat), c < 96 → w < 16 → x < 4 → first < 256 → count < 64 → (s.win c w).isOpen = false →
    (let u := s.setReg .winCfg c w (winOpenValue x first count); u.mayOpen c w (u.win c w) = true) →
    ∃ t, exec (.windowOpen c w x first count req) s = .next t
      ∧ t.win c w = { (s.win c w) with isOpen := true, ctx := x, first := first, count := count }
      ∧ t.rf .winStat c w 31 16 = 0 ∧ s.onlyRegs t [adr .winCfg c w, adr .winStat c w])
  ∧ (∀ (s : State) (c w x first count req : Nat), c < 96 → w < 16 → x < 4 → first < 256 → count < 64 →
    ((s.win c w).isOpen = true ∨ count = 0 ∨ 32 < count ∨ 256 < first + count ∨ (s.core c).pewter = true) →
    ∃ t, exec (.windowOpen c w x first count req) s = .next t ∧ s.refusedOnly t)
  ∧ (∀ (s : State) (c w req : Nat), c < 96 → w < 16 → (s.win c w).isOpen = true →
    ∃ t, exec (.windowClose c w req) s = .next t ∧ (t.win c w).isOpen = false
      ∧ (∀ d, (t.core c).drawer d = (if d ∈ (s.win c w).drawers ∧ ((s.core c).drawer d).gran ≠ 0 ∧ ((s.core c).drawer d).tag ≠ .full
          then { ((s.core c).drawer d) with tag := .torn } else (s.core c).drawer d))
      ∧ { (t.core c) with drawers := (s.core c).drawers } = s.core c ∧ (∀ d, d ≠ c → t.core d = s.core d)
      ∧ { s with cores := t.cores }.onlyRegs t [adr .winCfg c w])
  ∧ (∀ (s : State) (c off dev core id : Nat) (data : List Byte) (w : Nat), c < 96 →
    (dev ≠ s.myDev ∨ (s.core core).cmd? id = none) →
    (∀ v ∈ s.waitw, ¬ (v.dev = dev ∧ v.core = core ∧ v.owner = c)) → s.portsHeld c = false →
    s.winTest c dev core off data.length = .landed → s.winAt c (off / drawerBytes) = some w →
    ∃ t, exec (.windowWrite c off dev core id data false) s = .next t
      ∧ t.readBytes (spBase c + off) data.length = data
      ∧ (∀ a, ¬ (spBase c + off ≤ a ∧ a < spBase c + off + data.length) → t.readByte a = s.readByte a)
      ∧ (∀ d ∈ touched off data.length,
          let g := ((s.core c).drawer d).gran.lor (granMask ((max off (d * drawerBytes) - d * drawerBytes) / 64)
            ((min (off + data.length) ((d + 1) * drawerBytes) - d * drawerBytes) / 64))
          ((t.core c).drawer d).gran = g
          ∧ ((t.core c).drawer d).tag = (if g.land (granMask 0 ((s.win c w).need d)) = granMask 0 ((s.win c w).need d) then .full
              else ((s.core c).drawer d).tag))
      ∧ (∀ d, ¬ d ∈ touched off data.length → (t.core c).drawer d = (s.core c).drawer d)
      ∧ (∀ d, d ≠ c → t.core d = s.core d) ∧ t.waitw = s.waitw)
  ∧ (∀ (s : State) (c off dev core id : Nat) (data : List Byte) (bad : Bool) (st : Nat), c < 96 →
    (dev ≠ s.myDev ∨ (s.core core).cmd? id = none) →
    (∀ v ∈ s.waitw, ¬ (v.dev = dev ∧ v.core = core ∧ v.owner = c)) → s.portsHeld c = false →
    s.winTest c dev core off data.length = .refused st →
    ∃ t, exec (.windowWrite c off dev core id data bad) s = .next t ∧ t.cores = s.cores ∧ t.mem = s.mem ∧ t.waitw = s.waitw)
  ∧ (∀ (s : State) (c off dev core id : Nat) (data : List Byte) (bad : Bool), c < 96 →
    s.winTest c dev core off data.length = .waits →
    ∃ t, exec (.windowWrite c off dev core id data bad) s = .next t ∧ t.mem = s.mem
      ∧ t.core c = { (s.core c) with arrivals := (s.core c).arrivals + 1 } ∧ (∀ d, d ≠ c → t.core d = s.core d)
      ∧ ∃ v, t.waitw = s.waitw ++ [v] ∧ (v.dev, v.core, v.cmdId, v.owner, v.off, v.data) = (dev, core, id, c, off, data))
  ∧ (∀ (s : State) (i : Nat) (v : WaitWrite), s.waitw[i]? = some v → (v.dev ≠ s.myDev ∨ (s.core v.core).cmd? v.cmdId = none) →
    (∀ u ∈ s.waitw.take i, u.sameStream v = false) → s.behindLoad v = false → s.engineAhead v = false → s.portsHeld v.owner = false →
    v.bad = false → v.accepted = false → s.winTest v.owner v.dev v.core v.off v.data.length = .landed →
    ∃ t, exec (.windowWriteResume i) s = .next t ∧ t.waitw = s.waitw.eraseIdx i
      ∧ t.readBytes (spBase v.owner + v.off) v.data.length = v.data
      ∧ ∀ a, ¬ (spBase v.owner + v.off ≤ a ∧ a < spBase v.owner + v.off + v.data.length) → t.readByte a = s.readByte a)
  ∧ (∀ (s : State) (i : Nat) (v : WaitWrite), s.waitw[i]? = some v →
    ((∃ u ∈ s.waitw.take i, u.sameStream v = true) ∨ s.behindLoad v = true ∨ s.engineAhead v = true ∨ s.portsHeld v.owner = true) →
    exec (.windowWriteResume i) s = .next s)
  ∧ (∀ (s : State) (c d req : Nat), c < 96 → d < 256 →
    ∃ t, exec (.spInjectArm c d req) s = .next t
      ∧ (s.repairLevel = true → t.reg .spInject c = BitVec.ofNat 32 (256 + d) ∧ s.onlyRegs t [adr .spInject c 0])
      ∧ (s.repairLevel = false → s.refusedOnly t))
  ∧ ∀ (s : State) (c h : Nat), c < 96 → h < 16 →
    ∃ t, exec (.histClear c h) s = .next t ∧ (∀ i, i < 64 → t.reg .histBin c (64 * h + i) = 0)
      ∧ (∀ n, n < 1024 → ¬ (64 * h ≤ n ∧ n < 64 * h + 64) → t.reg .histBin c n = s.reg .histBin c n)
      ∧ t.reg .histCfg c h = putBits (s.reg .histCfg c h) 1 1 0 ∧ { t with regs := s.regs } = s

/-! ### Signals, counters, barriers, table builds -/

/-- A posted signal adds its delta to its counter, or is discarded (12 R257, R258); a counter at its threshold notifies its cores and is disarmed or
armed again (12 R259); a barrier's watchdog poisons it and releases its waiters with ST_TIMEOUT (12 R265). Where the spec is silent it states the
model's choices: log entries 22, 24, 55. -/
def Obligations.SignalsCountersAndWatchdogs : Prop :=
  (∀ (s : State) (i : Nat) (g : PostedSig), s.sigs[i]? = some g → g.scope ≠ 3 → (∀ h ∈ s.sigs.take i, h.sameTarget g = false) →
    ∃ t, exec (.signalArrival i) s = .next t ∧ t.sigs = s.sigs.eraseIdx i ∧ t.mem = s.mem ∧ t.out = s.out
      ∧ (g.scope = 0 → (s.context g.unit (s.ctrOwner g.unit g.num)).fresh = false →
          (t.core g.unit).counter g.num = (s.core g.unit).counter g.num + BitVec.ofNat 16 g.delta
          ∧ (∀ n, n ≠ g.num → (t.core g.unit).counter n = (s.core g.unit).counter n) ∧ (∀ d, d ≠ g.unit → t.core d = s.core d)
          ∧ t.ctrs = s.ctrs)
      ∧ (g.scope = 0 → (s.context g.unit (s.ctrOwner g.unit g.num)).fresh = true → t.cores = s.cores ∧ t.ctrs = s.ctrs)
      ∧ (g.scope ≠ 0 → t.cores = s.cores ∧
          let k := if g.scope = 1 then 64 * g.unit + g.num else 256 + g.num
          (ctrArmed (s.ctrCfg k) = true → (s.ctr k).orphan = false →
            t.ctr k = { (s.ctr k) with value := ((s.ctr k).value + g.delta) % 65536 } ∧ ∀ j, j ≠ k → t.ctr j = s.ctr j)
          ∧ (ctrArmed (s.ctrCfg k) = false ∨ (s.ctr k).orphan = true → t.ctrs = s.ctrs)))
  ∧ (∀ (s : State) (i : Nat) (g : PostedSig), s.sigs[i]? = some g → (∃ h ∈ s.sigs.take i, h.sameTarget g = true) →
    exec (.signalArrival i) s = .next s)
  ∧ (∀ (s : State) (i : Nat) (g : PostedSig), s.sigs[i]? = some g → g.scope = 3 → (∀ h ∈ s.sigs.take i, h.sameTarget g = false) →
    ∃ t, exec (.signalArrival i) s = .next t ∧ t.mem = s.mem ∧ t.ctrs = s.ctrs
      ∧ (g.gone = true → t = { s with sigs := s.sigs.eraseIdx i })
      ∧ (g.gone = false → s.windowsUnderWay (senderCore g.sender) (senderCtx g.sender) g.after = true → t = s)
      ∧ (g.gone = false → s.windowsUnderWay (senderCore g.sender) (senderCtx g.sender) g.after = false →
          t.sigs = s.sigs.set i { g with gone := true } ∧ t.cores = s.cores
          ∧ ∀ port, g.unit < 128 → g.num < 256 → g.delta < 2 ^ 16 → g.dev < 2 ^ 18 → devLevel s.myDev g.dev ≤ s.maxLevel → s.route s.myDev g.dev = some port →
              ∃ p, t.out = s.out ++ [.pkt port p] ∧ (p.typ, p.srcCore, p.dstCore, p.dstDev, p.arg, p.ctr)
                = (0x08, senderCore g.sender, g.unit, g.dev, g.delta, g.num)))
  ∧ (∀ (s : State) (k : Nat), k < 320 →
    ∃ t, exec (.dieCounterFire k) s = .next t ∧ t.cores = s.cores ∧ t.mem = s.mem
      ∧ (ctrArmed (s.ctrCfg k) = true → (s.ctr k).orphan = false → ge16 (s.ctr k).value (bits (s.ctrThresh k) 15 0) = true →
          t.ctr k = { (s.ctr k) with fired := true }
          ∧ t.sigs = s.sigs ++ (s.notifySet k).map (fun c =>
              { sender := 0x200 + k, scope := 0, unit := c, num := bits (s.ctrCfg k) 21 14, delta := bits (s.ctrCfg k) 13 6 })
          ∧ (bits (s.ctrThresh k) 31 16 = 0 → ctrArmed (t.ctrCfg k) = false ∧ t.ctrThresh k = s.ctrThresh k)
          ∧ (bits (s.ctrThresh k) 31 16 ≠ 0 → ctrArmed (t.ctrCfg k) = true
              ∧ bits (t.ctrThresh k) 15 0 = (bits (s.ctrThresh k) 15 0 + bits (s.ctrThresh k) 31 16) % 65536
              ∧ bits (t.ctrThresh k) 31 16 = bits (s.ctrThresh k) 31 16))
      ∧ (ctrArmed (s.ctrCfg k) = false ∨ (s.ctr k).orphan = true ∨ ge16 (s.ctr k).value (bits (s.ctrThresh k) 15 0) = false → t = s))
  ∧ (∀ (s : State) (k : Nat), k < 288 → barArmed (s.barCfg k) = true → (s.bar k).poisoned = false → (s.bar k).orphan = false →
    (s.bar k).cur ≠ [] → s.barCmds k = [] →
    ∃ t, exec (.barrierWatchdog k) s = .next t ∧ t.bar k = { (s.bar k) with poisoned := true }
      ∧ (∀ j, j ≠ k → t.bar j = s.bar j) ∧ { s with bars := t.bars }.eventsOnly t)
  ∧ (∀ (s : State) (k c : Nat) (q : QCmd), k < 288 → c < 96 → barArmed (s.barCfg k) = true → (s.bar k).poisoned = false →
    (s.bar k).orphan = false → (s.bar k).cur ≠ [] → s.barCmds k = [(c, q)] → q.bar = .waiting false → (s.context c q.ctx).st = .running →
    (s.core c).q = [q] → q.cmd.sigMode ≠ 3 → q.peer = none → (∀ d, ((s.core c).drawer d).closing = false) →
    ∃ t, exec (.barrierWatchdog k) s = .next t ∧ (t.bar k).poisoned = true ∧ (t.core c).q = []
      ∧ t.context c q.ctx = (s.context c q.ctx).setReg q.cmd.rd 3 ∧ (t.core c).counters = (s.core c).counters ∧ t.mem = s.mem)
  ∧ ∀ (s : State) (k : Nat), k < 288 →
    (barArmed (s.barCfg k) = false ∨ (s.bar k).poisoned = true ∨ (s.bar k).orphan = true ∨ (s.bar k).cur = []) →
    exec (.barrierWatchdog k) s = .next s

/-- A build of an alloy record starts, or is refused while another runs (03 R62, R64); its end leaves the shadow bank built, or rejected with the
number of the check and the entry, and commits it at once where the build said so (03 R60, R62). Where the spec is silent it states the model's
choices: log entries 1, 46, 135, 136. -/
def Obligations.AlloyBuildsFillAShadowBank : Prop :=
  (∀ (s : State) (slot req : Nat) (commit : Bool), slot < 4 → (∀ t, t < 4 → (s.table t).shadow ≠ 1) → (s.table slot).shadow ≠ 2 →
    inHbm (s.alloySrc + 1087) = true →
    ∃ t, exec (.alloyBuild slot commit req) s = .next t
      ∧ t.table slot = { (s.table slot) with shadow := 1, check := 0, failIndex := 0, commitNow := commit, src := s.alloySrc }
      ∧ (∀ i, i ≠ slot → t.table i = s.table i) ∧ { s with tables := t.tables }.onlyRegs t [adr .alloyBuild 0 0])
  ∧ (∀ (s : State) (slot req : Nat) (commit : Bool), slot < 4 → ((∃ t, t < 4 ∧ (s.table t).shadow = 1) ∨ (s.table slot).shadow = 2) →
    ∃ t, exec (.alloyBuild slot commit req) s = .next t ∧ s.refusedOnly t)
  ∧ ∀ (s : State) (n : Nat), n < 4 → (s.table n).shadow = 1 → (∀ m, m < n → (s.table m).shadow ≠ 1) →
    ∃ t, exec .alloyBuildDone s = .next t ∧ (∀ i, i ≠ n → t.table i = s.table i) ∧ t.cores = s.cores
      ∧ (∀ ck i, s.buildAt n (s.table n).src = .failed ck i →
          t.table n = { (s.table n) with shadow := 3, check := ck, failIndex := i } ∧ t.mem = s.mem)
      ∧ (∀ b, s.buildAt n (s.table n).src = .built b → s.shadowLatched n = true → t = s)
      ∧ (∀ b, s.buildAt n (s.table n).src = .built b → s.shadowLatched n = false →
          t.table n = (if (s.table n).commitNow
            then { (s.table n) with shadow := 0, shadowBank := {}, bank := b, active := true, gen := ((s.table n).gen + 1) % 256 }
            else { (s.table n) with shadow := 2, shadowBank := b })
          ∧ (b.anneal = [] → t.mem = s.mem)
          ∧ ∀ a, (∀ d, d < 4 → ∀ e ∈ b.anneal.zipIdx,
              let lo := (s.annealSection d n (((s.table n).gen + 1) % 2)).1
              lo / dieRange = d → ¬ (lo + b.setBase e.2 ≤ a ∧ a < lo + b.setBase e.2 + (b.diagBytes e.1).length)) →
            t.readByte a = s.readByte a)
      ∧ (∀ len, len = 1088 + leNat (s.readBytes ((s.table n).src + 4) 4) →
          s.buildAt n (s.table n).src =
            if inHbm ((s.table n).src + len - 1) = false ∨ s.poisoned (s.table n).src len = true then .failed 1 0xFF
            else buildRecord (s.rf .annealSect 0 n 9 0) (s.readBytes (s.table n).src len))

/-! ### Stacked memory -/

/-- Reads return their severity (13 R277, R278); writes store a granule and clear its error, or are refused whole on wrong parity (13 R276, R278).
Where the spec is silent it states the model's choices: log entries 1, 60, 145. -/
def Obligations.StackedMemoryReadsAndWrites : Prop :=
  (∀ (s : State) (a sev link : Nat), inHbm a = true → s.stackOnline a = true →
    (link = 0 ∨ bitOf (s.reg .hbmCfg (s.stackOf (a / 64 * 64))) 3 = false) →
    ∃ t, exec (.hbmReadResponse a sev link) s = .next t
      ∧ t.severity a = (if s.severity a = 2 then 2
          else if s.severity a = 1 ∧ bitOf (s.reg .hbmCfg (s.stackOf (a / 64 * 64))) 2 = false then max 1 (min sev 2) else min sev 2) ∧ (∀ b, b / 64 ≠ a / 64 → t.severity b = s.severity b)
      ∧ s.sameHeart t
      ∧ (t.severity a = 1 → (t.reg .eccCorr (s.stackOf (a / 64 * 64))).toNat
          = min (2 ^ 32 - 1) ((s.reg .eccCorr (s.stackOf (a / 64 * 64))).toNat + 1))
      ∧ (t.severity a = 2 → (t.reg .eccUncorr (s.stackOf (a / 64 * 64))).toNat
          = min (2 ^ 32 - 1) ((s.reg .eccUncorr (s.stackOf (a / 64 * 64))).toNat + 1)
        ∧ (bitOf (s.reg .hbmFault (s.stackOf (a / 64 * 64))) 31 = false →
          bits (t.reg .hbmFault (s.stackOf (a / 64 * 64))) 31 28 = 9
          ∧ (t.reg .hbmFaultAddrLo (s.stackOf (a / 64 * 64))).toNat = a / 64 * 64 % 2 ^ 32
          ∧ (t.reg .hbmFaultAddrHi (s.stackOf (a / 64 * 64))).toNat = a / 64 * 64 / 2 ^ 32)))
  ∧ (∀ (s : State) (a hint link core id : Nat) (data : List Byte), inHbm a = true → s.stackOnline a = true → data.length = 64 →
    (id = 0 ∨ s.guarded (a / 64 * 64) = false) → (link < 2 ∨ bitOf (s.reg .hbmCfg (s.stackOf (a / 64 * 64))) 3 = false) →
    ∃ t, exec (.hbmWrite a hint data false link core id) s = .next t
      ∧ t.readBytes (a / 64 * 64) 64 = data ∧ (∀ b, b / 64 ≠ a / 64 → t.readByte b = s.readByte b)
      ∧ t.severity a = 0 ∧ (∀ b, b / 64 ≠ a / 64 → t.severity b = s.severity b) ∧ t.cores = s.cores ∧ t.out = s.out)
  ∧ ∀ (s : State) (a hint link core id : Nat) (data : List Byte), inHbm a = true → s.stackOnline a = true →
    (id = 0 ∨ s.guarded (a / 64 * 64) = false) → (s.core core).cmd? id = none →
    ∃ t, exec (.hbmWrite a hint data true link core id) s = .next t ∧ s.sameHeart t ∧ t.ecc = s.ecc
      ∧ (bitOf (s.reg .hbmFault (s.stackOf (a / 64 * 64))) 31 = false →
          bits (t.reg .hbmFault (s.stackOf (a / 64 * 64))) 31 28 = 10)

/-- A temperature reading sets THERM_STATUS by the step rule (13 R282, R283); a recalibration is counted (13 R285); DROP_KEEP releases the stack's
KEEP lines (13 R281); OFFLINE, ONLINE and the repairs need the debug level, a closed service and, for a repair, an offline stack (13 R286). Where
the spec is silent it states the model's choices: log entries 59, 61, 62. -/
def Obligations.StackMaintenance : Prop :=
  (∀ (s : State) (k temp rate : Nat), k < 12 → temp < 95 → rate < 3 →
    ∃ t, exec (.hbmTempRead k temp rate false) s = .next t ∧ t.rf .thermStatus k 0 15 8 = temp ∧ t.rf .thermStatus k 0 5 4 = rate
      ∧ s.sameHeart t
      ∧ (let old := s.rf .thermStatus k 0 1 0
        let th := fun j => bits (s.reg .thermCfg k) (8 * j - 1) (8 * j - 8)
        let new := t.rf .thermStatus k 0 1 0
        (∀ j, 1 ≤ j → j ≤ 3 → old < j → th j ≤ temp → j ≤ new ∧ th new ≤ temp)
        ∧ ((∀ j, 1 ≤ j → j ≤ 3 → old < j → temp < th j) → new = if 0 < old ∧ temp + 3 ≤ th old then old - 1 else old)))
  ∧ (∀ (s : State) (k : Nat) (fail : Bool), k < 12 → bitOf (s.reg .recalCfg k) 8 = true →
    ∃ t, exec (.hbmRecalibration k fail) s = .next t
      ∧ t.rf .recalStatus k 0 31 16 = (s.rf .recalStatus k 0 31 16 + 1) % 65536 ∧ bitOf (t.reg .recalStatus k) 0 = fail
      ∧ s.onlyRegs t [adr .recalStatus k 0])
  ∧ (∀ (s : State) (k : Nat), k < 12 →
    ∃ t, exec (.dropKeep k) s = .next t ∧ (∀ g, g ∈ t.keep ↔ (g ∈ s.keep ∧ s.stackOf (64 * g) ≠ k)) ∧ { t with keep := s.keep } = s)
  ∧ (∀ (s : State) (k req : Nat), k < 12 → s.repairLevel = true → s.serviceOpen = false →
    (∃ t, exec (.offline k req) s = .next t ∧ bitOf (t.reg .mtStatus k) 3 = true ∧ t.rf .mtStatus k 0 1 0 = 2
      ∧ s.onlyRegs t [adr .mtStatus k 0])
    ∧ (¬ k ∈ s.tap.wrapped → ∃ t, exec (.online k req) s = .next t ∧ bitOf (t.reg .mtStatus k) 3 = false ∧ t.rf .mtStatus k 0 1 0 = 2
      ∧ s.onlyRegs t [adr .mtStatus k 0])
    ∧ (bitOf (s.reg .mtStatus k) 3 = true →
      (∃ t, exec (.softPpr k req) s = .next t ∧ t.repairs = s.repairs ++ [⟨k, 1, s.reg .mtRow k⟩] ∧ s.sameHeart t
        ∧ bitOf (t.reg .mtStatus k) 3 = true)
      ∧ (∃ t, exec (.hardPpr k req) s = .next t ∧ t.repairs = s.repairs ++ [⟨k, 2, s.reg .mtRow k⟩] ∧ s.sameHeart t
        ∧ bitOf (t.reg .mtStatus k) 3 = true)
      ∧ ∃ t, exec (.laneRemap k req) s = .next t ∧ t.repairs = s.repairs ++ [⟨k, 3, s.reg .mtLane k⟩] ∧ s.sameHeart t
        ∧ bitOf (t.reg .mtStatus k) 3 = true))
  ∧ (∀ (s : State) (k req : Nat), k < 12 → (s.repairLevel = false ∨ s.serviceOpen = true) →
    (∃ t, exec (.offline k req) s = .next t ∧ s.refusedOnly t) ∧ (∃ t, exec (.online k req) s = .next t ∧ s.refusedOnly t)
    ∧ (∃ t, exec (.softPpr k req) s = .next t ∧ s.refusedOnly t) ∧ (∃ t, exec (.hardPpr k req) s = .next t ∧ s.refusedOnly t)
    ∧ ∃ t, exec (.laneRemap k req) s = .next t ∧ s.refusedOnly t)
  ∧ ∀ (s : State) (k req : Nat), k < 12 → bitOf (s.reg .mtStatus k) 3 = false →
    (∃ t, exec (.softPpr k req) s = .next t ∧ s.refusedOnly t) ∧ (∃ t, exec (.hardPpr k req) s = .next t ∧ s.refusedOnly t)
    ∧ ∃ t, exec (.laneRemap k req) s = .next t ∧ s.refusedOnly t

/-! ### The fabric -/

/-- A packet for this device passes the checks of its arrival (14 R299, R301, R315). -/
structure Sys2Proof.Machine.State.Accepts (s : State) (port : Nat) (p : Packet) : Prop where
  inRange : port < 16
  up : s.portUp port = true
  legal : p.legal = true
  here : p.dstDev = s.myDev
  joined : s.joined = true
  check : s.e2eOn p.srcDev = false
    ∨ (p.f3.toNat = crc64 p.e2eBytes ∧ ¬ p.srcDev ∈ s.broken ∧ (Tab.get 0 s.aliveRx p.srcDev = 0 ∨ p.alive + 1 = Tab.get 0 s.aliveRx p.srcDev))

/-- The next alive value is expected of its source (14 R301; 18 R396). -/
def Sys2Proof.Machine.State.expectsNext (s t : State) (p : Packet) : Prop :=
  Tab.get 0 t.aliveRx p.srcDev = (p.alive + 1) % 65536 + 1 ∧ Tab.get 0 t.aliveAt p.srcDev = s.time ∧ ¬ p.srcDev ∈ t.broken

/-- A row of an arriving packet of a type: accepted, it has its effect. -/
def Sys2Proof.Machine.PacketRow (mk : Nat → Packet → Instr) (typ : Nat) (pre : State → Packet → Prop) (post : State → Packet → State → Prop) :
    Prop :=
  ∀ (s : State) (port : Nat) (p : Packet), s.Accepts port (p.withTyp typ) → pre s (p.withTyp typ) →
    ∃ t, exec (mk port p) s = .next t ∧ s.expectsNext t (p.withTyp typ) ∧ post s (p.withTyp typ) t

/-- One packet has been sent to a device. -/
def Sys2Proof.Machine.State.answers (s t : State) (dst typ opid core arg : Nat) (payload : List Byte) : Prop :=
  ∃ (port : Nat) (a : Packet), s.route s.myDev dst = some port ∧ t.out = s.out ++ [.pkt port a] ∧ a.typ = typ ∧ a.srcDev = s.myDev
    ∧ a.dstDev = dst ∧ a.opid = opid ∧ a.dstCore = core ∧ a.arg = arg ∧ a.payload = payload

/-- A packet to a device leaves: its level is permitted (01 R25) and a path is UP (14 R297). -/
def Sys2Proof.Machine.State.reaches (s : State) (dev : Nat) : Prop := devLevel s.myDev dev ≤ s.maxLevel ∧ (s.route s.myDev dev).isSome

/-- No end of joining follows: the device has joined, or its start-up does not wait for that (14 R315; 21 R462). -/
def Sys2Proof.Machine.State.noJoinStep (s : State) : Prop := s.joined = true ∨ s.boot ≠ 8

/-- The offset of a packet's address in its target's scratchpad. -/
def Sys2Proof.Packet.off (p : Packet) : Nat := p.addr - spBase p.dstCore

/-- STORE and PUT land in an open window and are acknowledged (14 R304, R306); LOAD_REQ and GET_REQ are answered with the bytes asked for (14 R304),
or wait for FULL drawers. Where the spec is silent it states the model's choices: log entries 65, 71. -/
def Obligations.RemoteStoresAndLoads : Prop :=
  (∀ typ, typ = 0x01 ∨ typ = 0x04 →
    PacketRow (if typ = 0x01 then .store else .put) typ
      (fun s p => p.inTarget = true ∧ p.srcDev ≠ s.myDev ∧ s.waitw = [] ∧ s.waitr = [] ∧ s.portsHeld p.dstCore = false
        ∧ p.payload.length = 64 * p.len64 ∧ s.winTest p.dstCore p.srcDev p.srcCore p.off (64 * p.len64) = .landed
        ∧ s.reaches p.srcDev)
      (fun s p t => t.readBytes p.addr (64 * p.len64) = p.payload
        ∧ (∀ a, ¬ (p.addr ≤ a ∧ a < p.addr + 64 * p.len64) → t.readByte a = s.readByte a)
        ∧ s.answers t p.srcDev 0x07 p.opid p.srcCore stOk [] ∧ ∀ d, d ≠ p.dstCore → t.core d = s.core d))
  ∧ (∀ typ, typ = 0x02 ∨ typ = 0x05 →
    PacketRow (if typ = 0x02 then .loadReq else .getReq) typ
      (fun s p => p.inTarget = true ∧ s.waitw = [] ∧ s.waitr = [] ∧ (∀ b ∈ s.badpar, ¬ (p.addr ≤ b ∧ b < p.addr + 64 * p.len64))
        ∧ s.readTest p.dstCore p.srcDev p.srcCore p.off (64 * p.len64) = .landed ∧ s.reaches p.srcDev)
      (fun s p t => s.answers t p.srcDev (if typ = 0x02 then 0x03 else 0x06) p.opid p.srcCore 0 (s.readBytes p.addr (64 * p.len64))
        ∧ t.mem = s.mem ∧ t.cores = s.cores ∧ t.waitr = []))
  ∧ (∀ typ, typ = 0x02 ∨ typ = 0x05 →
    PacketRow (if typ = 0x02 then .loadReq else .getReq) typ
      (fun s p => p.inTarget = true ∧ s.readTest p.dstCore p.srcDev p.srcCore p.off (64 * p.len64) = .waits)
      (fun s p t => t.mem = s.mem ∧ t.cores = s.cores ∧ t.out = s.out
        ∧ ∃ r, t.waitr = s.waitr ++ [r] ∧ (r.dev, r.core, r.opid, r.owner, r.off, r.len) = (p.srcDev, p.srcCore, p.opid, p.dstCore, p.off, 64 * p.len64)))
  ∧ ∀ (s : State) (i : Nat) (r : WaitRead), s.waitr[i]? = some r → s.readBehind r = false →
    s.readTest r.owner r.dev r.core r.off r.len = .landed →
    (∀ b ∈ s.badpar, ¬ (spBase r.owner + r.off ≤ b ∧ b < spBase r.owner + r.off + r.len)) → r.len ≤ 4096 → r.len % 64 = 0 →
    r.dev < 2 ^ 18 → r.opid < 2 ^ 19 → r.owner < 96 → r.core < 128 → s.reaches r.dev →
    ∃ t, exec (.remoteReadServe i) s = .next t ∧ t.waitr = s.waitr.eraseIdx i ∧ t.mem = s.mem ∧ t.cores = s.cores
      ∧ s.answers t r.dev (if r.get then 0x06 else 0x03) r.opid r.core 0 (s.readBytes (spBase r.owner + r.off) r.len)

/-- One operation of one transfer is under way: its last packet. -/
def Sys2Proof.Machine.State.lastOp (s : State) (p : Packet) (f : FabOp) (q : QCmd) : Prop :=
  s.fops = [f] ∧ f.opid = p.opid ∧ f.cmd = q.id ∧ (s.core f.core).q = [q] ∧ q.eng = 4 ∧ q.remote = 1 ∧ s.waitw = [] ∧ q.lat.outs = []
  ∧ q.peer = none ∧ q.cons = [] ∧ ∀ d, ((s.core f.core).drawer d).closing = false

/-- The command of a transfer has completed with ST_OK: its destinations are FULL, and XPUT and XGET count one (14 R304). -/
def Sys2Proof.Machine.State.transferOver (s t : State) (f : FabOp) (q : QCmd) : Prop :=
  (t.core f.core).q = [] ∧ t.fops = [] ∧ (∀ d ∈ q.dsts, ((t.core f.core).drawer d).tag = .full ∧ ((t.core f.core).drawer d).claim = false)
  ∧ (∀ d, ¬ d ∈ q.dsts → (t.core f.core).drawer d = (s.core f.core).drawer d)
  ∧ (∀ n, (t.core f.core).counter n = (s.core f.core).counter n
      + (if (q.cmd.op? = some .xput ∨ q.cmd.op? = some .xget) ∧ n = q.cmd.xCctr then 1 else 0)
      + (if (q.cmd.sigMode = 1 ∨ q.cmd.sigMode = 3) ∧ n = q.cmd.sigCtr then BitVec.ofNat 16 q.cmd.sigDelta else 0))
  ∧ (∀ d, d ≠ f.core → t.core d = s.core d)

/-- LOAD_DATA and GET_DATA store what a transfer asked for; ACK ends an operation (14 R301, R304, R309); a status 0x71 or 0x72 is answered with
RESYNC. Where the spec is silent it states the model's choices: log entry 65. -/
def Obligations.AnswersEndRemoteTransfers : Prop :=
  (∀ typ, typ = 0x03 ∨ typ = 0x06 →
    ∀ (s : State) (port : Nat) (p : Packet) (f : FabOp) (q : QCmd), s.Accepts port (p.withTyp typ) → s.lastOp (p.withTyp typ) f q →
      f.addrs.length = p.len64 → p.payload.length = 64 * p.len64 →
      (∀ a ∈ f.addrs, (regionOf a = some 0 ∧ s.stackOnline a.toNat = true) ∨ regionOf a = some (1 + f.core)) →
      ∃ t, exec (if typ = 0x03 then .loadData port p else .getData port p) s = .next t
        ∧ s.expectsNext t (p.withTyp typ) ∧ s.transferOver t f q
        ∧ ∀ a, t.readByte a = ((f.addrs.zip ((List.range p.len64).map (fun i => (p.payload.drop (64 * i)).take 64))).foldl
            (fun u e => u.writeBytes e.1.toNat e.2) s).readByte a)
  ∧ (∀ (s : State) (port : Nat) (p : Packet) (f : FabOp) (q : QCmd), s.Accepts port (p.withTyp 0x07) → s.lastOp (p.withTyp 0x07) f q →
      p.arg % 256 = stOk →
      ∃ t, exec (.ack port p) s = .next t ∧ s.expectsNext t (p.withTyp 0x07) ∧ s.transferOver t f q ∧ t.mem = s.mem)
  ∧ (∀ (s : State) (port : Nat) (p : Packet) (f : FabOp) (q : QCmd), s.Accepts port (p.withTyp 0x07) → s.lastOp (p.withTyp 0x07) f q →
      p.arg % 256 = 0x70 → q.held = [] → q.macroDr = [] → q.cmd.sigMode ≠ 3 → (q.cmd.op? = some .xput ∨ q.cmd.op? = some .xfer) →
      ∃ t, exec (.ack port p) s = .next t ∧ (t.core f.core).q = [] ∧ t.fops = []
        ∧ (∀ d ∈ q.dsts, ((t.core f.core).drawer d).tag = .torn) ∧ (∀ x, t.context f.core x = s.context f.core x)
        ∧ (t.core f.core).counters = (s.core f.core).counters ∧ t.mem = s.mem)
  ∧ PacketRow .ack 0x07 (fun s p => (p.arg % 256 = 0x71 ∨ p.arg % 256 = 0x72) ∧ (∀ f ∈ s.fops, f.dev ≠ p.srcDev)
        ∧ s.reaches p.srcDev)
      (fun s p t => s.answers t p.srcDev 0x0D 0 0x7F 0 [] ∧ t.mem = s.mem ∧ t.cores = s.cores ∧ t.fops = s.fops)

/-- Packets for other devices go on by the first port of their route that is UP (14 R296, R297); a packet of wrong form, of a wrong end-to-end check
or out of sequence changes neither memory nor cores (14 R299, R301); RESYNC mends a broken stream (14 R301); an idle entry of the alive table is
forgotten (18 R397). Where the spec is silent it states the model's choices: log entries 68, 70, 147. -/
def Obligations.PacketsAreCheckedAndForwarded : Prop :=
  (∀ (s : State) (port q : Nat) (p : Packet), port < 16 → s.portUp port = true → p.legal = true → p.dstDev ≠ s.myDev →
    (s.joined = true ∨ p.typ = 0x0B ∨ p.typ = 0x0C ∨ p.typ = 0x0D) → s.route p.srcDev p.dstDev = some q →
    ∃ t, exec (.packetForward port p) s = .next t ∧ t.out = s.out ++ [.pkt q p] ∧ t.mem = s.mem ∧ t.cores = s.cores ∧ t.aliveRx = s.aliveRx)
  ∧ (∀ (s : State) (port : Nat) (p : Packet), port < 16 → s.portUp port = true → p.legal = false →
    ∃ t, exec (.packetForward port p) s = .next t ∧ s.eventsOnly t)
  ∧ (∀ (s : State) (port : Nat) (p : Packet), port < 16 → s.portUp port = true → p.legal = true → p.dstDev = s.myDev → s.joined = true →
    s.e2eOn p.srcDev = true → p.f3.toNat ≠ crc64 p.e2eBytes →
    ∃ t, exec (.packetForward port p) s = .next t ∧ t.mem = s.mem ∧ t.cores = s.cores ∧ t.aliveRx = s.aliveRx ∧ t.broken = s.broken
      ∧ (t.reg .e2eFail).toNat = min (2 ^ 32 - 1) ((s.reg .e2eFail).toNat + 1))
  ∧ (∀ (s : State) (port : Nat) (p : Packet), port < 16 → s.portUp port = true → p.legal = true → p.dstDev = s.myDev → s.joined = true →
    s.e2eOn p.srcDev = true → p.f3.toNat = crc64 p.e2eBytes → ¬ p.srcDev ∈ s.broken → Tab.get 0 s.aliveRx p.srcDev ≠ 0 →
    32768 < (Tab.get 0 s.aliveRx p.srcDev + 65535 - p.alive) % 65536 → p.alive + 1 ≠ Tab.get 0 s.aliveRx p.srcDev →
    ∃ t, exec (.packetForward port p) s = .next t ∧ t.mem = s.mem ∧ t.cores = s.cores ∧ p.srcDev ∈ t.broken
      ∧ (t.reg .aliveGap).toNat = min (2 ^ 32 - 1) ((s.reg .aliveGap).toNat + 1))
  ∧ (∀ (s : State) (port : Nat) (p : Packet), port < 16 → s.portUp port = true → (p.withTyp 0x0D).legal = true →
    p.dstDev = s.myDev → s.e2eOn p.srcDev = true → (p.withTyp 0x0D).f3.toNat = crc64 (p.withTyp 0x0D).e2eBytes → p.srcDev ∈ s.broken →
    ∃ t, exec (.resync port p) s = .next t ∧ s.expectsNext t (p.withTyp 0x0D) ∧ t.mem = s.mem ∧ t.cores = s.cores ∧ t.out = s.out)
  ∧ (∀ (s : State) (dev : Nat),
    ∃ t, exec (.aliveEntryAge (dev, true)) s = .next t ∧ dev ∈ t.broken ∧ { s with broken := t.broken }.eventsOnly t)
  ∧ ∀ (s : State) (dev : Nat),
    ∃ t, exec (.aliveEntryAge (dev, false)) s = .next t
      ∧ (Tab.get 0 s.aliveAt dev + 2 ^ s.rf .aliveCfg 0 0 5 0 ≤ s.time → Tab.get 0 t.aliveRx dev = 0 ∧ ¬ dev ∈ t.broken
          ∧ (∀ d, d ≠ dev → Tab.get 0 t.aliveRx d = Tab.get 0 s.aliveRx d)
          ∧ { t with aliveRx := s.aliveRx, aliveAt := s.aliveAt, broken := s.broken } = s)
      ∧ (¬ Tab.get 0 s.aliveAt dev + 2 ^ s.rf .aliveCfg 0 0 5 0 ≤ s.time → t = s)

/-- SIGNAL adds to a core counter (14 R308); BAR_ARRIVE is counted at the home, whose last arrival releases the phase everywhere, and BAR_RELEASE
releases it at a member (14 R311); poison and the watchdog (14 R312); grants (14 R307). Where the spec is silent it states the model's choices: log
entries 56, 58, 74. -/
def Obligations.FabricSignalsBarriersAndGrants : Prop :=
  PacketRow .signal 0x08 (fun s p => p.dstCore < 96 ∧ devLevel s.myDev p.srcDev ≤ s.maxLevel ∧ (devLevel s.myDev p.srcDev ≠ 4 ∨ s.granted p.srcDev = true)
        ∧ (s.context p.dstCore (s.ctrOwner p.dstCore p.ctr)).fresh = false)
      (fun s p t => (t.core p.dstCore).counter p.ctr = (s.core p.dstCore).counter p.ctr + BitVec.ofNat 16 p.arg
        ∧ (∀ n, n ≠ p.ctr → (t.core p.dstCore).counter n = (s.core p.dstCore).counter n)
        ∧ (∀ d, d ≠ p.dstCore → t.core d = s.core d) ∧ t.mem = s.mem ∧ t.out = s.out)
  ∧ PacketRow .signal 0x08 (fun s p => p.dstCore < 96
        ∧ (s.maxLevel < devLevel s.myDev p.srcDev ∨ (devLevel s.myDev p.srcDev = 4 ∧ s.granted p.srcDev = false)))
      (fun s _ t => s.sameHeart t ∧ t.ctrs = s.ctrs)
  ∧ PacketRow .barArrive 0x09 (fun s p => s.fbarHomeDev (p.arg % 16) = s.myDev ∧ barArmed (s.barCfg (288 + p.arg % 16)) = true
        ∧ p.srcDev ∈ s.fbarMembers (p.arg % 16) ∧ (s.bar (288 + p.arg % 16)).poisoned = false ∧ natBit p.arg 15 = false
        ∧ natBit p.arg 14 = (s.bar (288 + p.arg % 16)).sense
        ∧ ((s.fbar (p.arg % 16)).cur.length + 1 < s.rf .fbarDevs 0 (p.arg % 16) 12 0))
      (fun s p t => (t.fbar (p.arg % 16)).cur = addOnce p.srcDev (s.fbar (p.arg % 16)).cur
        ∧ (t.fbar (p.arg % 16)).nxt = (s.fbar (p.arg % 16)).nxt ∧ s.sameHeart t ∧ t.bars = s.bars)
  ∧ PacketRow .barArrive 0x09 (fun s p => s.fbarHomeDev (p.arg % 16) = s.myDev ∧ barArmed (s.barCfg (288 + p.arg % 16)) = true
        ∧ p.srcDev ∈ s.fbarMembers (p.arg % 16) ∧ (s.bar (288 + p.arg % 16)).poisoned = false ∧ natBit p.arg 15 = false
        ∧ natBit p.arg 14 = (s.bar (288 + p.arg % 16)).sense
        ∧ (addOnce p.srcDev (s.fbar (p.arg % 16)).cur).length = s.rf .fbarDevs 0 (p.arg % 16) 12 0
        ∧ s.barCmds (288 + p.arg % 16) = [] ∧ (s.bar (288 + p.arg % 16)).nxt = [] ∧ (s.bar (288 + p.arg % 16)).held = [])
      (fun s p t =>
        t.bar (288 + p.arg % 16) = { (s.bar (288 + p.arg % 16)) with
          sense := !(s.bar (288 + p.arg % 16)).sense, phases := ((s.bar (288 + p.arg % 16)).phases + 1) % 2048, cur := [], nxt := [] }
        ∧ (t.fbar (p.arg % 16)).cur = (s.fbar (p.arg % 16)).nxt ∧ (t.fbar (p.arg % 16)).nxt = []
        ∧ ∃ ps, t.out = s.out ++ ps ∧ ∀ o ∈ ps, ∃ (port : Nat) (a : Packet), o = .pkt port a ∧ a.typ = 0x0A ∧ a.dstDev ≠ s.myDev)
  ∧ PacketRow .barArrive 0x09 (fun s p => s.fbarHomeDev (p.arg % 16) = s.myDev ∧ barArmed (s.barCfg (288 + p.arg % 16)) = true
        ∧ p.srcDev ∈ s.fbarMembers (p.arg % 16) ∧ natBit p.arg 15 = true)
      (fun _ p t => (t.bar (288 + p.arg % 16)).poisoned = true)
  ∧ PacketRow .barRelease 0x0A (fun s p => s.fbarHomeDev (p.arg % 16) = p.srcDev ∧ barArmed (s.barCfg (288 + p.arg % 16)) = true
        ∧ (s.bar (288 + p.arg % 16)).orphan = false ∧ natBit p.arg 15 = false ∧ natBit p.arg 14 = (s.bar (288 + p.arg % 16)).sense
        ∧ (s.bar (288 + p.arg % 16)).poisoned = false ∧ s.barCmds (288 + p.arg % 16) = [] ∧ (s.bar (288 + p.arg % 16)).nxt = []
        ∧ (s.bar (288 + p.arg % 16)).held = [])
      (fun s p t => t.bar (288 + p.arg % 16) = { (s.bar (288 + p.arg % 16)) with
          sense := !(s.bar (288 + p.arg % 16)).sense, phases := ((s.bar (288 + p.arg % 16)).phases + 1) % 2048, cur := [], nxt := [] }
        ∧ t.mem = s.mem ∧ t.out = s.out)
  ∧ (∀ (s : State) (b : Nat) (home : Bool), b < 16 → barArmed (s.barCfg (288 + b)) = true → (s.bar (288 + b)).poisoned = false →
    (if home then s.fbarHomeDev b = s.myDev ∧ (s.fbar b).cur ≠ []
      else (s.bar (288 + b)).orphan = false ∧ (s.bar (288 + b)).cur ≠ []) →
    ∃ t, exec (.fabricBarrierWatchdog b home) s = .next t ∧ (t.bar (288 + b)).poisoned = true)
  ∧ (∀ (s : State) (g : Nat) (v : W32), g < 16 → (bitOf (s.reg .fabGrant 0 g) 31 = false ∨ devLevel s.myDev (bits (s.reg .fabGrant 0 g) 17 0) ≠ 4) →
    ∃ t, exec (.fabGrantWrite g v) s = .next t ∧ bits (t.reg .fabGrant 0 g) 17 0 = bits v 17 0
      ∧ bitOf (t.reg .fabGrant 0 g) 31 = bitOf v 31 ∧ s.onlyRegs t [adr .fabGrant 0 g])
  ∧ ∀ (s : State) (g c w : Nat) (v : W32), g < 16 → c < 96 → w < 16 → bitOf (s.reg .fabGrant 0 g) 31 = true → bitOf v 31 = false →
    devLevel s.myDev (bits (s.reg .fabGrant 0 g) 17 0) = 4 → (s.win c w).isOpen = true →
    (s.win c w).device s = bits (s.reg .fabGrant 0 g) 17 0 →
    ∃ t, exec (.fabGrantWrite g v) s = .next t ∧ (t.win c w).isOpen = false ∧ t.mem = s.mem

/-- Link frames arrive in sequence, or are asked for again, and the eighth failure in a row takes the port down (14 R300); training, joining and the
peer's claims (14 R290, R295, R314); PORT_CTRL (14 R290, R292). Where the spec is silent it states the model's choices: log entries 69, 72. -/
def Obligations.FabricPortsTrainAndJoin : Prop :=
  (∀ (s : State) (p seq : Nat), p < 16 → s.portUp p = true → seq < 4096 → seq = (Tab.get {} s.links p).rxSeq →
    ∃ t, exec (.linkFrameReceive p seq (true, none)) s = .next t
      ∧ Tab.get {} t.links p = { (Tab.get {} s.links p) with rxSeq := (seq + 1) % 4096, fails := 0 }
      ∧ (∀ j, j ≠ p → Tab.get {} t.links j = Tab.get {} s.links j) ∧ { t with links := s.links } = s)
  ∧ (∀ (s : State) (p seq : Nat) (nak : Option Nat), p < 16 → s.portUp p = true → (Tab.get {} s.links p).fails ≠ 8 →
    ∃ t, exec (.linkFrameReceive p seq (false, nak)) s = .next t
      ∧ Tab.get {} t.links p = { (Tab.get {} s.links p) with fails := (Tab.get {} s.links p).fails + 1 }
      ∧ t.out = s.out ++ [.link p (Tab.get {} s.links p).rxSeq] ∧ t.cores = s.cores ∧ t.mem = s.mem
      ∧ (t.reg .portCrcErr p).toNat = min (2 ^ 32 - 1) ((s.reg .portCrcErr p).toNat + 1))
  ∧ (∀ (s : State) (p seq n : Nat) (e : Packet × Nat), p < 16 → s.portUp p = true → seq < 4096 → seq = (Tab.get {} s.links p).rxSeq → n < 4096 →
    (s.framesOf p).zipIdx.reverse.find? (fun e => e.2 % 4096 == n) = some e →
    ¬ ((Tab.get {} s.links p).resent = 8 ∧ (Tab.get {} s.links p).nak = n) →
    ∃ t, exec (.linkFrameReceive p seq (true, some n)) s = .next t ∧ t.out = s.out ++ [.resend p n e.1] ∧ t.cores = s.cores ∧ t.mem = s.mem
      ∧ (t.reg .portLinkRetry p).toNat = min (2 ^ 32 - 1) ((s.reg .portLinkRetry p).toNat + 1))
  ∧ (∀ (s : State) (p seq : Nat) (nak : Option Nat), p < 16 → s.portUp p = true → (Tab.get {} s.links p).fails = 8 → s.noJoinStep →
    ∃ t, exec (.linkFrameReceive p seq (false, nak)) s = .next t ∧ t.portState p = 4 ∧ t.cores = s.cores ∧ t.mem = s.mem)
  ∧ (∀ (s : State) (p w : Nat), p < 16 → s.portState p = 1 → 1 ≤ w → w ≤ 3 →
    ∃ t, exec (.portTraining p true w) s = .next t ∧ t.rf .portStatus p 0 28 27 = w ∧ t.portState p = 1
      ∧ (∃ a : Packet, t.out = s.out ++ [.pkt p a] ∧ a.typ = 0x0C ∧ a.srcDev = s.myDev ∧ a.dstDev = (wiredPeer s.myDev p).1
          ∧ a.payload.take 7 = natLE 4 s.myDev ++ natLE 1 p ++ natLE 1 (portRole p).1 ++ natLE 1 s.maxLevel)
      ∧ { s with out := t.out, aliveTx := t.aliveTx }.onlyRegs t [adr .portStatus p 0])
  ∧ (∀ (s : State) (p w : Nat), p < 16 → s.portState p = 1 → s.noJoinStep →
    ∃ t, exec (.portTraining p false w) s = .next t ∧ t.portState p = 4 ∧ t.rf .portStatus p 0 28 27 = 0 ∧ t.cores = s.cores ∧ t.mem = s.mem
      ∧ (t.reg .portDownCount p).toNat = min (2 ^ 32 - 1) ((s.reg .portDownCount p).toNat + 1))
  ∧ (∀ (s : State) (p : Nat), p < 16 → s.portState p = 4 → s.portEnabled p = true →
    ∃ t, exec (.trainingRetry p) s = .next t ∧ t.portState p = 1 ∧ s.onlyRegs t [adr .portStatus p 0])
  ∧ (∀ (s : State) (p w : Nat), p < 16 → s.portUp p = true → w ≤ 3 → s.rf .portStatus p 0 28 27 ≠ w →
    ∃ t, exec (.portWidthChange p w) s = .next t ∧ t.portState p = (if w = 0 then 4 else 1) ∧ t.rf .portStatus p 0 28 27 = w
      ∧ s.onlyRegs t [adr .portStatus p 0])
  ∧ (∀ (s : State) (p dev pp role level : Nat), p < 16 → s.portState p = 1 → s.rf .portStatus p 0 28 27 ≠ 0 → dev < 2 ^ 18 → pp < 16 → s.noJoinStep →
    ∃ t, exec (.join p dev pp role level) s = .next t ∧ t.rf .portStatus p 0 17 0 = dev ∧ t.rf .portStatus p 0 26 23 = pp
      ∧ t.portState p = (if wiredPeer s.myDev p = (dev, pp) ∧ dev ≠ s.myDev ∧ role = (portRole p).1
          then (if s.rf .portStatus p 0 28 27 = 3 then 2 else 3) else 5)
      ∧ t.cores = s.cores ∧ t.mem = s.mem)
  ∧ ∀ (s : State) (p : Nat) (e : Bool), p < 16 → s.noJoinStep →
    ∃ t, exec (.portCtrlWrite p e) s = .next t ∧ bitOf (t.reg .portCtrl p) 0 = e
      ∧ (s.portEnabled p = true → e = false → t.portState p = 0)
      ∧ (s.portEnabled p = false → s.portDisabled p = false → e = true → s.fabricBegan = true → t.portState p = 1)
      ∧ (s.portDisabled p = true → t.portState p = s.portState p) ∧ t.cores = s.cores ∧ t.mem = s.mem

/-- Device time: the first TIME sets it, later ones measure an offset and count good readings (14 R313, R315); TIME goes to the devices that follow
this one; four losses in a row lose the bound (14 R313). Barrier and counter configurations (12 R269; 14 R311). Where the spec is silent it states
the model's choices: log entries 8, 56, 73. -/
def Obligations.TimeAndObjectConfigurations : Prop :=
  (∀ (s : State) (p off stamp : Nat), p < 16 → s.portUp p = true → (timeParent s.myDev).isSome → (parentPort s.myDev).getD p = p →
    s.timeSet = false → s.serviceOpen = false → stamp < 2 ^ 64 →
    ∃ t, exec (.time p off stamp) s = .next t ∧ t.time = stamp ∧ t.timeSet = true
      ∧ { t with time := s.time, timeFrac := s.timeFrac, timeSet := s.timeSet, timeMissed := s.timeMissed } = s)
  ∧ (∀ (s : State) (p off stamp : Nat), p < 16 → s.portUp p = true → (timeParent s.myDev).isSome → parentPort s.myDev = some p →
    s.timeSet = true → off < 2 ^ 16 → s.noJoinStep →
    ∃ t, exec (.time p off stamp) s = .next t
      ∧ (s.serviceOpen = false → (t.time : Int) * 2 ^ 32 + t.timeFrac
          = max 0 ((s.time : Int) * 2 ^ 32 + s.timeFrac + Config.timePhase (signed 16 off) s.timeRate))
      ∧ (s.serviceOpen = true → s.time ≤ t.time) ∧ t.timeRate = Config.timeRate (signed 16 off) s.timeRate ∧ t.rf .timeStatus 0 0 15 0 = off ∧ t.timeMissed = 0
      ∧ ((signed 16 off).natAbs ≤ 20 → bitOf (t.reg .timeStatus) 31 = true ∧ t.timeGood = s.timeGood + 1)
      ∧ (20 < (signed 16 off).natAbs → t.timeGood = 0)
      ∧ (160 < (signed 16 off).natAbs → bitOf (t.reg .timeStatus) 31 = false))
  ∧ (∀ s : State, ∃ (t : State) (ps : List Out), exec .timeSend s = .next t ∧ t.out = s.out ++ ps
      ∧ (∀ o ∈ ps, ∃ (port : Nat) (a : Packet), o = .pkt port a ∧ a.typ = 0x0B ∧ timeParent a.dstDev = some s.myDev
          ∧ devLevel s.myDev a.dstDev ≤ s.maxLevel ∧ a.payload.take 8 = natLE 8 s.time)
      ∧ { t with out := s.out, aliveTx := s.aliveTx } = s
      ∧ ∀ x p, x / 64 = s.myDev / 64 → timeParent x = some s.myDev → parentPort x = some p → s.portUp (wiredPeer x p).2 = true →
        devLevel s.myDev x ≤ s.maxLevel → ∃ a : Packet, .pkt (wiredPeer x p).2 a ∈ ps ∧ a.dstDev = x)
  ∧ (∀ s : State, (timeParent s.myDev).isSome →
    ∃ t, exec .timeLoss s = .next t ∧ bitOf (t.reg .timeStatus) 31 = false ∧ t.timeGood = 0 ∧ t.timeMissed = 4 ∧ s.sameHeart t)
  ∧ (∀ (s : State) (k req : Nat) (v : W32), k < 288 → barArmed (s.barCfg k) = false → barArmed v = true →
    1 ≤ barCount v → barCount v ≤ barMost k → ownerOk k (barOwner v / 4) = true →
    ∃ t, exec (.barCfgWrite false k v req) s = .next t ∧ t.barCfg k = v &&& 0xFFFFFF80 ∧ t.bar k = {}
      ∧ (∀ j, j ≠ k → t.bar j = s.bar j) ∧ { s with bars := t.bars }.onlyRegs t [(barCfgReg k).addr])
  ∧ (∀ (s : State) (k req : Nat) (v : W32), k < 288 → barArmed (s.barCfg k) = true → (barArmed v = true ∨ s.barBusy k = true) →
    ∃ t, exec (.barCfgWrite false k v req) s = .next t ∧ s.refusedOnly t)
  ∧ (∀ (s : State) (k req : Nat) (v : W32), k < 320 → ctrArmed (s.ctrCfg k) = false → ctrArmed v = true → ownerOk k (bits v 28 22) = true →
    ∃ t, exec (.barCfgWrite true k v req) s = .next t ∧ t.ctrCfg k = v &&& 0xFFFFFFC0
      ∧ t.ctr k = { (s.ctr k) with value := 0, orphan := false } ∧ (∀ j, j ≠ k → t.ctr j = s.ctr j)
      ∧ { s with ctrs := t.ctrs }.onlyRegs t [(ctrCfgReg k).addr])
  ∧ (∀ (s : State) (b req : Nat) (v : W32), b < 16 → barArmed (s.barCfg (288 + b)) = false → barArmed v = true → s.fbarLevelOk b = false →
    ∃ t, exec (.barCfgWrite false (288 + b) v req) s = .next t ∧ s.refusedOnly t)
  ∧ ∀ (s : State) (k req : Nat) (v : W32), k < 320 → ctrArmed (s.ctrCfg k) = true → ctrArmed v = true →
    ∃ t, exec (.barCfgWrite true k v req) s = .next t ∧ s.refusedOnly t

/-! ### Service ports and sessions -/

/-- A saturating count register counts one. -/
def Sys2Proof.Machine.State.countedOne (s t : State) (r : RegName) (i x : Nat) : Prop :=
  (t.reg r i x).toNat = min (2 ^ 32 - 1) ((s.reg r i x).toNat + 1)

/-- A frame passes the checks of R327 before its tag: the port runs with its link up, its form is right, its session is open on the port, its SEQ is new. -/
structure Sys2Proof.Machine.State.SvcIn (s : State) (f : SvcFrame) (he op : Bool) : Prop where
  inRange : f.port < 2
  runs : s.svcRuns f.port = true
  noPause : f.env.pause = false
  eth : s.ethOk f = true
  crc : f.crcOk = true
  form : f.formOk he = true
  isOpen : (s.session f.session).isOpen = true
  port : (s.session f.session).port = f.port
  role : op = true → (s.session f.session).role = 2
  new : (s.session f.session).isNew f.seq = true

/-- The session after a frame of it has passed every check (15 R320, R326, R333). -/
def Sys2Proof.Machine.Session.passed (v : Session) (f : SvcFrame) (now : Nat) : Session :=
  { (v.markSeq f.seq) with addr := f.addr, idleFrom := now, oldLeft := v.oldLeft - 1 }

/-- A row of a service frame: a wrong tag is counted and nothing else changes; with a correct one the frame is counted and has its
effect. -/
def Sys2Proof.Machine.SessionRow (mk : SvcFrame → Instr) (typ : Nat) (he op : Bool) (pre : State → SvcFrame → Prop)
    (post : State → SvcFrame → State → Prop) : Prop :=
  ∀ (s : State) (f : SvcFrame), s.SvcIn (f.withTyp typ) he op → pre s (f.withTyp typ) →
    ∃ t, exec (mk f) s = .next t
      ∧ ((s.session (f.withTyp typ).session).tagOk (f.withTyp typ) = false →
          s.countedOne t .authFail f.port 0 ∧ s.onlyRegs t [adr .authFail f.port 0])
      ∧ ((s.session (f.withTyp typ).session).tagOk (f.withTyp typ) = true →
          s.countedOne t .rxFrames f.port 0 ∧ post s (f.withTyp typ) t)

/-- The next SEQ of a session can be used, and no REKEY follows it (15 R324, R333). -/
def Sys2Proof.Machine.Session.seqFree (v : Session) : Prop := v.txSeq + 1 < 2 ^ 47 ∧ (v.txSeq + 1) % 2 ^ 32 ≠ 0

/-- One frame of session `n` has been sent, under its next SEQ. -/
def Sys2Proof.Machine.State.frameSent (s t : State) (n addr typ job frag count : Nat) (he last : Bool) (payload : List Byte) : Prop :=
  t.out = s.out ++ [.svc (s.svcOut
    { port := (s.session n).port, addr := addr, session := n, typ := typ, seq := (s.session n).txSeq + 1, job := job, frag := frag, count := count
      kphase := (s.session n).kphase, he := he, last := last } (s.session n).keys payload)]
  ∧ (t.session n).txSeq = (s.session n).txSeq + 1

/-- A message of the witness protocol about a job of a session, and nothing else, has gone to the partner, where WIT_CFG names one (16,
pairing). -/
def Sys2Proof.Machine.State.tells (s t : State) (msg n job : Nat) (fields data : List Byte := []) : Prop :=
  t.out = (s.wit msg n job fields data).out

/-- What a service port answers below its sessions: ARP, neighbour solicitation and echo at its own addresses (15 R319), its link (15 R318, R343),
and frames of wrong form, wrong CRC or no session (15 R327). Where the spec is silent it states the model's choices: log entries 20, 76, 143. -/
def Obligations.ServicePortsAnswerTheNetwork : Prop :=
  (∀ (s : State) (p addr : Nat) (v6 : Bool) (data : List Byte), p < 2 →
    (∃ t, exec (.echoRequest p addr v6 data) s = .next t
      ∧ t = (if s.ownAddr p addr v6 then { s with out := s.out ++ [.raw p (if v6 then 3 else 2) (s.macPair .svcGwMacLo .svcGwMacHi p) addr data] } else s))
    ∧ (∃ t, exec (.arpRequest p addr) s = .next t
      ∧ t = (if s.ownAddr p addr false then { s with out := s.out ++ [.raw p 0 (s.macPair .svcGwMacLo .svcGwMacHi p) addr (s.macOf p)] } else s))
    ∧ ∃ t, exec (.neighbourSolicitation p addr) s = .next t
      ∧ t = (if s.ownAddr p addr true then { s with out := s.out ++ [.raw p 1 (s.macPair .svcGwMacLo .svcGwMacHi p) addr (s.macOf p)] } else s))
  ∧ (∀ (s : State) (p : Nat), p < 2 →
    ∃ t, exec (.serviceLinkUp p) s = .next t ∧ (s.rf .svcStatus p 0 1 0 = 3 → t = s)
      ∧ ((∀ e ∈ s.journal, e.2.state ≠ 5 ∨ e.2.sentAt.isSome) →
          t.rf .svcStatus p 0 1 0 = 3 ∧ s.onlyRegs t [adr .svcStatus p 0] ∧ t.sessions = s.sessions))
  ∧ (∀ (s : State) (p : Nat), p < 2 →
    ∃ t, exec (.serviceLinkDown p) s = .next t ∧ t.rf .svcStatus p 0 1 0 ≠ 3 ∧ s.onlyRegs t [adr .svcStatus p 0] ∧ t.sessions = s.sessions)
  ∧ (∀ (s : State) (f : SvcFrame), f.port < 2 → s.svcRuns f.port = false ∨ f.env.pause = true → exec (.keepalive f) s = .next s)
  ∧ (∀ (s : State) (f : SvcFrame), f.port < 2 → s.svcRuns f.port = true → f.env.pause = false → s.ethOk (f.withTyp 0x51) = false →
    ∃ t, exec (.keepalive f) s = .next t ∧ s.countedOne t .malformed f.port 0 ∧ s.onlyRegs t [adr .malformed f.port 0])
  ∧ (∀ (s : State) (f : SvcFrame), f.port < 2 → s.svcRuns f.port = true → f.env.pause = false → s.ethOk (f.withTyp 0x51) = true →
    (f.withTyp 0x51).crcOk = false →
    ∃ t, exec (.keepalive f) s = .next t ∧ s.countedOne t .svcCrcErr f.port 0
      ∧ s.onlyRegs t [adr .svcCrcErr f.port 0, adr .cvMismatch 0 (2 * f.port)])
  ∧ (∀ (s : State) (f : SvcFrame), f.port < 2 → s.svcRuns f.port = true → f.env.pause = false → s.ethOk (f.withTyp 0x51) = true →
    (f.withTyp 0x51).crcOk = true → (f.fromClient = false ∨ (f.withTyp 0x51).formOk false = false) →
    ∃ t, exec (.keepalive f) s = .next t ∧ s.countedOne t .malformed f.port 0 ∧ s.onlyRegs t [adr .malformed f.port 0])
  ∧ (∀ (s : State) (f : SvcFrame), f.port < 2 → s.svcRuns f.port = true → f.env.pause = false → s.ethOk (f.withTyp 0x51) = true →
    (f.withTyp 0x51).crcOk = true → (f.withTyp 0x51).formOk false = true → (s.session f.session).isOpen = false →
    ∃ t, exec (.keepalive f) s = .next t ∧ s.countedOne t .dropped f.port 0 ∧ s.onlyRegs t [adr .dropped f.port 0])
  ∧ (∀ (s : State) (f : SvcFrame), f.port < 2 → s.svcRuns f.port = true → f.env.pause = false → s.ethOk (f.withTyp 0x51) = true →
    (f.withTyp 0x51).crcOk = true → (f.withTyp 0x51).formOk false = true → (s.session f.session).isOpen = true →
    (s.session f.session).port = f.port → (s.session f.session).isNew f.seq = false →
    ∃ t, exec (.keepalive f) s = .next t ∧ s.countedOne t .repeatCnt f.port 0 ∧ s.onlyRegs t [adr .repeatCnt f.port 0])
  ∧ ∀ (s : State) (v : Sending) (ks pl : List Byte), v.typ < 256 → v.seq < 2 ^ 48 → v.session < 2 ^ 24 →
    let f := s.svcOut v ks pl
    f.typ = v.typ ∧ f.session = v.session ∧ f.seq = v.seq ∧ f.last = v.last ∧ f.he = v.he ∧ f.kphase = v.kphase
    ∧ f.crc = BitVec.ofNat 32 (crc32c f.covered) ∧ f.payload = (if ks.isEmpty then pl else frameCrypt ks true v.seq v.he pl)
    ∧ (ks.isEmpty = false → f.tag = frameTag ks true v.seq v.he f.header f.payload)

/-- The public part of a REPLY before its signature (15 R329). -/
def Sys2Proof.Machine.State.replyPublic (s : State) : List Byte :=
  (s.randBytes 128).drop 96 ++ montPublic 4 ((s.randBytes 128).take 32)
    ++ (kemKeys 8 (((s.randBytes 128).drop 32).take 32) (((s.randBytes 128).drop 64).take 32)).2 ++ s.attestation ++ (4 :: s.idPublic)

/-- The status of a REPLY's signature: of a failing random source, of a fault, or of its verification (17 R381 to R383). -/
def Sys2Proof.Machine.State.replyStatus (s : State) (text : List Byte) (fault : Nat) : Nat :=
  if s.ts.entropyBad then 0x49 else s.tsStatus 0x11 fault (if s.idVerifies text then stOk else 0x45)

/-- The traffic keys of a set-up whose FINISH is `b`, from the shared secrets (15 R331). -/
def Sys2Proof.Machine.Session.finishKeys (v : Session) (b secrets : List Byte) : List Byte :=
  shake256 (ascii "ZD96 svc v1" ++ secrets ++ sha384 (v.hello ++ v.reply ++ b.take 7872)) 88

/-- A HELLO for a new session begins a set-up and is answered with REPLY, where the device's own signature verifies (15 R328, R329); FINISH with a
good credential, signature and agreement opens the session under fresh keys, and with any of them wrong ends the set-up (15 R330 to R332); an
unfinished set-up times out (15 R330). Where the spec is silent it states the model's choices: log entries 6, 20, 77, 143, 144. -/
def Obligations.SessionsAreSetUp : Prop :=
  (∀ (s : State) (f : SvcFrame) (fault m : Nat), f.port < 2 → s.svcRuns f.port = true → f.env.pause = false → s.ethOk (f.withTyp 0x01) = true →
    (f.withTyp 0x01).crcOk = true → (f.withTyp 0x01).formOk false = true → (f.withTyp 0x01).session = 0 → s.sbActive = false →
    f.payload.length = 72 → s.setups < 256 → leNat ((f.payload.drop 4).take 3) = 0 → s.freeSession = some m →
    (∀ r ∈ s.ts.queue, r.isHash = true) →
    let st := s.replyStatus (s.replyPublic ++ f.payload) fault
    let signed := s.replyPublic ++ idSign (s.replyPublic ++ f.payload)
    ∃ t, exec (.hello (f, fault)) s = .next t ∧ s.countedOne t .rxFrames f.port 0 ∧ t.mem = s.mem ∧ t.cores = s.cores ∧ t.free = s.free + 1
      ∧ (st = stOk →
          (t.session m).inSetup = true ∧ (t.session m).isOpen = false ∧ (t.session m).hello = f.payload ∧ (t.session m).setupPort = f.port
          ∧ (t.session m).reply = signed ∧ (∀ n, n ≠ m → t.session n = s.session n)
          ∧ t.out = s.out ++ [.svc (s.svcOut { port := f.port, addr := (f.withTyp 0x01).addr, session := m, typ := 0x02, seq := 1 } [] signed)])
      ∧ (st ≠ stOk → t.sessions = s.sessions
          ∧ t.out = s.out ++ [.svc (s.svcOut { port := f.port, addr := (f.withTyp 0x01).addr, session := m, typ := 0x5F, seq := 1 } []
              (fixLen 8 [4, BitVec.ofNat 8 st]))]))
  ∧ (∀ (s : State) (f : SvcFrame) (fault : Nat) (b : List Byte) (a : Nat), f.port < 2 → s.svcRuns f.port = true → f.env.pause = false →
    s.ethOk (f.withTyp 0x03) = true → (f.withTyp 0x03).crcOk = true → (f.withTyp 0x03).formOk false = true →
    let n := (f.withTyp 0x03).session
    let v := s.session n
    v.inSetup = true → v.resume = false → v.isOpen = false → v.setupPort = f.port → v.setupNew f.seq = true → (∀ e ∈ v.finish, e.1 ≠ f.frag) →
    v.finish.length + 1 = f.count → (∀ e ∈ s.journal, e.2.session ≠ n) → (∀ r ∈ s.ts.queue, r.isHash = true) →
    b = (List.range f.count).flatMap (fun i => (((v.finish ++ [(f.frag, f.payload)]).find? (fun e => e.1 == i)).map (·.2)).getD []) →
    b.length = 11277 → s.trust (((b.drop 1088).drop 1).headD 0).toNat ((v.hello.take 1).headD 0).toNat = some a →
    (b.drop 1088).headD 0 = (v.hello.take 1).headD 0 → ((v.hello.take 1).headD 0 = 2 → bitOf (s.reg .svcCtrl f.port) 4 = true) →
    let cred := (b.drop 1088).take 6784
    let th := sha384 (v.hello ++ v.reply ++ b.take 7872)
    let good := p384Verify (s.readBytes (a + 8) 97) (sha384 (cred.take 2061)) ((cred.drop 2061).take 96)
      && dsaVerify 0x0B (s.readBytes (a + 112) 2592) (sha384 (cred.take 2061)) (cred.drop 2157)
    let fresh := p384Verify ((cred.drop 12).take 97) th ((b.drop 7872).take 96) && dsaVerify 0x0A ((cred.drop 109).take 1952) th (b.drop 7968)
    let r := s.agree v (b.take 1088) fault
    ∃ t, exec (.finish (f, fault)) s = .next t
      ∧ (good = true → fresh = true → r.1 = stOk →
          (t.session n).isOpen = true ∧ (t.session n).inSetup = false ∧ (t.session n).port = f.port
          ∧ (t.session n).keys = v.finishKeys b r.2.2 ∧ (t.session n).kphase = false ∧ (t.session n).rxHigh = max v.setupHigh f.seq
          ∧ (t.session n).role = ((v.hello.take 1).headD 0).toNat)
      ∧ ((good = false ∨ fresh = false ∨ r.1 ≠ stOk) → t.session n = {} ∧ t.mem = s.mem))
  ∧ (∀ (s : State) (f : SvcFrame) (fault : Nat), f.port < 2 → s.svcRuns f.port = true → f.env.pause = false → s.ethOk (f.withTyp 0x03) = true →
    (f.withTyp 0x03).crcOk = true → (f.withTyp 0x03).formOk false = true →
    let n := (f.withTyp 0x03).session
    let v := s.session n
    v.inSetup = true → v.setupPort = f.port → v.setupNew f.seq = true → (∀ e ∈ v.finish, e.1 ≠ f.frag) → v.finish.length + 1 ≠ f.count →
    ∃ t, exec (.finish (f, fault)) s = .next t ∧ s.countedOne t .rxFrames f.port 0
      ∧ t.session n = { v with finish := v.finish ++ [(f.frag, f.payload)], setupAddr := (f.withTyp 0x03).addr, setupHigh := max v.setupHigh f.seq
                               setupSeqs := (f.seq :: v.setupSeqs).filter (fun m => decide (max v.setupHigh f.seq < m + 1024)) }
      ∧ (∀ m, m ≠ n → t.session m = s.session m) ∧ { t with sessions := s.sessions, regs := s.regs } = s)
  ∧ ∀ (s : State) (n : Nat), (s.session n).inSetup = true →
    ∃ t, exec (.setupTimeout n) s = .next t
      ∧ ((s.session n).setupAt + s.rf .svcTimers (s.session n).setupPort 0 31 24 * 4000000 ≤ s.time →
          (t.session n).inSetup = false ∧ (t.session n).isOpen = ((s.session n).resume && (s.session n).isOpen)
          ∧ (∀ m, m ≠ n → t.session m = s.session m) ∧ { t with sessions := s.sessions } = s)
      ∧ (s.time < (s.session n).setupAt + s.rf .svcTimers (s.session n).setupPort 0 31 24 * 4000000 → t = s)

/-- A session goes to the next keys at REKEY (15 R333), stays open at KEEPALIVE, and ends at CLOSE or after its idle time where no result is
retained (15 R334). Where the spec is silent it states the model's choices: log entries 20, 78. -/
def Obligations.SessionsRekeyAndClose : Prop :=
  SessionRow .keepalive 0x51 false false (fun _ _ => True) (fun s g t =>
    t.session g.session = (s.session g.session).passed g s.time ∧ (∀ m, m ≠ g.session → t.session m = s.session m)
    ∧ { t with sessions := s.sessions, regs := s.regs } = s)
  ∧ SessionRow .rekey 0x50 false false (fun s g => g.kphase = (s.session g.session).kphase) (fun s g t =>
    t.session g.session = { ((s.session g.session).passed g s.time) with
      kphase := !(s.session g.session).kphase, oldKeys := (s.session g.session).keys, oldLeft := 4096
      keys := rekeyKeys (s.session g.session).keys }
    ∧ (∀ m, m ≠ g.session → t.session m = s.session m) ∧ t.out = s.out ∧ t.mem = s.mem)
  ∧ SessionRow .close 0x52 false false (fun s g => s.retained g.session = false) (fun s g t =>
    t.session g.session = {} ∧ (∀ k ∈ t.keysets, k.session ≠ g.session) ∧ (∀ m ∈ t.reasm, m.session ≠ g.session)
    ∧ (∀ k, (s.jrec k).session = g.session → t.jrec k = {})
    ∧ (∀ k, (s.jrec k).session ≠ g.session → (s.jrec k).kind ≠ 2 → t.jrec k = s.jrec k)
    ∧ (s.paired = true → s.tells t 0x16 g.session 0) ∧ (s.paired = false → t.out = s.out ∧ g.session ∈ t.closed) ∧ (∀ m, m ≠ g.session → t.session m = s.session m))
  ∧ SessionRow .close 0x52 false false (fun s g => s.retained g.session = true ∧ (s.session g.session).seqFree) (fun s g t =>
    s.frameSent t g.session g.addr 0x5F 0 0 1 false true (0x08 :: List.replicate 7 0) ∧ (t.session g.session).isOpen = true
    ∧ t.journal = s.journal ∧ t.mem = s.mem)
  ∧ ∀ (s : State) (n : Nat), (s.session n).isOpen = true →
    ∃ t, exec (.idleTimeout n) s = .next t
      ∧ (s.rf .svcIdle (s.session n).port 0 15 0 ≠ 0 → s.retained n = false →
          (s.session n).idleFrom + s.rf .svcIdle (s.session n).port 0 15 0 * 400000000 ≤ s.time →
          t.session n = {} ∧ (∀ k ∈ t.keysets, k.session ≠ n) ∧ (s.paired = true → s.tells t 0x16 n 0)
          ∧ (s.paired = false → t.out = s.out ∧ n ∈ t.closed))
      ∧ ((s.rf .svcIdle (s.session n).port 0 15 0 = 0 ∨ s.retained n = true
          ∨ s.time < (s.session n).idleFrom + s.rf .svcIdle (s.session n).port 0 15 0 * 400000000) → t = s)

/-- An acknowledged result and every earlier job of the session is freed, and the witness is told (15 R339, R340; 16 R358); a sealed result is sent
again fragment by fragment where the client asks, and whole after its retry time (15 R339). Where the spec is silent it states the model's choices:
log entries 19, 20, 82, 83. -/
def Obligations.ResultsAreKeptUntilAcknowledged : Prop :=
  SessionRow .resultAck 0x32 false false
    (fun s g => leNat (((s.session g.session).plain g).take 4) ≤ (s.session g.session).highSent) (fun s g t =>
    (∀ k, (s.jrec k).session = g.session → (s.jrec k).kind = 1 → (s.jrec k).state ≠ 0 →
      (s.jrec k).job ≤ leNat (((s.session g.session).plain g).take 4) → t.jrec k = {})
    ∧ (∀ k, ¬ ((s.jrec k).session = g.session ∧ (s.jrec k).kind = 1 ∧ (s.jrec k).state ≠ 0
      ∧ (s.jrec k).job ≤ leNat (((s.session g.session).plain g).take 4)) → t.jrec k = s.jrec k)
    ∧ (t.session g.session).highAck = max (s.session g.session).highAck (leNat (((s.session g.session).plain g).take 4))
    ∧ s.tells t 0x15 g.session (leNat (((s.session g.session).plain g).take 4)))
  ∧ SessionRow .resultAck 0x32 false false
    (fun s g => (s.session g.session).highSent < leNat (((s.session g.session).plain g).take 4)) (fun s g t =>
    s.countedOne t .malformed g.port 0 ∧ t.journal = s.journal ∧ t.mem = s.mem ∧ t.out = s.out)
  ∧ SessionRow .resultGap 0x33 false false (fun s g => (s.session g.session).seqFree ∧ g.payload.length = 8) (fun s g t =>
    (∀ k i, s.findRec (fun r => r.session == g.session && r.kind == 1 && r.job == g.job && r.state == 5) = some k →
      (s.jrec k).sentAt.isSome → 0 < s.payloadMax g.port → i * s.payloadMax g.port < (s.jrec k).resultLen - receiptLen →
      unpackRanges ((s.session g.session).plain g) = [(i, 1)] →
      s.frameSent t g.session g.addr 0x30 g.job i (ceilDiv ((s.jrec k).resultLen - receiptLen) (s.payloadMax g.port)) true
        (i + 1 == ceilDiv ((s.jrec k).resultLen - receiptLen) (s.payloadMax g.port))
        (s.readBytes ((s.jrec k).result + i * s.payloadMax g.port)
          (min (s.payloadMax g.port) ((s.jrec k).resultLen - receiptLen - i * s.payloadMax g.port))))
    ∧ (s.findRec (fun r => r.session == g.session && r.kind == 1 && r.job == g.job && r.state == 5) = none → t.out = s.out)
    ∧ t.journal = s.journal ∧ t.mem = s.mem)
  ∧ ∀ (s : State) (k t0 : Nat), (s.jrec k).sentAt = some t0 → (s.jrec k).state = 5 → (s.jrec k).kind = 1 →
    (s.session (s.jrec k).session).isOpen = true → s.svcUp (s.session (s.jrec k).session).port = true →
    ∃ t, exec (.resultRetry k) s = .next t
      ∧ (t0 + s.rf .svcTimers (s.session (s.jrec k).session).port 0 23 16 * 400000 ≤ s.time →
          t.jrec k = { (s.jrec k) with sentAt := some s.time } ∧ (∀ j, j ≠ k → t.jrec j = s.jrec j)
          ∧ (s.jrec k).job ≤ (t.session (s.jrec k).session).highSent
          ∧ ∃ ps, t.out = s.out ++ ps)
      ∧ (s.time < t0 + s.rf .svcTimers (s.session (s.jrec k).session).port 0 23 16 * 400000 → t = s)

/-- A first fragment of a body of `kind` starts its record and its reassembly, and its bytes stand in the body (15 R321, R335, R337). -/
def Sys2Proof.Machine.State.bodyBegun (s t : State) (g : SvcFrame) (kind slot body gen job : Nat) : Prop :=
  t.reasm = s.reasm ++ [{ session := g.session, job := job, kind := kind, slot := slot, got := [g.frag], count := g.count
                          lastLen := if g.frag + 1 = g.count then ((s.session g.session).plain g).length else 0, lastAt := s.time, gapAt := s.time }]
  ∧ t.jrec slot = { session := g.session, kind := kind, state := 1, job := job, gen := gen, body := body
                    bodyLen := g.count * s.payloadMax g.port }
  ∧ (∀ k, k ≠ slot → t.jrec k = s.jrec k)
  ∧ t.readBytes (body + g.frag * s.payloadMax g.port) ((s.session g.session).plain g).length = (s.session g.session).plain g

/-- A new job or model: nothing of that number is known, and the device may take it (15 R337, R338; 16 R353, R361). -/
def Sys2Proof.Machine.State.newBody (s : State) (g : SvcFrame) (slot body : Nat) : Prop :=
  s.sbActive = false ∧ s.reasmOf g.session g.job 1 = none ∧ s.reasmOf g.session g.job 3 = none
  ∧ (∀ e ∈ s.journal, ¬ (e.2.session = g.session ∧ e.2.job = g.job))
  ∧ (s.session g.session).highAck < g.job ∧ (s.session g.session).highRef < g.job ∧ (s.session g.session).highAcc < g.job
  ∧ ¬ g.job ∈ (s.session g.session).refused ∧ s.paired = true ∧ s.takenOk g.session = true
  ∧ (s.reasm.filter (fun m => m.session == g.session && m.kind != 2)).length < 8
  ∧ s.freeSlot = some slot ∧ s.bodyAlloc (g.count * s.payloadMax g.port) = some body ∧ 1 < g.count
  ∧ s.fragFits g ((s.session g.session).plain g) g.count = true

/-- Jobs, models and key sets arrive in fragments (15 R321, R335 to R338); known ones are answered; a gap is reported after the hold time, and a
body that goes on missing fragments is given up (15 R337). Where the spec is silent it states the model's choices: log entries 51, 79, 80, 81, 84,
133. -/
def Obligations.BodiesArriveInFragments : Prop :=
  (∀ slot body, SessionRow .job 0x20 true false (fun s g => s.newBody g slot body)
    (fun s g t => s.bodyBegun t g 1 slot body 0 g.job))
  ∧ (∀ slot body, SessionRow .model 0x40 true true (fun s g => s.newBody g slot body)
    (fun s g t => s.bodyBegun t g 3 slot body 0 g.job))
  ∧ SessionRow .job 0x20 true false (fun s g => s.sbActive = false ∧ s.reasmOf g.session g.job 1 = none
      ∧ g.job ≤ (s.session g.session).highAck ∧ ¬ g.job ∈ (s.session g.session).refused ∧ (s.session g.session).seqFree) (fun s g t =>
    s.frameSent t g.session g.addr 0x21 g.job 0 1 false true (natLE 4 g.job) ∧ t.journal = s.journal ∧ t.reasm = s.reasm ∧ t.mem = s.mem)
  ∧ SessionRow .job 0x20 true false (fun s g => s.sbActive = true ∧ (s.session g.session).seqFree) (fun s g t =>
    s.frameSent t g.session g.addr 0x22 g.job 0 1 false true (0x07 :: List.replicate 7 0) ∧ t.journal = s.journal ∧ t.mem = s.mem)
  ∧ (∀ slot die dir, SessionRow .keyset 0x10 true false
    (fun s g => s.sbActive = false ∧ s.reasmOf g.session 0 2 = none ∧ (s.session g.session).keyBusy = false
      ∧ (s.sessions.map (fun e => e.1)).Nodup
      ∧ s.freeSlot = some slot ∧ s.keyDieFor g.session (1024 + g.count * s.payloadMax g.port) = some (die, dir) ∧ 1 < g.count
      ∧ s.fragFits g ((s.session g.session).plain g) g.count = true)
    (fun s g t => s.bodyBegun t g 2 slot (dir + 1024) (((s.session g.session).gen + 1) % 256) 0 ∧ (t.session g.session).keyBusy = true
      ∧ t.keysets = s.keysets ++ [{ session := g.session, gen := ((s.session g.session).gen + 1) % 256, die := die, dir := dir
                                    len := 1024 + g.count * s.payloadMax g.port }]))
  ∧ SessionRow .keyset 0x10 true false (fun s g => s.sbActive = false ∧ s.reasmOf g.session 0 2 = none
      ∧ (s.session g.session).keyBusy = true ∧ (s.session g.session).seqFree) (fun s g t =>
    s.frameSent t g.session g.addr 0x11 0 0 1 false true (0x11 :: List.replicate 7 0) ∧ t.keysets = s.keysets ∧ t.mem = s.mem)
  ∧ (∀ (s : State) (i : Nat) (m : Reasm), s.reasm[i]? = some m → m.hold = false → (s.session m.session).seqFree →
    s.svcUp (s.session m.session).port = true →
    (∀ j v, j < i → s.reasm[j]? = some v → ¬ (v.session = m.session ∧ v.job = m.job ∧ v.kind = m.kind)) →
    ∃ t, exec (.gapHoldExpiry i) s = .next t
      ∧ (m.gapAt + s.rf .svcTimers (s.session m.session).port 0 7 0 * 40000 ≤ s.time →
          s.frameSent t m.session (s.session m.session).addr 0x23 m.job 0 1 false true (packRanges ((missingRanges m.got m.count).take 128))
          ∧ t.reasm = s.reasm.set i { m with gapAt := s.time } ∧ t.mem = s.mem)
      ∧ (s.time < m.gapAt + s.rf .svcTimers (s.session m.session).port 0 7 0 * 40000 → t = s))
  ∧ ∀ (s : State) (i : Nat) (m : Reasm), s.reasm[i]? = some m → (∀ v ∈ s.reasm, v.hold = false) →
    (s.session (s.jrec m.slot).session).seqFree → (∀ e ∈ s.journal, e.2.confirmed = true → e.2.state ≠ 1 ∧ e.2.state ≠ 2) →
    ∃ t, exec (.reasmTimeout i) s = .next t
      ∧ (m.lastAt + s.rf .svcTimers (s.session m.session).port 0 15 8 * 400000 ≤ s.time →
          t.reasm = s.reasm.filter (fun v => v.slot != m.slot) ∧ t.jrec m.slot = {}
          ∧ (s.jrec m.slot).job ≤ (t.session (s.jrec m.slot).session).highRef)
      ∧ (s.time < m.lastAt + s.rf .svcTimers (s.session m.session).port 0 15 8 * 400000 → t = s)

/-! ### The partner -/

/-- Of the journal, only records in `K` have changed, and of memory only their bytes in the record area and the bytes in `M` (16 R347). -/
def Sys2Proof.Machine.State.journalOnly (s t : State) (K M : Nat → Prop) : Prop :=
  (∀ k, ¬ K k → t.jrec k = s.jrec k)
  ∧ ∀ a, ¬ M a → (∀ k, K k → ¬ (s.jrnlBase + 64 * k ≤ a ∧ a < s.jrnlBase + 64 * k + 64)) → t.readByte a = s.readByte a

/-- A record of a job or model held as witness, STAGED. -/
def Sys2Proof.Machine.JRec.mirrorStaged (r : JRec) (n : Nat) : Prop :=
  r.origin = 1 ∧ r.session = n ∧ (r.kind = 1 ∨ r.kind = 3) ∧ r.state = 1

/-- A record of a mirrored job that RELEASE or a partner's PAIR frees. -/
def Sys2Proof.Machine.JRec.releasedBy (r : JRec) (n job : Nat) : Prop :=
  r.origin = 1 ∧ r.session = n ∧ r.kind = 1 ∧ r.state ≠ 0 ∧ r.job ≤ job

/-- An own record in DOUBT. -/
def Sys2Proof.Machine.JRec.ownDoubt (r : JRec) : Prop := r.origin = 0 ∧ r.state = 2

/-- Pairing (16 R349), heartbeats (R350) and the loss of the partner (R350, R353, R354): what the device sends and what its pairing state and its
journal become. Where the spec is silent it states the model's choices: log entries 20, 86, 142. -/
def Obligations.PartnersPairAndWatch : Prop :=
  (∀ (s : State) (dev base count : Nat) (highs taken : List Nat), s.mayPair dev base count = true →
    ∃ t, exec (.pair dev base count highs taken) s = .next t
      ∧ t.witState = 1
      ∧ (s.witState = 1 → s.tells t 0x02 0 0 [] t.pairData)
      ∧ (s.witState ≠ 1 → (s.wit 0x02 0 0 [] t.pairData).tells t 0x01 0 0 [] t.pairData)
      ∧ s.journalOnly t (fun k => ∃ e ∈ triples highs, (s.jrec k).releasedBy e.1 e.2.2) (fun _ => False)
      ∧ (∀ k, (∃ e ∈ triples highs, (s.jrec k).releasedBy e.1 e.2.2) → t.jrec k = {})
      ∧ t.cores = s.cores ∧ t.keysets = s.keysets)
  ∧ (∀ (s : State) (dev base count : Nat) (highs taken : List Nat), s.mayPair dev base count = false →
    ∃ t, exec (.pair dev base count highs taken) s = .next t
      ∧ (s.partnerDev = some dev → t.witState = 0 ∧ s.onlyRegs t [adr .witStatus 0 0, adr .plcStatus 0 0])
      ∧ (s.partnerDev ≠ some dev → t = s))
  ∧ (∀ (s : State) (dev base count : Nat) (highs taken : List Nat), s.witState = 1 → s.mayPair dev base count = false →
    ∃ t, exec (.pairAck dev base count highs taken) s = .next t ∧ t.witState = 0 ∧ s.onlyRegs t [adr .witStatus 0 0])
  ∧ (∀ (s : State) (dev base count : Nat), s.witState = 1 → s.mayPair dev base count = true → s.boot ≠ 9 →
    (∀ k, ¬ ((s.jrec k).origin = 1 ∧ 3 ≤ (s.jrec k).state ∧ (s.jrec k).state ≤ 5)) → (∀ e ∈ s.sessions, e.2.taken = false) →
    (∀ k, ¬ ((s.jrec k).origin = 0 ∧ ((s.jrec k).kind = 2 ∨ (s.jrec k).kind = 4) ∧ (s.jrec k).state = 1)) →
    (∀ k, (s.jrec k).ownDoubt → 0 < (s.jrec k).job) → s.closed = [] →
    ∃ t, exec (.pairAck dev base count [] []) s = .next t ∧ t.witState = 2 ∧ t.peerDev = dev ∧ t.hbMissed = 0 ∧ t.out = s.out
      ∧ (∀ k, (s.jrec k).ownDoubt → t.jrec k = {}) ∧ s.journalOnly t (fun k => (s.jrec k).ownDoubt) (fun _ => False)
      ∧ t.sessions = s.sessions ∧ t.cores = s.cores)
  ∧ (∀ (s : State) (valid : Bool) (partner : Nat),
    ∃ t, exec (.witCfgWrite valid partner) s = .next t
      ∧ t.reg .witCfg = BitVec.ofNat 32 ((if valid then 2 ^ 31 else 0) + partner % 2 ^ 18)
      ∧ (valid = true → bitOf (s.reg .fabCfg) 9 = true → t.witState = 1
          ∧ (s.setReg .witCfg 0 0 (BitVec.ofNat 32 (2 ^ 31 + partner % 2 ^ 18))).tells t 0x01 0 0 [] t.pairData)
      ∧ ((valid = false ∨ bitOf (s.reg .fabCfg) 9 = false) → t.witState = 0 ∧ t.out = s.out)
      ∧ { s with out := t.out, aliveTx := t.aliveTx }.onlyRegs t [adr .witCfg 0 0, adr .witStatus 0 0, adr .plcStatus 0 0])
  ∧ (∀ (s : State) (free : List Nat), s.paired = true →
    exec (.heartbeat free) s = .next { s with peerFree := free, hbMissed := 0 })
  ∧ (∀ (s : State), s.paired = true → (∀ k, ¬ (s.jrec k).ownDoubt) →
    exec .heartbeatSend s = .next (s.wit 0x03 0 0
      (if s.sbActive = true then List.replicate 8 0 else s.freeOnDies.flatMap (fun n => natLE 2 n)) []))
  ∧ (∀ (s : State) (k : Nat), s.paired = true → s.recsWhere (fun r => r.origin == 0 && r.state == 2) = [k] →
    ∃ t, exec .heartbeatSend s = .next t ∧ t.jrec k = { (s.jrec k) with ended := some s.time }
      ∧ (∃ hb, (s.wit 0x03 0 0 hb []).tells t 0x11 (s.jrec k).session (s.jrec k).job (natLE 1 (s.jrec k).kind
          ++ natLE 1 (s.jrec k).gen ++ natLE 8 (s.jrec k).bodyLen
          ++ natLE 8 (crc64 (s.readBytes (s.jrec k).body (s.jrec k).bodyLen))))
      ∧ s.journalOnly t (fun j => j = k) (fun _ => False))
  ∧ (∀ (s : State), s.paired = true →
    ∃ t, exec (.witnessLoss none) s = .next t ∧ t.witState = 3 ∧ t.out = s.out
      ∧ (∀ k, (s.jrec k).ownDoubt → t.jrec k = { (s.jrec k) with state := 6 })
      ∧ s.journalOnly t (fun k => (s.jrec k).ownDoubt) (fun _ => False) ∧ t.sessions = s.sessions ∧ t.cores = s.cores)
  ∧ (∀ (s : State) (n job k : Nat), s.paired = true → (s.session n).seqFree →
    (∀ e ∈ s.journal, e.2.confirmed = true → e.2.state ≠ 1 ∧ e.2.state ≠ 2) →
    s.recsWhere (fun r => r.origin == 0 && (r.kind == 1 || r.kind == 3) && r.state == 1 && r.session == n && r.job == job) = [k] →
    ∃ t, exec (.witnessLoss (some [(n, job)])) s = .next t ∧ t.witState = 3 ∧ t.jrec k = {}
      ∧ (∀ j, (s.jrec j).ownDoubt → t.jrec j = { (s.jrec j) with state := 6 })
      ∧ s.journalOnly t (fun j => j = k ∨ (s.jrec j).ownDoubt) (fun _ => False)
      ∧ s.countedOne t .refusedCnt 0 0 ∧ (t.session n).highRef = max (s.session n).highRef job ∧ t.cores = s.cores)
  ∧ ∀ (s : State) (fails : Option (List (Nat × Nat))), s.paired = false → exec (.witnessLoss fails) s = .next s ∧ exec .heartbeatSend s = .next s
      ∧ ∀ free, exec (.heartbeat free) s = .next s

/-- Takeover and recovery (16 R348, R359 to R361; 21 R465): a taken session's records are freed, GO and a verified HANDOVER take the partner's
sessions and make their jobs ACCEPTED again, a record the partner gives back stands here, and the journal is read back. Where the spec is silent it
states the model's choices: log entries 7, 87, 88, 142. -/
def Obligations.TakeoverAndRecovery : Prop :=
  (∀ (s : State) (n : Nat), (s.session n).partner = false → (s.session n).isOpen = true →
    ∃ t, exec (.taken [n]) s = .next t ∧ t.handOpen = false ∧ t.session n = {} ∧ (∀ k ∈ t.keysets, k.session ≠ n)
      ∧ (∀ k, (s.jrec k).session = n → t.jrec k = {})
      ∧ s.journalOnly t (fun k => (s.jrec k).session = n ∨ (s.jrec k).kind = 2) (fun _ => False)
      ∧ (∀ m, m ≠ n → t.session m = s.session m) ∧ t.out = s.out ∧ t.cores = s.cores)
  ∧ (∀ (s : State) (req : Nat), s.witState = 3 →
    ∃ t, exec (.witTakeoverGo req) s = .next t
      ∧ (∀ n, (s.session n).partner = true → (s.session n).taken = false →
          t.session n = { (s.session n) with taken := true, highSent := (s.session n).highAck })
      ∧ (∀ n, (s.session n).partner = false ∨ (s.session n).taken = true → t.session n = s.session n)
      ∧ (∀ k, (s.jrec k).origin = 1 → (s.jrec k).kind = 1 → 3 ≤ (s.jrec k).state → (s.session (s.jrec k).session).partner = true →
          (s.session (s.jrec k).session).taken = false →
          t.jrec k = { (s.jrec k) with state := if (s.jrec k).state = 4 then 4 else 3 })
      ∧ (∀ k, ¬ ((s.jrec k).origin = 1 ∧ (s.jrec k).kind = 1 ∧ 3 ≤ (s.jrec k).state
          ∧ (s.session (s.jrec k).session).partner = true ∧ (s.session (s.jrec k).session).taken = false) → t.jrec k = s.jrec k)
      ∧ ((∃ n, (s.session n).partner = true ∧ (s.session n).taken = false) → bitOf (t.reg .witStatus) 3 = true)
      ∧ t.out = s.out ∧ t.cores = s.cores ∧ t.keysets = s.keysets)
  ∧ (∀ (s : State) (req : Nat), s.witState ≠ 3 → ∃ t, exec (.witTakeoverGo req) s = .next t ∧ s.refusedOnly t)
  ∧ (∀ (s : State) (ns : List Nat) (digest sg : List Byte),
    ∃ t, exec (.handover (ns, digest) sg) s = .next t
      ∧ ((∀ r ∈ s.ts.queue, r.isHash = true) → s.paired = true → p384Verify (Config.peerKey s.peerDev) digest sg = true →
          ∀ n ∈ ns, (s.session n).partner = true → (s.session n).taken = false →
            t.session n = { (s.session n) with taken := true, highSent := (s.session n).highAck })
      ∧ ((∀ r ∈ s.ts.queue, r.isHash = true) → (s.paired = false ∨ p384Verify (Config.peerKey s.peerDev) digest sg = false) →
          s.eventsOnly t))
  ∧ (∀ (s : State) (n job st gen status time k a : Nat) (body result : List Byte), s.jrnlSize ≠ 0 → 3 ≤ st → st ≤ 5 →
    (∀ j, ¬ ((s.jrec j).origin = 0 ∧ (s.jrec j).session = n ∧ (s.jrec j).kind = 1 ∧ (s.jrec j).job = job
      ∧ 2 ≤ (s.jrec j).state ∧ (s.jrec j).state ≤ 6)) → (s.journal.map (fun e => e.1)).Nodup → (∀ e ∈ s.journal, e.1 < 65536) →
    s.freeSlot = some k → s.bodyAlloc body.length = some a → 0 < body.length → n ≠ 0 →
    ∃ t, exec (.restore n 1 job st gen (status, time) body result) s = .next t
      ∧ (st ≠ 5 → t.jrec k = { session := n, kind := 1, state := if st = 4 then 6 else 3, job := job, gen := gen, body := a
                               bodyLen := body.length, status := status, time := time, confirmed := true })
      ∧ (st = 5 → (t.jrec k).state = 5 ∧ (t.jrec k).job = job ∧ (t.jrec k).body = a)
      ∧ t.readBytes a body.length = body ∧ (t.session n).highAcc = max (s.session n).highAcc job
      ∧ ∀ j, j ≠ k → (t.jrec j).state = (s.jrec j).state ∧ (t.jrec j).body = (s.jrec j).body)
  ∧ (∀ (s : State), s.boot = 10 → s.init.recovered = false → s.init.read = false → s.jrnlSize ≠ 0 → bitOf (s.reg .rstCause) 0 = true →
    ∃ t, exec .journalRecovery s = .next t ∧ t.init.recovered = true ∧ t.journal = [] ∧ t.sessions = s.sessions ∧ t.out = s.out
      ∧ ∀ a, ¬ (s.jrnlBase ≤ a ∧ a < s.jrnlBase + jrnlRecordArea) → t.readByte a = s.readByte a)
  ∧ (∀ (s : State), s.boot = 10 → s.init.recovered = false → s.init.read = false → s.jrnlSize ≠ 0 → bitOf (s.reg .rstCause) 0 = false → s.journal = [] →
    ∃ t, exec .journalRecovery s = .next t ∧ t.init.recovered = true
      ∧ ∀ k, k < 65536 →
        (s.readSlot k = none → t.jrec k = {})
        ∧ (s.readSlot k = some none → t.jrec k = { state := 7 })
        ∧ ∀ r, s.readSlot k = some (some r) →
          (r.origin = 0 → r.state = 1 → t.jrec k = {})
          ∧ (r.origin = 0 → r.state = 4 → t.jrec k = { r with state := 6 })
          ∧ (r.state = 5 → ∃ x, t.jrec k = { r with sentAt := x })
          ∧ (r.state ≠ 0 → (r.origin = 1 ∨ r.state = 2 ∨ r.state = 3 ∨ r.state = 6) → r.state ≠ 5 → t.jrec k = r))
  ∧ ∀ (s : State), (s.boot ≠ 10 ∨ s.init.recovered = true) → exec .journalRecovery s = .next s

/-- Mirrors of the partner's bodies are held and confirmed, released and closed with their sessions (16 R351, R352, R358); the witness's answers
accept, mirror again or refuse an own job (R346, R352, R353); a late answer makes it DOUBT (R354); a result of the partner is sealed here (R355,
R365). Where the spec is silent it states the model's choices: log entries 19, 84, 86, 142. -/
def Obligations.MirrorsAreHeldAndConfirmed : Prop :=
  (∀ (s : State) (n job kind off k a : Nat) (data : List Byte), s.paired = true → s.mirrorRec n job kind = none → s.freeSlot = some k →
    s.bodyAlloc (off + data.length) = some a →
    ∃ t, exec (.mirror n job kind off data) s = .next t
      ∧ t.jrec k = { session := n, kind := kind, origin := 1, state := 1, job := job, body := a, bodyLen := off + data.length
                     mirrored := data.length }
      ∧ t.readBytes (a + off) data.length = data
      ∧ s.journalOnly t (fun j => j = k) (fun b => a + off ≤ b ∧ b < a + off + data.length) ∧ t.out = s.out ∧ t.sessions = s.sessions)
  ∧ (∀ (s : State) (n job kind off k : Nat) (data : List Byte), s.paired = true → s.mirrorRec n job kind = some k → (s.jrec k).state < 3 →
    (s.jrec k).body ≠ 0 → off + data.length ≤ bodyUnits (s.jrec k).bodyLen → k < 65536 → s.jrnlBase + jrnlRecordArea ≤ (s.jrec k).body →
    ∃ t, exec (.mirror n job kind off data) s = .next t
      ∧ t.jrec k = { (s.jrec k) with bodyLen := max (s.jrec k).bodyLen (off + data.length), mirrored := (s.jrec k).mirrored + data.length }
      ∧ t.readBytes ((s.jrec k).body + off) data.length = data
      ∧ s.journalOnly t (fun j => j = k) (fun b => (s.jrec k).body + off ≤ b ∧ b < (s.jrec k).body + off + data.length))
  ∧ (∀ (s : State) (n job kind gen len crc k : Nat), s.paired = true → (∀ j, (s.jrec j).mirrorStaged n → job ≤ (s.jrec j).job) →
    s.mirrorRec n job kind = some k → (s.jrec k).state < 3 → (s.jrec k).body ≠ 0 → len ≤ (s.jrec k).mirrored →
    crc64 (s.readBytes (s.jrec k).body len) = crc → kind = 1 →
    ∃ t, exec (.mirrorEnd n job kind gen len crc) s = .next t
      ∧ t.jrec k = { (s.jrec k) with bodyLen := len, state := 3, gen := gen, time := s.time }
      ∧ t.session n = { (s.session n) with partner := true, highAcc := max (s.session n).highAcc (s.jrec k).job }
      ∧ s.tells t 0x12 n job (natLE 1 kind) ∧ s.journalOnly t (fun j => j = k) (fun _ => False))
  ∧ (∀ (s : State) (n job kind gen len crc k : Nat), s.paired = true → (∀ j, (s.jrec j).mirrorStaged n → job ≤ (s.jrec j).job) →
    s.mirrorRec n job kind = some k → (s.jrec k).state < 3 → (s.jrec k).body ≠ 0 →
    ((s.jrec k).mirrored < len ∨ crc64 (s.readBytes (s.jrec k).body len) ≠ crc) →
    ∃ t, exec (.mirrorEnd n job kind gen len crc) s = .next t ∧ t.jrec k = { (s.jrec k) with mirrored := 0 }
      ∧ s.tells t 0x13 n job (natLE 1 kind ++ natLE 1 0) ∧ s.journalOnly t (fun j => j = k) (fun _ => False))
  ∧ (∀ (s : State) (n job kind gen len crc k : Nat), s.paired = true → (∀ j, (s.jrec j).mirrorStaged n → job ≤ (s.jrec j).job) →
    s.mirrorRec n job kind = some k → 3 ≤ (s.jrec k).state →
    exec (.mirrorEnd n job kind gen len crc) s = .next (s.wit 0x12 n job (natLE 1 kind) []))
  ∧ (∀ (s : State) (n job kind gen len crc : Nat), s.paired = true →
    ∃ t, exec (.mirrorEnd n job kind gen len crc) s = .next t
      ∧ ∀ j, (s.jrec j).mirrorStaged n → (s.jrec j).job < job → t.jrec j = {})
  ∧ (∀ (s : State) (n job : Nat),
    ∃ t, exec (.abandon n job) s = .next t
      ∧ (∀ k, (s.jrec k).mirrorStaged n → (s.jrec k).job = job → t.jrec k = {})
      ∧ s.journalOnly t (fun k => (s.jrec k).mirrorStaged n ∧ (s.jrec k).job = job) (fun _ => False)
      ∧ t.out = s.out ∧ t.sessions = s.sessions ∧ t.cores = s.cores)
  ∧ (∀ (s : State) (n job : Nat),
    ∃ t, exec (.release n job) s = .next t
      ∧ (∀ k, (s.jrec k).releasedBy n job → t.jrec k = {})
      ∧ s.journalOnly t (fun k => (s.jrec k).releasedBy n job) (fun _ => False)
      ∧ ((s.session n).partner = true → t.session n = { (s.session n) with highAck := max (s.session n).highAck job })
      ∧ ((s.session n).partner = false → t.session n = s.session n) ∧ t.out = s.out ∧ t.cores = s.cores)
  ∧ (∀ (s : State) (n : Nat), (s.session n).partner = true → (s.session n).taken = false →
    ∃ t, exec (.sessionClose n) s = .next t ∧ t.session n = {} ∧ (∀ k ∈ t.keysets, k.session ≠ n)
      ∧ (∀ k, (s.jrec k).session = n → t.jrec k = {})
      ∧ s.journalOnly t (fun k => (s.jrec k).session = n ∨ (s.jrec k).kind = 2) (fun _ => False) ∧ t.out = s.out)
  ∧ (∀ (s : State) (n : Nat), ((s.session n).partner = false ∨ (s.session n).taken = true) → exec (.sessionClose n) s = .next s)
  ∧ (∀ (s : State) (n job k t0 : Nat), s.ownRec n job 1 = some k → (s.jrec k).ended = some t0 → s.heldBack k = false →
    (∀ j, j ≠ k → ¬ ((s.jrec j).session = n ∧ (s.jrec j).origin = 0 ∧ (s.jrec j).confirmed = true)) → (s.session n).seqFree → s.svcUp (s.session n).port = true →
    ∃ t, exec (.confirm n job 1) s = .next t
      ∧ t.jrec k = { (s.jrec k) with confirmed := true, state := 3, time := s.time }
      ∧ s.frameSent t n (s.session n).addr 0x21 job 0 1 false true (natLE 4 job) ∧ s.countedOne t .acceptedCnt 0 0
      ∧ (t.session n).highAcc = max (s.session n).highAcc job ∧ s.journalOnly t (fun j => j = k) (fun _ => False))
  ∧ (∀ (s : State) (n job k t0 : Nat), s.ownRec n job 2 = some k → (s.jrec k).ended = some t0 →
    ∃ t, exec (.confirm n job 2) s = .next t ∧ t.jrec k = { (s.jrec k) with state := 3, time := s.time, confirmed := true }
      ∧ (t.session n).readyGen = (s.jrec k).gen ∧ (t.session n).readyDir = (s.jrec k).body - 1024 ∧ (t.session n).keyBusy = false
      ∧ s.journalOnly t (fun j => j = k) (fun _ => False) ∧ t.out = s.out)
  ∧ (∀ (s : State) (n job k t0 : Nat), s.ownRec n job 4 = some k → (s.jrec k).ended = some t0 →
    ∃ t, exec (.confirm n job 4) s = .next t ∧ t.jrec k = { (s.jrec k) with state := 3, time := s.time, confirmed := true }
      ∧ s.journalOnly t (fun j => j = k) (fun _ => False) ∧ { t with journal := s.journal, mem := s.mem, ecc := s.ecc } = s)
  ∧ (∀ (s : State) (n job k t0 : Nat), s.ownRec n job 1 = some k → (s.jrec k).ended = some t0 →
    ∃ t, exec (.notHeld n job 1 0) s = .next t ∧ t.jrec k = { (s.jrec k) with ended := some s.time }
      ∧ (s.mirrorPiece (s.jrec k).session (s.jrec k).job (s.jrec k).kind 0 (s.readBytes (s.jrec k).body (s.jrec k).bodyLen)).tells t 0x11
          (s.jrec k).session (s.jrec k).job (natLE 1 (s.jrec k).kind ++ natLE 1 (s.jrec k).gen ++ natLE 8 (s.jrec k).bodyLen
          ++ natLE 8 (crc64 (s.readBytes (s.jrec k).body (s.jrec k).bodyLen)))
      ∧ s.journalOnly t (fun j => j = k) (fun _ => False))
  ∧ (∀ (s : State) (n job k t0 st : Nat), s.ownRec n job 1 = some k → (s.jrec k).ended = some t0 → st ≠ 0 → (s.jrec k).state = 1 →
    (∀ j, j ≠ k → ¬ ((s.jrec j).session = n ∧ (s.jrec j).origin = 0 ∧ (s.jrec j).confirmed = true)) → (s.session n).seqFree → s.svcUp (s.session n).port = true →
    ∃ t, exec (.notHeld n job 1 st) s = .next t ∧ t.jrec k = {}
      ∧ (∃ u : State, s.frameSent u n (s.session n).addr 0x22 job 0 1 false true (0x26 :: BitVec.ofNat 8 st :: List.replicate 6 0)
          ∧ { s with out := u.out }.tells t 0x14 n job)
      ∧ s.countedOne t .refusedCnt 0 0 ∧ (t.session n).highRef = max (s.session n).highRef job
      ∧ s.journalOnly t (fun j => j = k) (fun _ => False))
  ∧ (∀ (s : State) (n job k t0 st : Nat), s.ownRec n job 1 = some k → (s.jrec k).ended = some t0 → st ≠ 0 → (s.jrec k).state = 2 →
    exec (.notHeld n job 1 st) s = .next s)
  ∧ (∀ (s : State) (n job kind st : Nat), s.ownRec n job kind = none →
    exec (.notHeld n job kind st) s = .next s ∧ exec (.confirm n job kind) s = .next s)
  ∧ (∀ (s : State) (k t0 : Nat), (s.jrec k).ended = some t0 → (s.jrec k).origin = 0 → ((s.jrec k).kind = 1 ∨ (s.jrec k).kind = 3) →
    (s.jrec k).state = 1 → (s.jrec k).confirmed = false →
    ∃ t, exec (.doubtTimeout k) s = .next t
      ∧ (t0 + s.rf .witTimers 0 0 23 16 * 40000 ≤ s.time →
          t.jrec k = { (s.jrec k) with state := if s.witState = 3 then 6 else 2 } ∧ s.countedOne t .doubtEntered 0 0
          ∧ s.journalOnly t (fun j => j = k) (fun _ => False) ∧ t.out = s.out ∧ t.sessions = s.sessions)
      ∧ (s.time < t0 + s.rf .witTimers 0 0 23 16 * 40000 → t = s))
  ∧ ∀ (s : State) (n job status k a : Nat) (data : List Byte), (∀ e ∈ s.journal, e.1 < 65536) →
    s.findRec (fun r => r.origin == 0 && r.kind == 1 && r.session == n && r.job == job && r.state == 4) = some k →
    (∀ p ∈ s.placed, p.slot ≠ k) → status = 0 → (∀ r ∈ s.ts.queue, r.isHash = true) →
    let rf := receiptFields n job (s.clientTag (s.jrec k)) 0 0 data
    let rc := rf ++ idSign rf
    s.bodyAlloc (data.length + rc.length) = some a →
    ∃ t, exec (.partnerResult n job status data) s = .next t ∧ t.cores = s.cores
      ∧ (s.idVerifies rf = true → (t.jrec k).state = 5 ∧ (t.jrec k).result = a ∧ (t.jrec k).resultLen = data.length + rc.length
          ∧ (t.jrec k).status = 0 ∧ t.readBytes a (data.length + rc.length) = data ++ rc)
      ∧ (s.idVerifies rf = false → (t.jrec k).state = 6 ∧ s.countedOne t .tsVerifyFail 0 0 ∧ t.out = s.out)

/-! ### Placement -/

/-- The accepted job in slot `n` can be placed: placement is on, nothing waits before it on its die, the die has `cores` for its program,
and there is room at `tab` for its owner tables, however many outputs the program has. -/
structure Sys2Proof.Machine.State.CanPlace (s : State) (n : Nat) (p : Program) (cores : List Nat) (tab : Nat) : Prop where
  on : bitOf (s.reg .plcCtrl) 0 = true
  sb : s.sbActive = false
  sound : s.plcBad = false
  kind : (s.jrec n).kind = 1
  acc : (s.jrec n).state = 3
  prog : s.program (s.jobProgram (s.jrec n)) = some p
  first : s.mustWait n (s.keyDieOf (s.jrec n)) = false
  picked : s.pickCores (s.keyDieOf (s.jrec n)) p.need p.modeS = some cores
  room : ∀ k, k < 16 → s.bodyAlloc (8192 * ((s.bodyObjects (s.jrec n)).length + (1 + k))) = some tab
  new : ∀ v ∈ s.placed, v.slot ≠ n
  inRange : n < 65536

/-- The job in slot `n` has been placed: a free context of each core is assigned to it, started at the program's entry with S0 to S6 set;
its record is PLACED; the table of its first input spreads the blocks over the cores; nothing else has changed. -/
def Sys2Proof.Machine.State.placedOn (s t : State) (n : Nat) (p : Program) (cores : List Nat) (tab : Nat) : Prop :=
  let r := s.jrec n
  let d := s.keyDieOf r
  let nobj := (s.bodyObjects r).length
  let mask := (cores.map (fun c => 2 ^ (c % 24))).sum
  t.jrec n = { r with state := 4 } ∧ ¬ n ∈ t.queuedJobs
  ∧ (∃ nout, 1 ≤ nout ∧ nout ≤ 16 ∧ t.placed = s.placed ++ [{ slot := n, die := d, mask := mask,
                                                               ctxs := cores.map (fun c => 4 * c + (s.freeCtx c).getD 0), intab := tab,
                                                               outtab := tab + 8192 * nobj, nout := nout, ntab := nobj + nout }])
  ∧ (∀ c ∈ cores, ∃ x, s.freeCtx c = some x ∧ t.jobOf c x = { session := r.session, job := r.job }
      ∧ (t.context c x).st = .running ∧ (t.context c x).fresh = false ∧ (t.context c x).pc = s.progBase + p.entry
      ∧ (List.range 7).map (t.context c x).reg
        = [r.body, tab, tab + 8192 * nobj, mask + d * 2 ^ 24, 0, r.job, r.session].map (BitVec.ofNat 64)
      ∧ ∀ i, 7 ≤ i → i < 64 → (t.context c x).reg i = (s.context c x).reg i)
  ∧ (∀ c x, x < 4 → ¬ (c ∈ cores ∧ s.freeCtx c = some x) → t.context c x = s.context c x ∧ t.jobOf c x = s.jobOf c x)
  ∧ (∀ a h b, (s.bodyObjects r).head? = some a → h = Header.ofBytes (s.readBytes a 64) → b < min 1024 (h.polys * h.limbs * 2 ^ p.csplit) →
      t.ownerWord tab b = { valid := true, off768 := b / cores.length * blockUnit h.log2n p.csplit % drawerBytes / 768, csplit := p.csplit
                            device := s.myDev, die := (cores[b % cores.length]?).getD 0 / 24
                            core := (cores[b % cores.length]?).getD 0 % 24
                            drawer := (p.inDrawer + b / cores.length * blockUnit h.log2n p.csplit / drawerBytes) % 256 })
  ∧ s.journalOnly t (fun k => k = n) (fun a => tab ≤ a ∧ a < tab + 8192 * (nobj + 16))
  ∧ t.out = s.out ∧ t.sessions = s.sessions ∧ t.regs = s.regs

/-- The epoch commit (16 R362, R363; 04 R87; 03 R62): the shadow table is current with the excluded cores in it, the epoch counts one,
ready key sets are current, and built alloy tables are. -/
def Sys2Proof.Machine.State.committed (s t : State) : Prop :=
  t.plcActive = s.applyExclude s.plcShadow ∧ t.plcShadow = t.plcActive ∧ t.commitNow = false ∧ t.lastCommit = s.time
  ∧ (∀ c, c < 96 → Tab.get 0 s.plcShadow.cores c = 0 → bitOf (s.reg .plcExclude 0 (c / 32)) (c % 32) = true →
      Tab.get 0 t.plcActive.cores c = 1)
  ∧ (∀ c, c < 96 → Tab.get 0 s.plcShadow.cores c = 1 → bitOf (s.reg .plcExclude 0 (c / 32)) (c % 32) = false →
      Tab.get 0 t.plcActive.cores c = 0)
  ∧ t.rf .plcStatus 0 0 31 8 = (s.rf .plcStatus 0 0 31 8 + 1) % 2 ^ 24 ∧ t.rf .plcStatus 0 0 1 0 = 0
  ∧ (∀ n, t.session n = (if (s.session n).readyDir = 0 then s.session n else
      { (s.session n) with gen := (s.session n).readyGen, keyDie := (s.session n).readyDie, dir := (s.session n).readyDir
                           readyGen := 0, readyDie := 0, readyDir := 0 }))
  ∧ (∀ k, k < 4 → t.table k = (if (s.table k).shadow = 2 then
      { (s.table k) with bank := (s.table k).shadowBank, shadowBank := {}, active := true, gen := ((s.table k).gen + 1) % 256, shadow := 0 }
      else s.table k))
  ∧ (∀ k ∈ t.keysets, k ∈ s.keysets) ∧ (∀ k, (s.jrec k).kind ≠ 2 → t.jrec k = s.jrec k) ∧ t.cores = s.cores ∧ t.out = s.out

/-- Accepted jobs are placed on the die that holds their session's keys, wait there, or go to the partner (16 R364 to R366; 21 R461); the placement
table changes at epoch commits only (16 R362, R363); a table with wrong parity ends placement (19 R404). Where the spec is silent it states the
model's choices: log entries 9, 89, 147. -/
def Obligations.JobsArePlacedAndEpochsCommit : Prop :=
  (∀ (s : State) (n tab : Nat) (p : Program) (cores : List Nat), s.CanPlace n p cores tab →
    ((s.jrec n).origin = 0 ∨ (s.session (s.jrec n).session).taken = true) → s.pewterDie (s.jrec n) = none →
    ∃ t, exec (.jobPlacement ([n], false)) s = .next t ∧ s.placedOn t n p cores tab)
  ∧ (∀ (s : State) (n session job tab : Nat) (p : Program) (cores : List Nat), s.CanPlace n p cores tab →
    s.findRec (fun r => r.origin == 1 && r.kind == 1 && r.session == session && r.job == job && r.state == 3) = some n →
    ∃ t, exec (.partnerJob session job) s = .next t ∧ s.placedOn t n p cores tab)
  ∧ (∀ (s : State) (n : Nat) (p : Program), bitOf (s.reg .plcCtrl) 0 = true → s.sbActive = false → s.plcBad = false → (s.jrec n).kind = 1 →
    (s.jrec n).state = 3 → (s.jrec n).origin = 0 → s.pewterDie (s.jrec n) = none → s.program (s.jobProgram (s.jrec n)) = some p →
    s.pickCores (s.keyDieOf (s.jrec n)) p.need p.modeS = none →
    ∃ t, exec (.jobPlacement ([n], false)) s = .next t
      ∧ ((bitOf (s.reg .plcCtrl) 2 = true ∧ s.paired = true ∧ ∃ k ∈ s.peerFree, p.need ≤ k) →
          t.jrec n = { (s.jrec n) with state := 4 } ∧ s.tells t (Config.hubCode 0) (s.jrec n).session (s.jrec n).job
          ∧ s.journalOnly t (fun k => k = n) (fun _ => False) ∧ ¬ n ∈ t.queuedJobs ∧ t.placed = s.placed ∧ t.cores = s.cores
          ∧ ∀ a, ¬ eventCounter a → Tab.find? t.regs a = Tab.find? s.regs a)
      ∧ (¬ (bitOf (s.reg .plcCtrl) 2 = true ∧ s.paired = true ∧ ∃ k ∈ s.peerFree, p.need ≤ k) →
          t.queuedJobs = (if n ∈ s.queuedJobs then s.queuedJobs else s.queuedJobs ++ [n])
          ∧ { s with queuedJobs := t.queuedJobs }.eventsOnly t))
  ∧ (∀ (s : State) (slots : List Nat) (session job : Nat), (bitOf (s.reg .plcCtrl) 0 = false ∨ s.sbActive = true ∨ s.plcBad = true) →
    exec (.jobPlacement (slots, false)) s = .next s ∧ exec (.partnerJob session job) s = .next s)
  ∧ (∀ (s : State) (slots : List Nat), s.plcBad = false →
    ∃ t, exec (.jobPlacement (slots, true)) s = .next t ∧ t.plcBad = true ∧ { s with plcBad := true }.eventsOnly t)
  ∧ (∀ (s : State), s.rf .plcStatus 0 0 1 0 = 1 →
    ∃ t, exec .placementRebuildDone s = .next t ∧ t.rf .plcStatus 0 0 1 0 = 2 ∧ s.onlyRegs t [adr .plcStatus 0 0])
  ∧ (∀ (s : State), s.rf .plcStatus 0 0 1 0 ≠ 1 → exec .placementRebuildDone s = .next s)
  ∧ (∀ (s : State), (s.sessions.map (fun e => e.1)).Nodup → s.commitDue = true →
    ∃ t, exec .epochCommit s = .next t ∧ s.committed t)
  ∧ (∀ (s : State), s.commitDue = false → exec .epochCommit s = .next s)
  ∧ (∀ (s : State), (s.sessions.map (fun e => e.1)).Nodup → (s.rf .plcStatus 0 0 1 0 = 0 ∨ s.rf .plcStatus 0 0 1 0 = 2) →
    ∃ t, exec .commitNow s = .next t ∧ s.committed t ∧ bitOf (t.reg .plcCtrl) 1 = false)
  ∧ ∀ (s : State), s.rf .plcStatus 0 0 1 0 = 1 →
    ∃ t, exec .commitNow s = .next t ∧ t.commitNow = true ∧ t.plcActive = s.plcActive ∧ t.sessions = s.sessions
      ∧ { s with commitNow := true }.onlyRegs t [adr .plcCtrl 0 0]

/-! ### The touchstone -/

/-- A request as it starts: its sources and its curve latched (17 R379). -/
def Sys2Proof.Machine.State.tsTake (s : State) (r : TsReq) : TsReq :=
  { r with started := true, srcs := (s.tsSrc r).map (fun p => s.tsRead p.slot p.bytes)
           srcOk := (partSlots (s.tsSrc r)).all (fun x => x ∈ s.ts.valid)
           curve := if ecAlg r.alg && decide (r.op ≤ 0x13) then (s.tsCurveOf r.alg).getD [] else [] }

/-- The request gets through the checks at push, there is an entry for it, and its unit has no other (17 R372, R374). -/
structure Sys2Proof.Machine.State.TsReady (s : State) (r : TsReq) : Prop where
  entry : r.who = 0 → s.tsFull = false
  ok : s.tsPushOk r = true
  size : 4 ≤ s.tsLen
  alone : ∀ v ∈ s.ts.queue, v.isHash ≠ r.isHash

/-- The status and the outputs of a started request without a fault: the failure that its phases find first (17 R379, R383, R387), else
those of its operation. -/
def Sys2Proof.Machine.State.tsEnds (s : State) (r : TsReq) (st : Nat) (outs : List (List Byte)) : Prop :=
  (tsRandom r.op = true → s.ts.entropyBad = true → st = 0x49)
  ∧ (¬ (tsRandom r.op = true ∧ s.ts.entropyBad = true) → r.loadOk = false → st = 0x40)
  ∧ (¬ (tsRandom r.op = true ∧ s.ts.entropyBad = true) → r.loadOk = true → r.curveOk = false → st = 0x41)
  ∧ (¬ (tsRandom r.op = true ∧ s.ts.entropyBad = true) → r.loadOk = true → r.curveOk = true → (st, outs) = s.tsRun r)

/-- A request has reached its latch (17 R385): its destinations hold its outputs and are VALID, the first SECRET where it is a private value,
or are zero with both flags clear on a failure; its completion stands; every other slot, and all else, stands. -/
def Sys2Proof.Machine.State.tsDone (s t : State) (r : TsReq) (st : Nat) (outs : List (List Byte)) : Prop :=
  (∀ (i : Nat) (p : Part), (s.tsDst r)[i]? = some p →
    (st = 0 → t.tsRead p.slot p.bytes = fixLen p.bytes ((outs[i]?).getD []))
    ∧ (st ≠ 0 → t.tsRead p.slot (s.tsSlotBytes * p.slots) = List.replicate (s.tsSlotBytes * p.slots) 0)
    ∧ ∀ k ∈ p.all, (k ∈ t.ts.valid ↔ st = 0) ∧ (k ∈ t.ts.secret ↔ st = 0 ∧ i = 0 ∧ tsSecret r.op = true))
  ∧ (∀ k, ¬ k ∈ partSlots (s.tsDst r) → (k ∈ t.ts.valid ↔ k ∈ s.ts.valid) ∧ (k ∈ t.ts.secret ↔ k ∈ s.ts.secret))
  ∧ (∀ j, ¬ j / s.tsSlotBytes ∈ partSlots (s.tsDst r) → Tab.get 0 t.ts.mem j = Tab.get 0 s.ts.mem j)
  ∧ (∃ cyc, t.ts.done = s.ts.done ++ (if r.who = 0 then [TsDone.mk 0 r.tag st cyc] else [])
      ∧ t.ts.inner = s.ts.inner ++ (if r.who = 0 then [] else [TsDone.mk r.who r.tag st cyc]))
  ∧ { s with ts := t.ts, free := t.free }.onlyRegs t
      [adr .tsCurveRej 0 0, adr .tsMismatch 0 0, adr .tsVerifyFail 0 0, adr .tsCurve 0 (r.alg - 0x10)]

/-- A row of an operation runs its request. -/
def Sys2Proof.Machine.TsRow (i : Instr) (r : TsReq) : Prop :=
  ∀ s : State, s.TsReady r →
    ∃ t st outs, exec i s = .next t ∧ s.tsEnds (s.tsTake r) st outs ∧ s.tsDone t r st outs ∧ t.ts.queue = s.ts.queue

/-- Every operation of the touchstone runs its request from push to latch (17 R374 to R385), and MODEXP, SHAKE, CURVE_LOAD and CURVE_CLEAR have the
results that arithmetic gives them (R378, R384). Where the spec is silent it states the model's choices: log entries 92, 94, 95, 97. -/
def Obligations.TouchstoneOperations : Prop :=
  (∀ who tag a b c dst req, TsRow (.modexp who tag a b c dst req) (tsReqOf who 0x01 0 tag a b c dst 0 0 false))
  ∧ (∀ who alg tag dst req, TsRow (.ecKeygen who alg tag dst req) (tsReqOf who 0x10 alg tag 0 0 0 dst 0 0 false))
  ∧ (∀ who alg tag idkey a c dst mlen req,
      TsRow (.ecdsaSign who alg tag idkey a c dst mlen req) (tsReqOf who 0x11 alg tag a 0 c dst mlen 0 idkey))
  ∧ (∀ who alg tag a b c mlen req, TsRow (.ecdsaVerify who alg tag a b c mlen req) (tsReqOf who 0x12 alg tag a b c 0 mlen 0 false))
  ∧ (∀ who alg tag a b dst req, TsRow (.ecdh who alg tag a b dst req) (tsReqOf who 0x13 alg tag a b 0 dst 0 0 false))
  ∧ (∀ who alg tag dst req, TsRow (.xKeygen who alg tag dst req) (tsReqOf who 0x20 alg tag 0 0 0 dst 0 0 false))
  ∧ (∀ who alg tag a b dst req, TsRow (.xAgree who alg tag a b dst req) (tsReqOf who 0x21 alg tag a b 0 dst 0 0 false))
  ∧ (∀ who alg tag dst req, TsRow (.edKeygen who alg tag dst req) (tsReqOf who 0x28 alg tag 0 0 0 dst 0 0 false))
  ∧ (∀ who alg tag a c dst mlen req, TsRow (.edSign who alg tag a c dst mlen req) (tsReqOf who 0x29 alg tag a 0 c dst mlen 0 false))
  ∧ (∀ who alg tag a b c mlen req, TsRow (.edVerify who alg tag a b c mlen req) (tsReqOf who 0x2A alg tag a b c 0 mlen 0 false))
  ∧ (∀ who alg tag dst req, TsRow (.kemKeygen who alg tag dst req) (tsReqOf who 0x30 alg tag 0 0 0 dst 0 0 false))
  ∧ (∀ who alg tag a dst req, TsRow (.kemEncaps who alg tag a dst req) (tsReqOf who 0x31 alg tag a 0 0 dst 0 0 false))
  ∧ (∀ who alg tag a b dst req, TsRow (.kemDecaps who alg tag a b dst req) (tsReqOf who 0x32 alg tag a b 0 dst 0 0 false))
  ∧ (∀ who alg tag dst req, TsRow (.dsaKeygen who alg tag dst req) (tsReqOf who 0x38 alg tag 0 0 0 dst 0 0 false))
  ∧ (∀ who alg tag a c dst mlen req, TsRow (.dsaSign who alg tag a c dst mlen req) (tsReqOf who 0x39 alg tag a 0 c dst mlen 0 false))
  ∧ (∀ who alg tag a b c mlen req, TsRow (.dsaVerify who alg tag a b c mlen req) (tsReqOf who 0x3A alg tag a b c 0 mlen 0 false))
  ∧ (∀ who alg tag a req, TsRow (.curveLoad who alg tag a req) (tsReqOf who 0x40 alg tag a 0 0 0 0 0 false))
  ∧ (∀ who alg tag req, TsRow (.curveClear who alg tag req) (tsReqOf who 0x41 alg tag 0 0 0 0 0 0 false))
  ∧ (∀ who alg tag c dst mlen olen req, TsRow (.hash who alg tag c dst mlen olen req) (tsReqOf who 0x50 alg tag 0 0 c dst mlen olen false))
  ∧ (∀ (s : State) (who tag a b c dst req : Nat), s.TsReady (tsReqOf who 0x01 0 tag a b c dst 0 0 false) →
    a % 4096 ∈ s.ts.valid → b % 4096 ∈ s.ts.valid → c % 4096 ∈ s.ts.valid →
    let base := leNat (s.tsRead (a % 4096) s.tsSlotBytes)
    let e := leNat (s.tsRead (b % 4096) s.tsSlotBytes)
    let m := leNat (s.tsRead (c % 4096) s.tsSlotBytes)
    ∃ t, exec (.modexp who tag a b c dst req) s = .next t
      ∧ (base < m → m % 2 = 1 → 3 ≤ m → leNat (t.tsRead (dst % 4096) s.tsSlotBytes) = base ^ e % m)
      ∧ (¬ (base < m ∧ m % 2 = 1 ∧ 3 ≤ m) → leNat (t.tsRead (dst % 4096) s.tsSlotBytes) = 0))
  ∧ (∀ (s : State) (who tag c dst mlen olen req : Nat), s.TsReady (tsReqOf who 0x50 0x22 tag 0 0 c dst mlen olen false) →
    (∀ k ∈ partSlots (s.tsSrc (tsReqOf who 0x50 0x22 tag 0 0 c dst mlen olen false)), k ∈ s.ts.valid) →
    ∃ t, exec (.hash who 0x22 tag c dst mlen olen req) s = .next t
      ∧ t.tsRead (dst % 4096) (olen % 65536) = shake256 (s.tsRead (c % 4096) (mlen % 65536)) (olen % 65536))
  ∧ (∀ (s : State) (who alg tag a req : Nat), s.TsReady (tsReqOf who 0x40 alg tag a 0 0 0 0 0 false) → alg < 256 →
    (∀ i, i < 7 → a % 4096 + i ∈ s.ts.valid) →
    let v := fun i => leNat (s.tsRead (a % 4096 + i) s.tsSlotBytes)
    ∃ t, exec (.curveLoad who alg tag a req) s = .next t
      ∧ (curveCheck (v 0) (v 1) (v 2) (v 3) (v 4) (v 5) (v 6) = 0 →
          t.tsCurveOf alg = some [v 0, v 1, v 2, v 3, v 4, v 5, v 6] ∧ bitOf (t.reg .tsCurve 0 (alg - 0x10)) 31 = true)
      ∧ (curveCheck (v 0) (v 1) (v 2) (v 3) (v 4) (v 5) (v 6) ≠ 0 →
          t.ts.curves = s.ts.curves ∧ s.countedOne t .tsCurveRej 0 0))
  ∧ ∀ (s : State) (who alg tag req : Nat), s.TsReady (tsReqOf who 0x41 alg tag 0 0 0 0 0 0 false) → alg < 256 →
    ∃ t, exec (.curveClear who alg tag req) s = .next t ∧ t.tsCurveOf alg = none ∧ bitOf (t.reg .tsCurve 0 (alg - 0x10)) 31 = false

/-- The request that TS_REQ0 to TS_REQ3 hold (17 R372). -/
def Sys2Proof.Machine.State.tsHeld (s : State) : TsReq :=
  tsReqOf 0 (bits (s.reg .tsReq0) 23 16) (bits (s.reg .tsReq0) 31 24) (bits (s.reg .tsReq0) 15 0) (bits (s.reg .tsReq1) 11 0)
    (bits (s.reg .tsReq1) 27 16) (bits (s.reg .tsReq2) 11 0) (bits (s.reg .tsReq2) 27 16) (bits (s.reg .tsReq3) 15 0)
    (bits (s.reg .tsReq3) 31 16) (bitOf (s.reg .tsReq1) 31)

/-- The queue and the management window of the touchstone (17 R372 to R377, R381 to R383, R385, R386): a push enters the queue, completes at once
with ST_TS_REQUEST or is refused; the oldest request of a unit starts and reaches its latch; completions are popped, requests aborted, slots zeroed
and written, the sizes configured. Where the spec is silent it states the model's choices: log entries 93, 94, 96, 98. -/
def Obligations.TouchstoneQueueAndSlots : Prop :=
  (∀ (s : State) (req : Nat), s.tsFull = false → s.tsPushOk s.tsHeld = true →
    exec (.tsPush req) s = .next { s with ts := { s.ts with queue := s.ts.queue ++ [s.tsHeld] } })
  ∧ (∀ (s : State) (req : Nat), s.tsFull = false → s.tsPushOk s.tsHeld = false →
    ∃ t, exec (.tsPush req) s = .next t
      ∧ { s with ts := { s.ts with done := s.ts.done ++ [TsDone.mk 0 s.tsHeld.tag 0x48 0] } }.eventsOnly t)
  ∧ (∀ (s : State) (req : Nat), s.tsFull = true → ∃ t, exec (.tsPush req) s = .next t ∧ s.refusedOnly t)
  ∧ (∀ (s : State) (h : Bool) (pre post : List TsReq) (r : TsReq), s.ts.queue = pre ++ r :: post → r.isHash = h →
    (∀ v ∈ pre, v.isHash ≠ h) → (∀ v ∈ s.ts.queue, v.isHash = h → v.started = false) →
    exec (.tsRequestStart h) s = .next { s with ts := { s.ts with queue := pre ++ s.tsTake r :: post } })
  ∧ (∀ (s : State) (h : Bool), (∃ v ∈ s.ts.queue, v.isHash = h ∧ v.started = true) → exec (.tsRequestStart h) s = .next s)
  ∧ (∀ (s : State) (h : Bool) (pre post : List TsReq) (r : TsReq), s.ts.queue = pre ++ r :: post → r.isHash = h → r.started = true →
    (∀ v ∈ pre, ¬ (v.isHash = h ∧ v.started = true)) → ((ecAlg r.alg = true ∧ r.op ≤ 0x13) → r.curve ≠ []) → 4 ≤ s.tsLen →
    (∃ t st outs, exec (.tsRequestLatch h 0) s = .next t ∧ s.tsEnds r st outs ∧ s.tsDone t r st outs ∧ t.ts.queue = pre ++ post)
    ∧ (∃ t st outs, exec (.tsRequestLatch h 1) s = .next t ∧ s.tsDone t r st outs ∧ t.ts.queue = pre ++ post
        ∧ (∀ o, s.tsEnds r 0 o → (tsTwin r.op = true → st = 0x44 ∧ s.countedOne t .tsMismatch 0 0)
            ∧ (tsTwin r.op = false → tsSigns r.op = true → st = 0x45 ∧ s.countedOne t .tsVerifyFail 0 0))))
  ∧ (∀ (s : State), exec .tsDonePop s = .next { s with ts := { s.ts with done := s.ts.done.drop 1 } })
  ∧ (∀ (s : State) (tag : Nat) (pre post : List TsReq) (r : TsReq), s.ts.queue = pre ++ r :: post → r.who = 0 → r.tag = tag →
    (∀ v, v ∈ pre ∨ v ∈ post → ¬ (v.who = 0 ∧ v.tag = tag)) →
    ∃ t, exec (.tsAbortTag tag) s = .next t ∧ t.ts.queue = pre ++ post
      ∧ (r.started = false →
          { s with ts := { s.ts with queue := pre ++ post, done := s.ts.done ++ [TsDone.mk 0 tag stAborted 0] } }.eventsOnly t)
      ∧ (r.started = true → s.tsDone t r stAborted []))
  ∧ (∀ (s : State), ∃ t, exec .tsAbortAll s = .next t ∧ t.ts.queue = s.ts.queue.filter (fun r => r.who != 0)
      ∧ t.ts.done.length = s.ts.done.length + (s.ts.queue.filter (fun r => r.who == 0)).length ∧ t.ts.inner = s.ts.inner
      ∧ s.sameHeart t)
  ∧ (∀ (s : State), let k := s.rf .tsSlotSel 0 0 11 0
    ∃ t, exec .tsSlotZero s = .next t
      ∧ (¬ k ∈ s.tsBusy → k < s.tsSlots →
          t.tsRead k s.tsSlotBytes = List.replicate s.tsSlotBytes 0 ∧ ¬ k ∈ t.ts.valid ∧ ¬ k ∈ t.ts.secret
          ∧ (∀ j, j ≠ k → (j ∈ t.ts.valid ↔ j ∈ s.ts.valid) ∧ (j ∈ t.ts.secret ↔ j ∈ s.ts.secret))
          ∧ (∀ j, j / s.tsSlotBytes ≠ k → Tab.get 0 t.ts.mem j = Tab.get 0 s.ts.mem j) ∧ { t with ts := s.ts } = s)
      ∧ (k ∈ s.tsBusy ∨ s.tsSlots ≤ k → t = s))
  ∧ (∀ (s : State) (w : Nat) (v : W32) (req : Nat), w < 256 → let k := s.rf .tsSlotSel 0 0 11 0
    ∃ t, exec (.tsSlotDataWrite w v req) s = .next t
      ∧ (¬ k ∈ s.tsBusy → ¬ k ∈ s.ts.secret → s.rf .tsPart 0 0 11 0 ≤ k → w < 2 * s.tsLen → k < s.tsSlots →
          leNat ((List.range 4).map (fun i => Tab.get 0 t.ts.mem (s.tsSlotBytes * k + 4 * w + i))) = v.toNat ∧ k ∈ t.ts.valid
          ∧ (∀ j, j < s.tsSlotBytes * k + 4 * w ∨ s.tsSlotBytes * k + 4 * w + 4 ≤ j → Tab.get 0 t.ts.mem j = Tab.get 0 s.ts.mem j)
          ∧ { t with ts := s.ts } = s)
      ∧ (k ∈ s.tsBusy ∨ k ∈ s.ts.secret ∨ k < s.rf .tsPart 0 0 11 0 → s.refusedOnly t))
  ∧ (∀ (s : State) (value req : Nat), s.ts.queue = [] → 4 ≤ value → value < 128 →
    ∃ t, exec (.tsCfgWrite false value req) s = .next t ∧ t.tsLen = value ∧ t.ts = { s.ts with mem := [], valid := [], secret := [] }
      ∧ { s with ts := t.ts }.onlyRegs t [adr .tsCfg 0 0])
  ∧ (∀ (s : State) (value req : Nat), s.ts.queue = [] → value < 4096 →
    ∃ t, exec (.tsCfgWrite true value req) s = .next t ∧ t.rf .tsPart 0 0 11 0 = value
      ∧ t.ts = { s.ts with mem := [], valid := [], secret := [] } ∧ { s with ts := t.ts }.onlyRegs t [adr .tsPart 0 0])
  ∧ (∀ (s : State) (part : Bool) (value req : Nat), s.ts.queue ≠ [] →
    ∃ t, exec (.tsCfgWrite part value req) s = .next t ∧ s.refusedOnly t)
  ∧ ∀ (s : State) (b : Bool),
    (s.ts.entropyBad = b → exec (.entropyTestChange b) s = .next s)
    ∧ (s.ts.entropyBad ≠ b →
        ∃ t, exec (.entropyTestChange b) s = .next t ∧ { s with ts := { s.ts with entropyBad := b } }.eventsOnly t)

/-! ### Check values and peening -/

/-- Check-value units: START, FINISH, APPLY, feeds and direct writes of RUN (18 R390 to R400). Peening slots: armed, disarmed, enabled and tallied;
the hallmark can forbid them all (24 R518 to R522). Where the spec is silent it states the model's choices: log entries 99, 121. -/
def Obligations.CheckValueUnitsAndPeening : Prop :=
  (∀ (s : State) (u : Nat), u < 64 →
    (∃ t, exec (.cvStart u) s = .next t ∧ t.cvRun u = (s.cvProfile u).init % 2 ^ (s.cvProfile u).width
      ∧ s.onlyRegs t [RegKey.addr (cvKey .cvRunLo .pcvRunLo u), RegKey.addr (cvKey .cvRunHi .pcvRunHi u)])
    ∧ (∃ t, exec (.cvFinish u) s = .next t
      ∧ t.cv64 u .cvCheckLo .cvCheckHi .pcvCheckLo .pcvCheckHi = crcValue (s.cvProfile u) (s.cvRun u) % 2 ^ 64
      ∧ s.onlyRegs t [RegKey.addr (cvKey .cvCheckLo .pcvCheckLo u), RegKey.addr (cvKey .cvCheckHi .pcvCheckHi u)])
    ∧ ∃ t, exec (.cvApply u) s = .next t
      ∧ t.cv64 u .cvCheckLo .cvCheckHi .pcvCheckLo .pcvCheckHi
        = crc (s.cvProfile u) [0x31, 0x32, 0x33, 0x34, 0x35, 0x36, 0x37, 0x38, 0x39] % 2 ^ 64
      ∧ t.cvRun u = (s.cvProfile u).init % 2 ^ (s.cvProfile u).width
      ∧ s.onlyRegs t [RegKey.addr (cvKey .cvRunLo .pcvRunLo u), RegKey.addr (cvKey .cvRunHi .pcvRunHi u),
          RegKey.addr (cvKey .cvCheckLo .pcvCheckLo u), RegKey.addr (cvKey .cvCheckHi .pcvCheckHi u)])
  ∧ (∀ (s : State) (u : Nat) (v : W32) (req : Nat), u < 64 →
    ∃ t, exec (.cvFeed u v req) s = .next t
      ∧ (s.cvOwned u = false →
          t.cvRun u = crcFeed (s.cvProfile u) (s.cvRun u)
            (natLE (if bits (s.regK (cvKey .cvCtrl .pcvCtrl u)) 5 4 = 0 then 4 else bits (s.regK (cvKey .cvCtrl .pcvCtrl u)) 5 4) v.toNat)
            % 2 ^ 64
          ∧ s.onlyRegs t [RegKey.addr (cvKey .cvRunLo .pcvRunLo u), RegKey.addr (cvKey .cvRunHi .pcvRunHi u)])
      ∧ (s.cvOwned u = true → s.refusedOnly t))
  ∧ (∀ (s : State) (u : Nat) (v : W32) (req : Nat), u < 64 → s.cvBusy u = false →
    (∃ t, exec (.cvRunWrite u false v req) s = .next t
      ∧ ((s.cvProfile u).width ≤ 32 → t.cvRun u = v.toNat % 2 ^ (s.cvProfile u).width
          ∧ s.onlyRegs t [RegKey.addr (cvKey .cvRunLo .pcvRunLo u), RegKey.addr (cvKey .cvRunHi .pcvRunHi u)])
      ∧ (32 < (s.cvProfile u).width → Tab.find? t.cvStage u = some v ∧ (∀ j, j ≠ u → Tab.find? t.cvStage j = Tab.find? s.cvStage j)
          ∧ { t with cvStage := s.cvStage } = s))
    ∧ ∃ t, exec (.cvRunWrite u true v req) s = .next t
      ∧ t.cvRun u = (((Tab.find? s.cvStage u).map BitVec.toNat).getD (s.cvRun u % 2 ^ 32) + 2 ^ 32 * v.toNat) % 2 ^ (s.cvProfile u).width
      ∧ Tab.find? t.cvStage u = none ∧ (∀ j, j ≠ u → Tab.find? t.cvStage j = Tab.find? s.cvStage j)
      ∧ { s with cvStage := t.cvStage }.onlyRegs t
          [RegKey.addr (cvKey .cvRunLo .pcvRunLo u), RegKey.addr (cvKey .cvRunHi .pcvRunHi u)])
  ∧ (∀ (s : State) (u : Nat) (high : Bool) (v : W32) (req : Nat), u < 64 → s.cvBusy u = true →
    ∃ t, exec (.cvRunWrite u high v req) s = .next t ∧ s.refusedOnly t)
  ∧ (∀ (s : State) (k : Nat) (v : W32) (req : Nat), k < 8 → s.peenOk = true → bitOf (s.reg .pnCfg 0 k) 31 = false →
    targetFits (bits v 23 20) (bits v 19 0) = true →
    ∃ t, exec (.peenArm k v req) s = .next t
      ∧ (bitOf v 31 = false → t.reg .pnCfg 0 k = v &&& 0xC0FFFFFF ∧ s.onlyRegs t [adr .pnCfg 0 k])
      ∧ (bitOf v 31 = true → (bitOf v 30 = false ∨ s.reg .pnSeed 0 k ≠ 0) →
          t.reg .pnCfg 0 k = v &&& 0xC0FFFFFF
          ∧ Tab.get {} t.peen k = { lfsr := (s.reg .pnSeed 0 k).toNat, opened := s.time }
          ∧ (∀ j, j ≠ k → Tab.get {} t.peen j = Tab.get {} s.peen j) ∧ { s with peen := t.peen }.onlyRegs t [adr .pnCfg 0 k])
      ∧ (bitOf v 31 = true → bitOf v 30 = true → s.reg .pnSeed 0 k = 0 → s.refusedOnly t))
  ∧ (∀ (s : State) (k req : Nat), k < 8 → s.peenOk = true → bitOf (s.reg .pnCfg 0 k) 31 = true →
    s.reg .pnCfg 0 k &&& 0xC0FFFFFF = s.reg .pnCfg 0 k →
    ∃ t, exec (.peenArm k (putBits (s.reg .pnCfg 0 k) 31 31 0) req) s = .next t ∧ bitOf (t.reg .pnCfg 0 k) 31 = false
      ∧ (Tab.get {} t.peen k).window = 0 ∧ { s with peen := t.peen }.onlyRegs t [adr .pnCfg 0 k])
  ∧ (∀ (s : State) (k : Nat) (v : W32) (req : Nat) (on : Bool), k < 8 → s.peenOk = false →
    (∃ t, exec (.peenArm k v req) s = .next t ∧ s.refusedOnly t) ∧ ∃ t, exec (.peenEnable on req) s = .next t ∧ s.refusedOnly t)
  ∧ (∀ (s : State) (on : Bool) (req : Nat), s.peenOk = true →
    ∃ t, exec (.peenEnable on req) s = .next t ∧ t.reg .peenCtrl = (if on then 1 else 0) ∧ s.onlyRegs t [adr .peenCtrl 0 0])
  ∧ ∀ (s : State) (k : Nat), k < 8 →
    ∃ t, exec (.peenTally k) s = .next t
      ∧ (bitOf (s.reg .pnCfg 0 k) 31 = true → (Tab.get {} s.peen k).opened + 400000 ≤ s.time →
          Tab.get {} t.peen k = { (Tab.get {} s.peen k) with window := 0, opened := s.time }
          ∧ (∀ j, j ≠ k → Tab.get {} t.peen j = Tab.get {} s.peen j) ∧ { s with peen := t.peen }.eventsOnly t)
      ∧ ((bitOf (s.reg .pnCfg 0 k) 31 = false ∨ s.time < (Tab.get {} s.peen k).opened + 400000) → t = s)

/-! ### Rails, junctions, clocks and resets -/

/-- Die `d` has been lost (19 R417; 20 R429, R441): its bit and its rail's and junction's, its
domains stopped, its cores DOWN in both placement tables, and every job
PLACED on it HELD. -/
def Sys2Proof.Machine.State.dieDown (s t : State) (d : Nat) : Prop :=
  bitOf (t.reg .sbStatus) (8 + d) = true ∧ bitOf (t.reg .railStatus 0 d) 31 = false ∧ bitOf (t.reg .jtStatus 0 d) 9 = true
  ∧ (∀ j, j < 10 → bitOf (t.reg .clkRun 0 ((11 * d + j) / 32)) ((11 * d + j) % 32) = false)
  ∧ (∀ j, j < 24 → Tab.get 0 t.plcActive.cores (24 * d + j) = 5 ∧ Tab.get 0 t.plcShadow.cores (24 * d + j) = 5)
  ∧ (∀ p ∈ s.placed, p.die = d → (s.jrec p.slot).kind = 1 → (s.jrec p.slot).state = 4 →
      t.jrec p.slot = { (s.jrec p.slot) with state := 6 })
  ∧ t.sessions = s.sessions ∧ t.out = s.out

/-- A strongbox cause has been latched (19 R417, R419; 21 R466): outside start-up the device is in the strongbox state. -/
def Sys2Proof.Machine.State.causeNow (s t : State) (cause : Nat) : Prop :=
  bitOf (t.reg .sbStatus) cause = true ∧ (11 ≤ s.boot ∨ s.sbActive = true → bitOf (t.reg .sbStatus) 31 = true)
  ∧ (s.boot < 11 → s.sbActive = false → bitOf (s.reg .sbStatus) cause = false → t.init.newCause = true)

/-- The target voltage of a rail after one step of its loop (20 R424, R425): 5 units up to VMAX, 5 down to VMIN, or as it was. -/
def Sys2Proof.Machine.State.railTarget (s : State) (rail margin : Nat) (neg : Bool) : Nat :=
  let v := s.rf .railStatus 0 rail 9 0
  if neg = true ∨ margin < s.rf .avsCfg 0 0 15 8 then min (v + 5) (s.rf .railLimit 0 rail 25 16)
  else if s.rf .avsCfg 0 0 23 16 < margin then max (v - 5) (s.rf .railLimit 0 rail 9 0) else v

/-- Rails step to their margins, report over-current and faults (20 R424 to R430); junctions throttle, trip and drop (R441, R442); clocks fail, lose
lock, stop and wake (R431 to R437); dies are lost and causes latched as 19 R417 says. Where the spec is silent it states the model's choices: log
entries 103, 104, 105. -/
def Obligations.RailsJunctionsAndClocks : Prop :=
  (∀ (s : State) (rail margin : Nat) (neg stepping acked : Bool), rail < 5 → bitOf (s.reg .avsCfg) 0 = true →
    ∃ t, exec (.avsLoopStep rail margin neg stepping acked) s = .next t
      ∧ (bitOf (s.reg .railStatus 0 rail) 28 = false → stepping = false → acked = true →
          t.rf .railStatus 0 rail 9 0 = s.railTarget rail margin neg)
      ∧ (bitOf (s.reg .railStatus 0 rail) 28 = false → stepping = false → acked = false → bitOf (t.reg .railStatus 0 rail) 28 = true)
      ∧ ((bitOf (s.reg .railStatus 0 rail) 28 = true ∨ stepping = true) → t.reg .railStatus 0 rail = s.reg .railStatus 0 rail)
      ∧ (rail < 4 → neg = true → bitOf (s.reg .railStatus 0 rail) 28 = true → 9 ≤ Tab.get 0 s.marginLow rail →
          bitOf (t.reg .jtStatus 0 rail) 15 = true ∧ bitOf (t.reg .jtStatus 0 rail) 8 = true)
      ∧ (rail < 4 → neg = false → bitOf (t.reg .jtStatus 0 rail) 15 = false)
      ∧ { s with marginLow := t.marginLow }.onlyRegs t [adr .railStatus 0 rail, adr .jtStatus 0 rail])
  ∧ (∀ (s : State) (rail margin : Nat) (neg stepping acked : Bool), rail < 5 → (bitOf (s.reg .avsCfg) 0 = false ∨ s.inReset = true) →
    exec (.avsLoopStep rail margin neg stepping acked) s = .next s)
  ∧ (∀ (s : State) (rail amps : Nat), rail < 5 → s.inReset = false →
    ∃ t, exec (.currentRead rail amps) s = .next t ∧ t.rf .railStatus 0 rail 19 10 = min amps 1023
      ∧ (rail < 4 → s.rf .railImax 0 rail 9 0 < min amps 1023 →
          bitOf (t.reg .jtStatus 0 rail) 14 = true ∧ bitOf (t.reg .jtStatus 0 rail) 8 = true)
      ∧ (rail < 4 → 100 * amps < 95 * s.rf .railImax 0 rail 9 0 → bitOf (t.reg .jtStatus 0 rail) 14 = false)
      ∧ s.onlyRegs t [adr .railStatus 0 rail, adr .jtStatus 0 rail])
  ∧ (∀ (s : State) (rail status : Nat) (abrupt junction : Bool), rail < 4 → s.inReset = false → s.sbActive = false → s.dieLost rail = false →
    ∃ t, exec (.vrAlert rail status abrupt junction) s = .next t ∧ s.dieDown t rail ∧ bitOf (t.reg .railStatus 0 rail) 30 = true
      ∧ (abrupt = true → bitOf (t.reg .railStatus 0 rail) 29 = true)
      ∧ (abrupt = true → s.jrnlSize ≠ 0 → s.jrnlBase / dieRange = rail → bitOf (t.reg .sbStatus) 0 = true))
  ∧ (∀ (s : State) (rail status : Nat) (abrupt junction : Bool), rail = 4 ∨ rail = 5 → s.inReset = false →
    ∃ t, exec (.vrAlert rail status abrupt junction) s = .next t ∧ s.causeNow t 0 ∧ (rail = 4 → bitOf (t.reg .railStatus 0 4) 30 = true))
  ∧ (∀ (s : State) (rail x : Nat) (a b : Bool), rail < 5 → s.inReset = true →
    exec (.vrAlert rail x a b) s = .next s ∧ exec (.currentRead rail x) s = .next s)
  ∧ (∀ (s : State) (temp : Nat) (rail : Bool),
    ∃ t, exec (.junctionRead 4 temp rail) s = .next t ∧ t.rf .jtStatus 0 4 7 0 = min temp 255
      ∧ (105 ≤ temp → s.causeNow t 1)
      ∧ (temp < 105 → (∀ k, k < 16 → bitOf (s.reg .clkFail 0 1) (12 + k) = false) → ¬ 1 ∈ t.causes
          ∧ ∀ c, c ≠ 1 → (c ∈ t.causes ↔ c ∈ s.causes)))
  ∧ (∀ (s : State) (d temp : Nat) (rail : Bool), d < 4 →
    ∃ t, exec (.junctionRead d temp rail) s = .next t ∧ t.rf .jtStatus 0 d 7 0 = min temp 255
      ∧ (105 ≤ temp → s.sbActive = false → s.dieLost d = false → s.dieDown t d)
      ∧ (temp < 105 → s.onlyRegs t [adr .jtStatus 0 d])
      ∧ (temp < 105 → s.rf .jtCfg 0 0 7 0 ≤ temp → bitOf (t.reg .jtStatus 0 d) 11 = true ∧ bitOf (t.reg .jtStatus 0 d) 8 = true)
      ∧ (temp < 105 → temp + 3 ≤ s.rf .jtCfg 0 0 7 0 → bitOf (t.reg .jtStatus 0 d) 11 = false))
  ∧ (∀ (s : State), exec .thermtrip s = .next { s with init := { s.init with thermtrip := true, tripped := true } })
  ∧ (∀ (s : State) (domain : Nat), domain < 60 →
    exec (.clockMonitor domain false) s = .next s
    ∧ ∃ t, exec (.clockMonitor domain true) s = .next t ∧ bitOf (t.reg .clkFail 0 (domain / 32)) (domain % 32) = true
      ∧ (domain < 44 → s.sbActive = false → s.dieLost (domain / 11) = false → s.dieDown t (domain / 11))
      ∧ (44 ≤ domain → s.causeNow t 1))
  ∧ (∀ (s : State),
    ∃ t, exec .pllUnlock s = .next t ∧ bitOf (t.reg .clkStatus) 0 = false ∧ bitOf (t.reg .clkStatus) 1 = true ∧ t.reg .clkRun 0 0 = 0
      ∧ (∀ i, i < 28 → (bitOf (t.reg .clkRun 0 1) i = true ↔ 32 + i ∈ [44, 45, 55, 57, 58])) ∧ s.causeNow t 4
      ∧ (s.sbActive = false → ∀ d, d < 4 → t.dieLost d = true))
  ∧ ∀ (s : State) (domain : Nat), domain < 60 →
    (∃ t, exec (.clockStop domain) s = .next t
      ∧ (mayStop domain = true → bitOf (s.reg .clkStopEn 0 (domain / 32)) (domain % 32) = true → s.domainIdle domain = true →
          bitOf (t.reg .clkRun 0 (domain / 32)) (domain % 32) = false ∧ s.onlyRegs t [adr .clkRun 0 (domain / 32)])
      ∧ (¬ (mayStop domain = true ∧ bitOf (s.reg .clkStopEn 0 (domain / 32)) (domain % 32) = true ∧ s.domainIdle domain = true) → t = s))
    ∧ ∃ t, exec (.clockWake domain) s = .next t
      ∧ (mayStop domain = true → s.domainPowered domain = true → (bitOf (s.reg .clkStatus) 1 = false ∨ domain ∈ [44, 45, 55, 57, 58]) →
          bitOf (t.reg .clkRun 0 (domain / 32)) (domain % 32) = true ∧ s.onlyRegs t [adr .clkRun 0 (domain / 32)])
      ∧ (¬ (mayStop domain = true ∧ s.domainPowered domain = true ∧ (bitOf (s.reg .clkStatus) 1 = false ∨ domain ∈ [44, 45, 55, 57, 58])) →
          t = s)

/-- A register of the hallmark block. -/
def Sys2Proof.Machine.hallmarkReg (k : RegKey) : Prop := controlBase + 0x10000 ≤ k.addr ∧ k.addr < controlBase + 0x20000

/-- What every device reset leaves (20 R443, R444; 09 R546): empty cores, journal, sessions and queues, registers at their reset values but the
hallmark's and those named; what lies outside the device stands. -/
def Sys2Proof.Machine.State.isReset (s t : State) (named : List RegName) : Prop :=
  t.pending = s.pending ∧ t.out = s.out ∧ t.time = 0 ∧ t.cores = [] ∧ t.journal = [] ∧ t.sessions = [] ∧ t.keysets = []
  ∧ t.placed = [] ∧ t.bars = [] ∧ t.ctrs = [] ∧ t.fops = [] ∧ t.ts = {} ∧ t.router = {} ∧ t.links = [] ∧ t.held = [] ∧ t.peen = []
  ∧ (∀ k : RegKey, hallmarkReg k → t.regK k = s.regK k)
  ∧ (∀ k : RegKey, ¬ hallmarkReg k → (∀ r ∈ named, k.addr ≠ adr r 0 0) → t.regK k = k.reset)

/-- Power-on, pin and commanded resets (20 R443, R444): what each keeps and what RST_CAUSE then says. Snapshots are armed, and capture every powered
counter at the edge (20 R440; 22 R485). RESET_N low, a trip and a lost die show at the control outputs (25 R531). Where the spec is silent it states
the model's choices: log entries 103, 106, 124, 145. -/
def Obligations.ResetsAndSnapshots : Prop :=
  (∀ (s : State) (vaon : Bool) (strap : Nat), s.init.pwrgd = false →
    ∃ t, exec (.pwrgdRise vaon strap) s = .next t ∧ s.isReset t [.rstCause, .mgmtStatus] ∧ t.mem = [] ∧ t.ecc = []
      ∧ t.init = { pwrgd := true, resetN := s.init.resetN }
      ∧ t.reg .rstCause = (if vaon = true ∧ s.init.tripped = true then 17 else 1) ∧ t.rf .mgmtStatus 0 0 22 16 = 0x58 + strap % 4)
  ∧ (∀ (s : State) (vaon : Bool) (strap : Nat), s.init.pwrgd = true → exec (.pwrgdRise vaon strap) s = .next s)
  ∧ (∀ (s : State),
    ∃ t, exec .pwrgdFall s = .next t ∧ s.isReset t [.rstCause] ∧ t.mem = [] ∧ t.noDispatch = true
      ∧ t.init = { pwrgd := false, resetN := s.init.resetN, tripped := s.init.tripped })
  ∧ (∀ (s : State), s.init.pwrgd = true →
    (∀ ns, 50 ≤ ns →
      ∃ t, exec (.resetNLow ns) s = .next t ∧ s.isReset t [.rstCause, .sbStatus, .mgmtStatus] ∧ t.init.resetN = false
        ∧ bits (t.reg .rstCause) 3 0 = 2 ∧ ((∀ d, d < 4 → granOf (s.rf .hbmMap d 0 2 0) = granOf 3) → ∀ a, inHbm a = true → t.readByte a = s.readByte a)
        ∧ (∀ a, inHbm a = false → t.readByte a = State.reset.readByte a)
        ∧ t.rf .sbStatus 0 0 5 0 = s.rf .sbStatus 0 0 5 0 ∧ bitOf (t.reg .sbStatus) 31 = false ∧ t.repairs = s.repairs ∧ t.tap = s.tap)
    ∧ ∃ t, exec .warm s = .next t ∧ s.isReset t [.rstCause, .sbStatus, .mgmtStatus] ∧ t.init.resetN = s.init.resetN
        ∧ bits (t.reg .rstCause) 3 0 = 4 ∧ ((∀ d, d < 4 → granOf (s.rf .hbmMap d 0 2 0) = granOf 3) → ∀ a, inHbm a = true → t.readByte a = s.readByte a)
        ∧ (∀ a, inHbm a = false → t.readByte a = State.reset.readByte a)
        ∧ t.rf .sbStatus 0 0 5 0 = s.rf .sbStatus 0 0 5 0 ∧ bitOf (t.reg .sbStatus) 31 = false ∧ t.repairs = s.repairs ∧ t.tap = s.tap)
  ∧ (∀ (s : State) (ns : Nat), ns < 50 → exec (.resetNLow ns) s = .next s)
  ∧ (∀ (s : State), s.init.pwrgd = false →
    exec .warm s = .next s ∧ ∀ ns, 50 ≤ ns → exec (.resetNLow ns) s = .next { s with init := { s.init with resetN := false } })
  ∧ (∀ (s : State) (ns : Nat), 50 ≤ ns → s.tap.drive = false →
    ∃ t, exec (.resetNLow ns) s = .next t ∧ (∀ d, t.outPin (.vrEn d) = .released) ∧ (∀ k, t.outPin (.flashDq k) = .floating)
      ∧ t.outPin .avsClk = .low ∧ t.outPin .avsMdata = .high ∧ t.outPin .mgmtSda = .released
      ∧ t.outPin .flashCsN = .high ∧ t.outPin .flashCk = .low ∧ t.outPin .flashResetN = .low)
  ∧ (∀ (s : State), ∃ t u, exec .thermtrip s = .next t ∧ t.outPin .thermtripN = .low
      ∧ exec .pwrgdFall t = .next u ∧ u.outPin .thermtripN = .released)
  ∧ (∀ (s : State) (d : Nat), d < 4 → s.inReset = false → s.tap.drive = false → s.sbActive = false → s.dieLost d = false →
    ∃ t, exec (.hubLinkLoss d) s = .next t ∧ t.outPin (.vrEn d) = .low)
  ∧ (∀ (s : State) (req : Nat),
    ∃ t, exec (.snap req) s = .next t
      ∧ (bitOf (s.reg .snapStatus) 1 = false → t.snapAt = some (s.time / 4 + 16) ∧ bitOf (t.reg .snapStatus) 1 = true
          ∧ { s with snapAt := t.snapAt }.onlyRegs t [adr .snapStatus 0 0])
      ∧ (bitOf (s.reg .snapStatus) 1 = true → s.refusedOnly t))
  ∧ (∀ (s : State) (a : Nat), s.snapAt = some a → a ≤ s.time / 4 → (s.regs.map (fun e => e.1)).Nodup →
    ∃ t, exec .snapshotCapture s = .next t ∧ t.snapAt = none ∧ bits (t.reg .snapStatus) 1 0 = 1
      ∧ t.rf .snapStatus 0 0 31 16 = (s.rf .snapStatus 0 0 31 16 + 1) % 65536 ∧ t.reg .snapAlign = BitVec.ofNat 32 (a % 65536)
      ∧ Tab.get 0 t.held (adr .snapTimeLo 0 0) = loWord s.time ∧ Tab.get 0 t.held (adr .timeLo 0 0) = loWord s.time
      ∧ (∀ (k : RegKey) (v : W32), regOf k.addr = some k → k.reg.rosMask ≠ 0 → s.powered k.reg.block k.inst = true →
          Tab.find? s.regs k.addr = some v →
          ¬ k.addr ∈ [adr .snapTimeLo 0 0, adr .snapTimeHi 0 0, adr .timeLo 0 0, adr .timeHi 0 0] →
          Tab.get 0 t.held k.addr = v &&& k.reg.rosMask)
      ∧ { s with held := t.held, snapAt := none }.onlyRegs t [adr .snapStatus 0 0, adr .snapAlign 0 0])
  ∧ ∀ (s : State), (s.snapAt = none ∨ ∃ a, s.snapAt = some a ∧ s.time / 4 < a) → exec .snapshotCapture s = .next s

/-! ### Start-up, assays, pewter mode -/

/-- Start-up in its steps (21 R448 to R474): the hallmark is sensed, the clocks lock, the slots are verified and one taken, its sections loaded, the
stacks trained, the cores assayed, pairing awaited and service opened; failures lead where R456 to R469 say. Where the spec is silent it states the
model's choices: log entries 91, 108, 109, 110, 111, 146. -/
def Obligations.StartUpGoesStepByStep : Prop :=
  (∀ (s : State) (ok : Bool) (corrected : Nat), s.init.pwrgd = true → s.boot = 0 → s.tap.drive = false → s.init.newCause = false →
    ∃ t, exec (.startupBegin ok corrected) s = .next t ∧ t.boot = 2 ∧ t.init.resetN = true ∧ t.init.begun = s.time
      ∧ t.rf .hmStatus 0 0 15 0 = min corrected 65535 ∧ bitOf (t.reg .hmStatus) 30 = ok
      ∧ (ok = false → bitOf (t.reg .sbStatus) 3 = true) ∧ s.sameHeart t)
  ∧ (∀ (s : State) (ok : Bool) (corrected : Nat), (s.init.pwrgd = false ∨ s.boot ≠ 0 ∨ s.tap.drive = true) →
    exec (.startupBegin ok corrected) s = .next s)
  ∧ (∀ (s : State), s.boot = 2 → s.init.newCause = false →
    ∃ t, exec .pllLock s = .next t ∧ bitOf (t.reg .clkStatus) 0 = true
      ∧ (bitOf (s.reg .sbStatus) 3 = false → t.boot = 3 ∧ s.onlyRegs t [adr .clkStatus 0 0, adr .bootStatus 0 0])
      ∧ (bitOf (s.reg .sbStatus) 3 = true → t.boot = 15 ∧ bitOf (t.reg .sbStatus) 31 = true))
  ∧ (∀ (s : State) (ok : Bool) (corrected : Nat), s.boot ≠ 0 →
    ∃ t, exec (.hallmarkResense ok corrected) s = .next t ∧ t.rf .hmStatus 0 0 15 0 = min corrected 65535
      ∧ bitOf (t.reg .hmStatus) 30 = ok ∧ (ok = true → s.onlyRegs t [adr .hmStatus 0 0]) ∧ (ok = false → s.causeNow t 3))
  ∧ (∀ (s : State) (mib : Nat) (a b : List Byte), s.boot = 3 → s.init.force = none → s.init.newCause = false →
    ∃ t, exec (.slotVerifyDone mib a b) s = .next t
      ∧ t.init.slots = [s.verified a (mib * 2 ^ 19), s.verified b (mib * 2 ^ 19)]
      ∧ (s.slotCheck a (mib * 2 ^ 19) = 0 → s.slotCheck b (mib * 2 ^ 19) ≠ 0 →
          t.boot = 4 ∧ bitOf (t.reg .imgStatus) 0 = false ∧ t.reg .imgVer = BitVec.ofNat 32 (natBits (hdrWord a 1) 31 0))
      ∧ (s.slotCheck a (mib * 2 ^ 19) ≠ 0 → s.slotCheck b (mib * 2 ^ 19) = 0 →
          t.boot = 4 ∧ bitOf (t.reg .imgStatus) 0 = true ∧ t.reg .imgVer = BitVec.ofNat 32 (natBits (hdrWord b 1) 31 0))
      ∧ (s.slotCheck a (mib * 2 ^ 19) = 0 → s.slotCheck b (mib * 2 ^ 19) = 0 →
          t.boot = 4 ∧ bitOf (t.reg .imgStatus) 0 = decide (natBits (hdrWord a 1) 31 0 < natBits (hdrWord b 1) 31 0))
      ∧ (s.slotCheck a (mib * 2 ^ 19) ≠ 0 → s.slotCheck b (mib * 2 ^ 19) ≠ 0 →
          t.boot = 12 ∧ t.rf .imgStatus 0 0 7 4 = s.slotCheck a (mib * 2 ^ 19) ∧ t.rf .imgStatus 0 0 11 8 = s.slotCheck b (mib * 2 ^ 19))
      ∧ s.sameHeart t)
  ∧ (∀ (s : State) (data : List Byte) (typ len : Nat) (digest : List Byte), s.nextSection = some typ →
    (s.slot (s.rf .imgStatus 0 0 0 0)).secs[typ - 1]? = some (len, digest) →
    ∃ t, exec (.sectionLoad data) s = .next t
      ∧ ((data.length ≠ len ∨ sha384 data ≠ digest) → s.init.retried = false → t = { s with init := { s.init with retried := true } })
      ∧ (data.length = len → sha384 data = digest → typ = 3 → t.init.loaded = 3 ∧ s.sameHeart t)
      ∧ (data.length = len → sha384 data = digest → typ = 8 →
          (∀ a ∈ pewterAreas, s.progBase + data.length ≤ a.1 ∨ a.1 + a.2 ≤ s.progBase) →
          t.init.loaded = 8 ∧ t.progLen = data.length ∧ t.readBytes s.progBase data.length = data)
      ∧ (data.length = len → sha384 data = digest → typ ≠ 3 → typ ≠ 6 → typ ≠ 8 →
          (s.runRecs typ ((List.range (data.length / 16)).map (recAt data)) 0).2 = .done → t.init.loaded = typ ∧ t.init.recs = []))
  ∧ (∀ (s : State) (data : List Byte), s.nextSection = none → exec (.sectionLoad data) s = .next s ∧ exec .flashReadTimeout s = .next s)
  ∧ (∀ (s : State) (typ : Nat), s.nextSection = some typ →
    ∃ t, exec .flashReadTimeout s = .next t
      ∧ (s.init.retried = false → t = { s with init := { s.init with retried := true } })
      ∧ (s.init.retried = true → s.init.force = none → s.init.loaded = 0 → (s.slot (1 - s.rf .imgStatus 0 0 0 0)).reject = 0 →
          t.rf .imgStatus 0 0 0 0 = 1 - s.rf .imgStatus 0 0 0 0 ∧ t.boot = s.boot ∧ t.init.retried = false
          ∧ t.reg .imgVer = BitVec.ofNat 32 (s.slot (1 - s.rf .imgStatus 0 0 0 0)).ver ∧ s.sameHeart t)
      ∧ (s.init.retried = true → s.init.force = none → s.init.loaded ≠ 0 → (s.slot (1 - s.rf .imgStatus 0 0 0 0)).reject = 0 →
          t.init.force = some (1 - s.rf .imgStatus 0 0 0 0) ∧ s.isReset t [.rstCause, .sbStatus, .mgmtStatus])
      ∧ (s.init.retried = true → (s.init.force.isSome ∨ (s.slot (1 - s.rf .imgStatus 0 0 0 0)).reject ≠ 0) → t.boot = 12 ∧ s.sameHeart t))
  ∧ (∀ (s : State) (r : RegRec) (rs : List RegRec), s.init.recs = r :: rs →
    ∃ t, exec .recordWaitTimeout s = .next t
      ∧ ((s.hubRead r.addr 1).2.1 &&& r.mask ≠ r.value → s.init.force.isSome → t.boot = 12)
      ∧ ((s.hubRead r.addr 1).2.1 &&& r.mask = r.value → rs = [] → s.init.loaded ≠ 5 →
          t.init.recs = [] ∧ t.init.loaded = s.init.loaded + 1))
  ∧ (∀ (s : State), s.init.recs = [] → exec .recordWaitTimeout s = .next s)
  ∧ (∀ (s : State), s.boot = 5 → s.init.loaded = 3 → s.init.newCause = false →
    ∃ t, exec .hbmTrainingDone s = .next t ∧ t.boot = 6 ∧ t.cores = s.cores
      ∧ ∀ a, (∀ r ∈ s.trainingAreas, a < r.1 ∨ r.1 + r.2 ≤ a) → t.readByte a = s.readByte a)
  ∧ (∀ (s : State), (s.boot ≠ 5 ∨ s.init.loaded ≠ 3) → exec .hbmTrainingDone s = .next s)
  ∧ (∀ (s : State) (fails : List Nat) (hub : Nat), (s.boot = 7 ∨ s.assay.whole = true) → s.init.newCause = false →
    (s.cores.map (fun e => e.1)).Nodup →
    ∃ t, exec (.assayDone fails hub) s = .next t ∧ t.assay = {}
      ∧ (∀ c, c < 96 → s.dieLost (dieOf c) = false →
          (bitOf (t.reg .assayFail 0 (c / 32)) (c % 32) = true
            ↔ (∃ f ∈ fails, f % 128 = c) ∨ (c % 24 = 0 ∧ s.adderFails (c / 24) = true)))
      ∧ (∀ f ∈ fails, f % 128 < 96 → s.dieLost (dieOf (f % 128)) = false →
          Tab.get 0 t.plcActive.cores (f % 128) = 3 ∧ Tab.get 0 t.plcShadow.cores (f % 128) = 3)
      ∧ (∀ c, (t.core c).drawers = [] ∧ (t.core c).counters = [] ∧ (t.core c).hdrs = [] ∧ (t.core c).ctx = (s.core c).ctx)
      ∧ (hub % 16 ≠ 0 → t.boot = 14) ∧ (hub % 16 = 0 → s.boot = 7 → t.boot = 8 ∨ t.boot = 9) ∧ (hub % 16 = 0 → s.boot ≠ 7 → t.boot = s.boot)
      ∧ ((s.boot ≠ 7 ∨ hub % 16 ≠ 0 ∨ t.boot = 8) → ∀ a, inHbm a = true → t.readByte a = s.readByte a))
  ∧ (∀ (s : State) (fails : List Nat) (hub : Nat), s.boot ≠ 7 → s.assay.whole = false → exec (.assayDone fails hub) s = .next s)
  ∧ (∀ (s : State), (s.boot = 8 ∨ s.boot = 9) → s.init.newCause = false →
    ∃ t, exec .pairWaitExpiry s = .next t ∧ t.boot = 10 ∧ s.onlyRegs t [adr .bootStatus 0 0, adr .witStatus 0 0]
      ∧ t.witState = (if s.witState = 1 then 0 else s.witState))
  ∧ (∀ (s : State), s.boot ≠ 8 → s.boot ≠ 9 →
    ∃ t, exec .pairWaitExpiry s = .next t ∧ t.witState = (if s.witState = 1 then 0 else s.witState) ∧ t.boot = s.boot
      ∧ s.onlyRegs t [adr .witStatus 0 0])
  ∧ (∀ (s : State), s.boot = 10 → s.init.recovered = true →
    ∃ t, exec .serviceOpen s = .next t
      ∧ (s.rf .sbStatus 0 0 5 0 ≠ 0 → t.boot = 15 ∧ bitOf (t.reg .sbStatus) 31 = true)
      ∧ (s.rf .sbStatus 0 0 5 0 = 0 → bitOf (s.reg .hmPolicy) 0 = false → t.boot = 13 ∧ s.onlyRegs t [adr .bootStatus 0 0])
      ∧ (s.rf .sbStatus 0 0 5 0 = 0 → bitOf (s.reg .hmPolicy) 0 = true → s.jrnlSize = 0 → t = s)
      ∧ (s.rf .sbStatus 0 0 5 0 = 0 → bitOf (s.reg .hmPolicy) 0 = true → s.jrnlSize ≠ 0 → t.boot = 11 ∧ bitOf (t.reg .svcStatus 0) 2 = true
          ∧ bitOf (t.reg .svcStatus 1) 2 = true ∧ t.init.force = none ∧ t.reg .bootTime = BitVec.ofNat 32 ((s.time - s.init.begun) / 400)
          ∧ s.sameHeart t))
  ∧ ∀ (s : State), (s.boot ≠ 10 ∨ s.init.recovered = false) → exec .serviceOpen s = .next s

/-- Assays on request (21 R470 to R472): accepted, queued or refused; the core's contexts pre-empted, its state saved and tested, and what follows
when it passes and when it fails. Where the spec is silent it states the model's choices: log entry 110. -/
def Obligations.AssaysOnRequest : Prop :=
  (∀ (s : State) (req : Nat),
    ∃ t, exec (.assayWhole req) s = .next t
      ∧ (s.sbActive = false → s.serviceOpen = false → (s.boot = 13 ∨ s.boot = 14) →
          t = { s with assay := { s.assay with whole := true, test := 1 } })
      ∧ ((s.sbActive = true ∨ s.serviceOpen = true ∨ (s.boot ≠ 13 ∧ s.boot ≠ 14)) → s.refusedOnly t))
  ∧ (∀ (s : State) (core req : Nat), core < 96 → s.assayRefused core = true → ∃ t, exec (.assayCore core req) s = .next t ∧ s.refusedOnly t)
  ∧ (∀ (s : State) (core req : Nat), 96 ≤ core → core < 128 → ∃ t, exec (.assayCore core req) s = .next t ∧ s.refusedOnly t)
  ∧ (∀ (s : State) (core req : Nat), core < 96 → s.assayRefused core = false → s.assay.core = none → s.assay.queue = [] →
    ∃ t, exec (.assayCore core req) s = .next t
      ∧ t.assay = { s.assay with core := some core, pre := [], testing := false, test := 0 }
      ∧ Tab.get 0 t.plcShadow.cores core = 3 ∧ t.plcActive = s.plcActive ∧ t.commitNow = true ∧ s.sameHeart t)
  ∧ (∀ (s : State) (core req c : Nat), core < 96 → s.assayRefused core = false → s.assay.core = some c →
    exec (.assayCore core req) s = .next { s with assay := { s.assay with queue := s.assay.queue ++ [core] } })
  ∧ (∀ (s : State) (c x : Nat), s.assay.core = some c → x < 4 → Tab.get 0 s.plcActive.cores c = 3 → s.assay.testing = false →
    (s.context c x).st = .running →
    ∃ t, exec .assayCoreRun s = .next t ∧ t.assay.testing = false
      ∧ (∀ y, y < 4 → t.context c y = (if (s.context c y).st = .running then { (s.context c y) with st := .preempting } else s.context c y))
      ∧ (∀ y, y < 4 → (s.context c y).st = .running → 4 * c + y ∈ t.assay.pre) ∧ t.mem = s.mem ∧ ∀ d, d ≠ c → t.core d = s.core d)
  ∧ (∀ (s : State) (c : Nat), s.assay.core = some c → Tab.get 0 s.plcActive.cores c = 3 → s.assay.testing = false →
    (∀ x, x < 4 → (s.context c x).st ≠ .running ∧ (s.context c x).st ≠ .preempting) →
    ∃ t, exec .assayCoreRun s = .next t ∧ t.assay = { s.assay with testing := true, test := 1 } ∧ t.cores = s.cores
      ∧ ∀ a, ¬ (addr16 (s.reg .assayArea) ≤ a ∧ a < addr16 (s.reg .assayArea) + 25182208) → t.readByte a = s.readByte a)
  ∧ (∀ (s : State), (s.assay.core = none ∨ s.assay.testing = true ∨ ∃ c, s.assay.core = some c ∧ Tab.get 0 s.plcActive.cores c ≠ 3) →
    exec .assayCoreRun s = .next s)
  ∧ (∀ (s : State) (c test : Nat), c < 96 → s.assay.core = some c → s.assay.testing = true → s.assay.queue = [] → s.decState ≠ 2 →
    (c % 24 = 0 → s.adderFails (c / 24) = false) →
    (∀ a ∈ s.assay.pre, a / 4 = c) → (∀ x, x < 4 → ∀ q ∈ (s.core c).q, q.ctx = x → ∀ st, q.bar ≠ .released st) →
    ∃ t, exec (.assayCoreDone test true []) s = .next t ∧ t.assay = { s.assay with core := none, pre := [], testing := false, test := 0 }
      ∧ bitOf (t.reg .assayFail 0 (c / 32)) (c % 32) = false
      ∧ (∀ x, x < 4 → 4 * c + x ∈ s.assay.pre → (s.context c x).st = .preempted → (t.context c x).st = .running)
      ∧ (∀ x, x < 4 → ¬ 4 * c + x ∈ s.assay.pre → t.context c x = s.context c x)
      ∧ (¬ (c % 24 = 0 ∧ bitOf (s.reg .pwState) (c / 24) = true) → Tab.get 0 t.plcShadow.cores c = 0) ∧ t.mem = s.mem)
  ∧ (∀ (s : State) (c test : Nat) (ok : Bool) (torn : List Nat), c < 96 → s.assay.core = some c → s.assay.testing = true → s.decState ≠ 2 →
    (ok = false ∨ (c % 24 = 0 ∧ s.adderFails (c / 24) = true)) →
    ∃ t, exec (.assayCoreDone test ok torn) s = .next t ∧ bitOf (t.reg .assayFail 0 (c / 32)) (c % 32) = true
      ∧ (∀ d ∈ torn, d < 256 → ((t.core c).drawer d).tag = .torn) ∧ (∀ y, t.context c y = s.context c y))
  ∧ ∀ (s : State) (test : Nat) (ok : Bool) (torn : List Nat), (s.assay.core = none ∨ s.assay.testing = false) →
    exec (.assayCoreDone test ok torn) s = .next s

/-- The record that the gate word `w` of a job gives (23 R498, R507). -/
def Sys2Proof.Machine.State.gateResult (s : State) (d : Nat) (j : PwJob) (w : Nat) : List Byte :=
  lweBytes (gateOutput (s.bkPoly j.key) (s.kskRec j.key) (natBits w 63 60)
    (s.lweAt (wireAddr d (natBits w 50 34))) (s.lweAt (wireAddr d (natBits w 33 17))) (s.lweAt (wireAddr d (natBits w 16 0))))

/-- `n` bytes from `b`, once `v` has been stored at `a`. -/
def Sys2Proof.Machine.State.readOver (s : State) (a : Nat) (v : List Byte) (b n : Nat) : List Byte := (s.store a v).readBytes b n

/-- Pewter mode (23 R493 to R510): entry and exit through their registers and their window, jobs that load their inputs, gates that write their
wires, and the result. Where the spec is silent it states the model's choices: log entries 90, 122, 123, 127. -/
def Obligations.PewterMode : Prop :=
  (∀ (s : State) (d req : Nat), d < 4 →
    ∃ t, exec (.pwEnter d req) s = .next t
      ∧ (s.enterRefused d = true → s.refusedOnly t)
      ∧ (s.enterRefused d = false → bitOf (s.reg .pwState) (8 + d) = false → bitOf (s.reg .pwState) d = false →
          bitOf (t.reg .pwState) d = true ∧ (s.inAssay (24 * d) = false → Tab.get 0 t.plcShadow.cores (24 * d) = 2)
          ∧ t.plcActive = s.plcActive ∧ s.sameHeart t)
      ∧ (s.enterRefused d = false → (bitOf (s.reg .pwState) (8 + d) = true ∨ bitOf (s.reg .pwState) d = true) → t = s))
  ∧ (∀ (s : State) (d : Nat), d < 4 →
    ∃ t, exec (.pwExit d) s = .next t
      ∧ (bitOf (s.reg .pwState) d = true → bitOf (t.reg .pwState) d = false
          ∧ (s.inAssay (24 * d) = false → Tab.get 0 t.plcShadow.cores (24 * d) = 0) ∧ s.sameHeart t)
      ∧ (bitOf (s.reg .pwState) d = false → bitOf (s.reg .pwState) (8 + d) = true → bitOf (s.reg .pwState) (4 + d) = true →
          t = { s with pwLeaving := t.pwLeaving } ∧ d ∈ t.pwLeaving)
      ∧ (bitOf (s.reg .pwState) d = false → bitOf (s.reg .pwState) (8 + d) = true → bitOf (s.reg .pwState) (4 + d) = false →
          bitOf (t.reg .pwState) (8 + d) = false ∧ bitOf (t.reg .pwStatus) (4 + d) = true ∧ (t.core (24 * d)).pewter = false
          ∧ (t.core (24 * d)).drawers = [] ∧ (t.core (24 * d)).hdrs = []
          ∧ (∀ a, spBase (24 * d) ≤ a → a < spBase (24 * d) + 0x2000000 → t.readByte a = 0)
          ∧ (∀ a, ¬ (spBase (24 * d) ≤ a ∧ a < spBase (24 * d) + 0x2000000) → t.readByte a = s.readByte a)
          ∧ (∀ c, c ≠ 24 * d → t.core c = s.core c))
      ∧ (bitOf (s.reg .pwState) d = false → bitOf (s.reg .pwState) (8 + d) = false → t = s))
  ∧ (∀ (s : State) (d : Nat) (expired : Bool), d < 4 →
    ∃ t, exec (.pewterEntryDrained d expired) s = .next t
      ∧ (bitOf (s.reg .pwState) d = true → Tab.get 0 s.plcActive.cores (24 * d) = 2 → s.pwDrained (24 * d) = true →
          bitOf (t.reg .pwState) d = false ∧ bitOf (t.reg .pwState) (8 + d) = true ∧ bitOf (t.reg .pwStatus) (8 + d) = true
          ∧ (t.core (24 * d)).pewter = true ∧ (t.core (24 * d)).drawers = []
          ∧ (∀ a, spBase (24 * d) ≤ a → a < spBase (24 * d) + 0x2000000 → t.readByte a = 0)
          ∧ (∀ a, ¬ (spBase (24 * d) ≤ a ∧ a < spBase (24 * d) + 0x2000000) → t.readByte a = s.readByte a)
          ∧ (∀ c, c ≠ 24 * d → t.core c = s.core c))
      ∧ (bitOf (s.reg .pwState) d = true → Tab.get 0 s.plcActive.cores (24 * d) = 2 → s.pwDrained (24 * d) = false → expired = true →
          bitOf (t.reg .pwState) d = false ∧ bitOf (t.reg .pwStatus) 13 = true ∧ Tab.get 0 t.plcShadow.cores (24 * d) = 0 ∧ s.sameHeart t)
      ∧ ((bitOf (s.reg .pwState) d = false ∨ Tab.get 0 s.plcActive.cores (24 * d) ≠ 2
          ∨ (s.pwDrained (24 * d) = false ∧ expired = false)) → t = s))
  ∧ (∀ (s : State) (v : W32),
    ∃ t, exec (.pwLoWrite v) s = .next t ∧ t.pwStage = some (0, bits v 15 0)
      ∧ (s.pwStage = none → { t with pwStage := none } = s)
      ∧ (s.pwStage.isSome → bitOf (t.reg .pwStatus) 14 = true ∧ { s with pwStage := t.pwStage }.onlyRegs t [adr .pwStatus 0 0]))
  ∧ (∀ (s : State) (req : Nat), s.pwStage = none →
    ∃ t, exec (.pwHiWrite req) s = .next t ∧ bitOf (t.reg .pwStatus) 15 = true ∧ s.onlyRegs t [adr .pwStatus 0 0])
  ∧ (∀ (s : State) (req d off : Nat), d < 4 → s.pwStage = some (off, 2 ^ d) →
    ∃ t, exec (.pwHiWrite req) s = .next t ∧ exec (.pwEnter d req) { s with pwStage := none } = .next t)
  ∧ (∀ (s : State) (req d off : Nat), d < 4 → s.pwStage = some (off, 2 ^ (4 + d)) →
    ∃ t, exec (.pwHiWrite req) s = .next t ∧ exec (.pwExit d) { s with pwStage := none } = .next t)
  ∧ (∀ (s : State) (req d off : Nat), d < 4 → s.pwStage = some (off, 2 ^ d + 2 ^ (4 + d)) →
    ∃ t, exec (.pwHiWrite req) s = .next t ∧ { s with pwStage := none }.refusedOnly t)
  ∧ (∀ (s : State) (req : Nat),
    ∃ t, exec (.pwStatusRead req) s = .next t ∧ t.reg .pwStatus = 0
      ∧ t.out = s.out ++ [.read req (adr .pwStatus 0 0) (s.reg .pwStatus).toNat 0]
      ∧ { s with out := t.out }.onlyRegs t [adr .pwStatus 0 0])
  ∧ (∀ (s : State) (d n : Nat) (ns : List Nat), d < 4 → Tab.get [] s.pwq d = n :: ns → bitOf (s.reg .pwState) (8 + d) = true →
    bitOf (s.reg .pwState) (4 + d) = false → ¬ d ∈ s.pwLeaving → s.noDispatch = false → (s.jrec n).state = 3 → n < 65536 →
    (s.jrec n).job < 2 ^ 32 → s.jrnlBase + jrnlRecordArea ≤ (s.pwBody (s.jrec n)).ins →
    ∃ t, exec (.pewterJobStart d) s = .next t ∧ t.jrec n = { (s.jrec n) with state := 4 } ∧ Tab.get [] t.pwq d = ns
      ∧ bitOf (t.reg .pwState) (4 + d) = true
      ∧ (t.reg .pwJobHi 0 d).toNat * 65536 + (t.reg .pwJobLo 0 d).toNat = (s.jrec n).job
      ∧ (∃ key, Tab.find? t.pwJobs d = some { slot := n, gate := 0, key := key }
          ∧ ∀ m, s.modelSlot (s.jobModel (s.jrec n)) = some m → key = (s.jrec m).body + 64)
      ∧ t.readBytes (wireAddr d 0) (3072 * (s.pwBody (s.jrec n)).nin) = s.readBytes (s.pwBody (s.jrec n)).ins (3072 * (s.pwBody (s.jrec n)).nin)
      ∧ t.cores = s.cores ∧ t.out = s.out)
  ∧ (∀ (s : State) (d : Nat), d < 4 → Tab.get [] s.pwq d = [] → exec (.pewterJobStart d) s = .next s)
  ∧ (∀ (s : State) (d : Nat) (j : PwJob), d < 4 → Tab.find? s.pwJobs d = some j → s.badpar = [] →
    let b := s.pwBody (s.jrec j.slot)
    let w := s.readBE (b.gates + 8 * j.gate) 8
    ∃ t, exec (.pewterGate d false) s = .next t
      ∧ (j.gate + 1 ≠ b.ngate →
          t.readBytes (wireAddr d (b.nin + j.gate)) 3072 = s.gateResult d j w
          ∧ (∀ a, ¬ (wireAddr d (b.nin + j.gate) ≤ a ∧ a < wireAddr d (b.nin + j.gate) + 3072) → t.readByte a = s.readByte a)
          ∧ Tab.find? t.pwJobs d = some { j with gate := j.gate + 1 }
          ∧ t.rf .pwGatesHi 0 d 15 0 * 65536 + t.rf .pwGatesLo 0 d 15 0
            = (s.rf .pwGatesHi 0 d 15 0 * 65536 + s.rf .pwGatesLo 0 d 15 0 + 1) % 2 ^ 32
          ∧ t.journal = s.journal ∧ t.cores = s.cores ∧ t.out = s.out)
      ∧ (j.gate + 1 = b.ngate → (s.jrec j.slot).body + 128 ≤ 0x9000000000 → b.outs + 4 * b.nout ≤ 0x9000000000 → (∀ r ∈ s.ts.queue, r.isHash = true) →
          (∀ c, c < 96 → bitOf (s.reg .spInject c) 8 = false) →
          ∀ body, body = (List.range b.nout).flatMap (fun o => s.readOver (wireAddr d (b.nin + j.gate)) (s.gateResult d j w)
            (wireAddr d (s.readBE (b.outs + 4 * o) 4)) 3072) →
          let ok := s.idVerifies (receiptFields (s.jrec j.slot).session (s.jrec j.slot).job (s.clientTag (s.jrec j.slot)) 0 0 body)
          (ok = false → (s.jrec j.slot).state = 4 → t.jrec j.slot = { (s.jrec j.slot) with state := 6 } ∧ Tab.find? t.pwJobs d = none)
          ∧ ∀ a, ok = true → s.bodyAlloc (3072 * b.nout + 162) = some a →
            (t.jrec j.slot).state = 5 ∧ (t.jrec j.slot).result = a ∧ (t.jrec j.slot).status = 0 ∧ Tab.find? t.pwJobs d = none
            ∧ bitOf (t.reg .pwState) (4 + d) = false))
  ∧ (∀ (s : State) (d : Nat) (j : PwJob), d < 4 → Tab.find? s.pwJobs d = some j →
    ∃ t, exec (.pewterGate d true) s = .next t ∧ bitOf (t.reg .pwStatus) 12 = true ∧ Tab.find? t.pwJobs d = none
      ∧ bitOf (t.reg .pwState) (4 + d) = false
      ∧ ((s.jrec j.slot).state = 4 → t.jrec j.slot = { (s.jrec j.slot) with state := 6 }) ∧ t.out = s.out)
  ∧ ∀ (s : State) (d : Nat) (fault : Bool), d < 4 → Tab.find? s.pwJobs d = none → exec (.pewterGate d fault) s = .next s

/-! ### Decisions, the strongbox state, the event router -/

/-- The operands of a decision are within their fields (19 R405). -/
def Sys2Proof.Machine.Decision.fits (d : Decision) : Prop :=
  d.session < 2 ^ 24 ∧ d.job < 2 ^ 32 ∧ d.unit < 256 ∧ d.ctx < 4 ∧ d.status < 256 ∧ d.addr < 2 ^ 40 ∧ d.addr % 32 = 0

/-- The decision registers. -/
def Sys2Proof.Machine.decRegs : List Nat :=
  [adr .decAct 0 0, adr .decJob 0 0, adr .decTgt 0 0, adr .decAddrLo 0 0, adr .decAddrHi 0 0, adr .decStatus 0 0]

/-- A row that submits a decision (19 R405, R407): one that another holds is refused; one without a target it takes is REFUSED; else the partner
is asked and the answer awaited. -/
def Sys2Proof.Machine.DecRow (mk : Bool → Nat → Instr) (d : Decision) : Prop :=
  d.fits → ∀ (s : State) (req : Nat),
    (s.decBusy = true → ∀ g, ∃ t, exec (mk g req) s = .next t ∧ s.refusedOnly t)
    ∧ (s.decBusy = false → (d.targetOk = false ∨ (s.sbActive = true ∧ d.action ≠ 9)) →
        ∃ t, exec (mk false req) s = .next t ∧ t.decState = 6 ∧ s.onlyRegs t decRegs)
    ∧ (s.decBusy = false → d.targetOk = true → (s.sbActive = true → d.action = 9) →
        ∃ t, exec (mk false req) s = .next t ∧ t.decState = 1 ∧ t.decision = d ∧ t.decAt = s.time
          ∧ s.tells t 0x40 d.session d.job
              (natLE 1 d.action ++ natLE 1 d.unit ++ natLE 1 d.ctx ++ natLE 1 (if d.action = 2 then d.status else 0))
          ∧ { s with out := t.out, aliveTx := t.aliveTx, decAt := s.time }.onlyRegs t decRegs)

/-- A decision may be granted by the operator here: through the management port, with no partner to ask (19 R407). -/
def Sys2Proof.Machine.State.grants (s : State) : Prop :=
  s.decBusy = false ∧ (s.witState = 3 ∨ s.witState = 0) ∧ s.sbActive = false

/-- Of all but the decision registers, the router and the event counters, a decision on a context has changed that context only. -/
def Sys2Proof.Machine.State.decOnContext (s t : State) (c x : Nat) (y : Ctx) : Prop :=
  t.decState = 3 ∧ s.contextNow t c x y ∧ { s with cores := t.cores }.onlyRegs t decRegs

/-- Decisions are submitted, executed, answered and timed out (19 R405 to R408; 16 R356). Where the spec is silent it states the model's choices:
log entry 102. -/
def Obligations.DecisionsAreMadeAndExecuted : Prop :=
  (∀ session job, DecRow (fun g req => .rerunJob session job g req) ⟨1, session, job, 0, 0, 0, 0⟩)
  ∧ (∀ session job status, DecRow (fun g req => .discardJob session job status g req) ⟨2, session, job, 0, 0, status, 0⟩)
  ∧ (∀ session job, DecRow (fun g req => .migrateJob session job g req) ⟨3, session, job, 0, 0, 0, 0⟩)
  ∧ (∀ unit ctx, DecRow (fun g req => .abortCtx unit ctx g req) ⟨4, 0, 0, unit, ctx, 0, 0⟩)
  ∧ (∀ unit ctx, DecRow (fun g req => .resetCtx unit ctx g req) ⟨5, 0, 0, unit, ctx, 0, 0⟩)
  ∧ (∀ unit ctx addr, DecRow (fun g req => .startCtx unit ctx addr g req) ⟨6, 0, 0, unit, ctx, 0, addr⟩)
  ∧ (∀ unit, DecRow (fun g req => .fence unit g req) ⟨7, 0, 0, unit, 0, 0, 0⟩)
  ∧ (∀ unit, DecRow (fun g req => .unfence unit g req) ⟨8, 0, 0, unit, 0, 0, 0⟩)
  ∧ DecRow (fun g req => .exitStrongbox g req) ⟨9, 0, 0, 0, 0, 0, 0⟩
  ∧ (∀ (s : State) (session job n : Nat), s.grants → session < 2 ^ 24 → job < 2 ^ 32 →
    s.findRec (fun r => (r.origin == 0 || (s.session r.session).taken) && r.kind == 1 && r.session == session && r.job == job
      && (r.state == 3 || r.state == 4 || r.state == 6)) = some n →
    ((s.jrec n).confirmed = true ∨ (s.jrec n).origin = 1) → (∀ p ∈ s.placed, p.slot ≠ n) → (∀ d j, Tab.find? s.pwJobs d = some j → j.slot ≠ n) →
    (bitOf (s.reg .plcCtrl) 0 = false →
      ∃ t, exec (.rerunJob session job true 0) s = .next t ∧ t.decState = 3 ∧ t.jrec n = { (s.jrec n) with state := 3 }
        ∧ ¬ n ∈ t.queuedJobs ∧ t.cores = s.cores ∧ s.journalOnly t (fun k => k = n) (fun _ => False) ∧ t.out = s.out)
    ∧ (∀ status a, status < 256 → (∀ e ∈ s.journal, e.1 < 65536) → s.bodyAlloc 162 = some a →
      (∀ r ∈ s.ts.queue, r.isHash = true) →
      (∀ e ∈ s.journal, e.2.session = session → e.2.confirmed = true → e.2.state ≠ 1 ∧ e.2.state ≠ 2) →
      let rf := receiptFields session job (s.clientTag (s.jrec n)) 1 status []
      ∃ t, exec (.discardJob session job status true 0) s = .next t ∧ t.decState = 3 ∧ t.cores = s.cores
        ∧ (s.idVerifies rf = true → (t.jrec n).state = 5 ∧ (t.jrec n).status = status ∧ (t.jrec n).resultLen = 162
            ∧ t.readBytes a 162 = rf ++ idSign rf)
        ∧ (s.idVerifies rf = false → (t.jrec n).state = (if (s.jrec n).state = 4 then 6 else (s.jrec n).state)))
    ∧ ∃ t, exec (.migrateJob session job true 0) s = .next t ∧ t.decState = 3 ∧ t.jrec n = { (s.jrec n) with state := 4 }
        ∧ s.tells t (Config.hubCode 0) session job ∧ t.cores = s.cores ∧ s.journalOnly t (fun k => k = n) (fun _ => False))
  ∧ (∀ (s : State) (session job n c x : Nat) (p : Placed), s.grants → session < 2 ^ 24 → job < 2 ^ 32 → s.placed = [p] → p.slot = n →
    p.ctxs = [4 * c + x] → x < 4 → (s.context c x).st = .running →
    s.findRec (fun r => (r.origin == 0 || (s.session r.session).taken) && r.kind == 1 && r.session == session && r.job == job
      && (r.state == 3 || r.state == 4 || r.state == 6)) = some n →
    ∃ t, exec (.migrateJob session job true 0) s = .next t ∧ t.placed = [] ∧ t.jobOf c x = {}
      ∧ t.context c x = { (s.context c x) with st := .aborting, resetting := true })
  ∧ (∀ (s : State) (session job : Nat), s.grants → session < 2 ^ 24 → job < 2 ^ 32 →
    s.findRec (fun r => (r.origin == 0 || (s.session r.session).taken) && r.kind == 1 && r.session == session && r.job == job
      && (r.state == 3 || r.state == 4 || r.state == 6)) = none →
    (∃ t, exec (.rerunJob session job true 0) s = .next t ∧ t.decState = 6 ∧ s.onlyRegs t decRegs)
    ∧ ∃ t, exec (.migrateJob session job true 0) s = .next t ∧ t.decState = 6 ∧ s.onlyRegs t decRegs)
  ∧ (∀ (s : State) (c x : Nat), s.grants → c < 96 → x < 4 → (s.modeM c = true ∨ x = 0) → s.assay.core ≠ some c →
    (∃ t, exec (.abortCtx c x true 0) s = .next t ∧ s.decOnContext t c x (match (s.context c x).st with
      | .idle | .aborting => s.context c x
      | .preempting => { (s.context c x) with heldAct := if (s.context c x).heldAct = .reset then .reset else .abort }
      | _ => { (s.context c x) with st := .aborting, resetting := false }))
    ∧ ((s.context c x).st = .running → ∃ t, exec (.resetCtx c x true 0) s = .next t
        ∧ s.decOnContext t c x { (s.context c x) with st := .aborting, resetting := true })
    ∧ (∀ addr, addr < 2 ^ 40 → addr % 32 = 0 → (s.context c x).st = .idle → (s.core c).pewter = false →
        ∃ t, exec (.startCtx c x addr true 0) s = .next t
          ∧ s.decOnContext t c x { (s.context c x) with pc := addr, st := .running, fresh := false }))
  ∧ (∀ (s : State) (unit : Nat), s.grants → unit < 0x64 →
    (∃ t, exec (.fence unit true 0) s = .next t ∧ t.decState = 3
      ∧ (∀ c, c < 96 → bitOf (t.reg .plcExclude 0 (c / 32)) (c % 32)
          = (decide (c ∈ (if unit < 96 then [unit] else coresOf (unit - 96))) || bitOf (s.reg .plcExclude 0 (c / 32)) (c % 32)))
      ∧ t.cores = s.cores ∧ t.out = s.out)
    ∧ ∃ t, exec (.unfence unit true 0) s = .next t ∧ t.decState = 3
      ∧ (∀ c, c < 96 → bitOf (t.reg .plcExclude 0 (c / 32)) (c % 32)
          = (!decide (c ∈ (if unit < 96 then [unit] else coresOf (unit - 96))) && bitOf (s.reg .plcExclude 0 (c / 32)) (c % 32)))
      ∧ t.cores = s.cores ∧ t.out = s.out)
  ∧ (∀ (s : State) (unit : Nat), s.grants → 0x70 ≤ unit → unit < 0x80 →
    (∃ t, exec (.fence unit true 0) s = .next t ∧ t.decState = 3 ∧ bitOf (t.reg .portCtrl (unit - 0x70)) 0 = false)
    ∧ ∃ t, exec (.unfence unit true 0) s = .next t ∧ t.decState = 3 ∧ bitOf (t.reg .portCtrl (unit - 0x70)) 0 = true)
  ∧ (∀ (s : State) (a : Nat), s.decState = 1 → s.decision.action = a →
    (∀ reason, reason ≠ 0 → reason < 256 → ∃ t, exec (.concur a reason) s = .next t ∧ t.decState = 4 ∧ t.rf .decStatus 0 0 15 8 = reason
      ∧ s.onlyRegs t [adr .decStatus 0 0])
    ∧ (a = 7 → s.decision.unit < 96 → ∃ t, exec (.concur a 0) s = .next t ∧ t.decState = 3
        ∧ bitOf (t.reg .plcExclude 0 (s.decision.unit / 32)) (s.decision.unit % 32) = true)
    ∧ (a = 9 → s.sbActive = true → bitOf (s.reg .sbStatus) 30 = false →
        ∃ t, exec (.concur a 0) s = .next t ∧ bitOf (t.reg .sbStatus) 31 = false ∧ t.rf .sbStatus 0 0 5 0 = 0
          ∧ bits (t.reg .rstCause) 3 0 = 8 ∧ t.cores = [] ∧ t.journal = []
          ∧ ((∀ d, d < 4 → granOf (s.rf .hbmMap d 0 2 0) = granOf 3) → ∀ b, inHbm b = true → t.readByte b = s.readByte b)))
  ∧ (∀ (s : State) (a reason : Nat), (s.decState ≠ 1 ∨ s.decision.action ≠ a) → exec (.concur a reason) s = .next s)
  ∧ ∀ (s : State),
    ∃ t, exec .decisionTimeout s = .next t
      ∧ (s.decState = 1 → s.decAt + s.rf .witTimers 0 0 23 16 * 400000 ≤ s.time → t.decState = 5 ∧ s.onlyRegs t [adr .decStatus 0 0])
      ∧ ((s.decState ≠ 1 ∨ s.time < s.decAt + s.rf .witTimers 0 0 23 16 * 400000) → t = s)

/-- What a device answers to its partner's requests (19 R406, R408), and the strongbox state: entered by command, the journal sealed and handed
over, stacks back to self-refresh, a die lost with its hub link (19 R417 to R420; 16 R360). Where the spec is silent it states the model's choices:
log entries 64, 101, 107, 142, 144. -/
def Obligations.ConcurrenceAndTheStrongbox : Prop :=
  (∀ (s : State) (a session job unit ctx status : Nat), 1 ≤ a → a ≤ 9 →
    ∃ t reason, exec (.concurReq a session job unit ctx status) s = .next t
      ∧ s.tells t 0x41 session job (natLE 1 a ++ natLE 1 reason)
      ∧ (a ≤ 3 → (s.session session).taken = true → reason = 3)
      ∧ (a ≤ 3 → (s.session session).taken = false → s.mirrorOf session job = none →
          reason = if (s.session session).partner = true ∧ job ≤ (s.session session).highAck then 2 else 1)
      ∧ (a ≤ 2 → (s.session session).taken = false → (s.mirrorOf session job).isSome → reason = 0)
      ∧ (a = 9 → reason = 0) ∧ (4 ≤ a → a ≤ 8 → reason = if s.paired = true then 0 else 6)
      ∧ (a ≠ 2 → { s with out := t.out, aliveTx := t.aliveTx }.eventsOnly t)
      ∧ (∀ n, a = 2 → reason = 0 → s.mirrorOf session job = some n →
          t.jrec n = { (s.jrec n) with status := status } ∧ s.journalOnly t (fun k => k = n) (fun _ => False)))
  ∧ (∀ (s : State) (a session job unit ctx status : Nat), (a = 0 ∨ 9 < a) → exec (.concurReq a session job unit ctx status) s = .next s)
  ∧ (∀ (s : State), ∃ t, exec .sbEnter s = .next t ∧ s.causeNow t 5
      ∧ (11 ≤ s.boot → s.sbActive = false → t.boot = 15 ∧ t.noDispatch = true
          ∧ (∀ k, (s.jrec k).kind = 1 → (s.jrec k).state = 4 → t.jrec k = { (s.jrec k) with state := 6 })
          ∧ (∀ d, d < 4 → bitOf (t.reg .railStatus 0 d) 31 = false ∧ bitOf (t.reg .pwState) (8 + d) = false)
          ∧ bitOf (t.reg .peenCtrl) 0 = false ∧ t.sessions = s.sessions ∧ t.out = s.out))
  ∧ (∀ (s : State), s.sbActive = true → bitOf (s.reg .sbStatus) 29 = false → bitOf (s.reg .sbStatus) 3 = false →
    let k := s.stackOf s.jrnlBase
    let cool := s.rf .thermStatus k 0 15 8 ≤ s.rf .thermCfg k 0 7 0
    (cool → bitOf (s.reg .clkStatus) 1 = false → s.paired = true → (∀ r ∈ s.ts.queue, r.isHash = true) →
      ∃ t, exec (.custodySeal true) s = .next t ∧ k ∈ t.custody
        ∧ (s.idVerifies s.journalBytes = true → bitOf (t.reg .sbStatus) 29 = true ∧ t.handOpen = true
            ∧ s.tells t 0x30 0 0 []
                (((s.sessions.filter (fun e => e.2.isOpen && !e.2.partner)).map (fun e => e.1)).flatMap (natLE 3) ++ s.journalSeal)
            ∧ { s with out := t.out, aliveTx := t.aliveTx, handOpen := true, custody := t.custody }.onlyRegs t [adr .sbStatus 0 0])
        ∧ (s.idVerifies s.journalBytes = false →
            s.countedOne t .tsVerifyFail 0 0 ∧ { s with custody := t.custody }.onlyRegs t [adr .tsVerifyFail 0 0]))
    ∧ (cool → (bitOf (s.reg .clkStatus) 1 = true ∨ s.paired = false) →
      exec (.custodySeal true) s = .next { s with custody := addOnce k s.custody })
    ∧ ∃ t, exec (.custodySeal false) s = .next t ∧ bitOf (t.reg .sbStatus) 28 = true ∧ s.onlyRegs t [adr .sbStatus 0 0])
  ∧ (∀ (s : State) (b : Bool), (s.sbActive = false ∨ bitOf (s.reg .sbStatus) 29 = true ∨ bitOf (s.reg .sbStatus) 3 = true) →
    exec (.custodySeal b) s = .next s)
  ∧ (∀ (s : State) (d : Nat), d < 4 → s.sbActive = false → s.dieLost d = false →
    ∃ t, exec (.hubLinkLoss d) s = .next t ∧ s.dieDown t d)
  ∧ (∀ (s : State) (d : Nat), d < 4 → (s.sbActive = true ∨ s.dieLost d = true) → exec (.hubLinkLoss d) s = .next s)
  ∧ ∀ (s : State) (k : Nat), k < 12 → exec (.custodyStackIdle k) s = .next { s with custody := s.custody.filter (fun j => j != k) }

/-- A record `e` has been passed on: into the ring's held area or its log area by class, the management FIFO and the supervisors' batches
by EV_DEST (19 R412, R415). -/
def Sys2Proof.Machine.State.passed (s t : State) (e : Event) : Prop :=
  (e.cls < 2 → t.readBytes (s.ringBase + 32 * (s.heldWr % heldSlots)) 32 = e.bytes ∧ t.heldWr = (s.heldWr + 1) % 2 ^ 22
    ∧ t.rf .evLogWr 0 0 24 0 = s.rf .evLogWr 0 0 24 0)
  ∧ (2 ≤ e.cls → t.readBytes (s.ringBase + 32 * s.rf .evLogWr 0 0 24 0) 32 = e.bytes ∧ t.heldWr = s.heldWr
    ∧ t.rf .evLogWr 0 0 24 0 = (if s.rf .evLogWr 0 0 24 0 + 1 = ringSlots then heldSlots else s.rf .evLogWr 0 0 24 0 + 1))
  ∧ (∀ a, ¬ (s.ringBase ≤ a ∧ a < s.ringBase + 32 * ringSlots) → t.readByte a = s.readByte a)
  ∧ t.router.mgmt = (if natBit (s.rf .evDest 0 0 3 0) e.cls = true ∧ s.router.mgmt.length < 256 ∧ s.router.mgmtWait = []
      then s.router.mgmt ++ [e] else s.router.mgmt)
  ∧ (∀ k, k < 4 → Tab.get [] t.router.supBatch k = Tab.get [] s.router.supBatch k
      ++ (if natBit (s.rf .evDest 0 0 7 4) e.cls = true ∧ bitOf (s.reg .evSup 0 k) 31 = true then [e] else []))
  ∧ t.cores = s.cores

/-- The router passes records in order, one slot in twenty the oldest ALARM first (19 R411 to R416); windows of LOG close with their summary (R414);
the held area is acknowledged (R413), management and supervisors are served (R415; 22 R489). Where the spec is silent it states the model's choices:
log entries 22, 100, 147. -/
def Obligations.EventsAreRoutedAndAcknowledged : Prop :=
  (∀ (s : State) (e : Event) (es : List Event), s.ringReady = true → s.router.early = [] → s.router.q = e :: es → s.router.reserved = [] →
    s.router.slotNo < 19 → s.router.hold = [] → s.router.holdRes = [] → s.heldCount < heldSlots →
    (∃ t, exec (.eventRoute false) s = .next t ∧ s.passed t e ∧ t.router.q = es ∧ t.router.slotNo = s.router.slotNo + 1)
    ∧ ∃ t, exec (.eventRoute true) s = .next t ∧ t.router.q = es ∧ s.countedOne t .routerParity 0 0
        ∧ t.readBytes (s.ringBase + 32 * (s.heldWr % heldSlots)) 32
          = Event.bytes { time := s.time, code := 0x0E01, cls := 0, unit := 0x8A, detail := 1 })
  ∧ (∀ (s : State) (i : Nat) (e : Event), s.ringReady = true → s.router.early = [] → s.router.reserved = [] → s.router.slotNo = 19 →
    s.router.q[i]? = some e → e.cls = 0 → (∀ k, k ∈ s.router.q.take i → k.unit ≠ e.unit) →
    (∀ j k, j < i → s.router.q[j]? = some k → k.cls = 0 → ∃ m ∈ s.router.q.take j, m.unit = k.unit) →
    s.router.hold = [] → s.router.holdRes = [] → s.heldCount < heldSlots →
    ∃ t, exec (.eventRoute false) s = .next t ∧ s.passed t e ∧ t.router.q = s.router.q.eraseIdx i ∧ t.router.slotNo = 0)
  ∧ (∀ (s : State) (bad : Bool), s.router.early = [] → s.router.q = [] → s.router.reserved = [] →
    exec (.eventRoute bad) s = .next { s with router := { s.router with slotNo := (s.router.slotNo + 1) % 20 } })
  ∧ (∀ (s : State) (code unit : Nat) (w : LogWin) (ws : List LogWin), s.router.wins = w :: ws → w.code = code → w.unit = unit →
    w.opened + s.logWindow ≤ s.time → s.router.q = [] →
    ∃ t, exec (.logWindowClose code unit) s = .next t ∧ t.router.wins = ws ∧ { t with router := s.router } = s
      ∧ t.router.q = (match w.first with
          | none => []
          | some e => [{ e with time := w.opened + s.logWindow, count := min w.suppressed (2 ^ 32 - 1), summary := true }]))
  ∧ (∀ (s : State) (code unit : Nat), (∀ w ∈ s.router.wins, ¬ (w.code = code ∧ w.unit = unit ∧ w.opened + s.logWindow ≤ s.time)) →
    exec (.logWindowClose code unit) s = .next s)
  ∧ (∀ (s : State) (v : W32) (req : Nat), bits v 24 0 < 2 ^ 22 →
    ∃ t, exec (.evHeldAckWrite v req) s = .next t
      ∧ ((bits v 24 0 + 2 ^ 22 - s.heldAck) % 2 ^ 22 ≤ s.heldCount → s.router.hold = [] → s.router.holdRes = [] →
          t.heldAck = bits v 24 0 ∧ s.onlyRegs t [adr .evHeldAck 0 0])
      ∧ (∀ e, (bits v 24 0 + 2 ^ 22 - s.heldAck) % 2 ^ 22 ≤ s.heldCount → s.router.hold = [e] → s.router.holdRes = [] →
          (s.heldWr + 2 ^ 22 - bits v 24 0) % 2 ^ 22 < heldSlots →
          t.heldAck = bits v 24 0 ∧ t.router.hold = [] ∧ t.heldWr = (s.heldWr + 1) % 2 ^ 22
          ∧ t.readBytes (s.ringBase + 32 * (s.heldWr % heldSlots)) 32 = e.bytes)
      ∧ (s.heldCount < (bits v 24 0 + 2 ^ 22 - s.heldAck) % 2 ^ 22 → s.refusedOnly t))
  ∧ (∀ (s : State), s.router.mgmtWait = [] →
    exec .evMgmtPop s = .next { s with router := { s.router with mgmt := s.router.mgmt.drop 1 } })
  ∧ (∀ (s : State) (e : Event) (es : List Event), s.router.mgmtWait = e :: es → s.router.mgmt.length ≤ 256 → 0 < s.router.mgmt.length →
    ∃ t, exec .evMgmtPop s = .next t ∧ t.router.mgmt = s.router.mgmt.drop 1 ++ [e] ∧ t.router.mgmtWait = es ∧ t.regs = s.regs)
  ∧ (∀ (s : State) (k : Nat) (ok : Bool) (e : Event) (es : List Event), k < 4 → bitOf (s.reg .evSup 0 k) 31 = true →
    Tab.get [] s.router.supBatch k = e :: es →
    ∃ t, exec (.supervisorBatchSend k ok) s = .next t ∧ Tab.get [] t.router.supBatch k = (e :: es).drop 120
      ∧ (s.supReach (s.rf .evSup 0 k 17 0) = true → t.out = (s.hubSend (s.rf .evSup 0 k 17 0)
          (witHeader (Config.hubCode 2 % 256) 0 0 [] (32 * ((e :: es).take 120).length) 0 ++ fill64 (((e :: es).take 120).flatMap Event.bytes))).out)
      ∧ (s.supReach (s.rf .evSup 0 k 17 0) = false → t.out = s.out ∧ s.countedOne t .supDrop 0 0)
      ∧ (ok = false → s.countedOne t .supDrop 0 0) ∧ t.mem = s.mem ∧ t.cores = s.cores)
  ∧ (∀ (s : State) (k n : Nat) (ok : Bool), k < 4 → bitOf (s.reg .evSup 0 k) 31 = false →
    exec (.supervisorBatchSend k ok) s = .next s ∧ exec (.supervisorAck k n) s = .next s)
  ∧ (∀ (s : State) (k n : Nat), k < 4 → n < 2 ^ 22 → bitOf (s.reg .evSup 0 k) 31 = true →
    (n + 2 ^ 22 - s.supPos k) % 2 ^ 22 ≤ (s.heldWr + 2 ^ 22 - s.supPos k) % 2 ^ 22 → s.router.hold = [] → s.router.holdRes = [] →
    ∃ t, exec (.supervisorAck k n) s = .next t ∧ Tab.get 0 t.router.supPos k = n
      ∧ (bitOf (s.reg .evDest) 8 = true → (n + 2 ^ 22 - s.heldAck) % 2 ^ 22 ≤ s.heldCount → t.heldAck = n)
      ∧ (bitOf (s.reg .evDest) 8 = false → t.regs = s.regs) ∧ t.mem = s.mem ∧ t.out = s.out)
  ∧ (∀ (s : State) (pre post : List Event) (e : Event), s.router.mgmt = pre ++ e :: post → s.ibiFor e.cls = true →
    (∀ k ∈ pre, s.ibiFor k.cls = false) → exec .ibiRepeat s = .next { s with out := s.out ++ [.ibi e.cls] })
  ∧ ∀ (s : State), (∀ k ∈ s.router.mgmt, s.ibiFor k.cls = false) → exec .ibiRepeat s = .next s

/-! ### The register interface, the management port, the test access port -/

/-- Register `k` stands at `addr`, in a powered block whose clock runs. -/
structure Sys2Proof.Machine.State.RegOn (s : State) (k : RegKey) (addr : Nat) : Prop where
  block : blockAt addr = some (k.reg.block, k.inst)
  reg : regAt k.reg.block k.inst (addr % 0x10000) = some k
  here : k.addr = addr
  off : addr % 0x10000 < 0xFFF0
  powered : s.powered k.reg.block k.inst = true
  runs : s.rf .clkRun 0 (k.reg.block.domain k.inst / 32) (k.reg.block.domain k.inst % 32) (k.reg.block.domain k.inst % 32) ≠ 0

/-- A register with no behaviour of its own, whose value is not reserved. -/
structure Sys2Proof.Machine.PlainFor (k : RegKey) (v : Nat) : Prop where
  effect : ∀ (u : State) (w : W32) (r : Nat), State.regEffect u k w r = u.plainWrite k w
  some : k.reg.writeMask ≠ 0
  ok : reservedValue k (BitVec.ofNat 32 v &&& k.reg.writeMask) = false

/-- The write of a plain register has taken effect (00 R11): the fields that hold what is written hold it, W1C fields lose the bits written 1, and
nothing else has changed but the hub's bookkeeping. -/
def Sys2Proof.Machine.State.regWritten (s t : State) (k : RegKey) (v : Nat) : Prop :=
  let w : W32 := BitVec.ofNat 32 v &&& k.reg.writeMask
  t.regK k = ((s.regK k &&& ~~~k.reg.storeMask) ||| (w &&& k.reg.storeMask)) &&& ~~~(w &&& k.reg.maskOf [.w1c])
  ∧ (∀ a, a ≠ k.addr → Tab.find? t.regs a = Tab.find? s.regs a) ∧ { t with regs := s.regs, regSt := s.regSt, hub := s.hub } = s

/-- A block's hub state has become `h`; no other block's has changed. -/
def Sys2Proof.Machine.State.hubNow (s t : State) (addr : Nat) (h : HubBlock) : Prop :=
  t.hubAt addr = h ∧ ∀ a, a / 0x10000 ≠ addr / 0x10000 → t.hubAt a = s.hubAt a

/-- The debug port's level permits it a write (24 R514). -/
def Sys2Proof.Machine.State.mayWrite (s : State) (req addr : Nat) : Prop := req = 2 → s.debugMay 2 addr = true

/-- Only what the port answers and keeps has changed. -/
def Sys2Proof.Machine.State.answered (s t : State) (st : Nat) (bs : List Byte) : Prop :=
  t = { s with out := s.out ++ [.mgmt st (withPec (bs ++ [BitVec.ofNat 8 st]))], resp := some (st, withPec (bs ++ [BitVec.ofNat 8 st])) }

/-- The port has answered a write with `st`, unless a value of the write waits for its complement. -/
def Sys2Proof.Machine.State.writeAnswered (s u t : State) (addr st : Nat) : Prop :=
  (s.opensPair u addr = false → u.answered t st []) ∧ (s.opensPair u addr = true → t = u)

/-- A register write crosses the hub (22 R475 to R484; 00 R11, R12; 21 R450): it takes effect, waits for its complement or in a posted block, or is
refused or dropped; the debug port writes within the rights of its level (24 R514); LOCK arms and disarms; a pair completes, mismatches or expires;
a posted write arrives. Where the spec is silent it states the model's choices: log entries 112, 113, 114, 119. -/
def Obligations.RegisterWritesCrossTheHub : Prop :=
  (∀ (s : State) (k : RegKey) (addr v req : Nat), req < 6 → s.mayWrite req addr → s.RegOn k addr → PlainFor k v → (s.hubAt addr).pair = none →
    (s.hubAt addr).post = none → s.keyed k = false → k.reg.pairTyped = false → s.pairByHm k = false →
    (k.reg.block.posted = false → ∃ t, exec (.registerWrite addr v req) s = .next t ∧ s.regWritten t k v ∧ t.hub = s.hub)
    ∧ (k.reg.block.posted = true → ∃ t, exec (.registerWrite addr v req) s = .next t
        ∧ s.hubNow t addr { (s.hubAt addr) with post := some ⟨addr, v % 2 ^ 32, req⟩ } ∧ { t with hub := s.hub } = s))
  ∧ (∀ (s : State) (k : RegKey) (addr v req : Nat), req < 6 → s.mayWrite req addr → s.RegOn k addr → PlainFor k v → (s.hubAt addr).pair = none →
    (s.hubAt addr).post = none → s.keyed k = true →
    (¬ req ∈ (s.hubAt addr).keys → ∃ t, exec (.registerWrite addr v req) s = .next t ∧ s.refusedOnly t)
    ∧ (req ∈ (s.hubAt addr).keys → k.reg.pairTyped = false → s.pairByHm k = false → k.reg.block.posted = false →
        ∃ t, exec (.registerWrite addr v req) s = .next t ∧ s.regWritten t k v
          ∧ s.hubNow t addr { (s.hubAt addr) with keys := (s.hubAt addr).keys.filter (fun r => r != req) }))
  ∧ (∀ (s : State) (k : RegKey) (addr v req : Nat), req < 6 → s.mayWrite req addr → s.RegOn k addr → PlainFor k v → (s.hubAt addr).pair = none →
    (s.hubAt addr).post = none → s.keyed k = false → (k.reg.pairTyped = true ∨ s.pairByHm k = true) →
    ∃ t, exec (.registerWrite addr v req) s = .next t ∧ { t with hub := s.hub } = s
      ∧ s.hubNow t addr { (s.hubAt addr) with pair := some ⟨addr, v % 2 ^ 32, req, s.time, !k.reg.pairTyped⟩ })
  ∧ (∀ (s : State) (k : RegKey) (addr v req : Nat), req < 6 → s.mayWrite req addr → s.RegOn k addr → (s.hubAt addr).pair = none →
    (s.hubAt addr).post.isSome = true →
    ∃ t, exec (.registerWrite addr v req) s = .next t
      ∧ s.hubNow t addr { (s.hubAt addr) with
          overrun := true
          keys := (if s.keyed k then (s.hubAt addr).keys.filter (fun r => r != req) else (s.hubAt addr).keys) }
      ∧ s.countedOne t .regDropped 0 0 ∧ { s with hub := t.hub }.onlyRegs t [adr .regLastLo 0 0, adr .regLastHi 0 0, adr .regDropped 0 0])
  ∧ (∀ (s : State) (k : RegKey) (addr v req : Nat) (p : PairPend), req < 6 → s.mayWrite req addr → s.RegOn k addr →
    (s.hubAt addr).pair = some p → s.time ≤ p.at_ + 64 → (p.compl ≠ addr ∨ p.req ≠ req) →
    ∃ t, exec (.registerWrite addr v req) s = .next t ∧ s.refusedOnly t
      ∧ s.hubNow t addr { (s.hubAt addr) with keys := if s.keyed k then (s.hubAt addr).keys.filter (fun r => r != req) else (s.hubAt addr).keys })
  ∧ (∀ (s : State) (k : RegKey) (addr v req : Nat), req < 6 → s.mayWrite req addr → s.RegOn k addr → (s.hubAt addr).pair = none → (s.hubAt addr).post = none →
    s.keyed k = false → k.reg.writeMask ≠ 0 → reservedValue k (BitVec.ofNat 32 v &&& k.reg.writeMask) = true →
    ∃ t, exec (.registerWrite addr v req) s = .next t ∧ s.refusedOnly t)
  ∧ (∀ (s : State) (c x v req : Nat), req < 6 → let k : RegKey := ⟨.headerWord, c, x⟩
    s.mayWrite req k.addr → s.RegOn k k.addr → (s.hubAt k.addr).pair = none → (s.hubAt k.addr).post = none → s.keyed k = false → s.pairByHm k = false →
    ∃ t, exec (.registerWrite k.addr v req) s = .next t ∧ t.readValue k = BitVec.ofNat 32 v
      ∧ (∀ y, y ≠ x → y / 16 = x / 16 → t.readValue ⟨.headerWord, c, y⟩ = s.readValue ⟨.headerWord, c, y⟩)
      ∧ (∀ d, d ≠ x / 16 → (t.core c).hdr d = (s.core c).hdr d) ∧ (∀ d, d ≠ c → t.core d = s.core d)
      ∧ { t with cores := s.cores, regSt := s.regSt } = s)
  ∧ (∀ (s : State) (addr v req : Nat), req < 6 → blockAt addr = none → ∃ t, exec (.registerWrite addr v req) s = .next t ∧ s.eventsOnly t)
  ∧ (∀ (s : State) (addr v req : Nat) (b : Block) (i : Nat), req < 6 → s.mayWrite req addr → blockAt addr = some (b, i) → addr % 0x10000 < 0xFFF0 →
    (s.hubAt addr).pair = none → s.powered b i = false → exec (.registerWrite addr v req) s = .next s)
  ∧ (∀ (s : State) (addr v : Nat), (blockAt addr).isSome → s.debugMay 2 addr = false →
    ∃ t, exec (.registerWrite addr v 2) s = .next t ∧ s.onlyRegs t [adr .regLastLo 0 0, adr .regLastHi 0 0])
  ∧ (∀ (s : State) (block req : Nat), req < 6 →
    let a := controlBase + block % 4096 * 0x10000 + 0xFFFC
    (s.hubAt a).pair = none → (blockAt a).isSome → s.mayWrite req a →
    (∃ t, exec (.lockWrite block 0x7A3E91C5 req) s = .next t ∧ { t with hub := s.hub } = s
      ∧ s.hubNow t a { (s.hubAt a) with keys := addOnce req (s.hubAt a).keys })
    ∧ ∀ v, v % 2 ^ 32 ≠ 0x7A3E91C5 → ∃ t, exec (.lockWrite block v req) s = .next t ∧ ¬ req ∈ (t.hubAt a).keys
        ∧ (t.reg .regRefused).toNat = min (2 ^ 32 - 1) ((s.reg .regRefused).toNat + 1) ∧ t.mem = s.mem ∧ t.cores = s.cores)
  ∧ (∀ (s : State) (k : RegKey) (block value req : Nat) (p : PairPend),
    (s.hubAt (controlBase + block % 4096 * 0x10000)).pair = some p → req < 6 → p.req = req → s.mayWrite req p.compl →
    p.addr / 0x10000 = (controlBase + block % 4096 * 0x10000) / 0x10000 → s.RegOn k p.addr → PlainFor k p.value → p.value < 2 ^ 32 →
    s.time ≤ p.at_ + 64 → blockAt p.compl = some (k.reg.block, k.inst) → p.compl / 0x10000 = p.addr / 0x10000 →
    (p.byHm = false → p.compl % 0x10000 < 0xFFF0) → k.reg.block.posted = false →
    (value % 2 ^ 32 = 2 ^ 32 - 1 - p.value → ∃ t, exec (.pairComplement block value req) s = .next t ∧ s.regWritten t k p.value
        ∧ s.hubNow t p.addr { (s.hubAt p.addr) with pair := none })
    ∧ (value % 2 ^ 32 ≠ 2 ^ 32 - 1 - p.value → ∃ t, exec (.pairComplement block value req) s = .next t ∧ s.refusedOnly t
        ∧ s.hubNow t p.addr { (s.hubAt p.addr) with pair := none }))
  ∧ (∀ (s : State) (block : Nat) (p : PairPend), (s.hubAt (controlBase + block % 4096 * 0x10000)).pair = some p →
    (p.at_ + 64 < s.time → ∃ t u, exec (.pairWindowExpiry block) s = .next t ∧ s.refusedOnly u
      ∧ (u.hubAt (controlBase + block % 4096 * 0x10000)).pair = none ∧ (p.req = 0 → u.answered t 0x50 [])
      ∧ (p.req = 2 → t = { u with tap := { u.tap with dbgDone := true, dbgStatus := 0x50 } }) ∧ (p.req ≠ 0 → p.req ≠ 2 → t = u))
    ∧ (s.time ≤ p.at_ + 64 → exec (.pairWindowExpiry block) s = .next s))
  ∧ (∀ (s : State) (k : RegKey) (block : Nat) (w : PostWrite), (s.hubAt (controlBase + block % 4096 * 0x10000)).post = some w →
    s.RegOn k w.addr → PlainFor k w.value → regOf w.addr = some k →
    ∃ t, exec (.postedWriteArrival block) s = .next t ∧ s.regWritten t k w.value
      ∧ (t.hubAt (controlBase + block % 4096 * 0x10000)).post = none)
  ∧ ∀ (s : State) (block : Nat), (s.hubAt (controlBase + block % 4096 * 0x10000)).pair = none →
    (s.hubAt (controlBase + block % 4096 * 0x10000)).post = none →
    exec (.pairWindowExpiry block) s = .next s ∧ exec (.postedWriteArrival block) s = .next s

/-- The management port (22 R486 to R489): reads and writes are executed and answered with status and PEC, a request with a wrong PEC is counted and
not executed, REPEAT executes nothing, and the common commands manage its addresses, modes and interrupts. Where the spec is silent it states the
model's choices: log entries 10, 117, 118, 125. -/
def Obligations.ManagementPortAnswers : Prop :=
  (∀ (s : State) (k : RegKey) (body : List Byte), s.mgmtOn = true → pecOk 0x01 5 body = true → s.RegOn k (reqAddr body) → k.reg ≠ .pwStatus →
    ∃ t, exec (.read body) s = .next t ∧ s.answered t 0 (natLE 4 (s.readValue k).toNat))
  ∧ (∀ (s : State) (body : List Byte), s.mgmtOn = true → pecOk 0x01 5 body = true → blockAt (reqAddr body) = none →
    ∃ t u, exec (.read body) s = .next t ∧ s.eventsOnly u ∧ u.answered t 0x52 [0, 0, 0, 0])
  ∧ (∀ (s : State) (body : List Byte), s.mgmtOn = true →
    (pecOk 0x01 5 body = false → ∃ t, exec (.read body) s = .next t ∧ s.countedOne t .regPecErr 0 0
      ∧ { s with out := t.out, resp := t.resp }.onlyRegs t [adr .regPecErr 0 0]
      ∧ t.out = s.out ++ [.mgmt 0x53 (withPec [0, 0, 0, 0, 0x53])])
    ∧ ∀ i n, (i, n) ∈ [(Instr.write body, 2, 9), (.writePair body, 3, 13), (.writeKeyed body, 4, 13), (.writeKeyedPair body, 5, 17)] →
      pecOk n.1 n.2 body = false → ∃ t, exec i s = .next t ∧ s.countedOne t .regPecErr 0 0
        ∧ { s with out := t.out, resp := t.resp }.onlyRegs t [adr .regPecErr 0 0] ∧ t.out = s.out ++ [.mgmt 0x53 (withPec [0x53])])
  ∧ (∀ (s : State) (body : List Byte), s.mgmtOn = true →
    let a := reqAddr body
    (pecOk 0x02 9 body = true →
      ∃ t, exec (.write body) s = .next t ∧ s.writeAnswered (s.hubWrite a (reqWord body 5) 0).1 t a (s.hubWrite a (reqWord body 5) 0).2)
    ∧ (pecOk 0x03 13 body = true →
      let u := s.hubWrite a (reqWord body 5) 0
      let w := u.1.hubWrite (complementAddr a) (reqWord body 9) 0
      ∃ t, exec (.writePair body) s = .next t ∧ (u.2 = 0 → s.writeAnswered w.1 t a w.2) ∧ (u.2 ≠ 0 → s.writeAnswered u.1 t a u.2))
    ∧ (pecOk 0x04 13 body = true →
      let u := s.hubWrite (lockAddr a) (reqWord body 5) 0
      let w := u.1.hubWrite a (reqWord body 9) 0
      ∃ t, exec (.writeKeyed body) s = .next t ∧ (u.2 = 0 → s.writeAnswered w.1 t a w.2) ∧ (u.2 ≠ 0 → s.writeAnswered u.1 t a u.2))
    ∧ (pecOk 0x05 17 body = true →
      let u := s.hubWrite (lockAddr a) (reqWord body 5) 0
      let w := u.1.hubWrite a (reqWord body 9) 0
      let x := w.1.hubWrite (complementAddr a) (reqWord body 13) 0
      ∃ t, exec (.writeKeyedPair body) s = .next t ∧ (u.2 = 0 → w.2 = 0 → s.writeAnswered x.1 t a x.2)
        ∧ (u.2 = 0 → w.2 ≠ 0 → s.writeAnswered w.1 t a w.2) ∧ (u.2 ≠ 0 → s.writeAnswered u.1 t a u.2)))
  ∧ (∀ (s : State) (body : List Byte) (r : Nat × List Nat), s.mgmtOn = true → pecOk 0x06 0 body = true → s.resp = some r →
    exec (.repeatCmd body) s = .next { s with out := s.out ++ [.mgmt r.1 r.2] })
  ∧ (∀ (s : State), s.mgmtOn = true → bitOf (s.reg .mgmtStatus) 0 = false → bitOf (s.reg .mgmtCfg) 8 = false →
    (∀ addr, addr < 128 → ∃ t, exec (.entdaa addr) s = .next t ∧ t.rf .mgmtStatus 0 0 14 8 = addr ∧ bitOf (t.reg .mgmtStatus) 0 = true
      ∧ s.onlyRegs t [adr .mgmtStatus 0 0])
    ∧ ∀ static addr, addr < 128 → ∃ t, exec (.setdasa static addr) s = .next t
      ∧ (s.rf .mgmtStatus 0 0 22 16 = static → t.rf .mgmtStatus 0 0 14 8 = addr ∧ bitOf (t.reg .mgmtStatus) 0 = true
          ∧ s.onlyRegs t [adr .mgmtStatus 0 0])
      ∧ (s.rf .mgmtStatus 0 0 22 16 ≠ static → t = s))
  ∧ (∀ (s : State), s.mgmtOn = true → bitOf (s.reg .mgmtStatus) 0 = true →
    (∃ t, exec .rstdaa s = .next t ∧ bitOf (t.reg .mgmtStatus) 0 = false ∧ t.rf .mgmtStatus 0 0 14 8 = 0
      ∧ s.onlyRegs t [adr .mgmtStatus 0 0])
    ∧ exec .getpid s = .next { s with out := s.out ++ [.mgmt 0 ((natLE 4 (s.reg .hmPart 0 0).toNat
        ++ (natLE 4 (s.reg .hmPart 0 1).toNat).take 2).map BitVec.toNat)] }
    ∧ exec .getbcr s = .next { s with out := s.out ++ [.mgmt 0 [0x06]] }
    ∧ exec .getmwl s = .next { s with out := s.out ++ [.mgmt 0 [0, 19]] }
    ∧ exec .getmrl s = .next { s with out := s.out ++ [.mgmt 0 [0, 7, 1]] }
    ∧ (∃ x, exec .getdcr s = .next { s with out := s.out ++ [.mgmt 0 [x]], free := s.free + 1 })
    ∧ ∃ x y, exec .getstatus s = .next { s with out := s.out ++ [.mgmt 0 [x, y]], free := s.free + 2 })
  ∧ (∀ (s : State), s.mgmtOn = true → exec .enec s = .next { s with enec := true } ∧ exec .disec s = .next { s with enec := false })
  ∧ ∀ (s : State) (body : List Byte) (x y : Nat), s.mgmtOn = false →
    ∀ i ∈ [Instr.read body, .write body, .writePair body, .writeKeyed body, .writeKeyedPair body, .repeatCmd body, .entdaa x, .setdasa x y,
      .rstdaa, .enec, .disec, .getpid, .getbcr, .getmwl, .getmrl, .getdcr, .getstatus], exec i s = .next s

/-- Only the TAP and what it shifts out have changed. -/
def Sys2Proof.Machine.State.tapOnly (s t : State) (outs : List Out) (tap : TapState) : Prop := t = { s with out := s.out ++ outs, tap := tap }

/-- The test access port (24 R511 to R517): each instruction shifts out what it captures; those that drive the pins act only while RESET_N is low,
else as BYPASS; the debug register's accesses obey its level; the stacks are selected and their wrappers connected. Where the spec is silent it
states the model's choices: log entries 119, 120. -/
def Obligations.TestAccessPort : Prop :=
  (∀ (s : State), exec .tapReset s = .next { s with tap := { s.tap with ir := 0x02, refused := false, drive := false } })
  ∧ (∀ (s : State) (pins cells : Nat),
    ∀ e ∈ [(Instr.extest pins cells, 0x00), (.extestPulse pins cells, 0x08), (.extestTrain pins cells, 0x09)],
      ∃ t, exec e.1 s = .next t
        ∧ (s.init.resetN = false → s.tapOnly t [.tdo 8 (s.captureIr % 2 ^ 8), .tdo 212 (pins % 2 ^ 212)]
            { s.tap with ir := e.2, refused := false, drive := true, cells := (List.range 212).map (natBit cells) })
        ∧ (s.init.resetN = true → s.tapOnly t [.tdo 8 (s.captureIr % 2 ^ 8), .tdo 1 0]
            { s.tap with ir := 0xFF, refused := true, drive := false }))
  ∧ (∀ (s : State) (pins cells : Nat), ∃ t, exec (.samplePreload pins cells) s = .next t
      ∧ s.tapOnly t [.tdo 8 (s.captureIr % 2 ^ 8), .tdo 212 (pins % 2 ^ 212)]
          { s.tap with ir := 0x01, refused := false, drive := false, cells := (List.range 212).map (natBit cells) })
  ∧ (∀ (s : State), ∃ t, exec .idcode s = .next t ∧ t.tap = { s.tap with ir := 0x02, refused := false, drive := false }
      ∧ t.out = s.out ++ [.tdo 8 (s.captureIr % 2 ^ 8), .tdo 32 (s.rf .idPart 0 0 11 8 * 2 ^ 28 + 0x00D9656B)]
      ∧ { t with out := s.out, tap := s.tap } = s)
  ∧ (∀ (s : State), ∀ e ∈ [(Instr.clamp, 0x03), (.highz, 0x04)],
      ∃ t, exec e.1 s = .next t
        ∧ (s.init.resetN = false → s.tapOnly t [.tdo 8 (s.captureIr % 2 ^ 8), .tdo 1 0]
            { s.tap with ir := e.2, refused := false, drive := true })
        ∧ (s.init.resetN = true → s.tapOnly t [.tdo 8 (s.captureIr % 2 ^ 8), .tdo 1 0]
            { s.tap with ir := 0xFF, refused := true, drive := false }))
  ∧ (∀ (s : State), ∃ t, exec .bypass s = .next t
      ∧ s.tapOnly t [.tdo 8 (s.captureIr % 2 ^ 8), .tdo 1 0] { s.tap with ir := 0xFF, refused := false, drive := false })
  ∧ (∀ (s : State) (cmd addr key data compl : Nat), cmd < 16 → addr < 2 ^ 40 →
    ∃ t, exec (.dbgAccess cmd addr key data compl) s = .next t ∧ t.tap.ir = 0x10
      ∧ (s.debugWaits = true → { t with out := s.out, tap := s.tap } = s ∧ t.tap.dbgDone = s.tap.dbgDone)
      ∧ (∀ k, s.debugWaits = false → s.debugLevel ≠ 0 → cmd = 1 → s.RegOn k addr → k.reg ≠ .pwStatus →
          t.tap.dbgDone = true ∧ t.tap.dbgStatus = 0 ∧ t.tap.dbgData = (s.readValue k).toNat ∧ { t with out := s.out, tap := s.tap } = s)
      ∧ (∀ u, s.debugWaits = false → s.debugLevel = 3 → cmd = 2 → (blockAt addr).isSome →
          u = { s with tap := { s.tap with ir := 0x10, refused := false, drive := false }, out := s.out ++ [Out.tdo 8 (s.captureIr % 2 ^ 8)] } →
          t.tap.dbgDone = !s.opensPair (u.hubWrite addr (data % 2 ^ 32) 2).1 addr
          ∧ t.tap.dbgStatus = (u.hubWrite addr (data % 2 ^ 32) 2).2 ∧ t.regs = (u.hubWrite addr (data % 2 ^ 32) 2).1.regs
          ∧ t.hub = (u.hubWrite addr (data % 2 ^ 32) 2).1.hub)
      ∧ (s.debugWaits = false → (cmd = 0 ∨ 5 < cmd ∨ blockAt addr = none) →
          t.tap.dbgDone = true ∧ t.tap.dbgStatus = 0x52 ∧ { s with out := t.out, tap := t.tap }.eventsOnly t)
      ∧ (s.debugWaits = false → 1 ≤ cmd → cmd ≤ 5 → (blockAt addr).isSome → s.debugLevel = 0 →
          t.tap.dbgDone = true ∧ t.tap.dbgStatus = 0x54
          ∧ { s with out := t.out, tap := t.tap }.onlyRegs t [adr .regLastLo 0 0, adr .regLastHi 0 0]))
  ∧ (∀ (s : State) (stack : Nat) (wir : Bool), stack < 16 →
    ∃ t, exec (.stackSel stack wir) s = .next t
      ∧ (2 ≤ s.debugLevel → t.tap = { s.tap with ir := 0x11, refused := false, drive := false, stack := stack, selWir := wir }
          ∧ { t with out := s.out, tap := s.tap } = s)
      ∧ (s.debugLevel < 2 → s.tapOnly t [.tdo 8 (s.captureIr % 2 ^ 8), .tdo 1 0]
            { s.tap with ir := 0xFF, refused := false, drive := false }))
  ∧ ∀ (s : State) (kind row : Nat),
    ∃ t, exec (.hbm1500 kind row) s = .next t
      ∧ (s.wrapperMay = false → s.tapOnly t [.tdo 8 (s.captureIr % 2 ^ 8), .tdo 1 0]
            { s.tap with ir := 0xFF, refused := false, drive := false })
      ∧ (s.wrapperMay = true → t.tap.ir = 0x12 ∧ t.out = s.out ++ [.tdo 8 (s.captureIr % 2 ^ 8)])
      ∧ (s.wrapperMay = true → 1 ≤ kind → kind ≤ 3 → bitOf (s.reg .mtStatus s.tap.stack) 3 = true → s.serviceOpen = false →
          t.repairs = s.repairs ++ [{ stack := s.tap.stack, kind := kind, row := BitVec.ofNat 32 row }] ∧ s.tap.stack ∈ t.tap.wrapped)
      ∧ (kind = 0 → t.repairs = s.repairs) ∧ t.mem = s.mem ∧ t.cores = s.cores ∧ t.regs = s.regs

/-! ### The block as a whole -/

/-- A step runs the command at the front of the queue on the state with the queue's rest; on an empty queue one cycle of device time passes, and
nothing else happens. Where the spec is silent it states the model's choices: log entries 11, 17. -/
def Obligations.StepRunsTheFrontOfTheQueue : Prop :=
  (∀ (s : State) (c : Instr) (cs : List Instr), s.pending = c :: cs → step s = exec c { s with pending := cs })
  ∧ (∀ (s : State) (c : Instr), step { s with pending := c :: s.pending } = exec c s)
  ∧ ∀ (s : State), s.pending = [] → step s = .next { s with
      time := s.time + ((s.timeFrac : Int) + 2 ^ 32 + s.timeRate).toNat / 2 ^ 32
      timeFrac := ((s.timeFrac : Int) + 2 ^ 32 + s.timeRate).toNat % 2 ^ 32 }

/-- What reset leaves (00 R11, 09 R546, 13 R271): the queue empty, scratchpads zero, every register at the reset value of its map, every context
IDLE, every drawer EMPTY, nothing armed, no job, no session, no event. Where the spec is silent it states the model's choices: log entries 1, 13,
14. -/
def Obligations.ResetLeavesResetValues : Prop :=
  let z := State.reset
  z.pending = [] ∧ z.boot = 0 ∧ Mem.wf z.mem = true
  ∧ (∀ a, inHbm a = false → z.readByte a = 0) ∧ (∀ a, inHbm a = true → z.readByte a = Config.freeByte a)
  ∧ (∀ k : RegKey, z.regK k = k.reset)
  ∧ (∀ c x, (z.context c x).st = .idle ∧ (z.context c x).pc = 0 ∧ (∀ r, (z.context c x).reg r = 0) ∧ (z.context c x).p = 0)
  ∧ (∀ c d, ((z.core c).drawer d).tag = .empty ∧ ((z.core c).drawer d).claim = false) ∧ (∀ c n, (z.core c).counter n = 0)
  ∧ (∀ k, z.bar k = {} ∧ z.ctr k = {}) ∧ (∀ c, z.modeM c = false ∧ (z.core c).q = [])
  ∧ z.sessions = [] ∧ z.placed = [] ∧ z.journal = [] ∧ z.router.q = [] ∧ z.out = []
  ∧ z.reg .lossScale = 0x00180010 ∧ z.reg .lsCount = 0x07D00000 ∧ z.reg .clkRun 0 1 = 0x0FFFFFFF ∧ z.reg .railLimit 0 4 = 0x032002BC

/-- Memory keeps its canonical form in every step: addresses rising, and no entry that reads as an unlisted address does. -/
def Obligations.EveryStepKeepsMemoryCanonical : Prop :=
  ∀ s t : State, Mem.wf s.mem = true → step s = .next t → Mem.wf t.mem = true

/-- The command format (10 R209, R210) loses nothing: a command with legal fields decodes from its 32 bytes to itself, and the words of whatever
decodes are the encoding of what it decodes to. Where the spec is silent it states the model's choices: log entry 15. -/
def Obligations.StreamCommandsDecodeAndEncode : Prop :=
  (∀ (op : Opcode) (f : CmdFields), f.sigMode.toNat < 4 → (f.sigMode = 0 ∨ f.sigDelta ≠ 0) →
    ¬ (f.waitA.cond = 3 ∧ f.waitB.cond = 3 ∧ f.waitA.ctr = f.waitB.ctr) →
    (encodeCmd op f).bytes.length = 32 ∧ decodeCmd (Cmd.ofBytes (encodeCmd op f).bytes) = some (op, f))
  ∧ (∀ (c : Cmd) (op : Opcode) (f : CmdFields), decodeCmd c = some (op, f) → encodeCmd op f = c ∧ Cmd.ofBytes c.bytes = c)
  ∧ ∀ (op : Opcode) (f : CmdFields), (3 < f.sigMode.toNat ∨ (f.sigMode ≠ 0 ∧ f.sigDelta = 0)
      ∨ (f.waitA.cond = 3 ∧ f.waitB.cond = 3 ∧ f.waitA.ctr = f.waitB.ctr)) → decodeCmd (encodeCmd op f) = none

/-- A register that exists: its block instance and its number lie in range, and it is one of the registers that instance holds. -/
def Sys2Proof.Machine.RegKey.exists (k : RegKey) : Prop :=
  k.idx < max 1 k.reg.count ∧ k.inst < k.reg.block.instances ∧ (k.reg.inst0Only = true → k.inst = 0) ∧ (k.reg = .desc → k.idx % 16 < 10)

/-- Registers stand where the maps put them, no two at one address; an access to no block, or not aligned, answers ST_REG_ADDR, reads zero and
raises EV_REG_UNMAPPED; an unassigned offset of a block reads zero, ignores what is written and answers ST_OK (22 R477; 00 R12). -/
def Obligations.RegistersStandWhereTheMapsSay : Prop :=
  (∀ k : RegKey, k.exists → blockAt k.addr = some (k.reg.block, k.inst) ∧ k.addr % 0x10000 < 0xFFF0
    ∧ regAt k.reg.block k.inst (k.addr % 0x10000) = some k)
  ∧ (∀ addr : Nat, addr % 4 ≠ 0 ∨ (∀ b ∈ Block.all, ∀ i, i < b.instances → addr / 0x10000 * 0x10000 ≠ controlBase + b.base + i * 0x10000) →
    blockAt addr = none)
  ∧ (∀ (s : State) (addr req : Nat), blockAt addr = none →
    ∃ e : Event, e.code = 0x0B04 ∧ s.hubRead addr req = (s.raise e, 0, 0x52) ∧ ∀ v, s.hubWrite addr v req = (s.raise e, 0x52))
  ∧ ∀ (s : State) (addr req i : Nat) (b : Block), blockAt addr = some (b, i) → addr % 0x10000 < 0xFFF0 → regAt b i (addr % 0x10000) = none →
    s.powered b i = true → s.rf .clkRun 0 (b.domain i / 32) (b.domain i % 32) (b.domain i % 32) ≠ 0 → (s.hubAt addr).pair = none →
    s.hubRead addr req = (s, 0, 0)
    ∧ ((∀ k, regAt b i (addr % 0x10000 - 4) = some k → k.reg.pairTyped = false) → ∀ v, s.hubWrite addr v req = (s, 0))

/-- Every well-formed command is carried out: none faults, none is refused by the model. Where the spec is silent it states the model's choices: log
entry 126. -/
def Obligations.WellFormedCommandsAreCarriedOut : Prop :=
  ∀ (c : Instr) (s : State), wfInstr c = true → ∃ t, exec c s = .next t
end

