-- ==== Sys2Proof/Laws/Encoding.lean ====
section
/-!
SUPPORT. Laws of the command format: each field of an encoded command reads back as it was put in.
-/
namespace Sys2Proof.Machine

/-- A field of a word is the value of the bits between its ends. -/
theorem bits_eq_extract {n : Nat} (v : BitVec n) (hi lo : Nat) :
    bits v hi lo = (v.extractLsb' lo (hi + 1 - lo)).toNat := by
  simp [bits, natBits, BitVec.extractLsb'_toNat, Nat.shiftRight_eq_div_pow]

theorem extract_append_low {m n : Nat} (a : BitVec m) (b : BitVec n) (lo len : Nat) (h : lo + len ≤ n) :
    (a ++ b).extractLsb' lo len = b.extractLsb' lo len := by
  apply BitVec.eq_of_getLsbD_eq
  intro i hi
  have h1 : lo + i < n := by omega
  simp [BitVec.getLsbD_append, h1, hi]

theorem extract_append_high {m n : Nat} (a : BitVec m) (b : BitVec n) (lo len : Nat) (h : n ≤ lo) :
    (a ++ b).extractLsb' lo len = a.extractLsb' (lo - n) len := by
  apply BitVec.eq_of_getLsbD_eq
  intro i hi
  have h1 : ¬ lo + i < n := by omega
  have h2 : lo + i - n = lo - n + i := by omega
  simp [BitVec.getLsbD_append, h1, h2, hi]

theorem bit_append_low {m n : Nat} (a : BitVec m) (b : BitVec n) (i : Nat) (h : i < n) :
    (a ++ b).getLsbD i = b.getLsbD i := by simp [BitVec.getLsbD_append, h]

theorem bit_append_high {m n : Nat} (a : BitVec m) (b : BitVec n) (i : Nat) (h : n ≤ i) :
    (a ++ b).getLsbD i = a.getLsbD (i - n) := by simp [BitVec.getLsbD_append, Nat.not_lt.2 h]

theorem Opcode.ofCode_code (op : Opcode) : Opcode.ofCode op.code = some op := by cases op <;> decide

theorem Opcode.code_lt (op : Opcode) : op.code < 1024 := by cases op <;> decide

theorem Opcode.engine_lt (op : Opcode) : op.engine < 6 := by cases op <;> decide

variable (op : Opcode) (f : CmdFields)

@[simp] theorem encodeCmd_w2 : (encodeCmd op f).w2 = f.w2 := rfl
@[simp] theorem encodeCmd_w3 : (encodeCmd op f).w3 = f.w3 := rfl

@[simp] theorem encodeCmd_opcode : (encodeCmd op f).opcode = op.code := by
  rw [Cmd.opcode]
  simp only [bits_eq_extract, encodeCmd]
  repeat rw [extract_append_high _ _ _ _ (by decide)]
  simp [Nat.mod_eq_of_lt (Opcode.code_lt op)]

@[simp] theorem encodeCmd_engine : (encodeCmd op f).engine = op.engine := by
  have h : op.engine < 16 := Nat.lt_trans (Opcode.engine_lt op) (by decide)
  rw [Cmd.engine]
  simp only [bits_eq_extract, encodeCmd]
  repeat first | rw [extract_append_high _ _ _ _ (by decide)] | rw [extract_append_low _ _ _ _ (by decide)]
  simp [Nat.mod_eq_of_lt h]

@[simp] theorem encodeCmd_pred : (encodeCmd op f).pred = f.pred.toNat := by
  rw [Cmd.pred]
  simp only [bits_eq_extract, encodeCmd]
  repeat first | rw [extract_append_high _ _ _ _ (by decide)] | rw [extract_append_low _ _ _ _ (by decide)]
  simp

@[simp] theorem encodeCmd_psense : (encodeCmd op f).psense = f.psense := by
  simp only [Cmd.psense, bitOf, encodeCmd]
  repeat first | rw [bit_append_high _ _ _ (by decide)] | rw [bit_append_low _ _ _ (by decide)]
  simp

@[simp] theorem encodeCmd_bit45 : bitOf (encodeCmd op f).w0 45 = false := by
  simp only [bitOf, encodeCmd]
  repeat first | rw [bit_append_high _ _ _ (by decide)] | rw [bit_append_low _ _ _ (by decide)]
  simp

@[simp] theorem encodeCmd_sigCtr : (encodeCmd op f).sigCtr = f.sigCtr.toNat := by
  rw [Cmd.sigCtr]
  simp only [bits_eq_extract, encodeCmd]
  repeat first | rw [extract_append_high _ _ _ _ (by decide)] | rw [extract_append_low _ _ _ _ (by decide)]
  simp

@[simp] theorem encodeCmd_sigDelta : (encodeCmd op f).sigDelta = f.sigDelta.toNat := by
  rw [Cmd.sigDelta]
  simp only [bits_eq_extract, encodeCmd]
  repeat first | rw [extract_append_high _ _ _ _ (by decide)] | rw [extract_append_low _ _ _ _ (by decide)]
  simp

@[simp] theorem encodeCmd_sigMode : (encodeCmd op f).sigMode = f.sigMode.toNat := by
  rw [Cmd.sigMode]
  simp only [bits_eq_extract, encodeCmd]
  repeat first | rw [extract_append_high _ _ _ _ (by decide)] | rw [extract_append_low _ _ _ _ (by decide)]
  simp

@[simp] theorem encodeCmd_waitA :
    (encodeCmd op f).waitA = ⟨f.waitA.ctr.toNat, f.waitA.cond.toNat, f.waitA.val.toNat⟩ := by
  rw [Cmd.waitA]
  simp only [bits_eq_extract, encodeCmd]
  repeat first | rw [extract_append_high _ _ _ _ (by decide)] | rw [extract_append_low _ _ _ _ (by decide)]
  simp

@[simp] theorem encodeCmd_waitB :
    (encodeCmd op f).waitB = ⟨f.waitB.ctr.toNat, f.waitB.cond.toNat, f.waitB.val.toNat⟩ := by
  rw [Cmd.waitB]
  simp only [bits_eq_extract, encodeCmd]
  repeat first | rw [extract_append_high _ _ _ _ (by decide)] | rw [extract_append_low _ _ _ _ (by decide)]
  simp

@[simp] theorem encodeCmd_op? : (encodeCmd op f).op? = some op := by
  rw [Cmd.op?, encodeCmd_opcode, Opcode.ofCode_code]

/-- A field of OPA reads back. -/
theorem encodeCmd_opa (hi lo : Nat) (h : hi < 38) : (encodeCmd op f).opa hi lo = bits f.opa hi lo := by
  by_cases hl : lo ≤ hi
  · rw [Cmd.opa, bits_eq_extract, bits_eq_extract, encodeCmd]
    rw [extract_append_low _ _ _ _ (by omega)]
  · have h0 : hi + 1 - lo = 0 := by omega
    simp [Cmd.opa, bits, natBits, h0, Nat.mod_one]

/-- The decode checks on an encoded command (10 R210): SIG_MODE at most 3, a signal with a nonzero delta, and not
two CLAIMs of one counter. -/
theorem encodeCmd_checks (h1 : f.sigMode.toNat < 4) (h2 : f.sigMode = 0 ∨ f.sigDelta ≠ 0)
    (h3 : ¬(f.waitA.cond = 3 ∧ f.waitB.cond = 3 ∧ f.waitA.ctr = f.waitB.ctr)) :
    decodeChecks (encodeCmd op f) = some op := by
  have h1' : ¬ 4 ≤ f.sigMode.toNat := by omega
  have h2' : ¬ (f.sigMode.toNat ≠ 0 ∧ f.sigDelta.toNat = 0) := by
    rintro ⟨ha, hb⟩
    rcases h2 with h | h
    · exact ha (by simp [h])
    · exact h (BitVec.eq_of_toNat_eq (by simpa using hb))
  have h3' : ¬ (f.waitA.cond.toNat = 3 ∧ f.waitB.cond.toNat = 3 ∧ f.waitA.ctr.toNat = f.waitB.ctr.toNat) := by
    rintro ⟨ha, hb, hc⟩
    exact h3 ⟨BitVec.eq_of_toNat_eq ha, BitVec.eq_of_toNat_eq hb, BitVec.eq_of_toNat_eq hc⟩
  unfold decodeChecks
  simp only [encodeCmd_op?, encodeCmd_engine, encodeCmd_bit45, encodeCmd_sigMode, encodeCmd_sigDelta,
    encodeCmd_waitA, encodeCmd_waitB, ne_eq, not_true_eq_false, if_false, Bool.false_eq_true]
  rw [if_neg h1', if_neg h2', if_neg h3']

end Sys2Proof.Machine
end

