-- ==== Sys2Proof/Laws/Tab.lean ====
section
/-!
SUPPORT. Laws of sparse tables: a read after a write, and that a write keeps the canonical form.
-/
namespace Sys2Proof.Machine

variable {α : Type}

@[simp] theorem Tab.find?_erase_self (t : Tab α) (j : Nat) : Tab.find? (Tab.erase t j) j = none := by
  induction t with
  | nil => rfl
  | cons e t ih =>
    obtain ⟨k, v⟩ := e
    by_cases h : k = j
    · simp [Tab.erase, h, ih]
    · simp [Tab.erase, Tab.find?, h, ih]

theorem Tab.find?_erase_ne (t : Tab α) {j l : Nat} (h : l ≠ j) :
    Tab.find? (Tab.erase t j) l = Tab.find? t l := by
  induction t with
  | nil => rfl
  | cons e t ih =>
    obtain ⟨k, v⟩ := e
    by_cases hk : k = j
    · subst hk
      simp [Tab.erase, Tab.find?, ih, Ne.symm h]
    · simp [Tab.erase, Tab.find?, hk, ih]

@[simp] theorem Tab.erase_erase (t : Tab α) (j : Nat) : Tab.erase (Tab.erase t j) j = Tab.erase t j := by
  induction t with
  | nil => rfl
  | cons e t ih =>
    obtain ⟨k, v⟩ := e
    by_cases h : k = j
    · simp [Tab.erase, h, ih]
    · simp [Tab.erase, h, ih]

theorem Tab.find?_insert (t : Tab α) (j : Nat) (x : α) (h : Tab.find? t j = none) (l : Nat) :
    Tab.find? (Tab.insert t j x) l = if l = j then some x else Tab.find? t l := by
  induction t with
  | nil =>
    by_cases hl : l = j
    · simp [Tab.insert, Tab.find?, hl]
    · simp [Tab.insert, Tab.find?, hl, Ne.symm hl]
  | cons e t ih =>
    obtain ⟨k, v⟩ := e
    have hk : k ≠ j := by
      rintro rfl
      simp [Tab.find?] at h
    have ht : Tab.find? t j = none := by simpa [Tab.find?, hk] using h
    by_cases hlt : j < k
    · by_cases hl : l = j
      · simp [Tab.insert, hlt, Tab.find?, hl]
      · simp [Tab.insert, hlt, Tab.find?, hl, Ne.symm hl]
    · by_cases hl : l = j
      · subst hl
        simp [Tab.insert, hlt, Tab.find?, hk, ih ht]
      · by_cases hkl : k = l
        · subst hkl
          simp [Tab.insert, hlt, Tab.find?, hl]
        · simp [Tab.insert, hlt, Tab.find?, hkl, hl, ih ht]

theorem Tab.erase_insert (t : Tab α) (j : Nat) (x : α) : Tab.erase (Tab.insert t j x) j = Tab.erase t j := by
  induction t with
  | nil => simp [Tab.insert, Tab.erase]
  | cons e t ih =>
    obtain ⟨k, v⟩ := e
    by_cases hlt : j < k
    · simp [Tab.insert, hlt, Tab.erase]
    · by_cases hk : k = j
      · simp [Tab.insert, Tab.erase, hk, ih]
      · simp [Tab.insert, hlt, Tab.erase, hk, ih]

theorem Tab.find?_set [DecidableEq α] (d : α) (t : Tab α) (j : Nat) (x : α) (l : Nat) :
    (Tab.find? (Tab.set d t j x) l).getD d = if l = j then x else (Tab.find? t l).getD d := by
  unfold Tab.set
  by_cases hx : x = d
  · by_cases hl : l = j
    · simp [hx, hl]
    · simp [hx, hl, Tab.find?_erase_ne t hl]
  · rw [if_neg hx, Tab.find?_insert _ _ _ (by simp)]
    by_cases hl : l = j
    · simp [hl]
    · simp [hl, Tab.find?_erase_ne t hl]

theorem Tab.find?_set_ne [DecidableEq α] (d : α) (t : Tab α) {j l : Nat} (x : α) (h : l ≠ j) :
    Tab.find? (Tab.set d t j x) l = Tab.find? t l := by
  unfold Tab.set
  by_cases hx : x = d
  · simp [hx, Tab.find?_erase_ne t h]
  · rw [if_neg hx, Tab.find?_insert _ _ _ (by simp)]
    simp [h, Tab.find?_erase_ne t h]

@[simp] theorem Tab.get_set_self [DecidableEq α] (d : α) (t : Tab α) (j : Nat) (x : α) :
    Tab.get d (Tab.set d t j x) j = x := by
  simp [Tab.get, Tab.find?_set]

theorem Tab.get_set_ne [DecidableEq α] (d : α) (t : Tab α) {j l : Nat} (x : α) (h : l ≠ j) :
    Tab.get d (Tab.set d t j x) l = Tab.get d t l := by
  simp [Tab.get, Tab.find?_set, h]

theorem Tab.get_set [DecidableEq α] (d : α) (t : Tab α) (j l : Nat) (x : α) :
    Tab.get d (Tab.set d t j x) l = if l = j then x else Tab.get d t l := by
  simp [Tab.get, Tab.find?_set]

@[simp] theorem Tab.set_set [DecidableEq α] (d : α) (t : Tab α) (j : Nat) (x y : α) :
    Tab.set d (Tab.set d t j x) j y = Tab.set d t j y := by
  unfold Tab.set
  by_cases hx : x = d <;> by_cases hy : y = d <;> simp [hx, hy, Tab.erase_insert]

/-! ### The canonical form -/

/-- Every key of a table is above a bound. -/
def Tab.above (b : Nat) (t : Tab α) : Prop := ∀ e ∈ t, b < e.1

theorem Tab.rising_cons (e : Nat × α) (t : Tab α) :
    Tab.rising (e :: t) = true ↔ Tab.above e.1 t ∧ Tab.rising t = true := by
  induction t generalizing e with
  | nil => simp [Tab.rising, Tab.above]
  | cons f t ih =>
    obtain ⟨k, v⟩ := e
    obtain ⟨l, w⟩ := f
    constructor
    · intro h
      simp only [Tab.rising, Bool.and_eq_true, decide_eq_true_eq] at h
      refine ⟨?_, h.2⟩
      intro g hg
      rcases List.mem_cons.1 hg with rfl | hg
      · exact h.1
      · exact Nat.lt_trans h.1 (((ih (l, w)).1 h.2).1 g hg)
    · rintro ⟨ha, hr⟩
      simp only [Tab.rising, Bool.and_eq_true, decide_eq_true_eq]
      exact ⟨ha _ (List.mem_cons_self ..), hr⟩

theorem Tab.mem_of_mem_erase {e : Nat × α} {t : Tab α} {j : Nat} (h : e ∈ Tab.erase t j) : e ∈ t ∧ e.1 ≠ j := by
  induction t with
  | nil => simp [Tab.erase] at h
  | cons f t ih =>
    obtain ⟨k, v⟩ := f
    by_cases hk : k = j
    · simp only [Tab.erase, hk, if_true] at h
      exact ⟨List.mem_cons_of_mem _ (ih h).1, (ih h).2⟩
    · simp only [Tab.erase, hk, if_false] at h
      rcases List.mem_cons.1 h with rfl | h
      · exact ⟨List.mem_cons_self .., hk⟩
      · exact ⟨List.mem_cons_of_mem _ (ih h).1, (ih h).2⟩

theorem Tab.rising_erase {t : Tab α} (j : Nat) (h : Tab.rising t = true) : Tab.rising (Tab.erase t j) = true := by
  induction t with
  | nil => rfl
  | cons e t ih =>
    obtain ⟨k, v⟩ := e
    rw [Tab.rising_cons] at h
    by_cases hk : k = j
    · simpa [Tab.erase, hk] using ih h.2
    · simp only [Tab.erase, hk, if_false]
      rw [Tab.rising_cons]
      exact ⟨fun f hf => h.1 f (Tab.mem_of_mem_erase hf).1, ih h.2⟩

theorem Tab.mem_insert {e : Nat × α} {t : Tab α} {j : Nat} {x : α} (h : e ∈ Tab.insert t j x) : e = (j, x) ∨ e ∈ t := by
  induction t with
  | nil => simpa [Tab.insert] using h
  | cons f t ih =>
    obtain ⟨k, v⟩ := f
    by_cases hk : j < k
    · simp only [Tab.insert, hk, if_true, List.mem_cons] at h
      rcases h with h | h | h
      · exact Or.inl h
      · exact Or.inr (h ▸ List.mem_cons_self ..)
      · exact Or.inr (List.mem_cons_of_mem _ h)
    · simp only [Tab.insert, hk, if_false] at h
      rcases List.mem_cons.1 h with rfl | h
      · exact Or.inr (List.mem_cons_self ..)
      · exact (ih h).imp id (List.mem_cons_of_mem _)

theorem Tab.rising_insert {t : Tab α} {j : Nat} {x : α} (h : Tab.rising t = true) (hj : ∀ e ∈ t, e.1 ≠ j) :
    Tab.rising (Tab.insert t j x) = true := by
  induction t with
  | nil => rfl
  | cons e t ih =>
    obtain ⟨k, v⟩ := e
    by_cases hk : j < k
    · simp only [Tab.insert, hk, if_true]
      rw [Tab.rising_cons]
      refine ⟨?_, h⟩
      intro f hf
      rcases List.mem_cons.1 hf with rfl | hf
      · exact hk
      · exact Nat.lt_trans hk (((Tab.rising_cons _ _).1 h).1 f hf)
    · have hne : k ≠ j := hj (k, v) (List.mem_cons_self ..)
      rw [Tab.rising_cons] at h
      simp only [Tab.insert, hk, if_false]
      rw [Tab.rising_cons]
      refine ⟨?_, ih h.2 (fun f hf => hj f (List.mem_cons_of_mem _ hf))⟩
      intro f hf
      rcases Tab.mem_insert hf with rfl | hf
      · exact Nat.lt_of_le_of_ne (Nat.le_of_not_lt hk) hne
      · exact h.1 f hf

theorem Tab.rising_filter {t : Tab α} (p : Nat × α → Bool) (h : Tab.rising t = true) : Tab.rising (t.filter p) = true := by
  induction t with
  | nil => rfl
  | cons e t ih =>
    rw [Tab.rising_cons] at h
    by_cases hp : p e = true
    · rw [List.filter_cons_of_pos hp, Tab.rising_cons]
      exact ⟨fun f hf => h.1 f (List.mem_of_mem_filter hf), ih h.2⟩
    · rw [List.filter_cons_of_neg hp]
      exact ih h.2

/-- A write keeps the canonical form of a table. -/
theorem Tab.wf_set [DecidableEq α] (d : Nat → α) (t : Tab α) (j : Nat) (x : α) (h : Tab.wf d t = true) :
    Tab.wf d (Tab.set (d j) t j x) = true := by
  simp only [Tab.wf, Bool.and_eq_true, List.all_eq_true, decide_eq_true_eq] at h ⊢
  unfold Tab.set
  by_cases hx : x = d j
  · rw [if_pos hx]
    exact ⟨Tab.rising_erase _ h.1, fun e he => h.2 e (Tab.mem_of_mem_erase he).1⟩
  · rw [if_neg hx]
    refine ⟨Tab.rising_insert (Tab.rising_erase _ h.1) (fun e he => (Tab.mem_of_mem_erase he).2), ?_⟩
    intro e he
    rcases Tab.mem_insert he with rfl | he
    · exact hx
    · exact h.2 e (Tab.mem_of_mem_erase he).1

end Sys2Proof.Machine
end

