-- ==== Sys2Proof/Laws/State.lean ====
section
/-!
SUPPORT. Laws of the state: one lemma for each field and each named update, and reads after writes of the tables
behind the accessors.
-/
namespace Sys2Proof.Machine

variable (s : State)

@[simp] theorem State.setCore_pending (c : Nat) (k : Core) : (s.setCore c k).pending = s.pending := rfl
@[simp] theorem State.setCore_time (c : Nat) (k : Core) : (s.setCore c k).time = s.time := rfl
@[simp] theorem State.setCore_free (c : Nat) (k : Core) : (s.setCore c k).free = s.free := rfl
@[simp] theorem State.setCore_mem (c : Nat) (k : Core) : (s.setCore c k).mem = s.mem := rfl
@[simp] theorem State.setCore_regs (c : Nat) (k : Core) : (s.setCore c k).regs = s.regs := rfl
@[simp] theorem State.setCore_held (c : Nat) (k : Core) : (s.setCore c k).held = s.held := rfl
@[simp] theorem State.setCore_bars (c : Nat) (k : Core) : (s.setCore c k).bars = s.bars := rfl
@[simp] theorem State.setCore_ctrs (c : Nat) (k : Core) : (s.setCore c k).ctrs = s.ctrs := rfl
@[simp] theorem State.setCore_sigs (c : Nat) (k : Core) : (s.setCore c k).sigs = s.sigs := rfl
@[simp] theorem State.setCore_waitw (c : Nat) (k : Core) : (s.setCore c k).waitw = s.waitw := rfl
@[simp] theorem State.setCore_badpar (c : Nat) (k : Core) : (s.setCore c k).badpar = s.badpar := rfl
@[simp] theorem State.setCore_router (c : Nat) (k : Core) : (s.setCore c k).router = s.router := rfl
@[simp] theorem State.setCore_tables (c : Nat) (k : Core) : (s.setCore c k).tables = s.tables := rfl
@[simp] theorem State.setCore_profs (c : Nat) (k : Core) : (s.setCore c k).profs = s.profs := rfl
@[simp] theorem State.setCore_assign (c : Nat) (k : Core) : (s.setCore c k).assign = s.assign := rfl
@[simp] theorem State.setCore_journal (c : Nat) (k : Core) : (s.setCore c k).journal = s.journal := rfl
@[simp] theorem State.setCore_reasm (c : Nat) (k : Core) : (s.setCore c k).reasm = s.reasm := rfl
@[simp] theorem State.setCore_sessions (c : Nat) (k : Core) : (s.setCore c k).sessions = s.sessions := rfl
@[simp] theorem State.setCore_plcActive (c : Nat) (k : Core) : (s.setCore c k).plcActive = s.plcActive := rfl
@[simp] theorem State.setCore_plcShadow (c : Nat) (k : Core) : (s.setCore c k).plcShadow = s.plcShadow := rfl
@[simp] theorem State.setCore_placed (c : Nat) (k : Core) : (s.setCore c k).placed = s.placed := rfl
@[simp] theorem State.setCore_models (c : Nat) (k : Core) : (s.setCore c k).models = s.models := rfl
@[simp] theorem State.setCore_commitNow (c : Nat) (k : Core) : (s.setCore c k).commitNow = s.commitNow := rfl
@[simp] theorem State.setCore_handOpen (c : Nat) (k : Core) : (s.setCore c k).handOpen = s.handOpen := rfl
@[simp] theorem State.setCore_pwq (c : Nat) (k : Core) : (s.setCore c k).pwq = s.pwq := rfl
@[simp] theorem State.setCore_queuedJobs (c : Nat) (k : Core) : (s.setCore c k).queuedJobs = s.queuedJobs := rfl
@[simp] theorem State.setCore_lastCommit (c : Nat) (k : Core) : (s.setCore c k).lastCommit = s.lastCommit := rfl
@[simp] theorem State.setCore_peerFree (c : Nat) (k : Core) : (s.setCore c k).peerFree = s.peerFree := rfl
@[simp] theorem State.setCore_peerDev (c : Nat) (k : Core) : (s.setCore c k).peerDev = s.peerDev := rfl
@[simp] theorem State.setCore_hbMissed (c : Nat) (k : Core) : (s.setCore c k).hbMissed = s.hbMissed := rfl
@[simp] theorem State.setCore_out (c : Nat) (k : Core) : (s.setCore c k).out = s.out := rfl
@[simp] theorem State.setCore_fops (c : Nat) (k : Core) : (s.setCore c k).fops = s.fops := rfl
@[simp] theorem State.setCore_waitr (c : Nat) (k : Core) : (s.setCore c k).waitr = s.waitr := rfl
@[simp] theorem State.setCore_links (c : Nat) (k : Core) : (s.setCore c k).links = s.links := rfl
@[simp] theorem State.setCore_fbars (c : Nat) (k : Core) : (s.setCore c k).fbars = s.fbars := rfl
@[simp] theorem State.setCore_aliveTx (c : Nat) (k : Core) : (s.setCore c k).aliveTx = s.aliveTx := rfl
@[simp] theorem State.setCore_aliveRx (c : Nat) (k : Core) : (s.setCore c k).aliveRx = s.aliveRx := rfl
@[simp] theorem State.setCore_aliveAt (c : Nat) (k : Core) : (s.setCore c k).aliveAt = s.aliveAt := rfl
@[simp] theorem State.setCore_broken (c : Nat) (k : Core) : (s.setCore c k).broken = s.broken := rfl
@[simp] theorem State.setCore_opid (c : Nat) (k : Core) : (s.setCore c k).opid = s.opid := rfl
@[simp] theorem State.setCore_timeGood (c : Nat) (k : Core) : (s.setCore c k).timeGood = s.timeGood := rfl
@[simp] theorem State.setCore_timeMissed (c : Nat) (k : Core) : (s.setCore c k).timeMissed = s.timeMissed := rfl
@[simp] theorem State.setCore_timeSet (c : Nat) (k : Core) : (s.setCore c k).timeSet = s.timeSet := rfl
@[simp] theorem State.setCore_keep (c : Nat) (k : Core) : (s.setCore c k).keep = s.keep := rfl
@[simp] theorem State.setCore_groupLines (c : Nat) (k : Core) : (s.setCore c k).groupLines = s.groupLines := rfl
@[simp] theorem State.setCore_ecc (c : Nat) (k : Core) : (s.setCore c k).ecc = s.ecc := rfl
@[simp] theorem State.setCore_repairs (c : Nat) (k : Core) : (s.setCore c k).repairs = s.repairs := rfl
@[simp] theorem State.setCore_keysets (c : Nat) (k : Core) : (s.setCore c k).keysets = s.keysets := rfl
@[simp] theorem State.setCore_groups (c : Nat) (k : Core) : (s.setCore c k).groups = s.groups := rfl
@[simp] theorem State.setCore_ts (c : Nat) (k : Core) : (s.setCore c k).ts = s.ts := rfl
@[simp] theorem State.setCore_hub (c : Nat) (k : Core) : (s.setCore c k).hub = s.hub := rfl
@[simp] theorem State.setCore_resp (c : Nat) (k : Core) : (s.setCore c k).resp = s.resp := rfl
@[simp] theorem State.setCore_enec (c : Nat) (k : Core) : (s.setCore c k).enec = s.enec := rfl
@[simp] theorem State.setCore_snapAt (c : Nat) (k : Core) : (s.setCore c k).snapAt = s.snapAt := rfl
@[simp] theorem State.setCore_noDispatch (c : Nat) (k : Core) : (s.setCore c k).noDispatch = s.noDispatch := rfl
@[simp] theorem State.setCore_based (c : Nat) (k : Core) : (s.setCore c k).based = s.based := rfl
@[simp] theorem State.setCore_progLen (c : Nat) (k : Core) : (s.setCore c k).progLen = s.progLen := rfl
@[simp] theorem State.setCore_decAt (c : Nat) (k : Core) : (s.setCore c k).decAt = s.decAt := rfl
@[simp] theorem State.setCore_causes (c : Nat) (k : Core) : (s.setCore c k).causes = s.causes := rfl
@[simp] theorem State.setCore_init (c : Nat) (k : Core) : (s.setCore c k).init = s.init := rfl
@[simp] theorem State.setCore_assay (c : Nat) (k : Core) : (s.setCore c k).assay = s.assay := rfl
@[simp] theorem State.setCore_pwStage (c : Nat) (k : Core) : (s.setCore c k).pwStage = s.pwStage := rfl
@[simp] theorem State.setCore_pwJobs (c : Nat) (k : Core) : (s.setCore c k).pwJobs = s.pwJobs := rfl
@[simp] theorem State.setCore_pwLeaving (c : Nat) (k : Core) : (s.setCore c k).pwLeaving = s.pwLeaving := rfl
@[simp] theorem State.setCore_tap (c : Nat) (k : Core) : (s.setCore c k).tap = s.tap := rfl
@[simp] theorem State.setCore_peen (c : Nat) (k : Core) : (s.setCore c k).peen = s.peen := rfl
@[simp] theorem State.setCore_cvStage (c : Nat) (k : Core) : (s.setCore c k).cvStage = s.cvStage := rfl
@[simp] theorem State.setCore_custody (c : Nat) (k : Core) : (s.setCore c k).custody = s.custody := rfl
@[simp] theorem State.setCore_marginLow (c : Nat) (k : Core) : (s.setCore c k).marginLow = s.marginLow := rfl
@[simp] theorem State.setCore_regSt (c : Nat) (k : Core) : (s.setCore c k).regSt = s.regSt := rfl
@[simp] theorem State.setCore_timeFrac (c : Nat) (k : Core) : (s.setCore c k).timeFrac = s.timeFrac := rfl
@[simp] theorem State.setCore_timeRate (c : Nat) (k : Core) : (s.setCore c k).timeRate = s.timeRate := rfl
@[simp] theorem State.setCore_closed (c : Nat) (k : Core) : (s.setCore c k).closed = s.closed := rfl
@[simp] theorem State.setCore_plcBad (c : Nat) (k : Core) : (s.setCore c k).plcBad = s.plcBad := rfl
@[simp] theorem State.setCore_hubRx (c : Nat) (k : Core) : (s.setCore c k).hubRx = s.hubRx := rfl
@[simp] theorem State.setCore_shelfPort (c : Nat) (k : Core) : (s.setCore c k).shelfPort = s.shelfPort := rfl
@[simp] theorem State.setCore_linkBad (c : Nat) (k : Core) : (s.setCore c k).linkBad = s.linkBad := rfl

@[simp] theorem State.setBar_pending (b : Nat) (v : Bar) : (s.setBar b v).pending = s.pending := rfl
@[simp] theorem State.setBar_time (b : Nat) (v : Bar) : (s.setBar b v).time = s.time := rfl
@[simp] theorem State.setBar_free (b : Nat) (v : Bar) : (s.setBar b v).free = s.free := rfl
@[simp] theorem State.setBar_mem (b : Nat) (v : Bar) : (s.setBar b v).mem = s.mem := rfl
@[simp] theorem State.setBar_regs (b : Nat) (v : Bar) : (s.setBar b v).regs = s.regs := rfl
@[simp] theorem State.setBar_held (b : Nat) (v : Bar) : (s.setBar b v).held = s.held := rfl
@[simp] theorem State.setBar_cores (b : Nat) (v : Bar) : (s.setBar b v).cores = s.cores := rfl
@[simp] theorem State.setBar_ctrs (b : Nat) (v : Bar) : (s.setBar b v).ctrs = s.ctrs := rfl
@[simp] theorem State.setBar_sigs (b : Nat) (v : Bar) : (s.setBar b v).sigs = s.sigs := rfl
@[simp] theorem State.setBar_waitw (b : Nat) (v : Bar) : (s.setBar b v).waitw = s.waitw := rfl
@[simp] theorem State.setBar_badpar (b : Nat) (v : Bar) : (s.setBar b v).badpar = s.badpar := rfl
@[simp] theorem State.setBar_router (b : Nat) (v : Bar) : (s.setBar b v).router = s.router := rfl
@[simp] theorem State.setBar_tables (b : Nat) (v : Bar) : (s.setBar b v).tables = s.tables := rfl
@[simp] theorem State.setBar_profs (b : Nat) (v : Bar) : (s.setBar b v).profs = s.profs := rfl
@[simp] theorem State.setBar_assign (b : Nat) (v : Bar) : (s.setBar b v).assign = s.assign := rfl
@[simp] theorem State.setBar_journal (b : Nat) (v : Bar) : (s.setBar b v).journal = s.journal := rfl
@[simp] theorem State.setBar_reasm (b : Nat) (v : Bar) : (s.setBar b v).reasm = s.reasm := rfl
@[simp] theorem State.setBar_sessions (b : Nat) (v : Bar) : (s.setBar b v).sessions = s.sessions := rfl
@[simp] theorem State.setBar_plcActive (b : Nat) (v : Bar) : (s.setBar b v).plcActive = s.plcActive := rfl
@[simp] theorem State.setBar_plcShadow (b : Nat) (v : Bar) : (s.setBar b v).plcShadow = s.plcShadow := rfl
@[simp] theorem State.setBar_placed (b : Nat) (v : Bar) : (s.setBar b v).placed = s.placed := rfl
@[simp] theorem State.setBar_models (b : Nat) (v : Bar) : (s.setBar b v).models = s.models := rfl
@[simp] theorem State.setBar_commitNow (b : Nat) (v : Bar) : (s.setBar b v).commitNow = s.commitNow := rfl
@[simp] theorem State.setBar_handOpen (b : Nat) (v : Bar) : (s.setBar b v).handOpen = s.handOpen := rfl
@[simp] theorem State.setBar_pwq (b : Nat) (v : Bar) : (s.setBar b v).pwq = s.pwq := rfl
@[simp] theorem State.setBar_queuedJobs (b : Nat) (v : Bar) : (s.setBar b v).queuedJobs = s.queuedJobs := rfl
@[simp] theorem State.setBar_lastCommit (b : Nat) (v : Bar) : (s.setBar b v).lastCommit = s.lastCommit := rfl
@[simp] theorem State.setBar_peerFree (b : Nat) (v : Bar) : (s.setBar b v).peerFree = s.peerFree := rfl
@[simp] theorem State.setBar_peerDev (b : Nat) (v : Bar) : (s.setBar b v).peerDev = s.peerDev := rfl
@[simp] theorem State.setBar_hbMissed (b : Nat) (v : Bar) : (s.setBar b v).hbMissed = s.hbMissed := rfl
@[simp] theorem State.setBar_out (b : Nat) (v : Bar) : (s.setBar b v).out = s.out := rfl
@[simp] theorem State.setBar_fops (b : Nat) (v : Bar) : (s.setBar b v).fops = s.fops := rfl
@[simp] theorem State.setBar_waitr (b : Nat) (v : Bar) : (s.setBar b v).waitr = s.waitr := rfl
@[simp] theorem State.setBar_links (b : Nat) (v : Bar) : (s.setBar b v).links = s.links := rfl
@[simp] theorem State.setBar_fbars (b : Nat) (v : Bar) : (s.setBar b v).fbars = s.fbars := rfl
@[simp] theorem State.setBar_aliveTx (b : Nat) (v : Bar) : (s.setBar b v).aliveTx = s.aliveTx := rfl
@[simp] theorem State.setBar_aliveRx (b : Nat) (v : Bar) : (s.setBar b v).aliveRx = s.aliveRx := rfl
@[simp] theorem State.setBar_aliveAt (b : Nat) (v : Bar) : (s.setBar b v).aliveAt = s.aliveAt := rfl
@[simp] theorem State.setBar_broken (b : Nat) (v : Bar) : (s.setBar b v).broken = s.broken := rfl
@[simp] theorem State.setBar_opid (b : Nat) (v : Bar) : (s.setBar b v).opid = s.opid := rfl
@[simp] theorem State.setBar_timeGood (b : Nat) (v : Bar) : (s.setBar b v).timeGood = s.timeGood := rfl
@[simp] theorem State.setBar_timeMissed (b : Nat) (v : Bar) : (s.setBar b v).timeMissed = s.timeMissed := rfl
@[simp] theorem State.setBar_timeSet (b : Nat) (v : Bar) : (s.setBar b v).timeSet = s.timeSet := rfl
@[simp] theorem State.setBar_keep (b : Nat) (v : Bar) : (s.setBar b v).keep = s.keep := rfl
@[simp] theorem State.setBar_groupLines (b : Nat) (v : Bar) : (s.setBar b v).groupLines = s.groupLines := rfl
@[simp] theorem State.setBar_ecc (b : Nat) (v : Bar) : (s.setBar b v).ecc = s.ecc := rfl
@[simp] theorem State.setBar_repairs (b : Nat) (v : Bar) : (s.setBar b v).repairs = s.repairs := rfl
@[simp] theorem State.setBar_keysets (b : Nat) (v : Bar) : (s.setBar b v).keysets = s.keysets := rfl
@[simp] theorem State.setBar_groups (b : Nat) (v : Bar) : (s.setBar b v).groups = s.groups := rfl
@[simp] theorem State.setBar_ts (b : Nat) (v : Bar) : (s.setBar b v).ts = s.ts := rfl
@[simp] theorem State.setBar_hub (b : Nat) (v : Bar) : (s.setBar b v).hub = s.hub := rfl
@[simp] theorem State.setBar_resp (b : Nat) (v : Bar) : (s.setBar b v).resp = s.resp := rfl
@[simp] theorem State.setBar_enec (b : Nat) (v : Bar) : (s.setBar b v).enec = s.enec := rfl
@[simp] theorem State.setBar_snapAt (b : Nat) (v : Bar) : (s.setBar b v).snapAt = s.snapAt := rfl
@[simp] theorem State.setBar_noDispatch (b : Nat) (v : Bar) : (s.setBar b v).noDispatch = s.noDispatch := rfl
@[simp] theorem State.setBar_based (b : Nat) (v : Bar) : (s.setBar b v).based = s.based := rfl
@[simp] theorem State.setBar_progLen (b : Nat) (v : Bar) : (s.setBar b v).progLen = s.progLen := rfl
@[simp] theorem State.setBar_decAt (b : Nat) (v : Bar) : (s.setBar b v).decAt = s.decAt := rfl
@[simp] theorem State.setBar_causes (b : Nat) (v : Bar) : (s.setBar b v).causes = s.causes := rfl
@[simp] theorem State.setBar_init (b : Nat) (v : Bar) : (s.setBar b v).init = s.init := rfl
@[simp] theorem State.setBar_assay (b : Nat) (v : Bar) : (s.setBar b v).assay = s.assay := rfl
@[simp] theorem State.setBar_pwStage (b : Nat) (v : Bar) : (s.setBar b v).pwStage = s.pwStage := rfl
@[simp] theorem State.setBar_pwJobs (b : Nat) (v : Bar) : (s.setBar b v).pwJobs = s.pwJobs := rfl
@[simp] theorem State.setBar_pwLeaving (b : Nat) (v : Bar) : (s.setBar b v).pwLeaving = s.pwLeaving := rfl
@[simp] theorem State.setBar_tap (b : Nat) (v : Bar) : (s.setBar b v).tap = s.tap := rfl
@[simp] theorem State.setBar_peen (b : Nat) (v : Bar) : (s.setBar b v).peen = s.peen := rfl
@[simp] theorem State.setBar_cvStage (b : Nat) (v : Bar) : (s.setBar b v).cvStage = s.cvStage := rfl
@[simp] theorem State.setBar_custody (b : Nat) (v : Bar) : (s.setBar b v).custody = s.custody := rfl
@[simp] theorem State.setBar_marginLow (b : Nat) (v : Bar) : (s.setBar b v).marginLow = s.marginLow := rfl
@[simp] theorem State.setBar_regSt (b : Nat) (v : Bar) : (s.setBar b v).regSt = s.regSt := rfl
@[simp] theorem State.setBar_timeFrac (b : Nat) (v : Bar) : (s.setBar b v).timeFrac = s.timeFrac := rfl
@[simp] theorem State.setBar_timeRate (b : Nat) (v : Bar) : (s.setBar b v).timeRate = s.timeRate := rfl
@[simp] theorem State.setBar_closed (b : Nat) (v : Bar) : (s.setBar b v).closed = s.closed := rfl
@[simp] theorem State.setBar_plcBad (b : Nat) (v : Bar) : (s.setBar b v).plcBad = s.plcBad := rfl
@[simp] theorem State.setBar_hubRx (b : Nat) (v : Bar) : (s.setBar b v).hubRx = s.hubRx := rfl
@[simp] theorem State.setBar_shelfPort (b : Nat) (v : Bar) : (s.setBar b v).shelfPort = s.shelfPort := rfl
@[simp] theorem State.setBar_linkBad (b : Nat) (v : Bar) : (s.setBar b v).linkBad = s.linkBad := rfl

@[simp] theorem State.setCtr_pending (n : Nat) (v : Ctr) : (s.setCtr n v).pending = s.pending := rfl
@[simp] theorem State.setCtr_time (n : Nat) (v : Ctr) : (s.setCtr n v).time = s.time := rfl
@[simp] theorem State.setCtr_free (n : Nat) (v : Ctr) : (s.setCtr n v).free = s.free := rfl
@[simp] theorem State.setCtr_mem (n : Nat) (v : Ctr) : (s.setCtr n v).mem = s.mem := rfl
@[simp] theorem State.setCtr_regs (n : Nat) (v : Ctr) : (s.setCtr n v).regs = s.regs := rfl
@[simp] theorem State.setCtr_held (n : Nat) (v : Ctr) : (s.setCtr n v).held = s.held := rfl
@[simp] theorem State.setCtr_cores (n : Nat) (v : Ctr) : (s.setCtr n v).cores = s.cores := rfl
@[simp] theorem State.setCtr_bars (n : Nat) (v : Ctr) : (s.setCtr n v).bars = s.bars := rfl
@[simp] theorem State.setCtr_sigs (n : Nat) (v : Ctr) : (s.setCtr n v).sigs = s.sigs := rfl
@[simp] theorem State.setCtr_waitw (n : Nat) (v : Ctr) : (s.setCtr n v).waitw = s.waitw := rfl
@[simp] theorem State.setCtr_badpar (n : Nat) (v : Ctr) : (s.setCtr n v).badpar = s.badpar := rfl
@[simp] theorem State.setCtr_router (n : Nat) (v : Ctr) : (s.setCtr n v).router = s.router := rfl
@[simp] theorem State.setCtr_tables (n : Nat) (v : Ctr) : (s.setCtr n v).tables = s.tables := rfl
@[simp] theorem State.setCtr_profs (n : Nat) (v : Ctr) : (s.setCtr n v).profs = s.profs := rfl
@[simp] theorem State.setCtr_assign (n : Nat) (v : Ctr) : (s.setCtr n v).assign = s.assign := rfl
@[simp] theorem State.setCtr_journal (n : Nat) (v : Ctr) : (s.setCtr n v).journal = s.journal := rfl
@[simp] theorem State.setCtr_reasm (n : Nat) (v : Ctr) : (s.setCtr n v).reasm = s.reasm := rfl
@[simp] theorem State.setCtr_sessions (n : Nat) (v : Ctr) : (s.setCtr n v).sessions = s.sessions := rfl
@[simp] theorem State.setCtr_plcActive (n : Nat) (v : Ctr) : (s.setCtr n v).plcActive = s.plcActive := rfl
@[simp] theorem State.setCtr_plcShadow (n : Nat) (v : Ctr) : (s.setCtr n v).plcShadow = s.plcShadow := rfl
@[simp] theorem State.setCtr_placed (n : Nat) (v : Ctr) : (s.setCtr n v).placed = s.placed := rfl
@[simp] theorem State.setCtr_models (n : Nat) (v : Ctr) : (s.setCtr n v).models = s.models := rfl
@[simp] theorem State.setCtr_commitNow (n : Nat) (v : Ctr) : (s.setCtr n v).commitNow = s.commitNow := rfl
@[simp] theorem State.setCtr_handOpen (n : Nat) (v : Ctr) : (s.setCtr n v).handOpen = s.handOpen := rfl
@[simp] theorem State.setCtr_pwq (n : Nat) (v : Ctr) : (s.setCtr n v).pwq = s.pwq := rfl
@[simp] theorem State.setCtr_queuedJobs (n : Nat) (v : Ctr) : (s.setCtr n v).queuedJobs = s.queuedJobs := rfl
@[simp] theorem State.setCtr_lastCommit (n : Nat) (v : Ctr) : (s.setCtr n v).lastCommit = s.lastCommit := rfl
@[simp] theorem State.setCtr_peerFree (n : Nat) (v : Ctr) : (s.setCtr n v).peerFree = s.peerFree := rfl
@[simp] theorem State.setCtr_peerDev (n : Nat) (v : Ctr) : (s.setCtr n v).peerDev = s.peerDev := rfl
@[simp] theorem State.setCtr_hbMissed (n : Nat) (v : Ctr) : (s.setCtr n v).hbMissed = s.hbMissed := rfl
@[simp] theorem State.setCtr_out (n : Nat) (v : Ctr) : (s.setCtr n v).out = s.out := rfl
@[simp] theorem State.setCtr_fops (n : Nat) (v : Ctr) : (s.setCtr n v).fops = s.fops := rfl
@[simp] theorem State.setCtr_waitr (n : Nat) (v : Ctr) : (s.setCtr n v).waitr = s.waitr := rfl
@[simp] theorem State.setCtr_links (n : Nat) (v : Ctr) : (s.setCtr n v).links = s.links := rfl
@[simp] theorem State.setCtr_fbars (n : Nat) (v : Ctr) : (s.setCtr n v).fbars = s.fbars := rfl
@[simp] theorem State.setCtr_aliveTx (n : Nat) (v : Ctr) : (s.setCtr n v).aliveTx = s.aliveTx := rfl
@[simp] theorem State.setCtr_aliveRx (n : Nat) (v : Ctr) : (s.setCtr n v).aliveRx = s.aliveRx := rfl
@[simp] theorem State.setCtr_aliveAt (n : Nat) (v : Ctr) : (s.setCtr n v).aliveAt = s.aliveAt := rfl
@[simp] theorem State.setCtr_broken (n : Nat) (v : Ctr) : (s.setCtr n v).broken = s.broken := rfl
@[simp] theorem State.setCtr_opid (n : Nat) (v : Ctr) : (s.setCtr n v).opid = s.opid := rfl
@[simp] theorem State.setCtr_timeGood (n : Nat) (v : Ctr) : (s.setCtr n v).timeGood = s.timeGood := rfl
@[simp] theorem State.setCtr_timeMissed (n : Nat) (v : Ctr) : (s.setCtr n v).timeMissed = s.timeMissed := rfl
@[simp] theorem State.setCtr_timeSet (n : Nat) (v : Ctr) : (s.setCtr n v).timeSet = s.timeSet := rfl
@[simp] theorem State.setCtr_keep (n : Nat) (v : Ctr) : (s.setCtr n v).keep = s.keep := rfl
@[simp] theorem State.setCtr_groupLines (n : Nat) (v : Ctr) : (s.setCtr n v).groupLines = s.groupLines := rfl
@[simp] theorem State.setCtr_ecc (n : Nat) (v : Ctr) : (s.setCtr n v).ecc = s.ecc := rfl
@[simp] theorem State.setCtr_repairs (n : Nat) (v : Ctr) : (s.setCtr n v).repairs = s.repairs := rfl
@[simp] theorem State.setCtr_keysets (n : Nat) (v : Ctr) : (s.setCtr n v).keysets = s.keysets := rfl
@[simp] theorem State.setCtr_groups (n : Nat) (v : Ctr) : (s.setCtr n v).groups = s.groups := rfl
@[simp] theorem State.setCtr_ts (n : Nat) (v : Ctr) : (s.setCtr n v).ts = s.ts := rfl
@[simp] theorem State.setCtr_hub (n : Nat) (v : Ctr) : (s.setCtr n v).hub = s.hub := rfl
@[simp] theorem State.setCtr_resp (n : Nat) (v : Ctr) : (s.setCtr n v).resp = s.resp := rfl
@[simp] theorem State.setCtr_enec (n : Nat) (v : Ctr) : (s.setCtr n v).enec = s.enec := rfl
@[simp] theorem State.setCtr_snapAt (n : Nat) (v : Ctr) : (s.setCtr n v).snapAt = s.snapAt := rfl
@[simp] theorem State.setCtr_noDispatch (n : Nat) (v : Ctr) : (s.setCtr n v).noDispatch = s.noDispatch := rfl
@[simp] theorem State.setCtr_based (n : Nat) (v : Ctr) : (s.setCtr n v).based = s.based := rfl
@[simp] theorem State.setCtr_progLen (n : Nat) (v : Ctr) : (s.setCtr n v).progLen = s.progLen := rfl
@[simp] theorem State.setCtr_decAt (n : Nat) (v : Ctr) : (s.setCtr n v).decAt = s.decAt := rfl
@[simp] theorem State.setCtr_causes (n : Nat) (v : Ctr) : (s.setCtr n v).causes = s.causes := rfl
@[simp] theorem State.setCtr_init (n : Nat) (v : Ctr) : (s.setCtr n v).init = s.init := rfl
@[simp] theorem State.setCtr_assay (n : Nat) (v : Ctr) : (s.setCtr n v).assay = s.assay := rfl
@[simp] theorem State.setCtr_pwStage (n : Nat) (v : Ctr) : (s.setCtr n v).pwStage = s.pwStage := rfl
@[simp] theorem State.setCtr_pwJobs (n : Nat) (v : Ctr) : (s.setCtr n v).pwJobs = s.pwJobs := rfl
@[simp] theorem State.setCtr_pwLeaving (n : Nat) (v : Ctr) : (s.setCtr n v).pwLeaving = s.pwLeaving := rfl
@[simp] theorem State.setCtr_tap (n : Nat) (v : Ctr) : (s.setCtr n v).tap = s.tap := rfl
@[simp] theorem State.setCtr_peen (n : Nat) (v : Ctr) : (s.setCtr n v).peen = s.peen := rfl
@[simp] theorem State.setCtr_cvStage (n : Nat) (v : Ctr) : (s.setCtr n v).cvStage = s.cvStage := rfl
@[simp] theorem State.setCtr_custody (n : Nat) (v : Ctr) : (s.setCtr n v).custody = s.custody := rfl
@[simp] theorem State.setCtr_marginLow (n : Nat) (v : Ctr) : (s.setCtr n v).marginLow = s.marginLow := rfl
@[simp] theorem State.setCtr_regSt (n : Nat) (v : Ctr) : (s.setCtr n v).regSt = s.regSt := rfl
@[simp] theorem State.setCtr_timeFrac (n : Nat) (v : Ctr) : (s.setCtr n v).timeFrac = s.timeFrac := rfl
@[simp] theorem State.setCtr_timeRate (n : Nat) (v : Ctr) : (s.setCtr n v).timeRate = s.timeRate := rfl
@[simp] theorem State.setCtr_closed (n : Nat) (v : Ctr) : (s.setCtr n v).closed = s.closed := rfl
@[simp] theorem State.setCtr_plcBad (n : Nat) (v : Ctr) : (s.setCtr n v).plcBad = s.plcBad := rfl
@[simp] theorem State.setCtr_hubRx (n : Nat) (v : Ctr) : (s.setCtr n v).hubRx = s.hubRx := rfl
@[simp] theorem State.setCtr_shelfPort (n : Nat) (v : Ctr) : (s.setCtr n v).shelfPort = s.shelfPort := rfl
@[simp] theorem State.setCtr_linkBad (n : Nat) (v : Ctr) : (s.setCtr n v).linkBad = s.linkBad := rfl

@[simp] theorem State.setRegK_pending (k : RegKey) (v : W32) : (s.setRegK k v).pending = s.pending := rfl
@[simp] theorem State.setRegK_time (k : RegKey) (v : W32) : (s.setRegK k v).time = s.time := rfl
@[simp] theorem State.setRegK_free (k : RegKey) (v : W32) : (s.setRegK k v).free = s.free := rfl
@[simp] theorem State.setRegK_mem (k : RegKey) (v : W32) : (s.setRegK k v).mem = s.mem := rfl
@[simp] theorem State.setRegK_held (k : RegKey) (v : W32) : (s.setRegK k v).held = s.held := rfl
@[simp] theorem State.setRegK_cores (k : RegKey) (v : W32) : (s.setRegK k v).cores = s.cores := rfl
@[simp] theorem State.setRegK_bars (k : RegKey) (v : W32) : (s.setRegK k v).bars = s.bars := rfl
@[simp] theorem State.setRegK_ctrs (k : RegKey) (v : W32) : (s.setRegK k v).ctrs = s.ctrs := rfl
@[simp] theorem State.setRegK_sigs (k : RegKey) (v : W32) : (s.setRegK k v).sigs = s.sigs := rfl
@[simp] theorem State.setRegK_waitw (k : RegKey) (v : W32) : (s.setRegK k v).waitw = s.waitw := rfl
@[simp] theorem State.setRegK_badpar (k : RegKey) (v : W32) : (s.setRegK k v).badpar = s.badpar := rfl
@[simp] theorem State.setRegK_router (k : RegKey) (v : W32) : (s.setRegK k v).router = s.router := rfl
@[simp] theorem State.setRegK_tables (k : RegKey) (v : W32) : (s.setRegK k v).tables = s.tables := rfl
@[simp] theorem State.setRegK_profs (k : RegKey) (v : W32) : (s.setRegK k v).profs = s.profs := rfl
@[simp] theorem State.setRegK_assign (k : RegKey) (v : W32) : (s.setRegK k v).assign = s.assign := rfl
@[simp] theorem State.setRegK_journal (k : RegKey) (v : W32) : (s.setRegK k v).journal = s.journal := rfl
@[simp] theorem State.setRegK_reasm (k : RegKey) (v : W32) : (s.setRegK k v).reasm = s.reasm := rfl
@[simp] theorem State.setRegK_sessions (k : RegKey) (v : W32) : (s.setRegK k v).sessions = s.sessions := rfl
@[simp] theorem State.setRegK_plcActive (k : RegKey) (v : W32) : (s.setRegK k v).plcActive = s.plcActive := rfl
@[simp] theorem State.setRegK_plcShadow (k : RegKey) (v : W32) : (s.setRegK k v).plcShadow = s.plcShadow := rfl
@[simp] theorem State.setRegK_placed (k : RegKey) (v : W32) : (s.setRegK k v).placed = s.placed := rfl
@[simp] theorem State.setRegK_models (k : RegKey) (v : W32) : (s.setRegK k v).models = s.models := rfl
@[simp] theorem State.setRegK_commitNow (k : RegKey) (v : W32) : (s.setRegK k v).commitNow = s.commitNow := rfl
@[simp] theorem State.setRegK_handOpen (k : RegKey) (v : W32) : (s.setRegK k v).handOpen = s.handOpen := rfl
@[simp] theorem State.setRegK_pwq (k : RegKey) (v : W32) : (s.setRegK k v).pwq = s.pwq := rfl
@[simp] theorem State.setRegK_queuedJobs (k : RegKey) (v : W32) : (s.setRegK k v).queuedJobs = s.queuedJobs := rfl
@[simp] theorem State.setRegK_lastCommit (k : RegKey) (v : W32) : (s.setRegK k v).lastCommit = s.lastCommit := rfl
@[simp] theorem State.setRegK_peerFree (k : RegKey) (v : W32) : (s.setRegK k v).peerFree = s.peerFree := rfl
@[simp] theorem State.setRegK_peerDev (k : RegKey) (v : W32) : (s.setRegK k v).peerDev = s.peerDev := rfl
@[simp] theorem State.setRegK_hbMissed (k : RegKey) (v : W32) : (s.setRegK k v).hbMissed = s.hbMissed := rfl
@[simp] theorem State.setRegK_out (k : RegKey) (v : W32) : (s.setRegK k v).out = s.out := rfl
@[simp] theorem State.setRegK_fops (k : RegKey) (v : W32) : (s.setRegK k v).fops = s.fops := rfl
@[simp] theorem State.setRegK_waitr (k : RegKey) (v : W32) : (s.setRegK k v).waitr = s.waitr := rfl
@[simp] theorem State.setRegK_links (k : RegKey) (v : W32) : (s.setRegK k v).links = s.links := rfl
@[simp] theorem State.setRegK_fbars (k : RegKey) (v : W32) : (s.setRegK k v).fbars = s.fbars := rfl
@[simp] theorem State.setRegK_aliveTx (k : RegKey) (v : W32) : (s.setRegK k v).aliveTx = s.aliveTx := rfl
@[simp] theorem State.setRegK_aliveRx (k : RegKey) (v : W32) : (s.setRegK k v).aliveRx = s.aliveRx := rfl
@[simp] theorem State.setRegK_aliveAt (k : RegKey) (v : W32) : (s.setRegK k v).aliveAt = s.aliveAt := rfl
@[simp] theorem State.setRegK_broken (k : RegKey) (v : W32) : (s.setRegK k v).broken = s.broken := rfl
@[simp] theorem State.setRegK_opid (k : RegKey) (v : W32) : (s.setRegK k v).opid = s.opid := rfl
@[simp] theorem State.setRegK_timeGood (k : RegKey) (v : W32) : (s.setRegK k v).timeGood = s.timeGood := rfl
@[simp] theorem State.setRegK_timeMissed (k : RegKey) (v : W32) : (s.setRegK k v).timeMissed = s.timeMissed := rfl
@[simp] theorem State.setRegK_timeSet (k : RegKey) (v : W32) : (s.setRegK k v).timeSet = s.timeSet := rfl
@[simp] theorem State.setRegK_keep (k : RegKey) (v : W32) : (s.setRegK k v).keep = s.keep := rfl
@[simp] theorem State.setRegK_groupLines (k : RegKey) (v : W32) : (s.setRegK k v).groupLines = s.groupLines := rfl
@[simp] theorem State.setRegK_ecc (k : RegKey) (v : W32) : (s.setRegK k v).ecc = s.ecc := rfl
@[simp] theorem State.setRegK_repairs (k : RegKey) (v : W32) : (s.setRegK k v).repairs = s.repairs := rfl
@[simp] theorem State.setRegK_keysets (k : RegKey) (v : W32) : (s.setRegK k v).keysets = s.keysets := rfl
@[simp] theorem State.setRegK_groups (k : RegKey) (v : W32) : (s.setRegK k v).groups = s.groups := rfl
@[simp] theorem State.setRegK_ts (k : RegKey) (v : W32) : (s.setRegK k v).ts = s.ts := rfl
@[simp] theorem State.setRegK_hub (k : RegKey) (v : W32) : (s.setRegK k v).hub = s.hub := rfl
@[simp] theorem State.setRegK_resp (k : RegKey) (v : W32) : (s.setRegK k v).resp = s.resp := rfl
@[simp] theorem State.setRegK_enec (k : RegKey) (v : W32) : (s.setRegK k v).enec = s.enec := rfl
@[simp] theorem State.setRegK_snapAt (k : RegKey) (v : W32) : (s.setRegK k v).snapAt = s.snapAt := rfl
@[simp] theorem State.setRegK_noDispatch (k : RegKey) (v : W32) : (s.setRegK k v).noDispatch = s.noDispatch := rfl
@[simp] theorem State.setRegK_based (k : RegKey) (v : W32) : (s.setRegK k v).based = s.based := rfl
@[simp] theorem State.setRegK_progLen (k : RegKey) (v : W32) : (s.setRegK k v).progLen = s.progLen := rfl
@[simp] theorem State.setRegK_decAt (k : RegKey) (v : W32) : (s.setRegK k v).decAt = s.decAt := rfl
@[simp] theorem State.setRegK_causes (k : RegKey) (v : W32) : (s.setRegK k v).causes = s.causes := rfl
@[simp] theorem State.setRegK_init (k : RegKey) (v : W32) : (s.setRegK k v).init = s.init := rfl
@[simp] theorem State.setRegK_assay (k : RegKey) (v : W32) : (s.setRegK k v).assay = s.assay := rfl
@[simp] theorem State.setRegK_pwStage (k : RegKey) (v : W32) : (s.setRegK k v).pwStage = s.pwStage := rfl
@[simp] theorem State.setRegK_pwJobs (k : RegKey) (v : W32) : (s.setRegK k v).pwJobs = s.pwJobs := rfl
@[simp] theorem State.setRegK_pwLeaving (k : RegKey) (v : W32) : (s.setRegK k v).pwLeaving = s.pwLeaving := rfl
@[simp] theorem State.setRegK_tap (k : RegKey) (v : W32) : (s.setRegK k v).tap = s.tap := rfl
@[simp] theorem State.setRegK_peen (k : RegKey) (v : W32) : (s.setRegK k v).peen = s.peen := rfl
@[simp] theorem State.setRegK_cvStage (k : RegKey) (v : W32) : (s.setRegK k v).cvStage = s.cvStage := rfl
@[simp] theorem State.setRegK_custody (k : RegKey) (v : W32) : (s.setRegK k v).custody = s.custody := rfl
@[simp] theorem State.setRegK_marginLow (k : RegKey) (v : W32) : (s.setRegK k v).marginLow = s.marginLow := rfl
@[simp] theorem State.setRegK_regSt (k : RegKey) (v : W32) : (s.setRegK k v).regSt = s.regSt := rfl
@[simp] theorem State.setRegK_timeFrac (k : RegKey) (v : W32) : (s.setRegK k v).timeFrac = s.timeFrac := rfl
@[simp] theorem State.setRegK_timeRate (k : RegKey) (v : W32) : (s.setRegK k v).timeRate = s.timeRate := rfl
@[simp] theorem State.setRegK_closed (k : RegKey) (v : W32) : (s.setRegK k v).closed = s.closed := rfl
@[simp] theorem State.setRegK_plcBad (k : RegKey) (v : W32) : (s.setRegK k v).plcBad = s.plcBad := rfl
@[simp] theorem State.setRegK_hubRx (k : RegKey) (v : W32) : (s.setRegK k v).hubRx = s.hubRx := rfl
@[simp] theorem State.setRegK_shelfPort (k : RegKey) (v : W32) : (s.setRegK k v).shelfPort = s.shelfPort := rfl
@[simp] theorem State.setRegK_linkBad (k : RegKey) (v : W32) : (s.setRegK k v).linkBad = s.linkBad := rfl

@[simp] theorem State.writeByte_pending (a : Nat) (v : Byte) : (s.writeByte a v).pending = s.pending := rfl
@[simp] theorem State.writeByte_time (a : Nat) (v : Byte) : (s.writeByte a v).time = s.time := rfl
@[simp] theorem State.writeByte_free (a : Nat) (v : Byte) : (s.writeByte a v).free = s.free := rfl
@[simp] theorem State.writeByte_regs (a : Nat) (v : Byte) : (s.writeByte a v).regs = s.regs := rfl
@[simp] theorem State.writeByte_held (a : Nat) (v : Byte) : (s.writeByte a v).held = s.held := rfl
@[simp] theorem State.writeByte_cores (a : Nat) (v : Byte) : (s.writeByte a v).cores = s.cores := rfl
@[simp] theorem State.writeByte_bars (a : Nat) (v : Byte) : (s.writeByte a v).bars = s.bars := rfl
@[simp] theorem State.writeByte_ctrs (a : Nat) (v : Byte) : (s.writeByte a v).ctrs = s.ctrs := rfl
@[simp] theorem State.writeByte_sigs (a : Nat) (v : Byte) : (s.writeByte a v).sigs = s.sigs := rfl
@[simp] theorem State.writeByte_waitw (a : Nat) (v : Byte) : (s.writeByte a v).waitw = s.waitw := rfl
@[simp] theorem State.writeByte_badpar (a : Nat) (v : Byte) : (s.writeByte a v).badpar = s.badpar := rfl
@[simp] theorem State.writeByte_router (a : Nat) (v : Byte) : (s.writeByte a v).router = s.router := rfl
@[simp] theorem State.writeByte_tables (a : Nat) (v : Byte) : (s.writeByte a v).tables = s.tables := rfl
@[simp] theorem State.writeByte_profs (a : Nat) (v : Byte) : (s.writeByte a v).profs = s.profs := rfl
@[simp] theorem State.writeByte_assign (a : Nat) (v : Byte) : (s.writeByte a v).assign = s.assign := rfl
@[simp] theorem State.writeByte_journal (a : Nat) (v : Byte) : (s.writeByte a v).journal = s.journal := rfl
@[simp] theorem State.writeByte_reasm (a : Nat) (v : Byte) : (s.writeByte a v).reasm = s.reasm := rfl
@[simp] theorem State.writeByte_sessions (a : Nat) (v : Byte) : (s.writeByte a v).sessions = s.sessions := rfl
@[simp] theorem State.writeByte_plcActive (a : Nat) (v : Byte) : (s.writeByte a v).plcActive = s.plcActive := rfl
@[simp] theorem State.writeByte_plcShadow (a : Nat) (v : Byte) : (s.writeByte a v).plcShadow = s.plcShadow := rfl
@[simp] theorem State.writeByte_placed (a : Nat) (v : Byte) : (s.writeByte a v).placed = s.placed := rfl
@[simp] theorem State.writeByte_models (a : Nat) (v : Byte) : (s.writeByte a v).models = s.models := rfl
@[simp] theorem State.writeByte_commitNow (a : Nat) (v : Byte) : (s.writeByte a v).commitNow = s.commitNow := rfl
@[simp] theorem State.writeByte_handOpen (a : Nat) (v : Byte) : (s.writeByte a v).handOpen = s.handOpen := rfl
@[simp] theorem State.writeByte_pwq (a : Nat) (v : Byte) : (s.writeByte a v).pwq = s.pwq := rfl
@[simp] theorem State.writeByte_queuedJobs (a : Nat) (v : Byte) : (s.writeByte a v).queuedJobs = s.queuedJobs := rfl
@[simp] theorem State.writeByte_lastCommit (a : Nat) (v : Byte) : (s.writeByte a v).lastCommit = s.lastCommit := rfl
@[simp] theorem State.writeByte_peerFree (a : Nat) (v : Byte) : (s.writeByte a v).peerFree = s.peerFree := rfl
@[simp] theorem State.writeByte_peerDev (a : Nat) (v : Byte) : (s.writeByte a v).peerDev = s.peerDev := rfl
@[simp] theorem State.writeByte_hbMissed (a : Nat) (v : Byte) : (s.writeByte a v).hbMissed = s.hbMissed := rfl
@[simp] theorem State.writeByte_out (a : Nat) (v : Byte) : (s.writeByte a v).out = s.out := rfl
@[simp] theorem State.writeByte_fops (a : Nat) (v : Byte) : (s.writeByte a v).fops = s.fops := rfl
@[simp] theorem State.writeByte_waitr (a : Nat) (v : Byte) : (s.writeByte a v).waitr = s.waitr := rfl
@[simp] theorem State.writeByte_links (a : Nat) (v : Byte) : (s.writeByte a v).links = s.links := rfl
@[simp] theorem State.writeByte_fbars (a : Nat) (v : Byte) : (s.writeByte a v).fbars = s.fbars := rfl
@[simp] theorem State.writeByte_aliveTx (a : Nat) (v : Byte) : (s.writeByte a v).aliveTx = s.aliveTx := rfl
@[simp] theorem State.writeByte_aliveRx (a : Nat) (v : Byte) : (s.writeByte a v).aliveRx = s.aliveRx := rfl
@[simp] theorem State.writeByte_aliveAt (a : Nat) (v : Byte) : (s.writeByte a v).aliveAt = s.aliveAt := rfl
@[simp] theorem State.writeByte_broken (a : Nat) (v : Byte) : (s.writeByte a v).broken = s.broken := rfl
@[simp] theorem State.writeByte_opid (a : Nat) (v : Byte) : (s.writeByte a v).opid = s.opid := rfl
@[simp] theorem State.writeByte_timeGood (a : Nat) (v : Byte) : (s.writeByte a v).timeGood = s.timeGood := rfl
@[simp] theorem State.writeByte_timeMissed (a : Nat) (v : Byte) : (s.writeByte a v).timeMissed = s.timeMissed := rfl
@[simp] theorem State.writeByte_timeSet (a : Nat) (v : Byte) : (s.writeByte a v).timeSet = s.timeSet := rfl
@[simp] theorem State.writeByte_keep (a : Nat) (v : Byte) : (s.writeByte a v).keep = s.keep := rfl
@[simp] theorem State.writeByte_groupLines (a : Nat) (v : Byte) : (s.writeByte a v).groupLines = s.groupLines := rfl
@[simp] theorem State.writeByte_ecc (a : Nat) (v : Byte) : (s.writeByte a v).ecc = s.ecc := rfl
@[simp] theorem State.writeByte_repairs (a : Nat) (v : Byte) : (s.writeByte a v).repairs = s.repairs := rfl
@[simp] theorem State.writeByte_keysets (a : Nat) (v : Byte) : (s.writeByte a v).keysets = s.keysets := rfl
@[simp] theorem State.writeByte_groups (a : Nat) (v : Byte) : (s.writeByte a v).groups = s.groups := rfl
@[simp] theorem State.writeByte_ts (a : Nat) (v : Byte) : (s.writeByte a v).ts = s.ts := rfl
@[simp] theorem State.writeByte_hub (a : Nat) (v : Byte) : (s.writeByte a v).hub = s.hub := rfl
@[simp] theorem State.writeByte_resp (a : Nat) (v : Byte) : (s.writeByte a v).resp = s.resp := rfl
@[simp] theorem State.writeByte_enec (a : Nat) (v : Byte) : (s.writeByte a v).enec = s.enec := rfl
@[simp] theorem State.writeByte_snapAt (a : Nat) (v : Byte) : (s.writeByte a v).snapAt = s.snapAt := rfl
@[simp] theorem State.writeByte_noDispatch (a : Nat) (v : Byte) : (s.writeByte a v).noDispatch = s.noDispatch := rfl
@[simp] theorem State.writeByte_based (a : Nat) (v : Byte) : (s.writeByte a v).based = s.based := rfl
@[simp] theorem State.writeByte_progLen (a : Nat) (v : Byte) : (s.writeByte a v).progLen = s.progLen := rfl
@[simp] theorem State.writeByte_decAt (a : Nat) (v : Byte) : (s.writeByte a v).decAt = s.decAt := rfl
@[simp] theorem State.writeByte_causes (a : Nat) (v : Byte) : (s.writeByte a v).causes = s.causes := rfl
@[simp] theorem State.writeByte_init (a : Nat) (v : Byte) : (s.writeByte a v).init = s.init := rfl
@[simp] theorem State.writeByte_assay (a : Nat) (v : Byte) : (s.writeByte a v).assay = s.assay := rfl
@[simp] theorem State.writeByte_pwStage (a : Nat) (v : Byte) : (s.writeByte a v).pwStage = s.pwStage := rfl
@[simp] theorem State.writeByte_pwJobs (a : Nat) (v : Byte) : (s.writeByte a v).pwJobs = s.pwJobs := rfl
@[simp] theorem State.writeByte_pwLeaving (a : Nat) (v : Byte) : (s.writeByte a v).pwLeaving = s.pwLeaving := rfl
@[simp] theorem State.writeByte_tap (a : Nat) (v : Byte) : (s.writeByte a v).tap = s.tap := rfl
@[simp] theorem State.writeByte_peen (a : Nat) (v : Byte) : (s.writeByte a v).peen = s.peen := rfl
@[simp] theorem State.writeByte_cvStage (a : Nat) (v : Byte) : (s.writeByte a v).cvStage = s.cvStage := rfl
@[simp] theorem State.writeByte_custody (a : Nat) (v : Byte) : (s.writeByte a v).custody = s.custody := rfl
@[simp] theorem State.writeByte_marginLow (a : Nat) (v : Byte) : (s.writeByte a v).marginLow = s.marginLow := rfl
@[simp] theorem State.writeByte_regSt (a : Nat) (v : Byte) : (s.writeByte a v).regSt = s.regSt := rfl
@[simp] theorem State.writeByte_timeFrac (a : Nat) (v : Byte) : (s.writeByte a v).timeFrac = s.timeFrac := rfl
@[simp] theorem State.writeByte_timeRate (a : Nat) (v : Byte) : (s.writeByte a v).timeRate = s.timeRate := rfl
@[simp] theorem State.writeByte_closed (a : Nat) (v : Byte) : (s.writeByte a v).closed = s.closed := rfl
@[simp] theorem State.writeByte_plcBad (a : Nat) (v : Byte) : (s.writeByte a v).plcBad = s.plcBad := rfl
@[simp] theorem State.writeByte_hubRx (a : Nat) (v : Byte) : (s.writeByte a v).hubRx = s.hubRx := rfl
@[simp] theorem State.writeByte_shelfPort (a : Nat) (v : Byte) : (s.writeByte a v).shelfPort = s.shelfPort := rfl
@[simp] theorem State.writeByte_linkBad (a : Nat) (v : Byte) : (s.writeByte a v).linkBad = s.linkBad := rfl

@[simp] theorem State.writeBytes_pending (a : Nat) (vs : List Byte) : (s.writeBytes a vs).pending = s.pending := rfl
@[simp] theorem State.writeBytes_time (a : Nat) (vs : List Byte) : (s.writeBytes a vs).time = s.time := rfl
@[simp] theorem State.writeBytes_free (a : Nat) (vs : List Byte) : (s.writeBytes a vs).free = s.free := rfl
@[simp] theorem State.writeBytes_regs (a : Nat) (vs : List Byte) : (s.writeBytes a vs).regs = s.regs := rfl
@[simp] theorem State.writeBytes_held (a : Nat) (vs : List Byte) : (s.writeBytes a vs).held = s.held := rfl
@[simp] theorem State.writeBytes_cores (a : Nat) (vs : List Byte) : (s.writeBytes a vs).cores = s.cores := rfl
@[simp] theorem State.writeBytes_bars (a : Nat) (vs : List Byte) : (s.writeBytes a vs).bars = s.bars := rfl
@[simp] theorem State.writeBytes_ctrs (a : Nat) (vs : List Byte) : (s.writeBytes a vs).ctrs = s.ctrs := rfl
@[simp] theorem State.writeBytes_sigs (a : Nat) (vs : List Byte) : (s.writeBytes a vs).sigs = s.sigs := rfl
@[simp] theorem State.writeBytes_waitw (a : Nat) (vs : List Byte) : (s.writeBytes a vs).waitw = s.waitw := rfl
@[simp] theorem State.writeBytes_badpar (a : Nat) (vs : List Byte) : (s.writeBytes a vs).badpar = s.badpar := rfl
@[simp] theorem State.writeBytes_router (a : Nat) (vs : List Byte) : (s.writeBytes a vs).router = s.router := rfl
@[simp] theorem State.writeBytes_tables (a : Nat) (vs : List Byte) : (s.writeBytes a vs).tables = s.tables := rfl
@[simp] theorem State.writeBytes_profs (a : Nat) (vs : List Byte) : (s.writeBytes a vs).profs = s.profs := rfl
@[simp] theorem State.writeBytes_assign (a : Nat) (vs : List Byte) : (s.writeBytes a vs).assign = s.assign := rfl
@[simp] theorem State.writeBytes_journal (a : Nat) (vs : List Byte) : (s.writeBytes a vs).journal = s.journal := rfl
@[simp] theorem State.writeBytes_reasm (a : Nat) (vs : List Byte) : (s.writeBytes a vs).reasm = s.reasm := rfl
@[simp] theorem State.writeBytes_sessions (a : Nat) (vs : List Byte) : (s.writeBytes a vs).sessions = s.sessions := rfl
@[simp] theorem State.writeBytes_plcActive (a : Nat) (vs : List Byte) : (s.writeBytes a vs).plcActive = s.plcActive := rfl
@[simp] theorem State.writeBytes_plcShadow (a : Nat) (vs : List Byte) : (s.writeBytes a vs).plcShadow = s.plcShadow := rfl
@[simp] theorem State.writeBytes_placed (a : Nat) (vs : List Byte) : (s.writeBytes a vs).placed = s.placed := rfl
@[simp] theorem State.writeBytes_models (a : Nat) (vs : List Byte) : (s.writeBytes a vs).models = s.models := rfl
@[simp] theorem State.writeBytes_commitNow (a : Nat) (vs : List Byte) : (s.writeBytes a vs).commitNow = s.commitNow := rfl
@[simp] theorem State.writeBytes_handOpen (a : Nat) (vs : List Byte) : (s.writeBytes a vs).handOpen = s.handOpen := rfl
@[simp] theorem State.writeBytes_pwq (a : Nat) (vs : List Byte) : (s.writeBytes a vs).pwq = s.pwq := rfl
@[simp] theorem State.writeBytes_queuedJobs (a : Nat) (vs : List Byte) : (s.writeBytes a vs).queuedJobs = s.queuedJobs := rfl
@[simp] theorem State.writeBytes_lastCommit (a : Nat) (vs : List Byte) : (s.writeBytes a vs).lastCommit = s.lastCommit := rfl
@[simp] theorem State.writeBytes_peerFree (a : Nat) (vs : List Byte) : (s.writeBytes a vs).peerFree = s.peerFree := rfl
@[simp] theorem State.writeBytes_peerDev (a : Nat) (vs : List Byte) : (s.writeBytes a vs).peerDev = s.peerDev := rfl
@[simp] theorem State.writeBytes_hbMissed (a : Nat) (vs : List Byte) : (s.writeBytes a vs).hbMissed = s.hbMissed := rfl
@[simp] theorem State.writeBytes_out (a : Nat) (vs : List Byte) : (s.writeBytes a vs).out = s.out := rfl
@[simp] theorem State.writeBytes_fops (a : Nat) (vs : List Byte) : (s.writeBytes a vs).fops = s.fops := rfl
@[simp] theorem State.writeBytes_waitr (a : Nat) (vs : List Byte) : (s.writeBytes a vs).waitr = s.waitr := rfl
@[simp] theorem State.writeBytes_links (a : Nat) (vs : List Byte) : (s.writeBytes a vs).links = s.links := rfl
@[simp] theorem State.writeBytes_fbars (a : Nat) (vs : List Byte) : (s.writeBytes a vs).fbars = s.fbars := rfl
@[simp] theorem State.writeBytes_aliveTx (a : Nat) (vs : List Byte) : (s.writeBytes a vs).aliveTx = s.aliveTx := rfl
@[simp] theorem State.writeBytes_aliveRx (a : Nat) (vs : List Byte) : (s.writeBytes a vs).aliveRx = s.aliveRx := rfl
@[simp] theorem State.writeBytes_aliveAt (a : Nat) (vs : List Byte) : (s.writeBytes a vs).aliveAt = s.aliveAt := rfl
@[simp] theorem State.writeBytes_broken (a : Nat) (vs : List Byte) : (s.writeBytes a vs).broken = s.broken := rfl
@[simp] theorem State.writeBytes_opid (a : Nat) (vs : List Byte) : (s.writeBytes a vs).opid = s.opid := rfl
@[simp] theorem State.writeBytes_timeGood (a : Nat) (vs : List Byte) : (s.writeBytes a vs).timeGood = s.timeGood := rfl
@[simp] theorem State.writeBytes_timeMissed (a : Nat) (vs : List Byte) : (s.writeBytes a vs).timeMissed = s.timeMissed := rfl
@[simp] theorem State.writeBytes_timeSet (a : Nat) (vs : List Byte) : (s.writeBytes a vs).timeSet = s.timeSet := rfl
@[simp] theorem State.writeBytes_keep (a : Nat) (vs : List Byte) : (s.writeBytes a vs).keep = s.keep := rfl
@[simp] theorem State.writeBytes_groupLines (a : Nat) (vs : List Byte) : (s.writeBytes a vs).groupLines = s.groupLines := rfl
@[simp] theorem State.writeBytes_ecc (a : Nat) (vs : List Byte) : (s.writeBytes a vs).ecc = s.ecc := rfl
@[simp] theorem State.writeBytes_repairs (a : Nat) (vs : List Byte) : (s.writeBytes a vs).repairs = s.repairs := rfl
@[simp] theorem State.writeBytes_keysets (a : Nat) (vs : List Byte) : (s.writeBytes a vs).keysets = s.keysets := rfl
@[simp] theorem State.writeBytes_groups (a : Nat) (vs : List Byte) : (s.writeBytes a vs).groups = s.groups := rfl
@[simp] theorem State.writeBytes_ts (a : Nat) (vs : List Byte) : (s.writeBytes a vs).ts = s.ts := rfl
@[simp] theorem State.writeBytes_hub (a : Nat) (vs : List Byte) : (s.writeBytes a vs).hub = s.hub := rfl
@[simp] theorem State.writeBytes_resp (a : Nat) (vs : List Byte) : (s.writeBytes a vs).resp = s.resp := rfl
@[simp] theorem State.writeBytes_enec (a : Nat) (vs : List Byte) : (s.writeBytes a vs).enec = s.enec := rfl
@[simp] theorem State.writeBytes_snapAt (a : Nat) (vs : List Byte) : (s.writeBytes a vs).snapAt = s.snapAt := rfl
@[simp] theorem State.writeBytes_noDispatch (a : Nat) (vs : List Byte) : (s.writeBytes a vs).noDispatch = s.noDispatch := rfl
@[simp] theorem State.writeBytes_based (a : Nat) (vs : List Byte) : (s.writeBytes a vs).based = s.based := rfl
@[simp] theorem State.writeBytes_progLen (a : Nat) (vs : List Byte) : (s.writeBytes a vs).progLen = s.progLen := rfl
@[simp] theorem State.writeBytes_decAt (a : Nat) (vs : List Byte) : (s.writeBytes a vs).decAt = s.decAt := rfl
@[simp] theorem State.writeBytes_causes (a : Nat) (vs : List Byte) : (s.writeBytes a vs).causes = s.causes := rfl
@[simp] theorem State.writeBytes_init (a : Nat) (vs : List Byte) : (s.writeBytes a vs).init = s.init := rfl
@[simp] theorem State.writeBytes_assay (a : Nat) (vs : List Byte) : (s.writeBytes a vs).assay = s.assay := rfl
@[simp] theorem State.writeBytes_pwStage (a : Nat) (vs : List Byte) : (s.writeBytes a vs).pwStage = s.pwStage := rfl
@[simp] theorem State.writeBytes_pwJobs (a : Nat) (vs : List Byte) : (s.writeBytes a vs).pwJobs = s.pwJobs := rfl
@[simp] theorem State.writeBytes_pwLeaving (a : Nat) (vs : List Byte) : (s.writeBytes a vs).pwLeaving = s.pwLeaving := rfl
@[simp] theorem State.writeBytes_tap (a : Nat) (vs : List Byte) : (s.writeBytes a vs).tap = s.tap := rfl
@[simp] theorem State.writeBytes_peen (a : Nat) (vs : List Byte) : (s.writeBytes a vs).peen = s.peen := rfl
@[simp] theorem State.writeBytes_cvStage (a : Nat) (vs : List Byte) : (s.writeBytes a vs).cvStage = s.cvStage := rfl
@[simp] theorem State.writeBytes_custody (a : Nat) (vs : List Byte) : (s.writeBytes a vs).custody = s.custody := rfl
@[simp] theorem State.writeBytes_marginLow (a : Nat) (vs : List Byte) : (s.writeBytes a vs).marginLow = s.marginLow := rfl
@[simp] theorem State.writeBytes_regSt (a : Nat) (vs : List Byte) : (s.writeBytes a vs).regSt = s.regSt := rfl
@[simp] theorem State.writeBytes_timeFrac (a : Nat) (vs : List Byte) : (s.writeBytes a vs).timeFrac = s.timeFrac := rfl
@[simp] theorem State.writeBytes_timeRate (a : Nat) (vs : List Byte) : (s.writeBytes a vs).timeRate = s.timeRate := rfl
@[simp] theorem State.writeBytes_closed (a : Nat) (vs : List Byte) : (s.writeBytes a vs).closed = s.closed := rfl
@[simp] theorem State.writeBytes_plcBad (a : Nat) (vs : List Byte) : (s.writeBytes a vs).plcBad = s.plcBad := rfl
@[simp] theorem State.writeBytes_hubRx (a : Nat) (vs : List Byte) : (s.writeBytes a vs).hubRx = s.hubRx := rfl
@[simp] theorem State.writeBytes_shelfPort (a : Nat) (vs : List Byte) : (s.writeBytes a vs).shelfPort = s.shelfPort := rfl
@[simp] theorem State.writeBytes_linkBad (a : Nat) (vs : List Byte) : (s.writeBytes a vs).linkBad = s.linkBad := rfl

@[simp] theorem State.forget_pending (lo hi : Nat) : (s.forget lo hi).pending = s.pending := rfl
@[simp] theorem State.forget_time (lo hi : Nat) : (s.forget lo hi).time = s.time := rfl
@[simp] theorem State.forget_free (lo hi : Nat) : (s.forget lo hi).free = s.free := rfl
@[simp] theorem State.forget_regs (lo hi : Nat) : (s.forget lo hi).regs = s.regs := rfl
@[simp] theorem State.forget_held (lo hi : Nat) : (s.forget lo hi).held = s.held := rfl
@[simp] theorem State.forget_cores (lo hi : Nat) : (s.forget lo hi).cores = s.cores := rfl
@[simp] theorem State.forget_bars (lo hi : Nat) : (s.forget lo hi).bars = s.bars := rfl
@[simp] theorem State.forget_ctrs (lo hi : Nat) : (s.forget lo hi).ctrs = s.ctrs := rfl
@[simp] theorem State.forget_sigs (lo hi : Nat) : (s.forget lo hi).sigs = s.sigs := rfl
@[simp] theorem State.forget_waitw (lo hi : Nat) : (s.forget lo hi).waitw = s.waitw := rfl
@[simp] theorem State.forget_badpar (lo hi : Nat) : (s.forget lo hi).badpar = s.badpar := rfl
@[simp] theorem State.forget_router (lo hi : Nat) : (s.forget lo hi).router = s.router := rfl
@[simp] theorem State.forget_tables (lo hi : Nat) : (s.forget lo hi).tables = s.tables := rfl
@[simp] theorem State.forget_profs (lo hi : Nat) : (s.forget lo hi).profs = s.profs := rfl
@[simp] theorem State.forget_assign (lo hi : Nat) : (s.forget lo hi).assign = s.assign := rfl
@[simp] theorem State.forget_journal (lo hi : Nat) : (s.forget lo hi).journal = s.journal := rfl
@[simp] theorem State.forget_reasm (lo hi : Nat) : (s.forget lo hi).reasm = s.reasm := rfl
@[simp] theorem State.forget_sessions (lo hi : Nat) : (s.forget lo hi).sessions = s.sessions := rfl
@[simp] theorem State.forget_plcActive (lo hi : Nat) : (s.forget lo hi).plcActive = s.plcActive := rfl
@[simp] theorem State.forget_plcShadow (lo hi : Nat) : (s.forget lo hi).plcShadow = s.plcShadow := rfl
@[simp] theorem State.forget_placed (lo hi : Nat) : (s.forget lo hi).placed = s.placed := rfl
@[simp] theorem State.forget_models (lo hi : Nat) : (s.forget lo hi).models = s.models := rfl
@[simp] theorem State.forget_commitNow (lo hi : Nat) : (s.forget lo hi).commitNow = s.commitNow := rfl
@[simp] theorem State.forget_handOpen (lo hi : Nat) : (s.forget lo hi).handOpen = s.handOpen := rfl
@[simp] theorem State.forget_pwq (lo hi : Nat) : (s.forget lo hi).pwq = s.pwq := rfl
@[simp] theorem State.forget_queuedJobs (lo hi : Nat) : (s.forget lo hi).queuedJobs = s.queuedJobs := rfl
@[simp] theorem State.forget_lastCommit (lo hi : Nat) : (s.forget lo hi).lastCommit = s.lastCommit := rfl
@[simp] theorem State.forget_peerFree (lo hi : Nat) : (s.forget lo hi).peerFree = s.peerFree := rfl
@[simp] theorem State.forget_peerDev (lo hi : Nat) : (s.forget lo hi).peerDev = s.peerDev := rfl
@[simp] theorem State.forget_hbMissed (lo hi : Nat) : (s.forget lo hi).hbMissed = s.hbMissed := rfl
@[simp] theorem State.forget_out (lo hi : Nat) : (s.forget lo hi).out = s.out := rfl
@[simp] theorem State.forget_fops (lo hi : Nat) : (s.forget lo hi).fops = s.fops := rfl
@[simp] theorem State.forget_waitr (lo hi : Nat) : (s.forget lo hi).waitr = s.waitr := rfl
@[simp] theorem State.forget_links (lo hi : Nat) : (s.forget lo hi).links = s.links := rfl
@[simp] theorem State.forget_fbars (lo hi : Nat) : (s.forget lo hi).fbars = s.fbars := rfl
@[simp] theorem State.forget_aliveTx (lo hi : Nat) : (s.forget lo hi).aliveTx = s.aliveTx := rfl
@[simp] theorem State.forget_aliveRx (lo hi : Nat) : (s.forget lo hi).aliveRx = s.aliveRx := rfl
@[simp] theorem State.forget_aliveAt (lo hi : Nat) : (s.forget lo hi).aliveAt = s.aliveAt := rfl
@[simp] theorem State.forget_broken (lo hi : Nat) : (s.forget lo hi).broken = s.broken := rfl
@[simp] theorem State.forget_opid (lo hi : Nat) : (s.forget lo hi).opid = s.opid := rfl
@[simp] theorem State.forget_timeGood (lo hi : Nat) : (s.forget lo hi).timeGood = s.timeGood := rfl
@[simp] theorem State.forget_timeMissed (lo hi : Nat) : (s.forget lo hi).timeMissed = s.timeMissed := rfl
@[simp] theorem State.forget_timeSet (lo hi : Nat) : (s.forget lo hi).timeSet = s.timeSet := rfl
@[simp] theorem State.forget_keep (lo hi : Nat) : (s.forget lo hi).keep = s.keep := rfl
@[simp] theorem State.forget_groupLines (lo hi : Nat) : (s.forget lo hi).groupLines = s.groupLines := rfl
@[simp] theorem State.forget_ecc (lo hi : Nat) : (s.forget lo hi).ecc = s.ecc := rfl
@[simp] theorem State.forget_repairs (lo hi : Nat) : (s.forget lo hi).repairs = s.repairs := rfl
@[simp] theorem State.forget_keysets (lo hi : Nat) : (s.forget lo hi).keysets = s.keysets := rfl
@[simp] theorem State.forget_groups (lo hi : Nat) : (s.forget lo hi).groups = s.groups := rfl
@[simp] theorem State.forget_ts (lo hi : Nat) : (s.forget lo hi).ts = s.ts := rfl
@[simp] theorem State.forget_hub (lo hi : Nat) : (s.forget lo hi).hub = s.hub := rfl
@[simp] theorem State.forget_resp (lo hi : Nat) : (s.forget lo hi).resp = s.resp := rfl
@[simp] theorem State.forget_enec (lo hi : Nat) : (s.forget lo hi).enec = s.enec := rfl
@[simp] theorem State.forget_snapAt (lo hi : Nat) : (s.forget lo hi).snapAt = s.snapAt := rfl
@[simp] theorem State.forget_noDispatch (lo hi : Nat) : (s.forget lo hi).noDispatch = s.noDispatch := rfl
@[simp] theorem State.forget_based (lo hi : Nat) : (s.forget lo hi).based = s.based := rfl
@[simp] theorem State.forget_progLen (lo hi : Nat) : (s.forget lo hi).progLen = s.progLen := rfl
@[simp] theorem State.forget_decAt (lo hi : Nat) : (s.forget lo hi).decAt = s.decAt := rfl
@[simp] theorem State.forget_causes (lo hi : Nat) : (s.forget lo hi).causes = s.causes := rfl
@[simp] theorem State.forget_init (lo hi : Nat) : (s.forget lo hi).init = s.init := rfl
@[simp] theorem State.forget_assay (lo hi : Nat) : (s.forget lo hi).assay = s.assay := rfl
@[simp] theorem State.forget_pwStage (lo hi : Nat) : (s.forget lo hi).pwStage = s.pwStage := rfl
@[simp] theorem State.forget_pwJobs (lo hi : Nat) : (s.forget lo hi).pwJobs = s.pwJobs := rfl
@[simp] theorem State.forget_pwLeaving (lo hi : Nat) : (s.forget lo hi).pwLeaving = s.pwLeaving := rfl
@[simp] theorem State.forget_tap (lo hi : Nat) : (s.forget lo hi).tap = s.tap := rfl
@[simp] theorem State.forget_peen (lo hi : Nat) : (s.forget lo hi).peen = s.peen := rfl
@[simp] theorem State.forget_cvStage (lo hi : Nat) : (s.forget lo hi).cvStage = s.cvStage := rfl
@[simp] theorem State.forget_custody (lo hi : Nat) : (s.forget lo hi).custody = s.custody := rfl
@[simp] theorem State.forget_marginLow (lo hi : Nat) : (s.forget lo hi).marginLow = s.marginLow := rfl
@[simp] theorem State.forget_regSt (lo hi : Nat) : (s.forget lo hi).regSt = s.regSt := rfl
@[simp] theorem State.forget_timeFrac (lo hi : Nat) : (s.forget lo hi).timeFrac = s.timeFrac := rfl
@[simp] theorem State.forget_timeRate (lo hi : Nat) : (s.forget lo hi).timeRate = s.timeRate := rfl
@[simp] theorem State.forget_closed (lo hi : Nat) : (s.forget lo hi).closed = s.closed := rfl
@[simp] theorem State.forget_plcBad (lo hi : Nat) : (s.forget lo hi).plcBad = s.plcBad := rfl
@[simp] theorem State.forget_hubRx (lo hi : Nat) : (s.forget lo hi).hubRx = s.hubRx := rfl
@[simp] theorem State.forget_shelfPort (lo hi : Nat) : (s.forget lo hi).shelfPort = s.shelfPort := rfl
@[simp] theorem State.forget_linkBad (lo hi : Nat) : (s.forget lo hi).linkBad = s.linkBad := rfl


/-! ### Reads after writes -/

@[simp] theorem State.setTable_pending (t : Nat) (v : TableSlot) : (s.setTable t v).pending = s.pending := rfl
@[simp] theorem State.setTable_time (t : Nat) (v : TableSlot) : (s.setTable t v).time = s.time := rfl
@[simp] theorem State.setTable_timeFrac (t : Nat) (v : TableSlot) : (s.setTable t v).timeFrac = s.timeFrac := rfl
@[simp] theorem State.setTable_timeRate (t : Nat) (v : TableSlot) : (s.setTable t v).timeRate = s.timeRate := rfl
@[simp] theorem State.setTable_free (t : Nat) (v : TableSlot) : (s.setTable t v).free = s.free := rfl
@[simp] theorem State.setTable_mem (t : Nat) (v : TableSlot) : (s.setTable t v).mem = s.mem := rfl
@[simp] theorem State.setTable_regs (t : Nat) (v : TableSlot) : (s.setTable t v).regs = s.regs := rfl
@[simp] theorem State.setTable_held (t : Nat) (v : TableSlot) : (s.setTable t v).held = s.held := rfl
@[simp] theorem State.setTable_cores (t : Nat) (v : TableSlot) : (s.setTable t v).cores = s.cores := rfl
@[simp] theorem State.setTable_bars (t : Nat) (v : TableSlot) : (s.setTable t v).bars = s.bars := rfl
@[simp] theorem State.setTable_ctrs (t : Nat) (v : TableSlot) : (s.setTable t v).ctrs = s.ctrs := rfl
@[simp] theorem State.setTable_sigs (t : Nat) (v : TableSlot) : (s.setTable t v).sigs = s.sigs := rfl
@[simp] theorem State.setTable_waitw (t : Nat) (v : TableSlot) : (s.setTable t v).waitw = s.waitw := rfl
@[simp] theorem State.setTable_badpar (t : Nat) (v : TableSlot) : (s.setTable t v).badpar = s.badpar := rfl
@[simp] theorem State.setTable_router (t : Nat) (v : TableSlot) : (s.setTable t v).router = s.router := rfl
@[simp] theorem State.setTable_profs (t : Nat) (v : TableSlot) : (s.setTable t v).profs = s.profs := rfl
@[simp] theorem State.setTable_assign (t : Nat) (v : TableSlot) : (s.setTable t v).assign = s.assign := rfl
@[simp] theorem State.setTable_journal (t : Nat) (v : TableSlot) : (s.setTable t v).journal = s.journal := rfl
@[simp] theorem State.setTable_reasm (t : Nat) (v : TableSlot) : (s.setTable t v).reasm = s.reasm := rfl
@[simp] theorem State.setTable_sessions (t : Nat) (v : TableSlot) : (s.setTable t v).sessions = s.sessions := rfl
@[simp] theorem State.setTable_closed (t : Nat) (v : TableSlot) : (s.setTable t v).closed = s.closed := rfl
@[simp] theorem State.setTable_plcActive (t : Nat) (v : TableSlot) : (s.setTable t v).plcActive = s.plcActive := rfl
@[simp] theorem State.setTable_plcShadow (t : Nat) (v : TableSlot) : (s.setTable t v).plcShadow = s.plcShadow := rfl
@[simp] theorem State.setTable_plcBad (t : Nat) (v : TableSlot) : (s.setTable t v).plcBad = s.plcBad := rfl
@[simp] theorem State.setTable_placed (t : Nat) (v : TableSlot) : (s.setTable t v).placed = s.placed := rfl
@[simp] theorem State.setTable_models (t : Nat) (v : TableSlot) : (s.setTable t v).models = s.models := rfl
@[simp] theorem State.setTable_commitNow (t : Nat) (v : TableSlot) : (s.setTable t v).commitNow = s.commitNow := rfl
@[simp] theorem State.setTable_handOpen (t : Nat) (v : TableSlot) : (s.setTable t v).handOpen = s.handOpen := rfl
@[simp] theorem State.setTable_pwq (t : Nat) (v : TableSlot) : (s.setTable t v).pwq = s.pwq := rfl
@[simp] theorem State.setTable_queuedJobs (t : Nat) (v : TableSlot) : (s.setTable t v).queuedJobs = s.queuedJobs := rfl
@[simp] theorem State.setTable_lastCommit (t : Nat) (v : TableSlot) : (s.setTable t v).lastCommit = s.lastCommit := rfl
@[simp] theorem State.setTable_peerFree (t : Nat) (v : TableSlot) : (s.setTable t v).peerFree = s.peerFree := rfl
@[simp] theorem State.setTable_peerDev (t : Nat) (v : TableSlot) : (s.setTable t v).peerDev = s.peerDev := rfl
@[simp] theorem State.setTable_hbMissed (t : Nat) (v : TableSlot) : (s.setTable t v).hbMissed = s.hbMissed := rfl
@[simp] theorem State.setTable_out (t : Nat) (v : TableSlot) : (s.setTable t v).out = s.out := rfl
@[simp] theorem State.setTable_hubRx (t : Nat) (v : TableSlot) : (s.setTable t v).hubRx = s.hubRx := rfl
@[simp] theorem State.setTable_fops (t : Nat) (v : TableSlot) : (s.setTable t v).fops = s.fops := rfl
@[simp] theorem State.setTable_waitr (t : Nat) (v : TableSlot) : (s.setTable t v).waitr = s.waitr := rfl
@[simp] theorem State.setTable_links (t : Nat) (v : TableSlot) : (s.setTable t v).links = s.links := rfl
@[simp] theorem State.setTable_fbars (t : Nat) (v : TableSlot) : (s.setTable t v).fbars = s.fbars := rfl
@[simp] theorem State.setTable_aliveTx (t : Nat) (v : TableSlot) : (s.setTable t v).aliveTx = s.aliveTx := rfl
@[simp] theorem State.setTable_aliveRx (t : Nat) (v : TableSlot) : (s.setTable t v).aliveRx = s.aliveRx := rfl
@[simp] theorem State.setTable_aliveAt (t : Nat) (v : TableSlot) : (s.setTable t v).aliveAt = s.aliveAt := rfl
@[simp] theorem State.setTable_broken (t : Nat) (v : TableSlot) : (s.setTable t v).broken = s.broken := rfl
@[simp] theorem State.setTable_opid (t : Nat) (v : TableSlot) : (s.setTable t v).opid = s.opid := rfl
@[simp] theorem State.setTable_shelfPort (t : Nat) (v : TableSlot) : (s.setTable t v).shelfPort = s.shelfPort := rfl
@[simp] theorem State.setTable_timeGood (t : Nat) (v : TableSlot) : (s.setTable t v).timeGood = s.timeGood := rfl
@[simp] theorem State.setTable_timeMissed (t : Nat) (v : TableSlot) : (s.setTable t v).timeMissed = s.timeMissed := rfl
@[simp] theorem State.setTable_timeSet (t : Nat) (v : TableSlot) : (s.setTable t v).timeSet = s.timeSet := rfl
@[simp] theorem State.setTable_keep (t : Nat) (v : TableSlot) : (s.setTable t v).keep = s.keep := rfl
@[simp] theorem State.setTable_groupLines (t : Nat) (v : TableSlot) : (s.setTable t v).groupLines = s.groupLines := rfl
@[simp] theorem State.setTable_ecc (t : Nat) (v : TableSlot) : (s.setTable t v).ecc = s.ecc := rfl
@[simp] theorem State.setTable_linkBad (t : Nat) (v : TableSlot) : (s.setTable t v).linkBad = s.linkBad := rfl
@[simp] theorem State.setTable_repairs (t : Nat) (v : TableSlot) : (s.setTable t v).repairs = s.repairs := rfl
@[simp] theorem State.setTable_keysets (t : Nat) (v : TableSlot) : (s.setTable t v).keysets = s.keysets := rfl
@[simp] theorem State.setTable_groups (t : Nat) (v : TableSlot) : (s.setTable t v).groups = s.groups := rfl
@[simp] theorem State.setTable_ts (t : Nat) (v : TableSlot) : (s.setTable t v).ts = s.ts := rfl
@[simp] theorem State.setTable_hub (t : Nat) (v : TableSlot) : (s.setTable t v).hub = s.hub := rfl
@[simp] theorem State.setTable_resp (t : Nat) (v : TableSlot) : (s.setTable t v).resp = s.resp := rfl
@[simp] theorem State.setTable_enec (t : Nat) (v : TableSlot) : (s.setTable t v).enec = s.enec := rfl
@[simp] theorem State.setTable_snapAt (t : Nat) (v : TableSlot) : (s.setTable t v).snapAt = s.snapAt := rfl
@[simp] theorem State.setTable_noDispatch (t : Nat) (v : TableSlot) : (s.setTable t v).noDispatch = s.noDispatch := rfl
@[simp] theorem State.setTable_based (t : Nat) (v : TableSlot) : (s.setTable t v).based = s.based := rfl
@[simp] theorem State.setTable_progLen (t : Nat) (v : TableSlot) : (s.setTable t v).progLen = s.progLen := rfl
@[simp] theorem State.setTable_decAt (t : Nat) (v : TableSlot) : (s.setTable t v).decAt = s.decAt := rfl
@[simp] theorem State.setTable_causes (t : Nat) (v : TableSlot) : (s.setTable t v).causes = s.causes := rfl
@[simp] theorem State.setTable_init (t : Nat) (v : TableSlot) : (s.setTable t v).init = s.init := rfl
@[simp] theorem State.setTable_assay (t : Nat) (v : TableSlot) : (s.setTable t v).assay = s.assay := rfl
@[simp] theorem State.setTable_pwStage (t : Nat) (v : TableSlot) : (s.setTable t v).pwStage = s.pwStage := rfl
@[simp] theorem State.setTable_pwJobs (t : Nat) (v : TableSlot) : (s.setTable t v).pwJobs = s.pwJobs := rfl
@[simp] theorem State.setTable_pwLeaving (t : Nat) (v : TableSlot) : (s.setTable t v).pwLeaving = s.pwLeaving := rfl
@[simp] theorem State.setTable_tap (t : Nat) (v : TableSlot) : (s.setTable t v).tap = s.tap := rfl
@[simp] theorem State.setTable_peen (t : Nat) (v : TableSlot) : (s.setTable t v).peen = s.peen := rfl
@[simp] theorem State.setTable_cvStage (t : Nat) (v : TableSlot) : (s.setTable t v).cvStage = s.cvStage := rfl
@[simp] theorem State.setTable_custody (t : Nat) (v : TableSlot) : (s.setTable t v).custody = s.custody := rfl
@[simp] theorem State.setTable_marginLow (t : Nat) (v : TableSlot) : (s.setTable t v).marginLow = s.marginLow := rfl
@[simp] theorem State.setTable_regSt (t : Nat) (v : TableSlot) : (s.setTable t v).regSt = s.regSt := rfl

@[simp] theorem Core.setContext_counters (k : Core) (x : Nat) (v : Ctx) : (k.setContext x v).counters = k.counters := rfl
@[simp] theorem Core.setContext_descs (k : Core) (x : Nat) (v : Ctx) : (k.setContext x v).descs = k.descs := rfl
@[simp] theorem Core.setContext_hdrs (k : Core) (x : Nat) (v : Ctx) : (k.setContext x v).hdrs = k.hdrs := rfl
@[simp] theorem Core.setContext_drawers (k : Core) (x : Nat) (v : Ctx) : (k.setContext x v).drawers = k.drawers := rfl
@[simp] theorem Core.setContext_q (k : Core) (x : Nat) (v : Ctx) : (k.setContext x v).q = k.q := rfl
@[simp] theorem Core.setContext_serial (k : Core) (x : Nat) (v : Ctx) : (k.setContext x v).serial = k.serial := rfl
@[simp] theorem Core.setContext_arrivals (k : Core) (x : Nat) (v : Ctx) : (k.setContext x v).arrivals = k.arrivals := rfl
@[simp] theorem Core.setContext_tiles (k : Core) (x : Nat) (v : Ctx) : (k.setContext x v).tiles = k.tiles := rfl
@[simp] theorem Core.setContext_accs (k : Core) (x : Nat) (v : Ctx) : (k.setContext x v).accs = k.accs := rfl
@[simp] theorem Core.setContext_latches (k : Core) (x : Nat) (v : Ctx) : (k.setContext x v).latches = k.latches := rfl
@[simp] theorem Core.setContext_lastTmulCtx (k : Core) (x : Nat) (v : Ctx) : (k.setContext x v).lastTmulCtx = k.lastTmulCtx := rfl
@[simp] theorem Core.setContext_lastDisp (k : Core) (x : Nat) (v : Ctx) : (k.setContext x v).lastDisp = k.lastDisp := rfl
@[simp] theorem Core.setContext_served (k : Core) (x : Nat) (v : Ctx) : (k.setContext x v).served = k.served := rfl
@[simp] theorem Core.setContext_badCtr (k : Core) (x : Nat) (v : Ctx) : (k.setContext x v).badCtr = k.badCtr := rfl
@[simp] theorem Core.setContext_inlet (k : Core) (x : Nat) (v : Ctx) : (k.setContext x v).inlet = k.inlet := rfl
@[simp] theorem Core.setContext_pewter (k : Core) (x : Nat) (v : Ctx) : (k.setContext x v).pewter = k.pewter := rfl

@[simp] theorem Core.setCounter_ctx (k : Core) (n : Nat) (v : W16) : (k.setCounter n v).ctx = k.ctx := rfl
@[simp] theorem Core.setCounter_descs (k : Core) (n : Nat) (v : W16) : (k.setCounter n v).descs = k.descs := rfl
@[simp] theorem Core.setCounter_hdrs (k : Core) (n : Nat) (v : W16) : (k.setCounter n v).hdrs = k.hdrs := rfl
@[simp] theorem Core.setCounter_drawers (k : Core) (n : Nat) (v : W16) : (k.setCounter n v).drawers = k.drawers := rfl
@[simp] theorem Core.setCounter_q (k : Core) (n : Nat) (v : W16) : (k.setCounter n v).q = k.q := rfl
@[simp] theorem Core.setCounter_serial (k : Core) (n : Nat) (v : W16) : (k.setCounter n v).serial = k.serial := rfl
@[simp] theorem Core.setCounter_arrivals (k : Core) (n : Nat) (v : W16) : (k.setCounter n v).arrivals = k.arrivals := rfl
@[simp] theorem Core.setCounter_tiles (k : Core) (n : Nat) (v : W16) : (k.setCounter n v).tiles = k.tiles := rfl
@[simp] theorem Core.setCounter_accs (k : Core) (n : Nat) (v : W16) : (k.setCounter n v).accs = k.accs := rfl
@[simp] theorem Core.setCounter_latches (k : Core) (n : Nat) (v : W16) : (k.setCounter n v).latches = k.latches := rfl
@[simp] theorem Core.setCounter_lastTmulCtx (k : Core) (n : Nat) (v : W16) : (k.setCounter n v).lastTmulCtx = k.lastTmulCtx := rfl
@[simp] theorem Core.setCounter_lastDisp (k : Core) (n : Nat) (v : W16) : (k.setCounter n v).lastDisp = k.lastDisp := rfl
@[simp] theorem Core.setCounter_served (k : Core) (n : Nat) (v : W16) : (k.setCounter n v).served = k.served := rfl
@[simp] theorem Core.setCounter_badCtr (k : Core) (n : Nat) (v : W16) : (k.setCounter n v).badCtr = k.badCtr := rfl
@[simp] theorem Core.setCounter_inlet (k : Core) (n : Nat) (v : W16) : (k.setCounter n v).inlet = k.inlet := rfl
@[simp] theorem Core.setCounter_pewter (k : Core) (n : Nat) (v : W16) : (k.setCounter n v).pewter = k.pewter := rfl

@[simp] theorem Core.setDrawer_ctx (k : Core) (d : Nat) (v : Drawer) : (k.setDrawer d v).ctx = k.ctx := rfl
@[simp] theorem Core.setDrawer_counters (k : Core) (d : Nat) (v : Drawer) : (k.setDrawer d v).counters = k.counters := rfl
@[simp] theorem Core.setDrawer_descs (k : Core) (d : Nat) (v : Drawer) : (k.setDrawer d v).descs = k.descs := rfl
@[simp] theorem Core.setDrawer_hdrs (k : Core) (d : Nat) (v : Drawer) : (k.setDrawer d v).hdrs = k.hdrs := rfl
@[simp] theorem Core.setDrawer_q (k : Core) (d : Nat) (v : Drawer) : (k.setDrawer d v).q = k.q := rfl
@[simp] theorem Core.setDrawer_serial (k : Core) (d : Nat) (v : Drawer) : (k.setDrawer d v).serial = k.serial := rfl
@[simp] theorem Core.setDrawer_arrivals (k : Core) (d : Nat) (v : Drawer) : (k.setDrawer d v).arrivals = k.arrivals := rfl
@[simp] theorem Core.setDrawer_tiles (k : Core) (d : Nat) (v : Drawer) : (k.setDrawer d v).tiles = k.tiles := rfl
@[simp] theorem Core.setDrawer_accs (k : Core) (d : Nat) (v : Drawer) : (k.setDrawer d v).accs = k.accs := rfl
@[simp] theorem Core.setDrawer_latches (k : Core) (d : Nat) (v : Drawer) : (k.setDrawer d v).latches = k.latches := rfl
@[simp] theorem Core.setDrawer_lastTmulCtx (k : Core) (d : Nat) (v : Drawer) : (k.setDrawer d v).lastTmulCtx = k.lastTmulCtx := rfl
@[simp] theorem Core.setDrawer_lastDisp (k : Core) (d : Nat) (v : Drawer) : (k.setDrawer d v).lastDisp = k.lastDisp := rfl
@[simp] theorem Core.setDrawer_served (k : Core) (d : Nat) (v : Drawer) : (k.setDrawer d v).served = k.served := rfl
@[simp] theorem Core.setDrawer_badCtr (k : Core) (d : Nat) (v : Drawer) : (k.setDrawer d v).badCtr = k.badCtr := rfl
@[simp] theorem Core.setDrawer_inlet (k : Core) (d : Nat) (v : Drawer) : (k.setDrawer d v).inlet = k.inlet := rfl
@[simp] theorem Core.setDrawer_pewter (k : Core) (d : Nat) (v : Drawer) : (k.setDrawer d v).pewter = k.pewter := rfl

@[simp] theorem Core.setHdr_ctx (k : Core) (d : Nat) (h : Header) : (k.setHdr d h).ctx = k.ctx := rfl
@[simp] theorem Core.setHdr_counters (k : Core) (d : Nat) (h : Header) : (k.setHdr d h).counters = k.counters := rfl
@[simp] theorem Core.setHdr_descs (k : Core) (d : Nat) (h : Header) : (k.setHdr d h).descs = k.descs := rfl
@[simp] theorem Core.setHdr_drawers (k : Core) (d : Nat) (h : Header) : (k.setHdr d h).drawers = k.drawers := rfl
@[simp] theorem Core.setHdr_q (k : Core) (d : Nat) (h : Header) : (k.setHdr d h).q = k.q := rfl
@[simp] theorem Core.setHdr_serial (k : Core) (d : Nat) (h : Header) : (k.setHdr d h).serial = k.serial := rfl
@[simp] theorem Core.setHdr_arrivals (k : Core) (d : Nat) (h : Header) : (k.setHdr d h).arrivals = k.arrivals := rfl
@[simp] theorem Core.setHdr_tiles (k : Core) (d : Nat) (h : Header) : (k.setHdr d h).tiles = k.tiles := rfl
@[simp] theorem Core.setHdr_accs (k : Core) (d : Nat) (h : Header) : (k.setHdr d h).accs = k.accs := rfl
@[simp] theorem Core.setHdr_latches (k : Core) (d : Nat) (h : Header) : (k.setHdr d h).latches = k.latches := rfl
@[simp] theorem Core.setHdr_lastTmulCtx (k : Core) (d : Nat) (h : Header) : (k.setHdr d h).lastTmulCtx = k.lastTmulCtx := rfl
@[simp] theorem Core.setHdr_lastDisp (k : Core) (d : Nat) (h : Header) : (k.setHdr d h).lastDisp = k.lastDisp := rfl
@[simp] theorem Core.setHdr_served (k : Core) (d : Nat) (h : Header) : (k.setHdr d h).served = k.served := rfl
@[simp] theorem Core.setHdr_badCtr (k : Core) (d : Nat) (h : Header) : (k.setHdr d h).badCtr = k.badCtr := rfl
@[simp] theorem Core.setHdr_inlet (k : Core) (d : Nat) (h : Header) : (k.setHdr d h).inlet = k.inlet := rfl
@[simp] theorem Core.setHdr_pewter (k : Core) (d : Nat) (h : Header) : (k.setHdr d h).pewter = k.pewter := rfl




@[simp] theorem State.core_setCore (c : Nat) (k : Core) : (s.setCore c k).core c = k := by
  simp [State.core, State.setCore]

theorem State.core_setCore_ne {c d : Nat} (k : Core) (h : d ≠ c) : (s.setCore c k).core d = s.core d := by
  simp [State.core, State.setCore, Tab.get_set_ne _ _ _ h]

@[simp] theorem State.setCore_setCore (c : Nat) (k l : Core) : (s.setCore c k).setCore c l = s.setCore c l := by
  simp [State.setCore]

@[simp] theorem State.core_modCore (c : Nat) (f : Core → Core) : (s.modCore c f).core c = f (s.core c) := by
  simp [State.modCore]

theorem State.core_modCore_ne {c d : Nat} (f : Core → Core) (h : d ≠ c) : (s.modCore c f).core d = s.core d := by
  simp [State.modCore, State.core_setCore_ne _ _ h]

@[simp] theorem State.modCore_modCore (c : Nat) (f g : Core → Core) :
    (s.modCore c f).modCore c g = s.modCore c (fun k => g (f k)) := by
  simp [State.modCore]

@[simp] theorem Core.context_setContext (k : Core) (x : Nat) (v : Ctx) : (k.setContext x v).context x = v := by
  simp [Core.context, Core.setContext]

theorem Core.context_setContext_ne (k : Core) {x y : Nat} (v : Ctx) (h : y ≠ x) :
    (k.setContext x v).context y = k.context y := by
  simp [Core.context, Core.setContext, Tab.get_set_ne _ _ _ h]

@[simp] theorem State.context_modContext (c x : Nat) (f : Ctx → Ctx) :
    (s.modContext c x f).context c x = f (s.context c x) := by
  simp [State.context, State.modContext]

@[simp] theorem Ctx.reg_setReg (x : Ctx) (r : Nat) (v : W64) : (x.setReg r v).reg r = v := by
  simp [Ctx.reg, Ctx.setReg]

theorem Ctx.reg_setReg_ne (x : Ctx) {r t : Nat} (v : W64) (h : t ≠ r) : (x.setReg r v).reg t = x.reg t := by
  simp [Ctx.reg, Ctx.setReg, Tab.get_set_ne _ _ _ h]

@[simp] theorem Core.counter_setCounter (k : Core) (n : Nat) (v : W16) : (k.setCounter n v).counter n = v := by
  simp [Core.counter, Core.setCounter]

theorem Core.counter_setCounter_ne (k : Core) {n m : Nat} (v : W16) (h : m ≠ n) :
    (k.setCounter n v).counter m = k.counter m := by
  simp [Core.counter, Core.setCounter, Tab.get_set_ne _ _ _ h]

@[simp] theorem Core.hdr_setHdr (k : Core) (d : Nat) (h : Header) : (k.setHdr d h).hdr d = h := by
  simp [Core.hdr, Core.setHdr]

theorem Core.hdr_setHdr_ne (k : Core) {d e : Nat} (h : Header) (he : e ≠ d) : (k.setHdr d h).hdr e = k.hdr e := by
  simp [Core.hdr, Core.setHdr, Tab.get_set_ne _ _ _ he]

@[simp] theorem Core.drawer_setDrawer (k : Core) (d : Nat) (v : Drawer) : (k.setDrawer d v).drawer d = v := by
  simp [Core.drawer, Core.setDrawer]

theorem Core.drawer_setDrawer_ne (k : Core) {d e : Nat} (v : Drawer) (h : e ≠ d) :
    (k.setDrawer d v).drawer e = k.drawer e := by
  simp [Core.drawer, Core.setDrawer, Tab.get_set_ne _ _ _ h]

@[simp] theorem State.bar_setBar (b : Nat) (v : Bar) : (s.setBar b v).bar b = v := by
  simp [State.bar, State.setBar]

@[simp] theorem State.ctr_setCtr (n : Nat) (v : Ctr) : (s.setCtr n v).ctr n = v := by
  simp [State.ctr, State.setCtr]

@[simp] theorem State.table_setTable (t : Nat) (v : TableSlot) : (s.setTable t v).table t = v := by
  simp [State.table, State.setTable]

@[simp] theorem State.regK_setRegK (k : RegKey) (v : W32) : (s.setRegK k v).regK k = v := by
  simp [State.regK, State.setRegK]

theorem State.regK_setRegK_ne {k l : RegKey} (v : W32) (h : l.addr ≠ k.addr) : (s.setRegK k v).regK l = s.regK l := by
  simp [State.regK, State.setRegK, Tab.get, Tab.find?_set_ne _ _ _ h]

@[simp] theorem State.reg_setReg (r : RegName) (i x : Nat) (v : W32) : (s.setReg r i x v).reg r i x = v := by
  simp [State.reg, State.setReg]

end Sys2Proof.Machine
end

