-- ==== Sys2Proof/Laws/Stream.lean ====
section
/-!
SUPPORT. Laws of the life of a stream command: on a quiet core a command is dispatched, arrives, issues and goes on, and what its
row does is its issue, its start and its commit, one after the other.
-/
namespace Sys2Proof.Machine

variable {s : State} {c x : Nat} {op : Opcode} {f : CmdFields}

/-! ### Folds -/

theorem foldl_fixed {α β : Type} (g : β → α → β) (b : β) (l : List α) (h : ∀ a ∈ l, g b a = b) : l.foldl g b = b := by
  induction l with
  | nil => rfl
  | cons a l ih =>
    rw [List.foldl_cons, h a (List.mem_cons_self ..)]
    exact ih (fun d hd => h d (List.mem_cons_of_mem _ hd))

/-- A fold that leaves its state until one element and after it. -/
theorem foldl_reach {α β : Type} (g : β → α → β) (a b : β) (p : α) (l : List α) (h1 : ∀ d, d ≠ p → g a d = a)
    (h2 : g a p = b) (h3 : ∀ d, g b d = b) (hp : p ∈ l) : l.foldl g a = b := by
  induction l with
  | nil => simp at hp
  | cons d l ih =>
    rw [List.foldl_cons]
    by_cases hd : d = p
    · subst hd
      rw [h2]
      exact foldl_fixed g b l (fun e _ => h3 e)
    · rw [h1 d hd]
      exact ih (by simpa [Ne.symm hd] using hp)

/-! ### Accessors through an update of the core -/

theorem State.Quiet.decode (ht : s.Takes c x op f) : decodeChecks (encodeCmd op f) = some op :=
  encodeCmd_checks op f ht.mode ht.delta ht.claims

theorem State.Quiet.mayDispatch (hq : s.Quiet c x) (ht : s.Takes c x op f) :
    s.mayDispatch c x (encodeCmd op f).engine = true := by
  simp [State.mayDispatch, hq.running, hq.dispatch, hq.live, Core.queueOf, hq.empty]
  rcases ht.room with h | h
  · exact Or.inl (Or.inl h)
  · exact Or.inr h

/-- A quiet core with the command dispatched and not yet arrived. -/
def State.sent (s : State) (c x : Nat) (w : Cmd) : State :=
  s.modCore c (fun k =>
    { (k.setContext x { (s.context c x) with pc := (s.context c x).pc + 32 }) with
      serial := k.serial + 1, lastDisp := x, q := [{ s.entry c x w with stage := .queued, arr := 0 }] })

/-- The state after dispatch, in one update of the core. -/
theorem State.Quiet.dispatch_eq (hq : s.Quiet c x) :
    s.dispatch c x (encodeCmd op f) = (s.sent c x (encodeCmd op f), some ((s.core c).serial + 1)) := by
  have he : ¬ 6 ≤ op.engine := Nat.not_le.2 (Opcode.engine_lt op)
  have hf : (!inHbm (s.context c x).pc) = false := by rw [hq.fetch]; rfl
  unfold State.dispatch
  simp only [hf, encodeCmd_engine, he, if_false, Bool.false_eq_true]
  simp only [State.modContext, State.modCore_modCore, State.sent, State.entry, Prod.mk.injEq, and_true, encodeCmd_engine]
  simp only [State.modCore, Core.setContext, hq.empty, List.nil_append]
  rfl

@[simp] theorem State.coreLive_modCore (s : State) (c d : Nat) (g : Core → Core) : (s.modCore d g).coreLive c = s.coreLive c := rfl

@[simp] theorem State.modeM_modCore (s : State) (c d : Nat) (g : Core → Core) : (s.modCore d g).modeM c = s.modeM c := rfl

@[simp] theorem State.ctrInShare_modCore (s : State) (c d y n : Nat) (g : Core → Core) :
    (s.modCore d g).ctrInShare c y n = s.ctrInShare c y n := rfl

/-- No head arrives where the queue holds none that is queued. -/
theorem State.arriveHead_none (s : State) (c x e : Nat) (h : (s.core c).nextHead x e = none) : s.arriveHead c x e = s := by
  unfold State.arriveHead
  rw [h]
  split <;> rfl

theorem State.Quiet.arriveHead_other (x' e : Nat) (w : Cmd) (h : ¬(x' = x ∧ e = w.engine)) :
    (s.sent c x w).arriveHead c x' e = s.sent c x w := by
  apply State.arriveHead_none
  have : ((s.sent c x w).core c).queueOf x' e = [] := by
    simp [State.sent, Core.queueOf, State.entry]
    intro h1 h2
    exact h ⟨h1.symm, h2.symm⟩
  simp [Core.nextHead, this]

theorem State.arriveHead_arrived (x' e : Nat) (w : Cmd) :
    (s.arrived c x w).arriveHead c x' e = s.arrived c x w := by
  apply State.arriveHead_none
  unfold Core.nextHead
  by_cases h : x = x' ∧ w.engine = e
  · simp [State.arrived, Core.queueOf, State.entry, h.1, h.2]
  · have : ((s.arrived c x w).core c).queueOf x' e = [] := by
      simpa [State.arrived, Core.queueOf, State.entry] using h
    simp [this]

theorem State.Quiet.arriveHead_own (hq : s.Quiet c x) (ht : s.Takes c x op f) :
    (s.sent c x (encodeCmd op f)).arriveHead c x op.engine = s.arrived c x (encodeCmd op f) := by
  have hr : ((s.sent c x (encodeCmd op f)).context c x).st = .running := by
    simp [State.sent, State.context, Core.context, Core.setContext]
    exact hq.running
  have hl : (s.sent c x (encodeCmd op f)).coreLive c = true := by simpa [State.sent] using hq.live
  have hh : ((s.sent c x (encodeCmd op f)).core c).nextHead x op.engine
      = some { s.entry c x (encodeCmd op f) with stage := .queued, arr := 0 } := by
    simp [State.sent, Core.nextHead, Core.queueOf, State.entry]
  have hd : (decodeChecks (encodeCmd op f)) = some op := State.Quiet.decode ht
  have hs : (QCmd.counters { s.entry c x (encodeCmd op f) with stage := .queued, arr := 0 }).all
      (fun n => (s.sent c x (encodeCmd op f)).ctrInShare c x n) = true := ht.shares
  have hd' : decodeChecks (s.entry c x (encodeCmd op f)).cmd = some op := hd
  unfold State.arriveHead
  rw [if_neg (by simp [hr, hl]), hh]
  simp only [hd', Option.isNone_some, Bool.false_eq_true, if_false]
  rw [if_neg (by simpa using hs)]
  simp only [State.sent, State.modCore_modCore, State.arrived]
  unfold State.modCore
  congr 1
  simp [Core.modCmd, modFirst, State.entry, Core.setContext]

theorem State.Quiet.arriveHeads_eq (hq : s.Quiet c x) (ht : s.Takes c x op f) :
    (s.sent c x (encodeCmd op f)).arriveHeads c = s.arrived c x (encodeCmd op f) := by
  have hx : x ∈ [0, 1, 2, 3] := by
    have := hq.ctx
    simp; omega
  have he : op.engine ∈ [0, 1, 2, 3, 4, 5] := by
    have := Opcode.engine_lt op
    simp; omega
  unfold State.arriveHeads
  refine foldl_reach _ _ _ op.engine _ ?_ ?_ ?_ he
  · intro e hne
    refine foldl_fixed _ _ _ (fun y _ => ?_)
    exact State.Quiet.arriveHead_other y e _ (by simp only [encodeCmd_engine]; exact fun h => hne h.2)
  · refine foldl_reach _ _ _ x _ ?_ (State.Quiet.arriveHead_own hq ht) ?_ hx
    · intro y hne
      exact State.Quiet.arriveHead_other y _ _ (fun h => hne h.1)
    · intro y
      exact State.arriveHead_arrived y _ _
  · intro e
    exact foldl_fixed _ _ _ (fun y _ => State.arriveHead_arrived y e _)

/-! ### Issue -/

theorem State.core_arrived (w : Cmd) : ((s.arrived c x w).core c).q = [s.entry c x w] := by
  simp [State.arrived]

theorem State.counters_arrived (w : Cmd) : ((s.arrived c x w).core c).counters = (s.core c).counters := by
  simp [State.arrived, Core.setContext]

theorem State.badCtr_arrived (w : Cmd) : ((s.arrived c x w).core c).badCtr = (s.core c).badCtr := by
  simp [State.arrived, Core.setContext]

theorem State.entry_op? : (s.entry c x (encodeCmd op f)).cmd.op? = some op := by simp [State.entry]

theorem State.Quiet.mayIssue (hq : s.Quiet c x) (hp : s.Passes c x op f)
    (hb : op = .barrier → s.sigsUnderWay c x = false) :
    (s.arrived c x (encodeCmd op f)).mayIssue op c (s.entry c x (encodeCmd op f)) = true := by
  have hr : ((s.arrived c x (encodeCmd op f)).context c x).st = .running := by
    simp [State.arrived, State.context, Core.context, Core.setContext]
    exact hq.running
  have hl : (s.arrived c x (encodeCmd op f)).coreLive c = true := by simpa [State.arrived] using hq.live
  have hc : controlHeld (s.arrived c x (encodeCmd op f)) c (s.entry c x (encodeCmd op f)) = false := by
    simp [controlHeld, State.entry_op?, State.core_arrived]
  have hpass : passHeld (s.arrived c x (encodeCmd op f)) c (s.entry c x (encodeCmd op f)) = false := by
    have ht : tcfgAhead (s.arrived c x (encodeCmd op f)) c (s.entry c x (encodeCmd op f)) = false := by
      simp [tcfgAhead, State.core_arrived]
    unfold passHeld
    rw [ht, Bool.false_or]
    split <;> simp [State.core_arrived]
  have hs : (op != .barrier || !(s.arrived c x (encodeCmd op f)).sigsUnderWay c x) = true := by
    by_cases h : op = .barrier
    · have : (s.arrived c x (encodeCmd op f)).sigsUnderWay c x = s.sigsUnderWay c x := rfl
      rw [this, hb h]
      simp
    · simp [h]
  have h1 : (s.entry c x (encodeCmd op f)).ctx = x := rfl
  have h2 : (s.entry c x (encodeCmd op f)).stage = .arrived := rfl
  unfold State.mayIssue
  rw [h1, h2, hr, hl, hc, hpass, hs]
  have := hp.1
  simp [this]

/-- On a quiet core the resolution issues the one command. -/
theorem State.Quiet.resolve_eq (hq : s.Quiet c x) (ht : s.Takes c x op f) (hp : s.Passes c x op f)
    (hb : op = .barrier → s.sigsUnderWay c x = false) :
    (s.arrived c x (encodeCmd op f)).resolve c =
      (s.claimed c x (encodeCmd op f)).issueOne op c (s.entry c x (encodeCmd op f)) := by
  have hw : ((s.arrived c x (encodeCmd op f)).core c).waiting = [s.entry c x (encodeCmd op f)] := by
    simp [Core.waiting, State.core_arrived, State.entry, insertArr]
  have hf : ((s.arrived c x (encodeCmd op f)).core c).cmd? (s.entry c x (encodeCmd op f)).id
      = some (s.entry c x (encodeCmd op f)) := by
    simp [Core.cmd?, State.core_arrived]
  have hwaits : (s.entry c x (encodeCmd op f)).cmd.waits.all
      (waitOk ((s.arrived c x (encodeCmd op f)).core c) ((s.arrived c x (encodeCmd op f)).core c).counters
        ((s.arrived c x (encodeCmd op f)).core c).counters) = true := by
    have h : ∀ a b, waitOk ((s.arrived c x (encodeCmd op f)).core c) a b = waitOk (s.core c) a b := by
      intro a b
      funext w
      simp [waitOk, State.badCtr_arrived]
    rw [h, State.counters_arrived]
    exact ht.waits
  unfold State.resolve
  rw [hw]
  simp only [List.foldl_cons, List.foldl_nil]
  unfold State.resolveOne
  rw [hf]
  simp only [State.entry_op?, State.Quiet.mayIssue hq hp hb, hwaits, Bool.and_self, if_true]
  rfl

/-- The state in which a command issues: an XOBJ read has read its header from stacked memory (11 R245), a die macro its owner tables. -/
def State.headerRead (s : State) (c x : Nat) (op : Opcode) (f : CmdFields) : State :=
  (s.claimed c x (encodeCmd op f)).issueReads op c (s.entry c x (encodeCmd op f))

/-- The entry with its plan and the table slots it latches. -/
def State.plannedEntry (s : State) (c x : Nat) (op : Opcode) (f : CmdFields) : QCmd :=
  (s.headerRead c x op f).latchSlots ((s.entry c x (encodeCmd op f)).withPlan (s.plan c x op f))

/-- The entry as it stands once it has issued. -/
def State.issuedEntry (s : State) (c x : Nat) (op : Opcode) (f : CmdFields) : QCmd :=
  { s.plannedEntry c x op f with stage := .issued }

/-- A command of the control core, the NTT, the drawbench or the anvil reads nothing at its issue. -/
theorem State.headerRead_eq (h : op.engine < 4) : s.headerRead c x op f = s.claimed c x (encodeCmd op f) := by
  have hx : op ≠ .xobj := by rintro rfl; simp [Opcode.engine] at h
  have : xobjReads (s.claimed c x (encodeCmd op f)) c (s.entry c x (encodeCmd op f)) = none := by
    unfold xobjReads
    rw [State.entry_op?]
    simp [hx]
  have h5 : op.engine ≠ 5 := by omega
  simp [State.headerRead, State.issueReads, h5, this]

theorem State.plannedEntry_eq (h : op.engine < 4) :
    s.plannedEntry c x op f = s.latchSlots ((s.entry c x (encodeCmd op f)).withPlan (s.plan c x op f)) := by
  unfold State.plannedEntry
  rw [State.headerRead_eq h]
  rfl

@[simp] theorem State.startedEntry_cmd : (s.startedEntry c x op f).cmd = encodeCmd op f := rfl
@[simp] theorem State.startedEntry_id : (s.startedEntry c x op f).id = (s.core c).serial + 1 := rfl
@[simp] theorem State.plannedEntry_cmd : (s.plannedEntry c x op f).cmd = encodeCmd op f := rfl
theorem State.started_of_issued (h : op.engine < 4) : { s.issuedEntry c x op f with stage := .started } = s.startedEntry c x op f := by
  unfold State.issuedEntry State.startedEntry
  rw [State.plannedEntry_eq h]

/-- A quiet core with the command issued; its signal of mode 2 given. -/
def State.issued (s : State) (c x : Nat) (op : Opcode) (f : CmdFields) : State :=
  ((s.headerRead c x op f).modCmd c ((s.core c).serial + 1) (fun _ => s.issuedEntry c x op f)).signalIssue c (s.plannedEntry c x op f)

/-- What a stream command's row does on a quiet core, where its checks pass: its issue, then its start and its commit. -/
theorem State.Quiet.runWord_eq (hq : s.Quiet c x) (ht : s.Takes c x op f) (hp : s.Passes c x op f) (hb : op ≠ .barrier) :
    s.runWord c x (encodeCmd op f) =
      ((if op.engine = 0 then controlIssued op (s.issued c x op f) c (s.plannedEntry c x op f)
        else if op.engine = 5 then
          ((s.issued c x op f).joinGroup op c (s.plannedEntry c x op f)).tarnishDecided c (s.plannedEntry c x op f)
        else s.issued c x op f).tryStart c ((s.core c).serial + 1)).commitAll c ((s.core c).serial + 1) 17 := by
  unfold State.runWord
  rw [if_pos (by rw [State.Quiet.mayDispatch hq ht, hq.turn]; rfl), State.Quiet.dispatch_eq hq]
  simp only
  rw [State.Quiet.arriveHeads_eq hq ht, State.Quiet.resolve_eq hq ht hp (fun h => absurd h hb)]
  have hsk : (s.entry c x (encodeCmd op f)).skipped = false := by
    simp [State.entry]
    exact ht.pred
  congr 2
  unfold State.issueOne
  rw [hsk]
  have hv : (planOf op (s.claimed c x (encodeCmd op f)) c (s.entry c x (encodeCmd op f))).v = .ok := hp.2
  simp only [Bool.false_eq_true, if_false, hv, hb]
  rfl

end Sys2Proof.Machine
end

