-- ==== Sys2Proof/Laws/Life.lean ====
section
/-!
SUPPORT. Laws of the shared operations that end a command: what raising an event, perturbing, settling drawers and completing leave
unchanged, and what a control-core command does on a quiet core.
-/
namespace Sys2Proof.Machine

/-! ### Events and perturbations touch no core and no memory -/

@[simp] theorem State.cores_countReg (s : State) (r : RegName) (i x n : Nat) : (s.countReg r i x n).cores = s.cores := rfl
@[simp] theorem State.mem_countReg (s : State) (r : RegName) (i x n : Nat) : (s.countReg r i x n).mem = s.mem := rfl

theorem State.enqueueEvent_frame (s : State) (e : Event) :
    (s.enqueueEvent e).cores = s.cores ∧ (s.enqueueEvent e).mem = s.mem ∧ (s.enqueueEvent e).pending = s.pending := by
  unfold State.enqueueEvent State.countCoalesced
  dsimp only
  repeat' split
  all_goals exact ⟨rfl, rfl, rfl⟩

theorem State.raise_frame (s : State) (e : Event) :
    (s.raise e).cores = s.cores ∧ (s.raise e).mem = s.mem ∧ (s.raise e).pending = s.pending := by
  unfold State.raise
  dsimp only
  repeat' split
  all_goals first
    | exact ⟨rfl, rfl, rfl⟩
    | exact State.enqueueEvent_frame _ _

@[simp] theorem State.raise_cores (s : State) (e : Event) : (s.raise e).cores = s.cores := (s.raise_frame e).1
@[simp] theorem State.raise_mem (s : State) (e : Event) : (s.raise e).mem = s.mem := (s.raise_frame e).2.1
@[simp] theorem State.raise_pending (s : State) (e : Event) : (s.raise e).pending = s.pending := (s.raise_frame e).2.2

@[simp] theorem State.tarnishEvent_cores (s : State) (c : Nat) (q : QCmd) (st : Nat) : (s.tarnishEvent c q st).cores = s.cores := by
  unfold State.tarnishEvent
  repeat' split
  all_goals first | rfl | exact State.raise_cores _ _

@[simp] theorem State.tarnishEvent_mem (s : State) (c : Nat) (q : QCmd) (st : Nat) : (s.tarnishEvent c q st).mem = s.mem := by
  unfold State.tarnishEvent
  repeat' split
  all_goals first | rfl | exact State.raise_mem _ _

@[simp] theorem State.statusEvent_cores (s : State) (c : Nat) (q : QCmd) (st : Nat) : (s.statusEvent c q st).cores = s.cores := by
  unfold State.statusEvent
  repeat' split
  all_goals first | rfl | exact State.raise_cores _ _ | exact State.tarnishEvent_cores _ _ _ _

@[simp] theorem State.statusEvent_mem (s : State) (c : Nat) (q : QCmd) (st : Nat) : (s.statusEvent c q st).mem = s.mem := by
  unfold State.statusEvent
  repeat' split
  all_goals first | rfl | exact State.raise_mem _ _ | exact State.tarnishEvent_mem _ _ _ _

theorem State.statusEvent_ok (s : State) (c : Nat) (q : QCmd) : s.statusEvent c q stOk = s := by
  simp [State.statusEvent, halting, tarnishing, stOk, stOrphan, stStepSkipped]

theorem State.peenSee_frame (s : State) (k : Nat) :
    (s.peenSee k).cores = s.cores ∧ (s.peenSee k).mem = s.mem ∧ (s.peenSee k).pending = s.pending := by
  unfold State.peenSee
  dsimp only
  split <;> exact ⟨rfl, rfl, rfl⟩

theorem State.perturb_frame (s : State) (kind target : Nat) :
    (s.perturb kind target).cores = s.cores ∧ (s.perturb kind target).mem = s.mem ∧ (s.perturb kind target).pending = s.pending := by
  unfold State.perturb
  generalize s.peenSlots kind target = l
  induction l generalizing s with
  | nil => exact ⟨rfl, rfl, rfl⟩
  | cons k l ih =>
    have h1 := ih (s.peenSee k)
    have h2 := State.peenSee_frame s k
    exact ⟨h1.1.trans h2.1, h1.2.1.trans h2.2.1, h1.2.2.trans h2.2.2⟩

@[simp] theorem State.perturb_cores (s : State) (kind target : Nat) : (s.perturb kind target).cores = s.cores :=
  (s.perturb_frame kind target).1
@[simp] theorem State.perturb_mem (s : State) (kind target : Nat) : (s.perturb kind target).mem = s.mem :=
  (s.perturb_frame kind target).2.1

/-- Two states that agree but for the cores, the register file and the peening slots. -/
def State.butCores (s t : State) : Prop := { s with cores := [], regs := [], peen := [] } = { t with cores := [], regs := [], peen := [] }

theorem State.butCores.trans {s t u : State} (h : s.butCores t) (g : t.butCores u) : s.butCores u := Eq.trans h g

theorem State.modCore_rest (s : State) (c : Nat) (g : Core → Core) : (s.modCore c g).butCores s := rfl

theorem State.butCores.assay {s t : State} (h : s.butCores t) : s.assay = t.assay := by
  have : ({ s with cores := [], regs := [], peen := [] } : State).assay = ({ t with cores := [], regs := [], peen := [] } : State).assay := by
    rw [h]
  exact this

theorem State.butCores.mem {s t : State} (h : s.butCores t) : s.mem = t.mem := by
  have : ({ s with cores := [], regs := [], peen := [] } : State).mem = ({ t with cores := [], regs := [], peen := [] } : State).mem := by
    rw [h]
  exact this

theorem State.perturb_rest (s : State) (kind target : Nat) : (s.perturb kind target).butCores s := by
  unfold State.perturb
  generalize s.peenSlots kind target = l
  induction l generalizing s with
  | nil => rfl
  | cons k l ih =>
    rw [List.foldl_cons]
    refine Eq.trans (ih (s.peenSee k)) ?_
    unfold State.peenSee
    dsimp only
    split <;> rfl

theorem State.signalOwn_rest (s : State) (c : Nat) (q : QCmd) : (s.signalOwn c q).butCores s :=
  (State.modCore_rest _ c _).trans (State.perturb_rest s 3 c)

theorem State.signalIssue_rest (s : State) (c : Nat) (q : QCmd) : (s.signalIssue c q).butCores s := by
  unfold State.signalIssue
  split
  · exact State.signalOwn_rest s c q
  · rfl

theorem State.core_congr {s t : State} (h : s.cores = t.cores) (c : Nat) : s.core c = t.core c := by
  simp [State.core, h]

/-- A signal adds its amount to one counter of one core and changes no other part of a core. -/
theorem State.core_signalCounter (s : State) (c n d e : Nat) :
    (s.signalCounter c n d).core e =
      if e = c then (s.core c).setCounter n ((s.core c).counter n + BitVec.ofNat 16 d) else s.core e := by
  unfold State.signalCounter State.addCounter
  have h : ∀ k, (s.perturb 3 c).core k = s.core k := State.core_congr (State.perturb_cores s 3 c)
  by_cases he : e = c
  · subst he
    simp [h]
  · rw [State.core_modCore_ne _ _ he, h, if_neg he]

/-! ### Drawers settle -/

/-- Two cores that differ in their drawers only. -/
def Core.butDrawers (k l : Core) : Prop := { k with drawers := [] } = { l with drawers := [] }

/-- Settling the consumed drawers of a core changes drawers and nothing else of any core. -/
theorem State.settleClosing_core (s : State) (c d : Nat) : ((s.settleClosing c).core d).butDrawers (s.core d) := by
  unfold State.settleClosing
  generalize (s.core c).drawers.map (·.1) = l
  have key : ∀ (l : List Nat) (t : State), (t.core d).butDrawers (s.core d) →
      ((l.foldl (fun s e => if ((s.core c).drawer e).closing && !s.readers c e then s.modCore c (fun k => k.modDrawer e Drawer.emptied) else s)
        t).core d).butDrawers (s.core d) := by
    intro l
    induction l with
    | nil => intro t h; exact h
    | cons e l ih =>
      intro t h
      rw [List.foldl_cons]
      apply ih
      split
      · by_cases hd : d = c
        · subst hd
          rw [State.core_modCore]
          exact h
        · rw [State.core_modCore_ne _ _ hd]
          exact h
      · exact h
  exact key l s rfl

/-- With no drawer closing there is nothing to settle. -/
theorem State.settleClosing_none (s : State) (c : Nat) (h : ∀ d, ((s.core c).drawer d).closing = false) : s.settleClosing c = s := by
  unfold State.settleClosing
  generalize (s.core c).drawers.map (·.1) = l
  induction l with
  | nil => rfl
  | cons d l ih => rw [List.foldl_cons, h d]; exact ih

theorem State.settleClosing_frame (s : State) (c : Nat) :
    { (s.settleClosing c) with cores := [] } = { s with cores := [] } := by
  unfold State.settleClosing
  generalize (s.core c).drawers.map (·.1) = l
  have key : ∀ (l : List Nat) (t : State), { t with cores := [] } = { s with cores := [] } →
      { (l.foldl (fun s e => if ((s.core c).drawer e).closing && !s.readers c e then s.modCore c (fun k => k.modDrawer e Drawer.emptied) else s)
        t) with cores := [] } = { s with cores := [] } := by
    intro l
    induction l with
    | nil => intro t h; exact h
    | cons e l ih =>
      intro t h
      rw [List.foldl_cons]
      apply ih
      split
      · exact h
      · exact h
  exact key l s rfl

theorem Core.butDrawers.trans {k l m : Core} (h : k.butDrawers l) (g : l.butDrawers m) : k.butDrawers m := Eq.trans h g

theorem Core.butDrawers.q {k l : Core} (h : k.butDrawers l) : k.q = l.q := by
  have : ({ k with drawers := [] } : Core).q = ({ l with drawers := [] } : Core).q := by rw [h]
  exact this
theorem Core.butDrawers.context {k l : Core} (h : k.butDrawers l) (x : Nat) : k.context x = l.context x := by
  have : ({ k with drawers := [] } : Core).context x = ({ l with drawers := [] } : Core).context x := by rw [h]
  exact this
theorem Core.butDrawers.counter {k l : Core} (h : k.butDrawers l) (n : Nat) : k.counter n = l.counter n := by
  have : ({ k with drawers := [] } : Core).counter n = ({ l with drawers := [] } : Core).counter n := by rw [h]
  exact this
theorem Core.butDrawers.hdr {k l : Core} (h : k.butDrawers l) (d : Nat) : k.hdr d = l.hdr d := by
  have : ({ k with drawers := [] } : Core).hdr d = ({ l with drawers := [] } : Core).hdr d := by rw [h]
  exact this
theorem Core.butDrawers.descs {k l : Core} (h : k.butDrawers l) : k.descs = l.descs := by
  have : ({ k with drawers := [] } : Core).descs = ({ l with drawers := [] } : Core).descs := by rw [h]
  exact this

/-! ### Completion -/

/-- The state of a completion before the drawers settle: the command has left its queue and given its signal. -/
def State.dropped (s : State) (c : Nat) (q : QCmd) (st : Nat) : State :=
  let s := s.modCore c (fun k => k.dropCmd q.id)
  if signalsAt q.cmd.sigMode st then s.signalOwn c q else s

/-- A completion that neither halts nor reports an abort: the command leaves its queue, signals, and drawers settle. -/
theorem State.complete_core (s : State) (c : Nat) (q : QCmd) (st : Nat) (h1 : halting st = false) (h2 : st ≠ stAborted) (d : Nat) :
    ((s.complete c q st).core d).butDrawers ((s.dropped c q st).core d) := by
  unfold State.complete
  simp only [h1, Bool.false_eq_true, if_false, h2]
  have h3 : ∀ t : State, ((t.statusEvent c q st).core d) = t.core d := fun t => State.core_congr (State.statusEvent_cores t c q st) d
  split
  · refine (State.settleClosing_core _ _ d).trans ((State.settleClosing_core _ _ d).trans ?_)
    rw [h3]
    rfl
  · refine (State.settleClosing_core _ _ d).trans ?_
    rw [h3]
    rfl

/-- A command dropped from a queue that holds it alone leaves the queue empty. -/
theorem Core.dropCmd_single (k : Core) (q : QCmd) (h : k.q = [q]) : (k.dropCmd q.id).q = [] := by
  simp [Core.dropCmd, h]

/-- Once a command has completed it commits no more. -/
theorem State.commitAll_gone (s : State) (c id n : Nat) (h : (s.core c).cmd? id = none) : s.commitAll c id n = s := by
  induction n with
  | zero => rfl
  | succ n ih =>
    unfold State.commitAll State.tryCommit
    rw [h]
    exact ih

/-! ### A control-core command on a quiet core -/

variable {s : State} {c x : Nat} {op : Opcode} {f : CmdFields}

theorem QCmd.signalIssue_core (s : State) (c : Nat) (q : QCmd) (d : Nat) :
    (s.signalIssue c q).core d =
      if d = c ∧ q.cmd.sigMode = 2 then
        (s.core c).setCounter q.cmd.sigCtr ((s.core c).counter q.cmd.sigCtr + BitVec.ofNat 16 q.cmd.sigDelta)
      else s.core d := by
  unfold State.signalIssue
  by_cases h : q.cmd.sigMode = 2
  · rw [if_pos h]
    unfold State.signalOwn
    rw [State.core_signalCounter]
    simp [h]
  · simp [h]

/-- The queue of the core once the command has issued holds it alone. -/
theorem State.issued_q (h : op.engine < 4) : ((s.issued c x op f).core c).q = [s.issuedEntry c x op f] := by
  unfold State.issued
  rw [QCmd.signalIssue_core, State.headerRead_eq h]
  have : (((s.claimed c x (encodeCmd op f)).modCmd c ((s.core c).serial + 1) (fun _ => s.issuedEntry c x op f)).core c).q
      = [s.issuedEntry c x op f] := by
    simp [State.modCmd, State.claimed, State.arrived, Core.modCmd, modFirst, State.entry]
  split
  · exact this
  · exact this

/-- A quiet core with a control-core command at its start. -/
def State.begun (s : State) (c x : Nat) (op : Opcode) (f : CmdFields) : State :=
  (controlIssued op (s.issued c x op f) c (s.plannedEntry c x op f)).modCmd c
    ((s.core c).serial + 1) (fun q => { q with stage := .started })

theorem controlIssued_q (h : op ≠ .rsig) (t : State) (q : QCmd) : ((controlIssued op t c q).core c).q = (t.core c).q := by
  cases op <;> first | rfl | exact absurd rfl h

theorem State.begun_q (h : op.engine < 4) (hr : op ≠ .rsig) : ((s.begun c x op f).core c).q = [s.startedEntry c x op f] := by
  unfold State.begun State.modCmd
  simp only [State.core_modCore, Core.modCmd, controlIssued_q hr, State.issued_q h, modFirst]
  rw [← State.started_of_issued h]
  exact if_pos (beq_self_eq_true _)

/-- The effect of a control-core command leaves the queue of its core as it is. -/
theorem runControl_q (t : State) (q : QCmd) : (((runControl op t c q).1).core c).q = (t.core c).q := by
  have hctx : ∀ (u : State) (y : Nat) (g : Ctx → Ctx), ((u.modContext c y g).core c).q = (u.core c).q := by
    intro u y g
    simp [State.modContext, Core.setContext]
  have hcore : ∀ (u : State) (e : Event), ((u.raise e).core c).q = (u.core c).q := by
    intro u e
    rw [State.core_congr (State.raise_cores u e)]
  cases op <;> simp only [runControl, hctx]
  case hset => simp [Core.setHdr]
  case hcopy => simp [Core.setHdr]
  case cadd => simp [State.addCounter, Core.setCounter]
  case descwr => simp
  case drtag =>
    simp only [State.core_modCore, Core.drtag]
    have : ∀ (l : List Nat) (k : Core), (l.foldl (fun k d =>
        k.modDrawer d (fun v => if q.cmd.fn = 0 then v.emptied else { v with tag := .full })) k).q = k.q := by
      intro l
      induction l with
      | nil => intro k; rfl
      | cons a l ih => intro k; rw [List.foldl_cons, ih]; rfl
    exact this _ _
  case lsdecide =>
    unfold runLsdecide
    have hs : ∀ (u : State) (r : RegName) (i x : Nat) (v : W32), (u.setReg r i x v).core c = u.core c := fun _ _ _ _ _ => rfl
    have hev : ∀ (u : State) (a b d : Nat), ((u.cmdEvent c q a b d).core c).q = (u.core c).q := fun u a b d => hcore u _
    dsimp only
    repeat' split
    all_goals simp only [State.setRf, hs, hev, hctx]
  case lrpick =>
    unfold runLrpick State.clearHist
    have : ∀ (l : List Nat) (u : State) (h : Nat), (l.foldl (fun s i => s.setReg .histBin c (64 * h + i) 0) u).core c = u.core c := by
      intro l
      induction l with
      | nil => intro u h; rfl
      | cons a l ih => intro u h; rw [List.foldl_cons, ih]; rfl
    rw [this]
    rfl

/-- The status a control-core command completes with neither halts nor aborts. -/
theorem runControl_status (t : State) (q : QCmd) :
    (runControl op t c q).2 = stOk ∨ op = .lsdecide ∧ (runControl op t c q).2 = stStepSkipped := by
  cases op <;> first | exact Or.inl rfl | skip
  case lsdecide =>
    simp only [runControl]
    unfold runLsdecide
    dsimp only
    split
    · exact Or.inr ⟨trivial, rfl⟩
    · split <;> exact Or.inl rfl

theorem State.entry_op (c x : Nat) (op : Opcode) (f : CmdFields) : (s.startedEntry c x op f).cmd.op? = some op := by
  simp

/-! ### The registers a perturbation may count in -/

theorem State.perturb_regs (s : State) (kind target a : Nat) (h : ¬ appliedAddr a) :
    Tab.find? (s.perturb kind target).regs a = Tab.find? s.regs a := by
  unfold State.perturb
  have hl : ∀ k ∈ s.peenSlots kind target, k < 8 := by
    intro k hk
    unfold State.peenSlots at hk
    split at hk
    · exact List.mem_range.1 (List.mem_of_mem_filter hk)
    · simp at hk
  revert hl
  generalize s.peenSlots kind target = l
  induction l generalizing s with
  | nil => intro _; rfl
  | cons k l ih =>
    intro hl
    rw [List.foldl_cons, ih _ (fun j hj => hl j (List.mem_cons_of_mem _ hj))]
    unfold State.peenSee
    dsimp only
    split
    · have hne : a ≠ RegKey.addr ⟨.pnApplied, 0, k⟩ := fun e => h ⟨k, hl k (List.mem_cons_self ..), e⟩
      unfold State.countReg State.setReg State.setRegK
      rw [Tab.find?_set_ne _ _ _ hne]
    · rfl

theorem State.regK_congr {s t : State} {k : RegKey} (h : Tab.find? s.regs k.addr = Tab.find? t.regs k.addr) :
    s.regK k = t.regK k := by simp [State.regK, Tab.get, h]

/-- A register's address from the numbers of its row in the register map. -/
theorem RegKey.addr_eq (r : RegName) (i x b o n : Nat) (hb : r.block.base = b) (ho : r.offset = o) (hs : r.stride = n) :
    RegKey.addr ⟨r, i, x⟩ = controlBase + b + i * 0x10000 + o + n * x := by
  subst hb ho hs
  rfl

theorem sbStatus_not_peen : ¬ appliedAddr (RegKey.addr ⟨.sbStatus, 0, 0⟩) := by
  rintro ⟨k, hk, h⟩
  rw [RegKey.addr_eq .sbStatus 0 0 0 256 0 rfl rfl rfl, RegKey.addr_eq .pnApplied 0 k 983040 512 4 rfl rfl rfl] at h
  omega

theorem coreMode_not_peen (c : Nat) : ¬ appliedAddr (RegKey.addr ⟨.coreMode, c, 0⟩) := by
  rintro ⟨k, hk, h⟩
  rw [RegKey.addr_eq .coreMode c 0 4194304 0 0 rfl rfl rfl, RegKey.addr_eq .pnApplied 0 k 983040 512 4 rfl rfl rfl] at h
  omega

theorem State.perturb_modeM (s : State) (kind target c : Nat) : (s.perturb kind target).modeM c = s.modeM c := by
  unfold State.modeM State.reg
  rw [State.regK_congr (State.perturb_regs s kind target _ (coreMode_not_peen c))]

theorem State.perturb_coreLive (s : State) (kind target c : Nat) : (s.perturb kind target).coreLive c = s.coreLive c := by
  unfold State.coreLive State.reg
  rw [State.regK_congr (State.perturb_regs s kind target _ sbStatus_not_peen)]

theorem State.signalIssue_coreLive (s : State) (c d : Nat) (q : QCmd) : (s.signalIssue c q).coreLive d = s.coreLive d := by
  unfold State.signalIssue
  split
  · exact State.perturb_coreLive s 3 c d
  · rfl

theorem State.issued_coreLive (h : op.engine < 4) (d : Nat) : (s.issued c x op f).coreLive d = s.coreLive d := by
  unfold State.issued
  rw [State.signalIssue_coreLive, State.headerRead_eq h]
  rfl

theorem State.issued_modeM (h : op.engine < 4) (d : Nat) : (s.issued c x op f).modeM d = s.modeM d := by
  unfold State.issued State.signalIssue
  rw [State.headerRead_eq h]
  split
  · exact State.perturb_modeM ((s.claimed c x (encodeCmd op f)).modCmd c ((s.core c).serial + 1) (fun _ => s.issuedEntry c x op f)) 3 c d
  · rfl

/-- Contexts once the command has issued: the program counter has moved on. -/
theorem State.issued_context (h : op.engine < 4) (y : Nat) :
    (s.issued c x op f).context c y =
      if y = x then { (s.context c x) with pc := (s.context c x).pc + 32 } else s.context c y := by
  unfold State.issued
  have h0 : ∀ (u : State) (q : QCmd), (u.signalIssue c q).context c y = u.context c y := by
    intro u q
    unfold State.context
    rw [QCmd.signalIssue_core]
    split <;> rfl
  rw [h0, State.headerRead_eq h]
  have h1 : ((s.claimed c x (encodeCmd op f)).modCmd c ((s.core c).serial + 1) (fun _ => s.issuedEntry c x op f)).context c y
      = ((s.core c).setContext x { (s.context c x) with pc := (s.context c x).pc + 32 }).context y := by
    simp [State.context, State.modCmd, State.claimed, State.arrived, Core.modCmd, Core.context]
  rw [h1]
  by_cases hy : y = x
  · subst hy
    simp
  · rw [Core.context_setContext_ne _ _ hy, if_neg hy]
    rfl

theorem State.issued_other (h : op.engine < 4) {d : Nat} (hd : d ≠ c) : (s.issued c x op f).core d = s.core d := by
  unfold State.issued
  rw [QCmd.signalIssue_core, State.headerRead_eq h]
  simp only [hd, false_and, if_false]
  unfold State.modCmd State.claimed State.arrived
  rw [State.core_modCore_ne _ _ hd, State.core_modCore_ne _ _ hd, State.core_modCore_ne _ _ hd]

theorem controlIssued_cores (hr : op ≠ .rsig) (t : State) (q : QCmd) : (controlIssued op t c q).cores = t.cores := by
  cases op <;> first | rfl | exact absurd rfl hr

theorem clearStatus_ne_sbStatus (c : Nat) : RegKey.addr ⟨.sbStatus, 0, 0⟩ ≠ RegKey.addr ⟨.clearStatus, c, 0⟩ := by
  rw [RegKey.addr_eq .sbStatus 0 0 0 256 0 rfl rfl rfl, RegKey.addr_eq .clearStatus c 0 4194304 1796 0 rfl rfl rfl]
  omega

theorem controlIssued_coreLive (hr : op ≠ .rsig) (t : State) (q : QCmd) (d : Nat) :
    (controlIssued op t c q).coreLive d = t.coreLive d := by
  cases op <;> first | rfl | exact absurd rfl hr | skip
  case lsdecide =>
    have : (controlIssued .lsdecide t c q).regK ⟨.sbStatus, 0, 0⟩ = t.regK ⟨.sbStatus, 0, 0⟩ := by
      unfold controlIssued State.setRf State.setReg
      rw [State.regK_setRegK_ne _ _ (clearStatus_ne_sbStatus c)]
    unfold State.coreLive State.reg
    rw [this]

/-- What the issue of a control-core command leaves: its entry issued, its effect at issue done. -/
def State.posted (s : State) (c x : Nat) (op : Opcode) (f : CmdFields) : State :=
  controlIssued op (s.issued c x op f) c (s.plannedEntry c x op f)

theorem State.commitAll_succ (s : State) (c id n : Nat) : s.commitAll c id (n + 1) = (s.tryCommit c id).commitAll c id n := rfl

theorem State.issuedEntry_id : (s.issuedEntry c x op f).id = (s.core c).serial + 1 := rfl
theorem State.issuedEntry_eng : (s.issuedEntry c x op f).eng = op.engine := encodeCmd_engine op f

theorem State.Quiet.tryStart_control (hq : s.Quiet c x) (he : op.engine = 0) (hr : op ≠ .rsig)
    (hready : controlReady (s.posted c x op f) c (s.issuedEntry c x op f) = true) :
    (s.posted c x op f).tryStart c ((s.core c).serial + 1) = s.begun c x op f := by
  have hxo : op.engine < 4 := by omega
  have hcores : (s.posted c x op f).cores = (s.issued c x op f).cores := controlIssued_cores hr _ _
  have hfind : ((s.posted c x op f).core c).cmd? ((s.core c).serial + 1) = some (s.issuedEntry c x op f) := by
    rw [State.core_congr hcores, Core.cmd?, State.issued_q hxo]
    simp [State.issuedEntry_id]
  have hctx : ((s.posted c x op f).context c x).st = .running := by
    rw [State.context, State.core_congr hcores, ← State.context, State.issued_context hxo]
    simpa using hq.running
  have hlive : (s.posted c x op f).coreLive c = true := by
    rw [State.posted, controlIssued_coreLive hr, State.issued_coreLive hxo, hq.live]
  unfold State.tryStart
  rw [hfind]
  have h1 : (s.issuedEntry c x op f).stage = .issued := rfl
  have h2 : (s.issuedEntry c x op f).ctx = x := rfl
  have h3 : (s.issuedEntry c x op f).eng = 0 := by rw [State.issuedEntry_eng, he]
  have hgo : ((s.posted c x op f).context c x).goesOn (s.issuedEntry c x op f) = true := by simp [Ctx.goesOn, hctx]
  simp only [h1, h2, h3, hgo, hlive, hready, ne_eq, not_true_eq_false, Bool.not_true, Bool.false_eq_true, or_self, if_false, if_true]
  rfl

theorem State.begun_coreLive (hr : op ≠ .rsig) (hx : op.engine < 4) (d : Nat) : (s.begun c x op f).coreLive d = s.coreLive d := by
  unfold State.begun
  have : ∀ (t : State) (g : QCmd → QCmd), (t.modCmd c ((s.core c).serial + 1) g).coreLive d = t.coreLive d := fun _ _ => rfl
  rw [this, controlIssued_coreLive hr, State.issued_coreLive hx]

/-- What a control-core command's commit is. -/
theorem State.Quiet.tryCommit_control (hq : s.Quiet c x) (he : op.engine = 0) (hn : op ≠ .endStream) (hr : op ≠ .rsig)
    (hd : op ≠ .hdrop) :
    (s.begun c x op f).tryCommit c ((s.core c).serial + 1) =
      ((runControl op (s.begun c x op f) c (s.startedEntry c x op f)).1).complete c (s.startedEntry c x op f)
        (runControl op (s.begun c x op f) c (s.startedEntry c x op f)).2 := by
  have hxo : op.engine < 4 := by omega
  have hfind2 : ((s.begun c x op f).core c).cmd? ((s.core c).serial + 1) = some (s.startedEntry c x op f) := by
    rw [Core.cmd?, State.begun_q hxo hr]
    simp
  have hlive2 : (s.begun c x op f).coreLive c = true := by rw [State.begun_coreLive hr hxo, hq.live]
  unfold State.tryCommit
  rw [hfind2]
  have h1 : (s.startedEntry c x op f).stage = .started := rfl
  have h3 : (s.startedEntry c x op f).eng = 0 := (State.issuedEntry_eng (s := s) (c := c) (x := x)).trans he
  have hbeh : tmulBehind (s.begun c x op f) c (s.startedEntry c x op f) = false := by
    simp [tmulBehind, State.begun_q hxo hr]
  simp only [State.entry_op, h1, hlive2, hbeh, Bool.not_false, and_self, if_true]
  unfold State.commitCmd
  simp only [h3, hn, hd, if_false]

/-- A completion of the one command of a core empties its queue. -/
theorem State.complete_q (t : State) (c : Nat) (q : QCmd) (st : Nat) (h1 : halting st = false) (h2 : st ≠ stAborted)
    (h : (t.core c).q = [q]) : ((t.complete c q st).core c).q = [] := by
  rw [(State.complete_core t c q st h1 h2 c).q]
  unfold State.dropped
  have h0 : ((t.modCore c (fun k => k.dropCmd q.id)).core c).q = [] := by
    rw [State.core_modCore]
    exact Core.dropCmd_single _ _ h
  dsimp only
  split
  · unfold State.signalOwn
    rw [State.core_signalCounter, if_pos rfl]
    exact h0
  · exact h0

/-- The row of a control-core command on a quiet core: once issued it takes effect and completes. -/
theorem State.Quiet.control (hq : s.Quiet c x) (ht : s.Takes c x op f) (hp : s.Passes c x op f) (he : op.engine = 0)
    (hb : op ≠ .barrier) (hn : op ≠ .endStream) (hr : op ≠ .rsig) (hd : op ≠ .hdrop)
    (hready : controlReady (s.posted c x op f) c (s.issuedEntry c x op f) = true) :
    s.runWord c x (encodeCmd op f) =
      ((runControl op (s.begun c x op f) c (s.startedEntry c x op f)).1).complete c (s.startedEntry c x op f)
        (runControl op (s.begun c x op f) c (s.startedEntry c x op f)).2 := by
  have hxo : op.engine < 4 := by omega
  rw [State.Quiet.runWord_eq hq ht hp hb, if_pos he]
  have e1 := State.Quiet.tryStart_control (f := f) hq he hr hready
  unfold State.posted at e1
  rw [e1, State.commitAll_succ, State.Quiet.tryCommit_control hq he hn hr hd]
  apply State.commitAll_gone
  have hst := runControl_status (op := op) (c := c) (s.begun c x op f) (s.startedEntry c x op f)
  have hh : halting (runControl op (s.begun c x op f) c (s.startedEntry c x op f)).2 = false := by
    rcases hst with h | ⟨-, h⟩ <;> rw [h] <;> decide
  have ha : (runControl op (s.begun c x op f) c (s.startedEntry c x op f)).2 ≠ stAborted := by
    rcases hst with h | ⟨-, h⟩ <;> rw [h] <;> decide
  rw [Core.cmd?, State.complete_q _ _ _ _ hh ha (by rw [runControl_q, State.begun_q hxo hr])]
  rfl

end Sys2Proof.Machine
end

