-- ==== Sys2Proof/Laws/Engine.lean ====
section
/-!
SUPPORT. Laws of the engine commands (NTT, drawbench, anvil): on a quiet core with its drawers ready, a command's row is its run, its
result headers and the tags its commit sets.
-/
namespace Sys2Proof.Machine

variable {s : State} {c x : Nat} {op : Opcode} {f : CmdFields}

/-- An engine command at its start: its entry started and its destinations claimed. -/
def State.claimedDests (s : State) (c x : Nat) (op : Opcode) (f : CmdFields) : State :=
  (s.issued c x op f).started c (s.issuedEntry c x op f)

/-- Drawers and their number through a change of other parts of a core. -/
theorem State.issued_drawer (h : op.engine < 4) (e d : Nat) : ((s.issued c x op f).core e).drawer d = (s.core e).drawer d := by
  by_cases he : e = c
  · subst he
    unfold State.issued
    rw [QCmd.signalIssue_core, State.headerRead_eq h]
    have : ∀ q : QCmd, (((s.claimed e x (encodeCmd op f)).modCmd e ((s.core e).serial + 1) (fun _ => q)).core e).drawer d
        = (s.core e).drawer d := by
      intro q
      simp [State.modCmd, State.claimed, State.arrived, Core.modCmd, Core.drawer, Core.setContext]
    split
    · exact this _
    · exact this _
  · rw [State.issued_other h he]

/-- The anvil's storage is as it was when a command has issued. -/
theorem State.issued_anvil (h : op.engine < 4) :
    ((s.issued c x op f).core c).tiles = (s.core c).tiles ∧ ((s.issued c x op f).core c).accs = (s.core c).accs
      ∧ ((s.issued c x op f).core c).latches = (s.core c).latches := by
  unfold State.issued
  rw [QCmd.signalIssue_core, State.headerRead_eq h]
  split <;> simp [State.modCmd, State.claimed, State.arrived, Core.modCmd, Core.setContext, Core.setCounter]

theorem foldl_drawers_anvil (l : List Nat) (g : Drawer → Drawer) (k : Core) :
    (l.foldl (fun k d => k.modDrawer d g) k).tiles = k.tiles ∧ (l.foldl (fun k d => k.modDrawer d g) k).accs = k.accs
      ∧ (l.foldl (fun k d => k.modDrawer d g) k).latches = k.latches := by
  induction l generalizing k with
  | nil => exact ⟨rfl, rfl, rfl⟩
  | cons a l ih => rw [List.foldl_cons]; exact ih _

theorem foldl_drawers_q (l : List Nat) (g : Drawer → Drawer) (k : Core) : (l.foldl (fun k d => k.modDrawer d g) k).q = k.q := by
  induction l generalizing k with
  | nil => rfl
  | cons a l ih => rw [List.foldl_cons, ih]; rfl

theorem State.claimedDests_q (h : op.engine < 4) : ((s.claimedDests c x op f).core c).q = [s.startedEntry c x op f] := by
  unfold State.claimedDests State.started
  rw [State.core_modCore]
  simp only [Core.modCmd, foldl_drawers_q, State.issued_q h, modFirst]
  rw [← State.started_of_issued h]
  exact if_pos (beq_self_eq_true _)

theorem State.claimedDests_anvil (h : op.engine < 4) :
    ((s.claimedDests c x op f).core c).tiles = (s.core c).tiles ∧ ((s.claimedDests c x op f).core c).accs = (s.core c).accs
      ∧ ((s.claimedDests c x op f).core c).latches = (s.core c).latches := by
  unfold State.claimedDests State.started
  rw [State.core_modCore]
  have key := foldl_drawers_anvil (s.issuedEntry c x op f).dsts (fun v => { v with claim := true }) ((s.issued c x op f).core c)
  have h1 := State.issued_anvil (s := s) (c := c) (x := x) (f := f) h
  exact ⟨key.1.trans h1.1, key.2.1.trans h1.2.1, key.2.2.trans h1.2.2⟩

theorem State.claimedDests_coreLive (h : op.engine < 4) (d : Nat) : (s.claimedDests c x op f).coreLive d = s.coreLive d :=
  State.issued_coreLive h d

theorem Opcode.plain_engine (h : op.engine = 1 ∨ op.engine = 2 ∨ op.engine = 3) : op.engine < 4 ∧ op ≠ .barrier :=
  ⟨by omega, by rintro rfl; simp [Opcode.engine] at h⟩

/-- A rotation stops before the context it leads to. -/
theorem rotationBefore_ne {last y : Nat} (h : y ∈ rotationBefore last x) : y ≠ x := by
  have := List.mem_takeWhile_imp h
  simpa using this

theorem State.ready_not_torn (v : Drawer) (h : v.ready = true) : v.tag = .full := by
  unfold Drawer.ready at h
  simp at h
  exact h.1

theorem State.open_tag (v : Drawer) (h : v.open_ = true) : v.tag = .empty ∨ v.tag = .torn := by
  unfold Drawer.open_ at h
  simp at h
  exact h.1

/-- Dispatch, arrival and issue of a command change its core, and the counts of perturbed signals, and nothing else. -/
theorem State.issued_rest (h : op.engine < 4) : (s.issued c x op f).butCores s := by
  unfold State.issued
  rw [State.headerRead_eq h]
  refine (State.signalIssue_rest _ c _).trans ?_
  exact (State.modCore_rest _ c _).trans ((State.modCore_rest _ c _).trans (State.modCore_rest _ c _))

theorem State.butCores.waitw {s t : State} (h : s.butCores t) : s.waitw = t.waitw := by
  have : ({ s with cores := [], regs := [], peen := [] } : State).waitw = ({ t with cores := [], regs := [], peen := [] } : State).waitw := by
    rw [h]
  exact this

/-- With its tags ready an engine command starts on a quiet core. -/
theorem State.Quiet.tryStart_engine (hq : s.Quiet c x) (he : op.engine = 1 ∨ op.engine = 2 ∨ op.engine = 3)
    (hs : s.Starts c x op f) :
    (s.issued c x op f).tryStart c ((s.core c).serial + 1) = s.claimedDests c x op f := by
  obtain ⟨hxo, hba⟩ := Opcode.plain_engine he
  have hfind : ((s.issued c x op f).core c).cmd? ((s.core c).serial + 1) = some (s.issuedEntry c x op f) := by
    rw [Core.cmd?, State.issued_q hxo]
    simp [State.issuedEntry_id]
  have hctx : ((s.issued c x op f).context c x).st = .running := by
    rw [State.issued_context hxo]
    simpa using hq.running
  have hlive : (s.issued c x op f).coreLive c = true := by rw [State.issued_coreLive hxo, hq.live]
  have h1 : (s.issuedEntry c x op f).stage = .issued := rfl
  have h2 : (s.issuedEntry c x op f).ctx = x := rfl
  have h3 : (s.issuedEntry c x op f).eng = op.engine := State.issuedEntry_eng
  have h0 : ¬ (op.engine = 0) := by omega
  have h4 : ¬ (op.engine = 4) := by omega
  have h5 : ¬ (op.engine = 5) := by omega
  unfold State.tryStart
  rw [hfind]
  have hgo : ((s.issued c x op f).context c x).goesOn (s.issuedEntry c x op f) = true := by simp [Ctx.goesOn, hctx]
  simp only [h1, h2, h3, hgo, hlive, h0, h5, ne_eq, not_true_eq_false, Bool.not_true, Bool.false_eq_true, or_self, if_false]
  have hdr : ∀ e d, ((s.issued c x op f).core e).drawer d = (s.core e).drawer d := State.issued_drawer hxo
  have hsrcs : (s.issuedEntry c x op f).sources c = (s.startedEntry c x op f).sources c := rfl
  have hready := hs.sources
  have hopen : ∀ d ∈ (s.plan c x op f).dsts, ((s.core c).drawer d).open_ = true := by
    intro d hd
    have := List.all_eq_true.1 hs.dests d hd
    rw [Bool.and_eq_true] at this
    exact this.1
  simp only [List.all_eq_true] at hready
  have hfree : (s.issued c x op f).engineFree c (s.issuedEntry c x op f) = true := by
    unfold State.engineFree
    rw [State.issued_q hxo, h3]
    simp only [h4, if_false]
    have hst : (s.issuedEntry c x op f).stage = .issued := rfl
    unfold anvilFree
    rw [State.issued_q hxo]
    simp [hst]
    exact Or.inr (by split <;> rfl)
  have horphan : ((s.issuedEntry c x op f).sources c ++ (s.issuedEntry c x op f).dsts.map (fun d => (c, d))).any
      (fun e => (((s.issued c x op f).core e.1).drawer e.2).tag == .orphan) = false := by
    rw [List.any_eq_false]
    intro e hmem
    rw [hdr]
    rcases List.mem_append.1 hmem with h | h
    · rw [hsrcs] at h
      simp [State.ready_not_torn _ (hready e h)]
    · obtain ⟨d, hd, rfl⟩ := List.mem_map.1 h
      rcases State.open_tag _ (hopen d hd) with h | h <;> simp [h]
  have htorn : ((s.issuedEntry c x op f).sources c).any
      (fun e => (((s.issued c x op f).core e.1).drawer e.2).tag == .torn) = false := by
    rw [List.any_eq_false]
    intro e hmem
    rw [hdr]
    rw [hsrcs] at hmem
    simp [State.ready_not_torn _ (hready e hmem)]
  have hall1 : ((s.issuedEntry c x op f).sources c).all (fun e => (((s.issued c x op f).core e.1).drawer e.2).ready) = true := by
    rw [List.all_eq_true]
    intro e hmem
    rw [hdr]
    exact hready e hmem
  have hall2 : (s.issuedEntry c x op f).dsts.all (fun d => (((s.issued c x op f).core c).drawer d).open_) = true := by
    rw [List.all_eq_true]
    intro d hd
    rw [hdr]
    exact hopen d hd
  have hassay : ((s.issuedEntry c x op f).peer.toList.all
      (fun p => !((s.issued c x op f).assay.testing && (s.issued c x op f).assay.core == some p.1))) = true := by
    have : (s.issued c x op f).assay = s.assay :=
      (State.issued_rest (s := s) (c := c) (x := x) (f := f) hxo).assay
    simp [this, hs.assay]
  have hbefore : (s.issued c x op f).startsBefore c (s.issuedEntry c x op f) = [] := by
    simp [State.startsBefore, State.issued_q hxo]
  have hwin : (s.issuedEntry c x op f).dsts.all (fun d => !(s.issued c x op f).writerAhead c (s.issuedEntry c x op f) d) = true := by
    have hw : (s.issued c x op f).waitw = s.waitw := (State.issued_rest (s := s) (c := c) (x := x) (f := f) hxo).waitw
    rw [List.all_eq_true]
    intro d hd
    unfold State.writerAhead
    rw [hbefore, hw]
    simp only [List.any_nil, Bool.false_or, Bool.not_eq_true', List.any_eq_false]
    intro w hmem
    have := List.all_eq_true.1 hs.window w hmem
    simp only [Bool.or_eq_true, bne_iff_ne, ne_eq, List.all_eq_true] at this
    rcases this with h | h
    · simp [h]
    · have := h d hd
      simp only [Bool.not_eq_true'] at this
      simp [of_decide_eq_false this]
  have hlease : (s.issued c x op f).leaseAhead c (s.issuedEntry c x op f) = false := by
    simp [State.leaseAhead, hbefore]
  have hturn : (s.issued c x op f).startTurn c (s.issuedEntry c x op f) = true := by
    unfold State.startTurn
    rw [Bool.or_eq_true, List.all_eq_true]
    refine Or.inr (fun y hy => ?_)
    have hne := rotationBefore_ne hy
    have : ((s.issued c x op f).core c).nextStart y (s.issuedEntry c x op f).eng = none := by
      have h2' : ¬ x = y := fun e => hne (by rw [← e, h2])
      simp [Core.nextStart, Core.queueOf, State.issued_q hxo, h2, h2']
    rw [this]
  have hcan : (s.issued c x op f).canStart c (s.issuedEntry c x op f) = true := by
    unfold State.canStart State.tagsReady
    rw [hall1, hall2, hfree, hassay, hwin, hlease]
    rfl
  unfold State.startEngine
  dsimp only
  rw [horphan, htorn, hcan, hturn]
  rfl

/-! ### Stores touch no core -/

/-- Two states with the same cores. -/
def State.sameCores (s t : State) : Prop := s.cores = t.cores

theorem State.sameCores.refl (s : State) : s.sameCores s := rfl
theorem State.sameCores.trans {s t u : State} (h : s.sameCores t) (g : t.sameCores u) : s.sameCores u := Eq.trans h g

theorem State.sameCores.ite {b : Prop} [Decidable b] {s t u : State} (h : s.sameCores u) (g : t.sameCores u) :
    (if b then s else t).sameCores u := by
  split
  · exact h
  · exact g

theorem foldl_cores {α : Type} (g : State → α → State) (h : ∀ u a, (g u a).sameCores u) (l : List α) (s : State) :
    (l.foldl g s).sameCores s := by
  induction l generalizing s with
  | nil => exact State.sameCores.refl s
  | cons a l ih => exact (ih _).trans (h s a)

theorem State.store_cores (s : State) (a : Nat) (bs : List Byte) : (s.store a bs).sameCores s := by
  unfold State.store
  dsimp only
  repeat' split
  all_goals exact State.sameCores.refl s

theorem State.storeLE_cores (s : State) (a n v : Nat) : (s.storeLE a n v).sameCores s := State.store_cores s a _

theorem State.storeLimb_cores (s : State) (c d l i : Nat) (vs : List Nat) : (s.storeLimb c d l i vs).sameCores s :=
  State.store_cores s _ _

theorem State.storeUnits_cores (s : State) (as : List Int) (u : Nat) (vs : List Nat) : (s.storeUnits as u vs).sameCores s :=
  foldl_cores (fun (t : State) (e : Int × Nat) => t.storeLE e.1.toNat u e.2) (fun t _ => State.storeLE_cores t _ _ _) _ s

theorem State.histCount_cores (s : State) (c h : Nat) (b : Int) (vs : List (Nat × Bool)) :
    (s.histCount c h b vs).1.sameCores s := by
  unfold State.histCount
  have key : ∀ (l : List (Nat × Bool)) (a : State × Bool), (l.foldl (fun a v =>
      let b := histBin b v.2 (ofFp32 v.1)
      (a.1.countReg .histBin c (64 * h + b) 1, a.2 || decide (62 ≤ b))) a).1.sameCores a.1 := by
    intro l
    induction l with
    | nil => intro a; exact State.sameCores.refl _
    | cons v l ih => intro a; exact (ih _).trans (State.sameCores.refl _)
  exact key vs (s, false)

theorem State.writeEffects_cores (s : State) (c x : Nat) (hist : Bool) (hs : Nat) (b : Int) (vs : List (Nat × Bool))
    (nf : Bool) : (s.writeEffects c x hist hs b vs nf).sameCores s := by
  unfold State.writeEffects
  have h0 : ∀ t : State, (t.setOvf c x).sameCores t := fun t => State.sameCores.refl t
  dsimp only
  have h1 : (if hist then s.histCount c hs b vs else (s, false)).1.sameCores s := by
    split
    · exact State.histCount_cores s c hs b vs
    · exact State.sameCores.refl s
  exact .ite ((h0 _).trans h1) h1

theorem runNttObject_cores (inv : Bool) (s : State) (c : Nat) (q : QCmd) : (runNttObject inv s c q).sameCores s := by
  unfold runNttObject
  split
  · exact foldl_cores _ (fun t i => State.storeLimb_cores _ _ _ _ _ _) _ s
  · exact State.sameCores.refl s

theorem runNttLimbs_cores (inv : Bool) (s : State) (c : Nat) (q : QCmd) : (runNttLimbs inv s c q).sameCores s :=
  foldl_cores _ (fun _ _ => State.storeLimb_cores _ _ _ _ _ _) _ s

theorem runAutol_cores (s : State) (c : Nat) (q : QCmd) : (runAutol s c q).sameCores s :=
  foldl_cores _ (fun _ _ => State.storeLimb_cores _ _ _ _ _ _) _ s

theorem runObject_cores (op : Opcode) (y : Header → Nat) (s : State) (c : Nat) (q : QCmd) : (runObject op y s c q).sameCores s := by
  unfold runObject
  split
  · exact foldl_cores _ (fun _ _ => State.storeLimb_cores _ _ _ _ _ _) _ s
  · exact State.sameCores.refl s

theorem runModPass_cores (s : State) (c : Nat) (q : QCmd) : (runModPass s c q).sameCores s := by
  unfold runModPass
  refine foldl_cores _ (fun u z => ?_) _ s
  dsimp only
  exact .ite (.ite (State.storeLE_cores _ _ _ _) (State.sameCores.refl u)) (State.storeLE_cores _ _ _ _)

theorem runClearPass_cores (s : State) (c : Nat) (q : QCmd) : (runClearPass s c q).sameCores s := by
  unfold runClearPass
  dsimp only
  refine (State.writeEffects_cores _ _ _ _ _ _ _ _).trans ?_
  have h1 : (if q.lat.keepMode then
      ((q.desc q.cmd.dZd).addrs.zip ((convertAll q.lat.ofmt q.lat.ovfInf q.lat.strict q.lat.oblk
        ((passLanes s q).map (fun a => if a.masked && q.lat.maskzero then 0 else a.t))).elems.zip (passLanes s q))).foldl
        (fun (s : State) z => if z.2.2.masked then s else s.storeLE z.1.toNat (fmtUnit q.lat.ofmt) z.2.1) s
    else if fmtBits q.lat.ofmt < 8 then
      s.storeUnits (q.desc q.cmd.dZd).addrs 1 ((packElems (fmtBits q.lat.ofmt) (convertAll q.lat.ofmt q.lat.ovfInf q.lat.strict q.lat.oblk
        ((passLanes s q).map (fun a => if a.masked && q.lat.maskzero then 0 else a.t))).elems).map (·.toNat))
    else s.storeUnits (q.desc q.cmd.dZd).addrs (fmtUnit q.lat.ofmt) (convertAll q.lat.ofmt q.lat.ovfInf q.lat.strict q.lat.oblk
        ((passLanes s q).map (fun a => if a.masked && q.lat.maskzero then 0 else a.t))).elems).sameCores s := by
    refine .ite ?_ (.ite (State.storeUnits_cores _ _ _ _) (State.storeUnits_cores _ _ _ _))
    exact foldl_cores _ (fun u z => .ite (State.sameCores.refl u) (State.storeLE_cores _ _ _ _)) _ s
  exact .ite ((State.storeUnits_cores _ _ _ _).trans h1) h1

theorem runDbchain_cores (s : State) (c : Nat) (q : QCmd) : (runDbchain s c q).sameCores s :=
  .ite (runModPass_cores s c q) (runClearPass_cores s c q)

/-- What an engine's run leaves of a core: its queue, drawers, headers, descriptors and counters. -/
def Core.sameFront (k l : Core) : Prop :=
  k.q = l.q ∧ k.drawers = l.drawers ∧ k.hdrs = l.hdrs ∧ k.descs = l.descs ∧ k.counters = l.counters ∧ k.serial = l.serial

theorem Core.sameFront.refl (k : Core) : k.sameFront k := ⟨rfl, rfl, rfl, rfl, rfl, rfl⟩
theorem Core.sameFront.trans {k l m : Core} (h : k.sameFront l) (g : l.sameFront m) : k.sameFront m :=
  ⟨h.1.trans g.1, h.2.1.trans g.2.1, h.2.2.1.trans g.2.2.1, h.2.2.2.1.trans g.2.2.2.1, h.2.2.2.2.1.trans g.2.2.2.2.1,
    h.2.2.2.2.2.trans g.2.2.2.2.2⟩

theorem Core.sameFront_of_cores {s t : State} (h : s.cores = t.cores) (c : Nat) : (s.core c).sameFront (t.core c) := by
  rw [State.core_congr h c]
  exact Core.sameFront.refl _

theorem foldl_sameFront {α : Type} (g : Core → α → Core) (h : ∀ k a, (g k a).sameFront k) (l : List α) (k : Core) :
    (l.foldl g k).sameFront k := by
  induction l generalizing k with
  | nil => exact Core.sameFront.refl k
  | cons a l ih => exact (ih _).trans (h k a)

theorem Core.setAcc_front (k : Core) (a : Nat) (v : Acc) : (k.setAcc a v).sameFront k := Core.sameFront.refl k
theorem Core.setTile_front (k : Core) (t : Nat) (v : Tile) : (k.setTile t v).sameFront k := Core.sameFront.refl k
theorem Core.setLatch_front (k : Core) (x : Nat) (v : RLatch) : (k.setLatch x v).sameFront k := Core.sameFront.refl k

theorem Core.ite_front {b : Bool} {k l m : Core} (h : k.sameFront m) (g : l.sameFront m) : (if b then k else l).sameFront m := by
  split
  · exact h
  · exact g

theorem State.setCore_front (s : State) (c : Nat) (k : Core) (h : k.sameFront (s.core c)) :
    ((s.setCore c k).core c).sameFront (s.core c) ∧ ∀ d, d ≠ c → (s.setCore c k).core d = s.core d :=
  ⟨by rw [State.core_setCore]; exact h, fun _ hd => State.core_setCore_ne s k hd⟩

theorem runTmul_front (s : State) (c : Nat) (q : QCmd) :
    ((runTmul s c q).core c).sameFront (s.core c) ∧ ∀ d, d ≠ c → (runTmul s c q).core d = s.core d := by
  unfold runTmul
  extract_lets w k ta tb an a braw b acc base es vals bad full k1 k2 t1 k3 t2 k4
  have h1 : k1.sameFront k := Core.setAcc_front _ _ _
  have h2 : k2.sameFront k := Core.ite_front h1 ((Core.setLatch_front _ _ _).trans h1)
  have h3 : k3.sameFront k := Core.ite_front ((Core.setTile_front _ _ _).trans h2) h2
  have h4 : k4.sameFront k := Core.ite_front ((Core.setTile_front _ _ _).trans h3) h3
  exact State.setCore_front s c _ (Core.sameFront.trans (l := k4) ⟨rfl, rfl, rfl, rfl, rfl, rfl⟩ h4)

theorem runTdrain_front (s : State) (c : Nat) (q : QCmd) :
    ((runTdrain s c q).core c).sameFront (s.core c) ∧ ∀ d, d ≠ c → (runTdrain s c q).core d = s.core d := by
  have h0 : ∀ t : State, (t.setOvf c q.ctx).sameCores t := fun t => State.sameCores.refl t
  have stores : ∀ t : State, t.sameCores s → (t.core c).sameFront (s.core c) ∧ ∀ d, d ≠ c → t.core d = s.core d :=
    fun t h => ⟨Core.sameFront_of_cores h c, fun d _ => State.core_congr h d⟩
  have both : ∀ (b : Bool) (t : State) (a : Nat) (v : Acc), t.sameCores s →
      ((if b then t.modCore c (fun k => k.setAcc a v) else t).core c).sameFront (s.core c) ∧
        ∀ d, d ≠ c → (if b then t.modCore c (fun k => k.setAcc a v) else t).core d = s.core d := by
    intro b t a v h
    cases b
    · exact stores t h
    · refine ⟨?_, fun d hd => ?_⟩
      · rw [if_pos rfl, State.core_modCore, State.core_congr h c]
        exact Core.setAcc_front _ _ _
      · rw [if_pos rfl, State.core_modCore_ne _ _ hd, State.core_congr h d]
  unfold runTdrain
  extract_lets w l an acc f scale rows cvs vals s1 s2 s3 s4
  have h1 : s1.sameCores s := State.storeUnits_cores _ _ _ _
  have h2 : s2.sameCores s := .ite ((State.storeUnits_cores _ _ _ _).trans h1) h1
  have h3 : s3.sameCores s := (State.writeEffects_cores _ _ _ _ _ _ _ _).trans h2
  have h4 : s4.sameCores s := .ite ((h0 _).trans h3) h3
  exact both _ s4 _ _ h4

/-- An engine's run leaves the queue, the drawers' tags, the headers, the descriptors and the counters of its core, and every other
core whole. -/
theorem engineRun_front (op : Opcode) (s : State) (c : Nat) (q : QCmd) :
    ((engineRun op s c q).core c).sameFront (s.core c) ∧ ∀ d, d ≠ c → (engineRun op s c q).core d = s.core d := by
  have stores : ∀ t : State, t.sameCores s → (t.core c).sameFront (s.core c) ∧ ∀ d, d ≠ c → t.core d = s.core d :=
    fun t h => ⟨Core.sameFront_of_cores h c, fun d _ => State.core_congr h d⟩
  have one : ∀ (t : State) (g : Core → Core), t.sameCores s → (∀ k, (g k).sameFront k) →
      ((t.modCore c g).core c).sameFront (s.core c) ∧ ∀ d, d ≠ c → (t.modCore c g).core d = s.core d := by
    intro t g h hg
    refine ⟨?_, fun d hd => ?_⟩
    · rw [State.core_modCore, State.core_congr h c]
      exact hg _
    · rw [State.core_modCore_ne _ _ hd, State.core_congr h d]
  cases op <;> dsimp only [engineRun]
  case ntto => exact stores _ (runNttObject_cores _ _ _ _)
  case intto => exact stores _ (runNttObject_cores _ _ _ _)
  case nttl => exact stores _ (runNttLimbs_cores _ _ _ _)
  case inttl => exact stores _ (runNttLimbs_cores _ _ _ _)
  case autol => exact stores _ (runAutol_cores _ _ _)
  case dbchain => exact stores _ (runDbchain_cores _ _ _)
  case dbreduce => exact one s _ (State.sameCores.refl s) (fun k => Core.sameFront.refl k)
  case tcfg =>
    refine one s _ (State.sameCores.refl s) (fun k => ?_)
    have h0 : ∀ (k : Core) (v : RLatch), (k.setLatch (s.latchNo c q.ctx) v).sameFront k := fun k _ => Core.sameFront.refl k
    exact (h0 _ _).trans (foldl_sameFront (fun (k : Core) (t : Nat × Nat) => k.setTile t.1 { desc := q.cmd.tileDesc t.2 })
      (fun k a => Core.sameFront.refl k) _ k)
  case tload => exact one s _ (State.sameCores.refl s) (fun k => Core.sameFront.refl k)
  case tmul =>
    exact runTmul_front s c q
  case tzero => exact one s _ (State.sameCores.refl s) (fun k => Core.sameFront.refl k)
  case tdrain =>
    exact runTdrain_front s c q
  case bconv => exact stores _ (State.storeUnits_cores _ _ _ _)
  case mmulm => exact stores _ (State.storeUnits_cores _ _ _ _)
  all_goals first
    | exact stores _ (runObject_cores _ _ _ _ _)
    | exact stores _ (State.sameCores.refl s)

/-! ### The commit -/

theorem badSource_congr (op : Opcode) (s t : State) (c : Nat) (q : QCmd) (h : s.badpar = t.badpar) (hm : s.modeM c = t.modeM c)
    (ht : (s.core c).tiles = (t.core c).tiles) (ha : (s.core c).accs = (t.core c).accs) (hl : (s.core c).latches = (t.core c).latches) :
    badSource op s c q = badSource op t c q := by
  have h1 : ∀ n, (s.core c).tile n = (t.core c).tile n := fun n => by simp only [Core.tile, ht]
  have h2 : ∀ n, (s.core c).acc n = (t.core c).acc n := fun n => by simp only [Core.acc, ha]
  have h3 : ∀ n, (s.core c).latch n = (t.core c).latch n := fun n => by simp only [Core.latch, hl]
  unfold badSource anvilBad State.tileNo State.accNo State.latchNo
  simp only [h, hm, h1, h2, h3]

theorem State.butCores.badpar {s t : State} (h : s.butCores t) : s.badpar = t.badpar := by
  have : ({ s with cores := [], regs := [], peen := [] } : State).badpar = ({ t with cores := [], regs := [], peen := [] } : State).badpar := by
    rw [h]
  exact this

/-- An engine command that has started: what its commit leaves before it completes. -/
def State.ran (s : State) (c x : Nat) (op : Opcode) (f : CmdFields) : State :=
  ((engineRun op (s.claimedDests c x op f) c (s.startedEntry c x op f)).writeOuts (s.startedEntry c x op f)).modCore c
    (fun k => k.commitDrawers (s.startedEntry c x op f))

theorem State.Quiet.tryCommit_engine (hq : s.Quiet c x) (he : op.engine = 1 ∨ op.engine = 2 ∨ op.engine = 3)
    (hs : s.Starts c x op f) :
    (s.claimedDests c x op f).tryCommit c ((s.core c).serial + 1) =
      (s.ran c x op f).complete c (s.startedEntry c x op f) stOk := by
  obtain ⟨hxo, -⟩ := Opcode.plain_engine he
  have hfind : ((s.claimedDests c x op f).core c).cmd? ((s.core c).serial + 1) = some (s.startedEntry c x op f) := by
    rw [Core.cmd?, State.claimedDests_q hxo]
    simp
  have hlive : (s.claimedDests c x op f).coreLive c = true := by rw [State.claimedDests_coreLive hxo, hq.live]
  have hpar : badSource op (s.claimedDests c x op f) c (s.startedEntry c x op f) = none := by
    have ha := State.claimedDests_anvil (s := s) (c := c) (x := x) (f := f) hxo
    have hm : (s.claimedDests c x op f).modeM c = s.modeM c := State.issued_modeM hxo c
    rw [badSource_congr op _ s c _ ?_ hm ha.1 ha.2.1 ha.2.2]
    · exact hs.parity
    · exact ((State.modCore_rest _ c _).trans (State.issued_rest (s := s) (c := c) (x := x) (f := f) hxo)).badpar
  have h1 : (s.startedEntry c x op f).stage = .started := rfl
  have h3 : (s.startedEntry c x op f).eng = op.engine := State.issuedEntry_eng (s := s) (c := c) (x := x)
  unfold State.tryCommit
  rw [hfind]
  have hbeh : tmulBehind (s.claimedDests c x op f) c (s.startedEntry c x op f) = false := by
    simp [tmulBehind, State.claimedDests_q hxo]
  simp only [State.entry_op, h1, hlive, hbeh, Bool.not_false, and_self, if_true]
  unfold State.commitCmd
  rw [h3]
  rcases he with h | h | h <;> rw [h] <;> simp only [hpar] <;> rfl

theorem State.cacheWrite_cores (s : State) (g hint : Nat) : (s.cacheWrite g hint).cores = s.cores := by
  unfold State.cacheWrite State.makeKeep
  repeat' split
  all_goals rfl

theorem State.putOut_q (s : State) (hint : Nat) (o : Nat × Nat × Header) (c : Nat) : ((s.putOut hint o).core c).q = (s.core c).q := by
  unfold State.putOut
  split
  · by_cases h : c = o.1
    · subst h
      rw [State.core_modCore]
      rfl
    · rw [State.core_modCore_ne _ _ h]
  · have : ∀ (l : List Nat) (t : State), (l.foldl (fun s g => State.cacheWrite { s with ecc := Tab.set 0 s.ecc g 0 } g hint) t).cores
        = t.cores := by
      intro l
      induction l with
      | nil => intro t; rfl
      | cons a l ih =>
        intro t
        rw [List.foldl_cons, ih, State.cacheWrite_cores]
    unfold State.hbmStore
    rw [State.core_congr (this _ _)]
    rfl

theorem State.writeOuts_q (s : State) (q : QCmd) (c : Nat) : ((s.writeOuts q).core c).q = (s.core c).q := by
  unfold State.writeOuts
  generalize q.lat.outs = l
  induction l generalizing s with
  | nil => rfl
  | cons o l ih => rw [List.foldl_cons, ih, State.putOut_q]

theorem Core.commitDrawers_q (k : Core) (q : QCmd) : (k.commitDrawers q).q = k.q := by
  unfold Core.commitDrawers
  have : ∀ (l : List Nat) (k : Core), (l.foldl (fun k d => if d ∈ q.held then k else k.modDrawer d (fun v => { v with closing := true })) k).q
      = k.q := by
    intro l
    induction l with
    | nil => intro k; rfl
    | cons a l ih =>
      intro k
      rw [List.foldl_cons, ih]
      split <;> rfl
  dsimp only
  rw [this, foldl_drawers_q]

theorem State.ran_q (h : op.engine < 4) : ((s.ran c x op f).core c).q = [s.startedEntry c x op f] := by
  unfold State.ran
  rw [State.core_modCore, Core.commitDrawers_q, State.writeOuts_q, (engineRun_front op _ c _).1.1, State.claimedDests_q h]

/-- The row of an engine command on a quiet core with its drawers ready: its run, its headers and tags, and its completion. -/
theorem State.Quiet.engine (hq : s.Quiet c x) (ht : s.Takes c x op f) (hp : s.Passes c x op f)
    (he : op.engine = 1 ∨ op.engine = 2 ∨ op.engine = 3) (hs : s.Starts c x op f) :
    s.runWord c x (encodeCmd op f) = (s.ran c x op f).complete c (s.startedEntry c x op f) stOk := by
  obtain ⟨hxo, hba⟩ := Opcode.plain_engine he
  have h0 : ¬ (op.engine = 0) := by omega
  have h5 : ¬ (op.engine = 5) := by omega
  rw [State.Quiet.runWord_eq hq ht hp hba, if_neg h0, if_neg h5, State.Quiet.tryStart_engine hq he hs, State.commitAll_succ,
    State.Quiet.tryCommit_engine hq he hs]
  apply State.commitAll_gone
  rw [Core.cmd?, State.complete_q _ _ _ _ (by decide) (by decide) (State.ran_q hxo)]
  rfl

end Sys2Proof.Machine
end

