-- ==== Sys2Proof/Laws/Control.lean ====
section
/-!
SUPPORT. Laws of completion on a quiet core: what a command leaves of its core, of the other cores and of the rest of the state.
-/
namespace Sys2Proof.Machine

variable {s : State} {c x : Nat} {op : Opcode} {f : CmdFields}

/-- Drawers of another core stand when the consumed drawers of a core settle. -/
theorem State.settleClosing_other (s : State) {c d : Nat} (h : d ≠ c) : (s.settleClosing c).core d = s.core d := by
  unfold State.settleClosing
  generalize (s.core c).drawers.map (·.1) = l
  have key : ∀ (l : List Nat) (t : State), t.core d = s.core d →
      (l.foldl (fun s e => if ((s.core c).drawer e).closing && !s.readers c e then s.modCore c (fun k => k.modDrawer e Drawer.emptied) else s)
        t).core d = s.core d := by
    intro l
    induction l with
    | nil => intro t h; exact h
    | cons e l ih =>
      intro t ht
      rw [List.foldl_cons]
      apply ih
      split
      · rw [State.core_modCore_ne _ _ h]
        exact ht
      · exact ht
  exact key l s rfl

theorem State.butCores.of_settle (s : State) (c : Nat) : (s.settleClosing c).butCores s := by
  unfold State.settleClosing
  generalize (s.core c).drawers.map (·.1) = l
  have key : ∀ (l : List Nat) (t : State), t.butCores s →
      (l.foldl (fun s e => if ((s.core c).drawer e).closing && !s.readers c e then s.modCore c (fun k => k.modDrawer e Drawer.emptied) else s)
        t).butCores s := by
    intro l
    induction l with
    | nil => intro t h; exact h
    | cons e l ih =>
      intro t ht
      rw [List.foldl_cons]
      apply ih
      split
      · exact (State.modCore_rest _ c _).trans ht
      · exact ht
  exact key l s rfl

theorem State.settleClosing_regs (s : State) (c : Nat) : (s.settleClosing c).regs = s.regs := by
  have h := State.settleClosing_frame s c
  have : ({ (s.settleClosing c) with cores := [] } : State).regs = ({ s with cores := [] } : State).regs := by rw [h]
  exact this

/-- A completion with ST_OK of a command that reads no other core. -/
theorem State.complete_ok (t : State) (c : Nat) (q : QCmd) (hp : q.peer = none) :
    t.complete c q stOk = (t.dropped c q stOk).settleClosing c := by
  unfold State.complete
  have h1 : halting stOk = false := by decide
  have h2 : ¬ (stOk = stAborted) := by decide
  simp only [h1, h2, Bool.false_eq_true, if_false, hp, State.statusEvent_ok]
  rfl

theorem State.dropped_core (t : State) (c : Nat) (q : QCmd) (st : Nat) :
    (t.dropped c q st).core c =
      if signalsAt q.cmd.sigMode st then
        ((t.core c).dropCmd q.id).setCounter q.cmd.sigCtr ((t.core c).counter q.cmd.sigCtr + BitVec.ofNat 16 q.cmd.sigDelta)
      else (t.core c).dropCmd q.id := by
  unfold State.dropped
  dsimp only
  split
  · unfold State.signalOwn
    rw [State.core_signalCounter, if_pos rfl, State.core_modCore]
    rfl
  · rw [State.core_modCore]

theorem State.dropped_other (t : State) {c d : Nat} (q : QCmd) (st : Nat) (h : d ≠ c) : (t.dropped c q st).core d = t.core d := by
  unfold State.dropped
  dsimp only
  split
  · unfold State.signalOwn
    rw [State.core_signalCounter, if_neg h, State.core_modCore_ne _ _ h]
  · rw [State.core_modCore_ne _ _ h]

theorem State.dropped_rest (t : State) (c : Nat) (q : QCmd) (st : Nat) : (t.dropped c q st).butCores t := by
  unfold State.dropped
  dsimp only
  split
  · exact (State.signalOwn_rest _ c q).trans (State.modCore_rest _ c _)
  · exact State.modCore_rest _ c _

theorem State.dropped_regs (t : State) (c : Nat) (q : QCmd) (st a : Nat) (h : ¬ appliedAddr a) :
    Tab.find? (t.dropped c q st).regs a = Tab.find? t.regs a := by
  unfold State.dropped
  dsimp only
  split
  · unfold State.signalOwn State.signalCounter State.addCounter
    exact State.perturb_regs (t.modCore c (fun k => k.dropCmd q.id)) 3 c a h
  · rfl

theorem State.butCores.bars {s t : State} (h : s.butCores t) : s.bars = t.bars := by
  have : ({ s with cores := [], regs := [], peen := [] } : State).bars = ({ t with cores := [], regs := [], peen := [] } : State).bars := by
    rw [h]
  exact this
theorem State.butCores.ctrs {s t : State} (h : s.butCores t) : s.ctrs = t.ctrs := by
  have : ({ s with cores := [], regs := [], peen := [] } : State).ctrs = ({ t with cores := [], regs := [], peen := [] } : State).ctrs := by
    rw [h]
  exact this
theorem State.butCores.sigs {s t : State} (h : s.butCores t) : s.sigs = t.sigs := by
  have : ({ s with cores := [], regs := [], peen := [] } : State).sigs = ({ t with cores := [], regs := [], peen := [] } : State).sigs := by
    rw [h]
  exact this
theorem State.butCores.out {s t : State} (h : s.butCores t) : s.out = t.out := by
  have : ({ s with cores := [], regs := [], peen := [] } : State).out = ({ t with cores := [], regs := [], peen := [] } : State).out := by
    rw [h]
  exact this
theorem State.butCores.router {s t : State} (h : s.butCores t) : s.router = t.router := by
  have : ({ s with cores := [], regs := [], peen := [] } : State).router = ({ t with cores := [], regs := [], peen := [] } : State).router := by
    rw [h]
  exact this

/-- States that differ in cores, perturbation counts and peening slots only keep the rest. -/
theorem State.kept_of {s t : State} (h : t.butCores s)
    (hr : ∀ a, ¬ appliedAddr a → Tab.find? t.regs a = Tab.find? s.regs a) : s.Kept t :=
  { mem := fun a => by unfold State.readByte; rw [h.mem]
    regs := hr
    bars := h.bars
    ctrs := h.ctrs
    sigs := h.sigs
    out := h.out
    router := h.router }

/-- Completing keeps the rest. -/
theorem State.complete_kept (t : State) (c : Nat) (q : QCmd) (hp : q.peer = none) : t.Kept (t.complete c q stOk) := by
  rw [State.complete_ok t c q hp]
  refine State.kept_of ((State.butCores.of_settle _ c).trans (State.dropped_rest t c q stOk)) (fun a h => ?_)
  rw [State.settleClosing_regs, State.dropped_regs t c q stOk a h]

theorem State.Kept.trans {s t u : State} (h : s.Kept t) (g : t.Kept u) : s.Kept u :=
  { mem := fun a => (g.mem a).trans (h.mem a)
    regs := fun a ha => (g.regs a ha).trans (h.regs a ha)
    bars := g.bars.trans h.bars
    ctrs := g.ctrs.trans h.ctrs
    sigs := g.sigs.trans h.sigs
    out := g.out.trans h.out
    router := g.router.trans h.router }

/-! ### A command that has issued -/

/-- What the CLAIM waits of a list take from counter `n`. -/
def claimSum (ws : List WaitF) (n : Nat) : W16 :=
  ws.foldr (fun w a => (if w.cond = 3 ∧ w.ctr = n then BitVec.ofNat 16 w.val else 0) + a) 0

theorem takeClaims_get (ws : List WaitF) (v : Tab W16) (n : Nat) : Tab.get 0 (takeClaims ws v) n = Tab.get 0 v n - claimSum ws n := by
  unfold takeClaims
  induction ws generalizing v with
  | nil => simp [claimSum]
  | cons w ws ih =>
    by_cases h3 : w.cond = 3
    · rw [List.filter_cons_of_pos (by simp [h3]), List.foldl_cons, ih, Tab.get_set]
      by_cases hn : w.ctr = n
      · subst hn
        simp only [claimSum, List.foldr_cons, h3, if_true, and_self]
        generalize List.foldr _ _ _ = z
        generalize Tab.get 0 v w.ctr = y
        bv_omega
      · simp [claimSum, h3, hn, Ne.symm hn]
    · rw [List.filter_cons_of_neg (by simp [h3]), ih]
      simp [claimSum, h3]

theorem claimSum_encode (op : Opcode) (f : CmdFields) (n : Nat) : claimSum (encodeCmd op f).waits n = f.claims n := by
  have h3 : ∀ b : BitVec 2, b.toNat = 3 ↔ b = 3 := fun b => ⟨fun h => BitVec.eq_of_toNat_eq h, fun h => by rw [h]; rfl⟩
  unfold Cmd.waits CmdFields.claims
  rw [encodeCmd_waitA, encodeCmd_waitB]
  have h0 : ∀ b : BitVec 2, b.toNat = 0 → b ≠ 3#2 := by
    intro b hb he
    rw [he] at hb
    exact absurd hb (by decide)
  by_cases ha : f.waitA.cond.toNat = 0 <;> by_cases hb : f.waitB.cond.toNat = 0
  · simp [ha, hb, claimSum, h0 _ ha, h0 _ hb]
  · simp [ha, hb, claimSum, h0 _ ha, h3]
  · simp [ha, hb, claimSum, h0 _ hb, h3]
  · simp [ha, hb, claimSum, h3]

/-- What the signal of mode 2 adds at issue. -/
def CmdFields.early (f : CmdFields) (n : Nat) : W16 :=
  if f.sigMode.toNat = 2 ∧ f.sigCtr.toNat = n then BitVec.ofNat 16 f.sigDelta.toNat else 0

/-- The core of a command that has issued, with its counters. -/
theorem State.issued_core (h : op.engine < 4) : ∃ cs,
    (s.issued c x op f).core c =
      { ((s.core c).setContext x { (s.context c x) with pc := (s.context c x).pc + 32 }) with
        serial := (s.core c).serial + 1, arrivals := (s.core c).arrivals + 1, lastDisp := x, q := [s.issuedEntry c x op f], counters := cs }
    ∧ ∀ n, Tab.get 0 cs n = (s.core c).counter n - f.claims n + CmdFields.early f n := by
  have hbase : ((s.claimed c x (encodeCmd op f)).modCmd c ((s.core c).serial + 1) (fun _ => s.issuedEntry c x op f)).core c =
      { ((s.core c).setContext x { (s.context c x) with pc := (s.context c x).pc + 32 }) with
        serial := (s.core c).serial + 1, arrivals := (s.core c).arrivals + 1, lastDisp := x, q := [s.issuedEntry c x op f],
        counters := takeClaims (encodeCmd op f).waits (s.core c).counters } := by
    simp [State.modCmd, State.claimed, State.arrived, Core.modCmd, modFirst, State.entry, Core.setContext]
  have hcl : ∀ n, Tab.get 0 (takeClaims (encodeCmd op f).waits (s.core c).counters) n = (s.core c).counter n - f.claims n := by
    intro n
    rw [takeClaims_get, claimSum_encode]
    rfl
  have hm0 : (s.plannedEntry c x op f).cmd.sigMode = f.sigMode.toNat := by simp
  have hc0 : (s.plannedEntry c x op f).cmd.sigCtr = f.sigCtr.toNat := by simp
  have hd0 : (s.plannedEntry c x op f).cmd.sigDelta = f.sigDelta.toNat := by simp
  unfold State.issued
  rw [QCmd.signalIssue_core, State.headerRead_eq h, hm0, hc0, hd0]
  by_cases hm : f.sigMode.toNat = 2
  · rw [if_pos ⟨rfl, hm⟩, hbase]
    refine ⟨_, rfl, fun n => ?_⟩
    rw [Tab.get_set]
    unfold CmdFields.early
    by_cases hn : f.sigCtr.toNat = n
    · rw [if_pos hn.symm, if_pos ⟨hm, hn⟩, ← hn]
      congr 1
      exact hcl _
    · rw [if_neg (Ne.symm hn), if_neg (fun h => hn h.2), hcl]
      simp
  · rw [if_neg (fun h => hm h.2), hbase]
    refine ⟨_, rfl, fun n => ?_⟩
    unfold CmdFields.early
    rw [if_neg (fun h => hm h.1), hcl]
    simp

theorem State.issued_regs (h : op.engine < 4) (a : Nat) (ha : ¬ appliedAddr a) :
    Tab.find? (s.issued c x op f).regs a = Tab.find? s.regs a := by
  unfold State.issued State.signalIssue
  rw [State.headerRead_eq h]
  split
  · unfold State.signalOwn State.signalCounter State.addCounter
    exact State.perturb_regs ((s.claimed c x (encodeCmd op f)).modCmd c ((s.core c).serial + 1) (fun _ => s.issuedEntry c x op f)) 3 c a ha
  · rfl

theorem State.issued_kept (h : op.engine < 4) : s.Kept (s.issued c x op f) :=
  State.kept_of (State.issued_rest h) (State.issued_regs h)

theorem sigMode_cases {b : BitVec 3} (h : b.toNat < 4) : b.toNat = 0 ∨ b.toNat = 1 ∨ b.toNat = 2 ∨ b.toNat = 3 := by omega

/-- The completion of a command on a quiet core leaves its core as the command's effect left it, with an empty queue. -/
theorem State.complete_done (t : State) (q : QCmd) (pc : Nat) (st : CtxSt) (hq : (t.core c).q = [q]) (hp : q.peer = none)
    (hsig : q.cmd.sigMode = f.sigMode.toNat) (hctr : q.cmd.sigCtr = f.sigCtr.toNat)
    (hpc : (t.context c x).pc = pc) (hst : (t.context c x).st = st) (ho : ∀ d, d ≠ c → t.core d = s.core d)
    (hx : ∀ y, y ≠ x → t.context c y = s.context c y) (hdel : q.cmd.sigDelta = f.sigDelta.toNat) (hmode : f.sigMode.toNat < 4)
    (k : Nat → W16) (hn : ∀ n, (t.core c).counter n = k n - f.claims n + CmdFields.early f n) :
    s.Done (t.complete c q stOk) c x f pc st k := by
  have hc := State.complete_core t c q stOk (by decide) (by decide) c
  have hctx : ∀ y, (t.complete c q stOk).context c y = t.context c y := by
    intro y
    unfold State.context
    rw [hc.context, State.dropped_core]
    split <;> rfl
  refine ⟨State.complete_q t c q stOk (by decide) (by decide) hq, ?_, ?_, ?_, ?_, ?_⟩
  · rw [hctx, hpc]
  · rw [hctx, hst]
  · intro d hd
    rw [State.complete_ok t c q hp, State.settleClosing_other _ hd, State.dropped_other t q stOk hd, ho d hd]
  · intro y hy
    rw [hctx, hx y hy]
  · intro n
    rw [hc.counter, State.dropped_core, hsig, hctr, hdel]
    have hdc : (t.core c).counter f.sigCtr.toNat = ((t.core c).dropCmd q.id).counter f.sigCtr.toNat := rfl
    rcases sigMode_cases hmode with h | h | h | h
    · have : signalsAt f.sigMode.toNat stOk = false := by rw [h]; decide
      rw [this]
      have h0 : f.sigMode = 0#3 := BitVec.eq_of_toNat_eq h
      simp only [Bool.false_eq_true, if_false]
      refine (hn n).trans ?_
      simp [CmdFields.early, CmdFields.signals, h0]
    · have : signalsAt f.sigMode.toNat stOk = true := by rw [h]; decide
      have h0 : f.sigMode ≠ 0#3 := by intro h1; rw [h1] at h; exact absurd h (by decide)
      rw [this, if_pos rfl]
      by_cases he : f.sigCtr.toNat = n
      · subst he
        rw [Core.counter_setCounter, hn]
        simp [CmdFields.early, CmdFields.signals, h0, h]
      · rw [Core.counter_setCounter_ne _ _ (Ne.symm he)]
        refine (hn n).trans ?_
        simp [CmdFields.early, CmdFields.signals, h, he]
    · have : signalsAt f.sigMode.toNat stOk = false := by rw [h]; decide
      have h0 : f.sigMode ≠ 0#3 := by intro h1; rw [h1] at h; exact absurd h (by decide)
      rw [this]
      simp only [Bool.false_eq_true, if_false]
      refine (hn n).trans ?_
      simp [CmdFields.early, CmdFields.signals, h0, h]
    · have : signalsAt f.sigMode.toNat stOk = true := by rw [h]; decide
      have h0 : f.sigMode ≠ 0#3 := by intro h1; rw [h1] at h; exact absurd h (by decide)
      rw [this, if_pos rfl]
      by_cases he : f.sigCtr.toNat = n
      · subst he
        rw [Core.counter_setCounter, hn]
        simp [CmdFields.early, CmdFields.signals, h0, h]
      · rw [Core.counter_setCounter_ne _ _ (Ne.symm he)]
        refine (hn n).trans ?_
        simp [CmdFields.early, CmdFields.signals, h, he]

/-! ### A control-core command whose effect is on its core -/

/-- The core as a command that has issued finds it, its counters apart. -/
def State.frontCore (s : State) (c x : Nat) (op : Opcode) (f : CmdFields) (cs : Tab W16) : Core :=
  { ((s.core c).setContext x { (s.context c x) with pc := (s.context c x).pc + 32 }) with
    serial := (s.core c).serial + 1, arrivals := (s.core c).arrivals + 1, lastDisp := x, q := [s.startedEntry c x op f], counters := cs }

theorem State.begun_core (h : op.engine < 4) (hr : op ≠ .rsig) : ∃ cs,
    (s.begun c x op f).core c = s.frontCore c x op f cs ∧ ∀ n, Tab.get 0 cs n = (s.core c).counter n - f.claims n + CmdFields.early f n := by
  obtain ⟨cs, h1, h2⟩ := State.issued_core (s := s) (c := c) (x := x) (f := f) h
  refine ⟨cs, ?_, h2⟩
  unfold State.begun State.modCmd
  rw [State.core_modCore, State.core_congr (controlIssued_cores hr _ _), h1]
  simp only [Core.modCmd, modFirst, State.issuedEntry_id, beq_self_eq_true, if_true, State.frontCore]
  rw [← State.started_of_issued h]
  rfl

theorem State.begun_kept (h : op.engine < 4) (hr : op ≠ .rsig) (hl : op ≠ .lsdecide) : s.Kept (s.begun c x op f) := by
  have he : controlIssued op (s.issued c x op f) c (s.plannedEntry c x op f) = s.issued c x op f := by
    cases op <;> first | rfl | exact absurd rfl hr | exact absurd rfl hl
  unfold State.begun
  rw [he]
  exact (State.issued_kept h).trans (State.kept_of (State.modCore_rest _ c _) (fun _ _ => rfl))

theorem State.begun_other (h : op.engine < 4) (hr : op ≠ .rsig) {d : Nat} (hd : d ≠ c) : (s.begun c x op f).core d = s.core d := by
  unfold State.begun State.modCmd
  rw [State.core_modCore_ne _ _ hd, State.core_congr (controlIssued_cores hr _ _), State.issued_other h hd]

theorem State.frontCore_context (cs : Tab W16) (y : Nat) :
    (s.frontCore c x op f cs).context y = if y = x then { (s.context c x) with pc := (s.context c x).pc + 32 } else s.context c y := by
  have : (s.frontCore c x op f cs).context y
      = ((s.core c).setContext x { (s.context c x) with pc := (s.context c x).pc + 32 }).context y := rfl
  rw [this]
  by_cases h : y = x
  · subst h
    simp
  · rw [Core.context_setContext_ne _ _ h, if_neg h]
    rfl

/-- A control-core command that changes its own core: its row completes, and the rest stands. -/
theorem State.Quiet.control_on (hq : s.Quiet c x) (ht : s.Takes c x op f) (hp : s.Passes c x op f) (he : op.engine = 0)
    (hb : op ≠ .barrier) (hn : op ≠ .endStream) (hr : op ≠ .rsig) (hd : op ≠ .hdrop) (hl : op ≠ .lsdecide)
    (hready : controlReady (s.posted c x op f) c (s.issuedEntry c x op f) = true)
    (hpeer : (s.plan c x op f).peer = none) (g : Core → Core) (pc : Nat)
    (hrun : runControl op (s.begun c x op f) c (s.startedEntry c x op f) = ((s.begun c x op f).modCore c g, stOk))
    (hgq : ∀ cs, (g (s.frontCore c x op f cs)).q = [s.startedEntry c x op f])
    (hgp : ∀ cs, ((g (s.frontCore c x op f cs)).context x).pc = pc)
    (hgs : ∀ cs, ((g (s.frontCore c x op f cs)).context x).st = .running)
    (hgx : ∀ cs y, y ≠ x → (g (s.frontCore c x op f cs)).context y = s.context c y)
    (k : Nat → W16)
    (hgn : ∀ cs, (∀ n, Tab.get 0 cs n = (s.core c).counter n - f.claims n + CmdFields.early f n) →
      ∀ n, (g (s.frontCore c x op f cs)).counter n = k n - f.claims n + CmdFields.early f n) :
    ∃ t cs, s.runWord c x (encodeCmd op f) = t ∧ (t.core c).butDrawers { (g (s.frontCore c x op f cs)) with q := [], counters := (t.core c).counters }
      ∧ s.Done t c x f pc .running k ∧ s.Kept t := by
  have hxo : op.engine < 4 := by omega
  obtain ⟨cs, h1, h2⟩ := State.begun_core (s := s) (c := c) (x := x) (f := f) hxo hr
  have key := State.Quiet.control hq ht hp he hb hn hr hd hready
  rw [hrun] at key
  have hqq : (((s.begun c x op f).modCore c g).core c).q = [s.startedEntry c x op f] := by
    rw [State.core_modCore, h1, hgq]
  have hctx : ∀ y, ((s.begun c x op f).modCore c g).context c y = (g (s.frontCore c x op f cs)).context y := by
    intro y
    unfold State.context
    rw [State.core_modCore, h1]
  have hcore : ((((s.begun c x op f).modCore c g).complete c (s.startedEntry c x op f) stOk).core c).butDrawers
      { (g (s.frontCore c x op f cs)) with q := [], counters :=
        ((((s.begun c x op f).modCore c g).complete c (s.startedEntry c x op f) stOk).core c).counters } := by
    have hc := State.complete_core ((s.begun c x op f).modCore c g) c (s.startedEntry c x op f) stOk (by decide) (by decide) c
    have hz : ∃ z, (((s.begun c x op f).modCore c g).dropped c (s.startedEntry c x op f) stOk).core c
        = { (g (s.frontCore c x op f cs)) with q := [], counters := z } := by
      rw [State.dropped_core, State.core_modCore, h1]
      have hdq : (g (s.frontCore c x op f cs)).dropCmd (s.startedEntry c x op f).id = { (g (s.frontCore c x op f cs)) with q := [] } := by
        unfold Core.dropCmd
        rw [hgq]
        simp
      rw [hdq]
      split
      · exact ⟨_, rfl⟩
      · exact ⟨_, rfl⟩
    obtain ⟨z, hz⟩ := hz
    rw [hz] at hc
    have hcz : ((((s.begun c x op f).modCore c g).complete c (s.startedEntry c x op f) stOk).core c).counters = z := by
      have := congrArg Core.counters hc
      exact this
    rw [hcz]
    exact hc
  refine ⟨_, cs, key, hcore, ?_, ?_⟩
  · refine State.complete_done _ _ _ _ hqq hpeer (by simp)
      (by simp) ?_ ?_ ?_ ?_
      (by simp) ht.mode k ?_
    · rw [hctx, hgp]
    · rw [hctx, hgs]
    · intro d hd
      rw [State.core_modCore_ne _ _ hd, State.begun_other hxo hr hd]
    · intro y hy
      rw [hctx, hgx cs y hy]
    · intro n
      rw [State.core_modCore, h1, hgn cs h2 n]
  · refine (State.begun_kept (c := c) (x := x) (f := f) hxo hr hl).trans ?_
    refine (State.kept_of (State.modCore_rest _ c g) (fun _ _ => rfl)).trans ?_
    exact State.complete_kept _ c _ hpeer

end Sys2Proof.Machine
end

