-- ==== Sys2Proof/Laws/Header.lean ====
section
/-!
SUPPORT. Bytes in little-endian order, and the words of a header slot (spec 00 R8; 02 R38, R39).
-/
namespace Sys2Proof.Machine

theorem natLE_length (n v : Nat) : (natLE n v).length = n := by
  induction n generalizing v with
  | zero => rfl
  | succ n ih => simp [natLE, ih]

theorem leNat_natLE (n v : Nat) : leNat (natLE n v) = v % 256 ^ n := by
  induction n generalizing v with
  | zero => simp [natLE, leNat, Nat.mod_one]
  | succ n ih =>
    simp only [natLE, leNat, ih, BitVec.toNat_ofNat]
    rw [show (256 : Nat) ^ (n + 1) = 256 * 256 ^ n by rw [Nat.pow_succ, Nat.mul_comm]]
    exact (Nat.mod_mul (x := v) (a := 256) (b := 256 ^ n)).symm

theorem natLE_leNat (bs : List Byte) : natLE bs.length (leNat bs) = bs := by
  induction bs with
  | nil => rfl
  | cons b bs ih =>
    have hb : b.toNat < 256 := b.isLt
    have e : (b.toNat + 256 * leNat bs) / 256 = leNat bs := by omega
    simp only [List.length_cons, natLE, leNat, e, ih]
    congr 1
    apply BitVec.eq_of_toNat_eq
    simp only [BitVec.toNat_ofNat]
    omega

theorem leNat_lt (bs : List Byte) : leNat bs < 256 ^ bs.length := by
  induction bs with
  | nil => simp [leNat]
  | cons b bs ih =>
    have hb : b.toNat < 256 := b.isLt
    simp only [leNat, List.length_cons, Nat.pow_succ]
    omega

theorem Header.bytes_length (h : Header) : h.bytes.length = 64 := by
  simp [Header.bytes, Header.words, natLE_length]

/-- A slot holds its 64 bytes. -/
theorem Header.bytes_ofBytes (bs : List Byte) (hl : bs.length = 64) : (Header.ofBytes bs).bytes = bs := by
  have e : ∀ i, 8 * i + 8 ≤ 64 → natLE 8 (BitVec.ofNat 64 (leNat ((bs.drop (8 * i)).take 8))).toNat = (bs.drop (8 * i)).take 8 := by
    intro i hi
    have hn : ((bs.drop (8 * i)).take 8).length = 8 := by simp [hl]; omega
    have hlt := leNat_lt ((bs.drop (8 * i)).take 8)
    rw [hn] at hlt
    rw [BitVec.toNat_ofNat, Nat.mod_eq_of_lt (by simpa using hlt)]
    have := natLE_leNat ((bs.drop (8 * i)).take 8)
    rwa [hn] at this
  have s : ∀ i, 8 * i + 8 ≤ 64 → (bs.drop (8 * i)).take 8 ++ bs.drop (8 * (i + 1)) = bs.drop (8 * i) := by
    intro i _
    have := List.take_append_drop 8 (bs.drop (8 * i))
    rwa [List.drop_drop, show 8 * i + 8 = 8 * (i + 1) by omega] at this
  have z : bs.drop 64 = [] := List.drop_eq_nil_of_le (by omega)
  simp only [Header.bytes, Header.words, Header.ofBytes, List.flatMap_cons, List.flatMap_nil]
  rw [e 0 (by decide), e 1 (by decide), e 2 (by decide), e 3 (by decide), e 4 (by decide), e 5 (by decide), e 6 (by decide), e 7 (by decide)]
  have z' : ([] : List Byte) = bs.drop (8 * (7 + 1)) := by rw [z]
  rw [z', s 7 (by decide), s 6 (by decide), s 5 (by decide), s 4 (by decide), s 3 (by decide), s 2 (by decide), s 1 (by decide), s 0 (by decide)]
  simp

theorem Header.bytes_setWord32 (h : Header) (w : Nat) (v : W32) (hw : w < 16) :
    (h.setWord32 w v).bytes = h.bytes.take (4 * w) ++ natLE 4 v.toNat ++ h.bytes.drop (4 * w + 4) := by
  apply Header.bytes_ofBytes
  simp [Header.bytes_length, natLE_length]
  omega

/-- A write of one word of a slot is read back, and leaves the other words. -/
theorem Header.word32_setWord32 (h : Header) (w x : Nat) (v : W32) (hw : w < 16) :
    (h.setWord32 w v).word32 x = if x = w then v.toNat else h.word32 x := by
  have hl := h.bytes_length
  have hp : (h.bytes.take (4 * w)).length = 4 * w := by simp [hl]; omega
  unfold Header.word32
  rw [h.bytes_setWord32 w v hw]
  rcases Nat.lt_trichotomy x w with hx | rfl | hx
  · rw [if_neg (by omega), List.append_assoc, List.drop_append_of_le_length (by omega),
      List.take_append_of_le_length (by simp [hl]; omega), List.drop_take, List.take_take, Nat.min_eq_left (by omega)]
  · rw [if_pos rfl, List.append_assoc, List.drop_left' hp, List.take_left' (natLE_length 4 _), leNat_natLE]
    exact Nat.mod_eq_of_lt v.isLt
  · rw [if_neg (by omega)]
    have ha : (h.bytes.take (4 * w) ++ natLE 4 v.toNat).length = 4 * w + 4 := by simp [hp, natLE_length]
    have : List.drop (4 * x) (h.bytes.take (4 * w) ++ natLE 4 v.toNat ++ h.bytes.drop (4 * w + 4)) = h.bytes.drop (4 * x) := by
      rw [List.drop_append, List.drop_eq_nil_of_le (by omega), List.nil_append, ha, List.drop_drop]
      congr 1
      omega
    rw [this]

end Sys2Proof.Machine
end

