-- ==== Sys2Proof/Laws/Memory.lean ====
section
/-!
SUPPORT. Laws of memory: a read after a write, the frame of a write, and that every memory operation keeps the canonical form.
-/
namespace Sys2Proof.Machine

theorem Mem.get?_set (m : Tab Byte) (a : Nat) (v : Byte) (b : Nat) :
    Mem.get? (Mem.set m a v) b = if b = a then some v else Mem.get? m b := by
  unfold Mem.set
  by_cases hd : memDefault a = some v
  · by_cases hb : b = a
    · subst hb
      simp [Mem.get?, hd]
    · simp [Mem.get?, hd, hb, Tab.find?_erase_ne m hb]
  · rw [if_neg hd]
    unfold Mem.get?
    rw [Tab.find?_insert _ _ _ (by simp)]
    by_cases hb : b = a
    · simp [hb]
    · simp [hb, Tab.find?_erase_ne m hb]

/-- A list of bytes is stored at consecutive addresses and nowhere else. -/
theorem Mem.get?_setList (vs : List Byte) (m : Tab Byte) (a b : Nat) :
    Mem.get? (Mem.setList m a vs) b =
      if a ≤ b ∧ b < a + vs.length then vs[b - a]? else Mem.get? m b := by
  induction vs generalizing m a with
  | nil =>
    simp [Mem.setList]
  | cons v vs ih =>
    simp only [Mem.setList, ih, Mem.get?_set, List.length_cons]
    by_cases h1 : a + 1 ≤ b ∧ b < a + 1 + vs.length
    · have h2 : a ≤ b ∧ b < a + (vs.length + 1) := by omega
      have h3 : b - a = (b - (a + 1)) + 1 := by omega
      rw [if_pos h1, if_pos h2, h3, List.getElem?_cons_succ]
    · rw [if_neg h1]
      by_cases h4 : b = a
      · subst h4
        simp
      · have h5 : ¬(a ≤ b ∧ b < a + (vs.length + 1)) := by omega
        rw [if_neg h4, if_neg h5]

theorem Mem.wf_set (m : Tab Byte) (a : Nat) (v : Byte) (h : Mem.wf m = true) : Mem.wf (Mem.set m a v) = true := by
  simp only [Mem.wf, Bool.and_eq_true, List.all_eq_true, decide_eq_true_eq] at h ⊢
  unfold Mem.set
  by_cases hd : memDefault a = some v
  · rw [if_pos hd]
    exact ⟨Tab.rising_erase _ h.1, fun e he => h.2 e (Tab.mem_of_mem_erase he).1⟩
  · rw [if_neg hd]
    refine ⟨Tab.rising_insert (Tab.rising_erase _ h.1) (fun e he => (Tab.mem_of_mem_erase he).2), ?_⟩
    intro e he
    rcases Tab.mem_insert he with rfl | he
    · exact fun hh => hd hh.symm
    · exact h.2 e (Tab.mem_of_mem_erase he).1

theorem Mem.wf_setList (vs : List Byte) (m : Tab Byte) (a : Nat) (h : Mem.wf m = true) :
    Mem.wf (Mem.setList m a vs) = true := by
  induction vs generalizing m a with
  | nil => exact h
  | cons v vs ih => exact ih _ _ (Mem.wf_set m a v h)

theorem Mem.wf_filter (m : Tab Byte) (p : Nat × Byte → Bool) (h : Mem.wf m = true) : Mem.wf (m.filter p) = true := by
  simp only [Mem.wf, Bool.and_eq_true, List.all_eq_true, decide_eq_true_eq] at h ⊢
  exact ⟨Tab.rising_filter p h.1, fun e he => h.2 e (List.mem_of_mem_filter he)⟩

theorem State.mem_wf_writeByte (s : State) (a : Nat) (v : Byte) (h : Mem.wf s.mem = true) :
    Mem.wf (s.writeByte a v).mem = true := Mem.wf_set _ _ _ h

theorem State.mem_wf_writeBytes (s : State) (a : Nat) (vs : List Byte) (h : Mem.wf s.mem = true) :
    Mem.wf (s.writeBytes a vs).mem = true := Mem.wf_setList _ _ _ h

theorem State.mem_wf_writeLE (s : State) (a n v : Nat) (h : Mem.wf s.mem = true) :
    Mem.wf (s.writeLE a n v).mem = true := Mem.wf_setList _ _ _ h

theorem State.mem_wf_forget (s : State) (lo hi : Nat) (h : Mem.wf s.mem = true) :
    Mem.wf (s.forget lo hi).mem = true := Mem.wf_filter _ _ h

/-- A byte read after bytes were written: the byte written there, and elsewhere what stood there. -/
theorem State.readByte_writeBytes (s : State) (a : Nat) (vs : List Byte) (b : Nat) :
    (s.writeBytes a vs).readByte b = if a ≤ b ∧ b < a + vs.length then vs.getD (b - a) 0 else s.readByte b := by
  unfold State.readByte State.writeBytes
  simp only [Mem.get?_setList]
  by_cases h : a ≤ b ∧ b < a + vs.length
  · have hl : b - a < vs.length := by omega
    simp [h, List.getD_eq_getElem?_getD, List.getElem?_eq_getElem hl]
  · simp [h]

end Sys2Proof.Machine
end

