-- ==== Sys2Proof/Machine/Package.lean ====
section
/-!
DEFINITION. The package's lands (spec 00 R15; 25 R526 to R531): what each of the 96 × 96 lands carries. Nothing of it changes; rows and
columns count from 1.
-/
namespace Sys2Proof.Machine

/-- What a land carries. Lanes and supplies of stacks carry their numbers. -/
inductive Land where
  | vss
  | vcoreC (d : Nat)
  | vcoreH
  | vserdes
  | vio
  | vaon
  | hbmVddq (d : Nat)
  | hbmVdd (d : Nat)
  | hbmVpp (d : Nat)
  | fabric (lane : Nat) (transmit positive : Bool)
  | service (lane : Nat) (transmit positive : Bool)
  | signal (name : String)
  | reserved
  | none
  deriving DecidableEq, Repr

/-- The letters of row codes. -/
def rowLetters : List Char := "ABCDEFGHJKLMNPTUVWY".toList

/-- The code of row `i` (R15). -/
def rowCode (i : Nat) : String :=
  let l := fun (k : Nat) => rowLetters.getD k 'A'
  if i ≤ 19 then String.ofList [l (i - 1)] else String.ofList [l ((i - 20) / 19), l ((i - 20) % 19)]

/-- The name of a land. -/
def landName (i c : Nat) : String := rowCode i ++ toString c

/-- The control signals of the north-west corner, by row and first column (R531). -/
def cornerSignals : List (Nat × Nat × List String) :=
  [(3, 3, ["REFCLK_P", "REFCLK_N"]),
    (5, 3, ["PWRGD", "RESET_N", "THERMTRIP_N", "VR_ALERT_N", "VR_EN_C0", "VR_EN_C1", "VR_EN_C2", "VR_EN_C3"]),
    (7, 3, ["TCK", "TMS", "TDI", "TDO", "TRST_N", "MGMT_SCL", "MGMT_SDA", "MGMT_ADDR0", "MGMT_ADDR1"]),
    (9, 3, ["AVS_CLK", "AVS_MDATA", "AVS_SDATA"]),
    (10, 3, ["FLASH_DQ0", "FLASH_DQ1", "FLASH_DQ2", "FLASH_DQ3", "FLASH_DQ4", "FLASH_DQ5", "FLASH_DQ6", "FLASH_DQ7"]),
    (11, 3, ["FLASH_CS_N", "FLASH_CK", "FLASH_DQS", "FLASH_RESET_N"])]

/-- The signal of a land of the north-west corner. -/
def cornerSignal (i c : Nat) : Option String :=
  cornerSignals.findSome? (fun r => if r.1 = i ∧ r.2.1 ≤ c then r.2.2[c - r.2.1]? else Option.none)

/-- Strip 0, as strip `d` carries it (R528, R529). -/
def stripLand (d i c : Nat) : Land :=
  let pair := decide (16 ≤ c) && decide (c ≤ 77) && (c % 4 == 0 || c % 4 == 1)
  let k := (c - 16) / 4
  match i with
  | 1 => if pair then .vserdes else .vss
  | 3 => if pair then .fabric (16 * d + k) true (c % 4 == 0) else .vss
  | 5 => if pair then .fabric (16 * d + k) false (c % 4 == 0) else .vss
  | 7 => .hbmVddq d
  | 8 => .hbmVddq d
  | 9 => .hbmVdd d
  | 10 => .hbmVdd d
  | 11 => if (c - 13) % 3 = 0 then .hbmVpp d else .vss
  | _ => .vss

/-- The north-east corner, or the south-west one turned onto it; `p`: the service port (R529). -/
def portCorner (p i c : Nat) : Land :=
  let j := (c - 86) / 3
  let lane := decide (86 ≤ c) && decide (c ≤ 96) && decide ((c - 86) % 3 < 2)
  if i = 1 ∨ (i = 2 ∧ c ≤ 88) then .vserdes
  else if i = 3 && lane then .service (4 * p + j) true ((c - 86) % 3 == 0)
  else if i = 5 && lane then .service (4 * p + j) false ((c - 86) % 3 == 0)
  else .vss

/-- The north-west corner (R530, R531). -/
def controlCorner (i c : Nat) : Land :=
  if i = 1 ∨ (i = 2 ∧ c ≤ 4) then .vio
  else if i = 2 then .vaon
  else if i = 12 ∧ c ≤ 4 then .reserved
  else match cornerSignal i c with
    | some n => .signal n
    | Option.none => .vss

/-- A core block or the hub block: the rail where i + c is even (R527). -/
def blockLand (rail : Land) (i c : Nat) : Land := if (i + c) % 2 = 0 then rail else .vss

/-- What land (i, c) carries (R526). -/
def landAt (i c : Nat) : Land :=
  if i < 1 ∨ 96 < i ∨ c < 1 ∨ 96 < c then .none
  else if i ≤ 12 then (if c ≤ 12 then controlCorner i c else if 85 ≤ c then portCorner 0 i c else stripLand 0 i c)
  else if 85 ≤ i then
    (if c ≤ 12 then portCorner 1 (97 - i) (97 - c)
     else if 85 ≤ c then (if i = 85 ∧ c ≤ 88 then .reserved else .vss)
     else stripLand 2 (97 - i) (97 - c))
  else if c ≤ 12 then stripLand 3 c (97 - i)
  else if 85 ≤ c then stripLand 1 (97 - c) i
  else if 41 ≤ i ∧ i ≤ 56 ∧ 41 ≤ c ∧ c ≤ 56 then blockLand .vcoreH i c
  else if i ≤ 40 ∧ c ≤ 56 then blockLand (.vcoreC 0) i c
  else if i ≤ 56 ∧ 57 ≤ c then blockLand (.vcoreC 1) i c
  else if 57 ≤ i ∧ 41 ≤ c then blockLand (.vcoreC 2) i c
  else blockLand (.vcoreC 3) i c

/-- Sense lands: the rail's, and the VSS land east of it (R527). -/
def senseLand : Nat → Nat × Nat
  | 0 => (26, 34)
  | 1 => (34, 70)
  | 2 => (70, 62)
  | 3 => (62, 26)
  | _ => (48, 48)

end Sys2Proof.Machine
end

