-- ==== Sys2Proof/Tests/Slice0.lean ====
section
/-!
SUPPORT. Tests: ill-formed commands that each named check refuses; and, for the statements with hypotheses, states and operands that meet
them all together.
-/
namespace Sys2Proof.Tests
set_option Elab.async false
open Sys2Proof Sys2Proof.Machine

/-! ### Running contexts -/

/-- Context `x` of core `c` of a state set running at address `pc`. -/
def runAt (s : State) (c x pc : Nat) : State := s.modContext c x (fun y => { y with st := .running, fresh := false, pc := pc })

/-- The device after reset with context 0 of core 0 running. -/
def run0 : State := runAt State.reset 0 0 0

def quietB (s : State) (c x : Nat) : Bool :=
  decide (c < 96) && decide (x < 4) && decide ((s.context c x).st = .running) && decide ((s.core c).q = []) && !s.noDispatch && s.coreLive c
    && s.dispatchTurn c x && inHbm (s.context c x).pc

theorem quiet_of {s : State} {c x : Nat} (h : quietB s c x = true) : s.Quiet c x := by
  simp only [quietB, Bool.and_eq_true, decide_eq_true_eq, Bool.not_eq_true'] at h
  obtain ⟨⟨⟨⟨⟨⟨⟨h1, h2⟩, h3⟩, h4⟩, h5⟩, h6⟩, h7⟩, h8⟩ := h
  exact ⟨h1, h2, h3, h4, h5, h6, h7, h8⟩

def takesB (s : State) (c x : Nat) (op : Opcode) (f : CmdFields) (skip : Bool) : Bool :=
  decide (f.sigMode.toNat < 4) && decide (f.sigMode = 0 ∨ f.sigDelta ≠ 0)
    && decide (¬(f.waitA.cond = 3 ∧ f.waitB.cond = 3 ∧ f.waitA.ctr = f.waitB.ctr))
    && (s.entry c x (encodeCmd op f)).counters.all (fun n => s.ctrInShare c x n)
    && (encodeCmd op f).waits.all (waitOk (s.core c) (s.core c).counters (s.core c).counters)
    && decide (op.engine = 0 ∨ 0 < s.narrowed c op.engine (s.queueShare c)) && (((s.context c x).pred f.pred.toNat == f.psense) == skip)

theorem takes_of {s : State} {c x : Nat} {op : Opcode} {f : CmdFields} (h : takesB s c x op f false = true) : s.Takes c x op f := by
  simp only [takesB, Bool.and_eq_true, decide_eq_true_eq] at h
  obtain ⟨⟨⟨⟨⟨⟨h1, h2⟩, h3⟩, h4⟩, h5⟩, h6⟩, h7⟩ := h
  exact ⟨h1, h2, h3, h4, h5, h6, by simpa using h7⟩

theorem skips_of {s : State} {c x : Nat} {op : Opcode} {f : CmdFields} (h : takesB s c x op f true = true) : s.TakesSkipped c x op f := by
  simp only [takesB, Bool.and_eq_true, decide_eq_true_eq] at h
  obtain ⟨⟨⟨⟨⟨⟨h1, h2⟩, h3⟩, h4⟩, h5⟩, h6⟩, h7⟩ := h
  exact ⟨h1, h2, h3, h4, h5, h6, by simpa using h7⟩

/-- A quiet core takes the command. -/
def rowB (s : State) (c x : Nat) (op : Opcode) (f : CmdFields) : Bool := quietB s c x && takesB s c x op f false

theorem row_of {s : State} {c x : Nat} {op : Opcode} {f : CmdFields} (h : rowB s c x op f = true) : s.Quiet c x ∧ s.Takes c x op f := by
  rw [rowB, Bool.and_eq_true] at h
  exact ⟨quiet_of h.1, takes_of h.2⟩

def passB (s : State) (c x : Nat) (op : Opcode) (f : CmdFields) : Bool :=
  decide ((planOf op (s.arrived c x (encodeCmd op f)) c (s.entry c x (encodeCmd op f))).v ≠ .wait) && decide ((s.plan c x op f).v = .ok)

theorem pass_of {s : State} {c x : Nat} {op : Opcode} {f : CmdFields} (h : passB s c x op f = true) : s.Passes c x op f := by
  simpa [passB, State.Passes] using h

def startB (s : State) (c x : Nat) (op : Opcode) (f : CmdFields) : Bool :=
  ((s.startedEntry c x op f).sources c).all (fun e => ((s.core e.1).drawer e.2).ready)
    && (s.plan c x op f).dsts.all (fun d => ((s.core c).drawer d).open_ && !((s.core c).drawer d).closing)
    && s.waitw.all (fun w => w.owner != c || (s.plan c x op f).dsts.all (fun d => !(d ∈ touched w.off w.data.length)))
    && decide (badSource op s c (s.startedEntry c x op f) = none) && !s.assay.testing

/-- A quiet core takes the command, its checks pass and its drawers are ready. -/
def engB (s : State) (c x : Nat) (op : Opcode) (f : CmdFields) : Bool := rowB s c x op f && passB s c x op f && startB s c x op f

theorem eng_of {s : State} {c x : Nat} {op : Opcode} {f : CmdFields} (h : engB s c x op f = true) :
    s.Quiet c x ∧ s.Takes c x op f ∧ s.Passes c x op f ∧ s.Starts c x op f := by
  simp only [engB, startB, Bool.and_eq_true, decide_eq_true_eq, Bool.not_eq_true'] at h
  obtain ⟨⟨h1, h2⟩, ⟨⟨⟨h3, h4⟩, h7⟩, h5⟩, h6⟩ := h
  exact ⟨(row_of h1).1, (row_of h1).2, pass_of h2, ⟨h3, h4, h7, h5, h6⟩⟩

/-- A tag table none of whose entries is closing. -/
theorem closing_of {t : Tab Drawer} (h : t.all (fun e => !e.2.closing) = true) (d : Nat) : (Tab.get {} t d).closing = false := by
  unfold Tab.get
  induction t with
  | nil => rfl
  | cons a t ih =>
    simp only [List.all_cons, Bool.and_eq_true, Bool.not_eq_true'] at h
    by_cases hk : a.1 = d
    · simpa [Tab.find?, hk] using h.1
    · simpa [Tab.find?, hk] using ih h.2

/-- Fields with a wait, a claim and a signal. -/
def fSig : CmdFields := { waitA := ⟨0, 1, 0⟩, waitB := ⟨255, 3, 0⟩, sigCtr := 255, sigDelta := 255, sigMode := 3 }

theorem wit_ScalarCommandsWriteTheirResult : ∀ op ∈ [Opcode.movi, .mov, .add, .sub, .mul, .andOp, .orOp, .xor, .shl, .shr, .sar],
    run0.Quiet 0 0 ∧ run0.Takes 0 0 op fSig := fun op h => row_of (by revert op; decide +kernel)

/-! ### Ill-formed commands -/

theorem smoke_wfCore : wfInstr (.nop 96 0 {}) = false ∧ wfInstr (.nop 95 0 {}) = true := by decide +kernel

theorem smoke_wfCtx : wfInstr (.nop 0 4 {}) = false ∧ wfInstr (.nop 0 3 {}) = true := by decide +kernel

theorem smoke_wfDie : wfInstr (.pwEnter 4 0) = false ∧ wfInstr (.pwEnter 3 0) = true := by decide +kernel

theorem smoke_wfStack : wfInstr (.hbmTempRead 12 0 0 false) = false ∧ wfInstr (.hbmTempRead 11 0 0 false) = true := by decide +kernel

theorem smoke_wfPort : wfInstr (.linkFrameReceive 16 0 (false, none)) = false ∧ wfInstr (.linkFrameReceive 15 0 (false, none)) = true := by decide +kernel

theorem smoke_wfSvcPort : wfInstr (.arpRequest 2 0) = false ∧ wfInstr (.arpRequest 1 0) = true := by decide +kernel

theorem smoke_wfRail : wfInstr (.avsLoopStep 5 0 false false false) = false ∧ wfInstr (.avsLoopStep 4 0 false false false) = true := by decide +kernel

theorem smoke_wfRailOrHub : wfInstr (.vrAlert 6 0 false false) = false ∧ wfInstr (.vrAlert 5 0 false false) = true := by decide +kernel

theorem smoke_wfReading : wfInstr (.junctionRead 5 0 false) = false ∧ wfInstr (.junctionRead 4 0 false) = true := by decide +kernel

theorem smoke_wfDomain : wfInstr (.clockMonitor 60 false) = false ∧ wfInstr (.clockMonitor 59 false) = true := by decide +kernel

theorem smoke_wfEngine : wfInstr (.commandStart 0 0 6) = false ∧ wfInstr (.commandStart 0 0 5) = true := by decide +kernel

theorem smoke_wfWindow : wfInstr (.windowOpen 0 16 0 0 0 0) = false ∧ wfInstr (.windowOpen 0 15 0 0 0 0) = true := by decide +kernel

theorem smoke_wfDrawer : wfInstr (.windowOpen 0 0 0 256 0 0) = false ∧ wfInstr (.windowOpen 0 0 0 255 0 0) = true := by decide +kernel

theorem smoke_wfHist : wfInstr (.histClear 0 16) = false ∧ wfInstr (.histClear 0 15) = true := by decide +kernel

theorem smoke_wfTable : wfInstr (.alloyBuild 4 false 0) = false ∧ wfInstr (.alloyBuild 3 false 0) = true := by decide +kernel

theorem smoke_wfUnit : wfInstr (.cvStart 64) = false ∧ wfInstr (.cvStart 63) = true := by decide +kernel

theorem smoke_wfReq : wfInstr (.ctxStart 0 0 6) = false ∧ wfInstr (.ctxStart 0 0 5) = true := by decide +kernel

theorem smoke_wfSup : wfInstr (.supervisorBatchSend 4 false) = false ∧ wfInstr (.supervisorBatchSend 3 false) = true := by decide +kernel

theorem smoke_wfSlot : wfInstr (.peenArm 8 0 0) = false ∧ wfInstr (.peenArm 7 0 0) = true := by decide +kernel

theorem smoke_wfGrant : wfInstr (.fabGrantWrite 16 0) = false ∧ wfInstr (.fabGrantWrite 15 0) = true := by decide +kernel

theorem smoke_wfFBar : wfInstr (.fabricBarrierWatchdog 16 false) = false ∧ wfInstr (.fabricBarrierWatchdog 15 false) = true := by decide +kernel

theorem smoke_wfBar : wfInstr (.barrierWatchdog 288) = false ∧ wfInstr (.barrierWatchdog 287) = true := by decide +kernel

theorem smoke_wfCtr : wfInstr (.dieCounterFire 320) = false ∧ wfInstr (.dieCounterFire 319) = true := by decide +kernel

theorem smoke_wfBlock : wfInstr (.lockWrite 4096 0 0) = false ∧ wfInstr (.lockWrite 4095 0 0) = true := by decide +kernel

theorem smoke_wfWord : wfInstr (.tsSlotDataWrite 256 0 0) = false ∧ wfInstr (.tsSlotDataWrite 255 0 0) = true := by decide +kernel

theorem smoke_wfAddr : wfInstr (.hbmReadResponse (2 ^ 40) 0 0) = false ∧ wfInstr (.hbmReadResponse (2 ^ 40 - 1) 0 0) = true := by decide +kernel

theorem smoke_wfW32 : wfInstr (.arpRequest 0 (2 ^ 32)) = false ∧ wfInstr (.arpRequest 0 (2 ^ 32 - 1)) = true := by decide +kernel

theorem smoke_wfSession : wfInstr (.setupTimeout (2 ^ 24)) = false ∧ wfInstr (.setupTimeout (2 ^ 24 - 1)) = true := by decide +kernel

theorem smoke_wfJob : wfInstr (.mirror 0 (2 ^ 32) 0 0 []) = false ∧ wfInstr (.mirror 0 (2 ^ 32 - 1) 0 0 []) = true := by decide +kernel

theorem smoke_wfTag : wfInstr (.modexp 0 (2 ^ 16) 0 0 0 0 0) = false ∧ wfInstr (.modexp 0 (2 ^ 16 - 1) 0 0 0 0 0) = true := by decide +kernel

theorem smoke_wfDev : wfInstr (.windowWrite 0 0 (2 ^ 18) 0 0 [] false) = false ∧ wfInstr (.windowWrite 0 0 (2 ^ 18 - 1) 0 0 [] false) = true := by decide +kernel

theorem smoke_wfRec : wfInstr (.resultRetry (2 ^ 16)) = false ∧ wfInstr (.resultRetry (2 ^ 16 - 1)) = true := by decide +kernel

theorem smoke_wfOperand : wfInstr (.modexp 0 0 4096 0 0 0 0) = false ∧ wfInstr (.modexp 0 0 4095 0 0 0 0) = true := by decide +kernel

theorem smoke_wfLen : wfInstr (.ecdsaSign 0 0 0 false 0 0 0 (2 ^ 16) 0) = false ∧ wfInstr (.ecdsaSign 0 0 0 false 0 0 0 (2 ^ 16 - 1) 0) = true := by decide +kernel

theorem smoke_wfTemp : wfInstr (.hbmTempRead 0 256 0 false) = false ∧ wfInstr (.hbmTempRead 0 255 0 false) = true := by decide +kernel

theorem smoke_wfHint : wfInstr (.hbmWrite 0 8 [] false 0 0 0) = false ∧ wfInstr (.hbmWrite 0 7 [] false 0 0 0) = true := by decide +kernel

theorem smoke_wfStackSel : wfInstr (.stackSel 16 false) = false ∧ wfInstr (.stackSel 15 false) = true := by decide +kernel

theorem smoke_wfCmd : wfInstr (.dbgAccess 16 0 0 0 0) = false ∧ wfInstr (.dbgAccess 15 0 0 0 0) = true := by decide +kernel

theorem smoke_wfScan : wfInstr (.extest (2 ^ 212) 0) = false ∧ wfInstr (.extest (2 ^ 212 - 1) 0) = true := by decide +kernel

theorem smoke_wfStrap : wfInstr (.pwrgdRise false 4) = false ∧ wfInstr (.pwrgdRise false 3) = true := by decide +kernel

theorem smoke_wfIr : wfInstr (.entdaa 128) = false ∧ wfInstr (.entdaa 127) = true := by decide +kernel

theorem smoke_wfWho : wfInstr (.modexp 6 0 0 0 0 0 0) = false ∧ wfInstr (.modexp 5 0 0 0 0 0 0) = true := by decide +kernel

theorem smoke_wfBarKey : wfInstr (.barCfgWrite false 304 0 0) = false ∧ wfInstr (.barCfgWrite false 303 0 0) = true := by decide +kernel


/-! ### A device with a table, a profile, drawers and headers -/

/-- Four entries; the checks read their sizes only. -/
def bank4 : Bank := { primes := [⟨140737488486401, 3⟩, ⟨140737488617473, 5⟩, ⟨140737489010689, 7⟩, ⟨140737489534977, 11⟩] }

/-- A CKKS profile of N = 4096: two Q limbs and one P limb. -/
def prof0 : Profile :=
  { scheme := 1, log2n := 12, slot := 0, qFirst := 0, pFirst := 2, numQ := 2, numP := 1, dnum := 2, scale := 10240, ptmod := 0,
    floor := 96, aRs := 80, aKs := 88, eMs := 0, eKs := 0, anneal := 7 }

/-- A header of session 5, generation 1, budget 300, scale 10240. -/
def hdr0 (kind polys limbs domain : Nat) : Header :=
  Header.seal {
    w0 := BitVec.ofNat 64 (1 + kind * 2 ^ 8 + 12 * 2 ^ 24 + limbs * 2 ^ 32 + polys * 2 ^ 40 + domain * 2 ^ 42)
    w1 := BitVec.ofNat 64 (10240 + 300 * 2 ^ 16 + 2048 * 2 ^ 32)
    w2 := BitVec.ofNat 64 (if kind = 0x01 then makeTag 5 1 0 else 0)
    w3 := BitVec.ofNat 64 (bodyLength polys limbs 4096 + 2 ^ 48) }

/-- The first drawer of a role; groups of 32. -/
def roleAt (s : State) (c role : Nat) : Option Nat := ((List.range 8).find? (fun g => s.portOf c (32 * g) == role)).map (32 * ·)

/-- A table active in slot 0, the profile in slot 0. -/
def world (s : State) : State := { s with tables := [(0, { active := true, gen := 1, bank := bank4 })], profs := [(0, prof0)] }

def withHdr (s : State) (c d : Nat) (h : Header) : State := s.modCore c (fun k => k.setHdr d h)
def withFull (s : State) (c : Nat) (ds : List Nat) : State := ds.foldl (fun s d => s.modCore c (fun k => k.setDrawer d { tag := .full })) s

/-- A descriptor of one run: `n` units of stride `u` from an address. -/
def descRun (base n u : Nat) : BitVec 320 := BitVec.ofNat 320 (base + (n - 1) * 2 ^ 40 + u * 2 ^ 56)
def withDesc (s : State) (c n : Nat) (d : BitVec 320) : State := s.modCore c (fun k => { k with descs := Tab.set 0 k.descs n d })

/-! ### Stream commands of the control core -/

/-- Operand fields of a control-core command. -/
def opaC (pd rd ra rb ib fn num cnt : Nat) : BitVec 38 :=
  BitVec.ofNat 38 (pd * 2 ^ 35 + rd * 2 ^ 30 + ra * 2 ^ 25 + rb * 2 ^ 20 + ib * 2 ^ 19 + fn * 2 ^ 15 + num * 2 ^ 7 + cnt)

theorem wit_PredicatesAndBranches :
    (run0.Quiet 0 0 ∧ run0.Takes 0 0 .pset { opa := opaC 7 0 31 31 1 8 0 0 } ∧ (opaC 7 0 31 31 1 8 0 0 |> fun o => ({ opa := o } : CmdFields).fn) ≤ 8)
    ∧ (run0.Takes 0 0 .plog { opa := opaC 7 0 7 7 0 3 0 0 } ∧ ({ opa := opaC 7 0 7 7 0 3 0 0 } : CmdFields).fn ≤ 3)
    ∧ (run0.Takes 0 0 .bra { w2 := 0x8FFFFFFFE0 } ∧ bits (0x8FFFFFFFE0 : W64) 39 0 % 32 = 0 ∧ inHbm (bits (0x8FFFFFFFE0 : W64) 39 0) = true)
    ∧ (run0.Takes 0 0 .brr {} ∧ bits ((run0.context 0 0).reg 0) 39 0 % 32 = 0 ∧ inHbm (bits ((run0.context 0 0).reg 0) 39 0) = true) := by
  refine ⟨⟨(row_of (op := .movi) (f := {}) (by decide +kernel)).1, takes_of (by decide +kernel), by decide +kernel⟩,
    ⟨takes_of (by decide +kernel), by decide +kernel⟩, ⟨takes_of (by decide +kernel), by decide +kernel⟩,
    ⟨takes_of (by decide +kernel), by decide +kernel⟩⟩

/-- A live header of three limbs' object in the last drawer. -/
def sHdr : State := withHdr (world run0) 0 255 (hdr0 1 2 2 1)

theorem wit_HeaderCommands :
    (sHdr.Quiet 0 0 ∧ sHdr.Takes 0 0 .hrd { opa := opaC 0 31 0 0 0 7 255 0 } ∧ sHdr.drawerInShare 0 0 255 = true)
    ∧ (sHdr.Takes 0 0 .hset { opa := opaC 0 0 0 0 0 12 255 0 }
      ∧ ((sHdr.context 0 0).reg 0).toNat.land (hsetMask 12) = ((sHdr.context 0 0).reg 0).toNat
      ∧ hsetRefused 12 ((sHdr.context 0 0).reg 0).toNat ((sHdr.core 0).hdr 255) = false)
    ∧ (sHdr.Takes 0 0 .hcopy { opa := opaC 0 0 0 0 0 0 0 0, w3 := 255 } ∧ sHdr.drawerInShare 0 0 (bits (255 : W64) 7 0) = true)
    ∧ (sHdr.Takes 0 0 .hdrop { opa := opaC 0 0 0 0 0 0 255 0, w2 := 1 } ∧ sHdr.Passes 0 0 .hdrop { opa := opaC 0 0 0 0 0 0 255 0, w2 := 1 }) := by
  refine ⟨⟨quiet_of (by decide +kernel), takes_of (by decide +kernel), by decide +kernel⟩,
    ⟨takes_of (by decide +kernel), by decide +kernel⟩, ⟨takes_of (by decide +kernel), by decide +kernel⟩,
    ⟨takes_of (by decide +kernel), pass_of (by decide +kernel)⟩⟩

theorem wit_CountersDescriptorsAndTags :
    run0.Quiet 0 0 ∧ run0.Takes 0 0 .nop {} ∧ (run0.Takes 0 0 .endStream {} ∧ ∀ p ∈ run0.placed, p.ctxs.head? ≠ some (4 * 0 + 0))
    ∧ (run0.Takes 0 0 .cadd { opa := opaC 0 0 0 0 0 0 255 0 } ∧ run0.Takes 0 0 .crd { opa := opaC 0 31 0 0 0 0 255 0 }
      ∧ run0.ctrInShare 0 0 255 = true)
    ∧ (run0.Takes 0 0 .descwr { opa := opaC 0 0 27 0 0 0 63 0 } ∧ run0.descInShare 0 0 63 = true
      ∧ ({ opa := opaC 0 0 27 0 0 0 63 0 } : CmdFields).ra ≤ 27)
    ∧ (run0.Takes 0 0 .drtag { opa := opaC 0 0 0 0 0 1 192 64 } ∧ (∀ d, 192 ≤ d → d < 192 + 64 → run0.drawerInShare 0 0 d = true)
      ∧ ({ opa := opaC 0 0 0 0 0 1 192 64 } : CmdFields).cnt = 64 ∧ ({ opa := opaC 0 0 0 0 0 1 192 64 } : CmdFields).num = 192
      ∧ ∀ d, ((run0.core 0).drawer d).claim = false ∧ ((run0.core 0).drawer d).closing = false) := by
  refine ⟨quiet_of (by decide +kernel), takes_of (by decide +kernel), ⟨takes_of (by decide +kernel), by decide +kernel⟩,
    ⟨takes_of (by decide +kernel), takes_of (by decide +kernel), by decide +kernel⟩,
    ⟨takes_of (by decide +kernel), by decide +kernel, by decide +kernel⟩,
    ⟨takes_of (by decide +kernel), ?_, by decide +kernel, by decide +kernel, fun d => ⟨rfl, rfl⟩⟩⟩
  intro d h1 h2
  have hm : run0.modeM 0 = false := by decide +kernel
  simp [State.drawerInShare, State.drawerOwner, hm]
  omega

theorem wit_LossScaleAndLearningRate :
    run0.Quiet 0 0 ∧ run0.Takes 0 0 .lsdecide { opa := opaC 7 0 31 0 0 0 0 0 }
    ∧ (run0.Takes 0 0 .lrpick { opa := opaC 0 0 0 0 0 0 63 0 } ∧ run0.Passes 0 0 .lrpick { opa := opaC 0 0 0 0 0 0 63 0 }) :=
  ⟨quiet_of (by decide +kernel), takes_of (by decide +kernel), takes_of (by decide +kernel), pass_of (by decide +kernel)⟩

/-- The hallmark permits every level, the shelf ports are up, and barrier 63 of die 0 is armed for `n` participants. -/
def sSync (n : Nat) : State :=
  let s := ((run0.setRf .hmPolicy 0 0 10 8 4)).setReg .dieBarCfg 0 63 (BitVec.ofNat 32 (2 ^ 31 + n * 2 ^ 22))
  (List.range 16).foldl (fun s p => s.setRf .portStatus p 0 31 29 2) s

theorem wit_RemoteSignalsAndBarriers :
    ((sSync 1).Quiet 0 0 ∧ (sSync 1).Takes 0 0 .rsig { opa := opaC 0 0 0 0 0 2 63 0, w2 := 65535 }
      ∧ (sSync 1).Passes 0 0 .rsig { opa := opaC 0 0 0 0 0 2 63 0, w2 := 65535 })
    ∧ ((sSync 1).Takes 0 0 .rsig { opa := opaC 0 0 0 0 0 3 255 0, w2 := 0x01000001 }
      ∧ (sSync 1).Passes 0 0 .rsig { opa := opaC 0 0 0 0 0 3 255 0, w2 := 0x01000001 }
      ∧ ({ opa := opaC 0 0 0 0 0 3 255 0, w2 := 0x01000001 } : CmdFields).fn = 3 ∧ bits (0x01000001 : W64) 41 24 ≠ (sSync 1).myDev ∧ ((sSync 1).route (sSync 1).myDev (bits (0x01000001 : W64) 41 24)).isSome)
    ∧ (∀ n ∈ [1, 2], (sSync n).Quiet 0 0 ∧ (sSync n).Takes 0 0 .barrier { opa := opaC 0 31 0 0 0 0 63 0 } ∧ (sSync n).sigsUnderWay 0 0 = false
      ∧ barKey 0 0 63 = some 63 ∧ barArmed ((sSync n).barCfg 63) = true ∧ (sSync n).bar 63 = {} ∧ barCount ((sSync n).barCfg 63) = n
      ∧ ∀ e ∈ (sSync n).cores, ∀ q ∈ e.2.q, q.barKey e.1 = some 63 → q.bar ≠ .held) := by
  refine ⟨⟨quiet_of (by decide +kernel), takes_of (by decide +kernel), pass_of (by decide +kernel)⟩,
    ⟨takes_of (by decide +kernel), pass_of (by decide +kernel), by decide +kernel⟩, ?_⟩
  intro n hn
  have h : n = 1 ∨ n = 2 := by simpa using hn
  rcases h with rfl | rfl
  · exact ⟨quiet_of (by decide +kernel), takes_of (by decide +kernel), by decide +kernel, by decide +kernel, by decide +kernel,
      by decide +kernel, by decide +kernel, by decide +kernel⟩
  · exact ⟨quiet_of (by decide +kernel), takes_of (by decide +kernel), by decide +kernel, by decide +kernel, by decide +kernel,
      by decide +kernel, by decide +kernel, by decide +kernel⟩

theorem wit_SkippedCommandsDoNothing : ∀ op ∈ [Opcode.nop, .hadd, .anneal, .tmul],
    run0.Quiet 0 0 ∧ run0.TakesSkipped 0 0 op { psense := true } ∧ ∀ d, ((run0.core 0).drawer d).closing = false :=
  fun op h => ⟨quiet_of (by decide +kernel), skips_of (by revert op; decide +kernel), fun _ => rfl⟩

/-! ### Engine commands -/

/-- Header slots and FULL drawers of the roles: an object of two limbs for the NTT engine in drawers 0 to 3, inputs of the drawbench from 64
and from 96, a plaintext's header at 100. -/
def sObj : State :=
  let s := withFull (world run0) 0 [0, 1, 2, 3, 64, 65, 66, 67, 96, 97, 98, 99, 100, 101]
  let s := withHdr (withHdr s 0 0 (hdr0 1 2 2 0)) 0 1 (hdr0 1 2 2 1)
  withHdr (withHdr (withHdr s 0 64 (hdr0 1 2 2 1)) 0 96 (hdr0 1 2 2 1)) 0 100 (hdr0 0x11 1 2 1)

/-- Operand word of an NTT command. -/
def w2N (src dst slot first count log2n ghalf : Nat) : W64 :=
  BitVec.ofNat 64 (src * 2 ^ 56 + dst * 2 ^ 48 + slot * 2 ^ 46 + first * 2 ^ 40 + count * 2 ^ 33 + log2n * 2 ^ 28 + ghalf * 2 ^ 11)
def w2O (x y z : Nat) : W64 := BitVec.ofNat 64 (x * 2 ^ 56 + y * 2 ^ 48 + z * 2 ^ 40)

def fO (x y z : Nat) : CmdFields := { w2 := w2O x y z, opa := 3 }

theorem wit_NttCommandsTransformLimbs :
    (∀ o ∈ [(Opcode.ntto, 0), (.intto, 1)], engB (withHdr sObj 0 0 (hdr0 1 2 2 o.2)) 0 0 o.1 { w2 := w2N 0 60 0 0 0 0 0 } = true
      ∧ (((withHdr sObj 0 0 (hdr0 1 2 2 o.2)).core 0).hdr 0).sized = true)
    ∧ (∀ op ∈ [Opcode.nttl, .inttl], engB sObj 0 0 op { w2 := w2N 0 0 0 0 4 12 0 } = true)
    ∧ engB sObj 0 0 .autol { w2 := w2N 0 60 0 0 4 12 131071 } = true := by
  refine ⟨by decide +kernel, by decide +kernel, by decide +kernel⟩

theorem wit_ObjectCommandsCombineResidues :
    (∀ o ∈ [(Opcode.hadd, fO 64 96 128), (.hsub, fO 64 96 128), (.haddp, fO 64 100 128), (.hsubp, fO 64 100 128), (.hmulp, fO 64 100 128),
        (.hmulc, fO 64 96 128), (.hmuli, { fO 64 0 128 with w3 := 111 })], engB sObj 0 0 o.1 o.2 = true)
    ∧ ((sObj.core 0).hdr 64).sized = true := by
  refine ⟨by decide +kernel, by decide +kernel⟩

/-- Descriptors over single drawers and one chain entry: modular entry 0 multiplies by Y, clear entry 1 adds Y in BF16. -/
def sDraw : State :=
  let s := withFull (world run0) 0 [64, 96, 160, 161]
  let s := withDesc (withDesc (withDesc s 0 0 (descRun (drawerAddr 0 64) 128 6)) 0 1 (descRun (drawerAddr 0 96) 128 6)) 0 2
    (descRun (drawerAddr 0 128) 128 6)
  let s := withDesc (withDesc (withDesc s 0 3 (descRun (drawerAddr 0 64) 2 2)) 0 4 (descRun (drawerAddr 0 96) 2 2)) 0 5
    (descRun (drawerAddr 0 128) 2 2)
  let s := ((s.setReg .chainW1 0 0 0x00004000).setReg .chainW2 0 0 0x10000000).setReg .chainW0 0 1 0x40000000
  (s.setReg .chainW1 0 1 0x99904000).setReg .chainW2 0 1 0x01000000

def w2D (xd yd zd chain : Nat) : W64 := BitVec.ofNat 64 (xd * 2 ^ 58 + yd * 2 ^ 52 + zd * 2 ^ 46 + chain * 2 ^ 22)
def fMod : CmdFields := { w2 := w2D 0 1 2 0, w3 := BitVec.ofNat 64 (3 * 2 ^ 56 + 1 * 2 ^ 49 + 1 * 2 ^ 38), opa := 3 }
def fClr : CmdFields := { w2 := w2D 3 4 5 1, w3 := 2 }
def fRed : CmdFields := { w2 := w2D 3 4 5 1, w3 := 2, opa := BitVec.ofNat 38 (31 * 2 ^ 33 + 5 * 2 ^ 30) }

theorem wit_DrawbenchPasses :
    (engB sDraw 0 0 .dbchain fMod = true ∧ (sDraw.plan 0 0 .dbchain fMod).lat.mode = 0
      ∧ ∀ e, (sDraw.plan 0 0 .dbchain fMod).lat.laneMasked e = false)
    ∧ (engB sDraw 0 0 .dbchain fClr = true ∧ (sDraw.plan 0 0 .dbchain fClr).lat.mode ≠ 0
      ∧ (sDraw.plan 0 0 .dbchain fClr).lat.keepMode = false ∧ 8 ≤ fmtBits (sDraw.plan 0 0 .dbchain fClr).lat.ofmt
      ∧ fmtScaled (sDraw.plan 0 0 .dbchain fClr).lat.ofmt = false)
    ∧ engB sDraw 0 0 .dbreduce fRed = true := by
  refine ⟨⟨by decide +kernel, by decide +kernel, ?_⟩, by decide +kernel, by decide +kernel⟩
  have h : (sDraw.plan 0 0 .dbchain fMod).lat.masksrc = 0 := by decide +kernel
  intro e
  simp [Latch.laneMasked, h]

/-- Tiles 0 and 1 of one row of FP8 elements; accumulator 0 in use; streams in the anvil's drawers. -/
def sAnvil : State :=
  let s := withFull (world run0) 0 [160, 161]
  let s := s.modCore 0 (fun k => (((k.setTile 0 { desc := 0x18, inuse := true }).setTile 1 { desc := 0x18, inuse := true }).setAcc 0
    { inuse := true }))
  let s := withDesc (withDesc s 0 0 (descRun (drawerAddr 0 160) 16 1)) 0 1 (descRun (drawerAddr 0 162) 1 2)
  let s := withDesc (withDesc s 0 2 (descRun (drawerAddr 0 160) 128 6)) 0 3 (descRun (drawerAddr 0 162) 128 6)
  withDesc s 0 4 (descRun (drawerAddr 0 161) 1 6)

def fTmul : CmdFields := { opa := BitVec.ofNat 38 (0 * 2 ^ 35 + 1 * 2 ^ 32 + 2 ^ 29) }
def fDrain : CmdFields := { opa := BitVec.ofNat 38 (2 ^ 29), w2 := BitVec.ofNat 64 (2 ^ 58), w3 := BitVec.ofNat 64 (9 * 2 ^ 46) }
def fBconv : CmdFields := { opa := BitVec.ofNat 38 (2 ^ 20 + 2 * 2 ^ 14 + 3 * 2 ^ 8), w2 := 1, w3 := 8 }
def fMmulm : CmdFields := { opa := BitVec.ofNat 38 (3 * 2 ^ 30 + 2 ^ 20 + 2 * 2 ^ 14 + 3 * 2 ^ 8 + 4 * 2 ^ 2) }

theorem wit_AnvilCommands :
    engB sAnvil 0 0 .tcfg { w2 := 0x18, w3 := BitVec.ofNat 64 (0x18 * 2 ^ 48) } = true
    ∧ engB sAnvil 0 0 .tload { opa := 1 } = true ∧ engB sAnvil 0 0 .tmul fTmul = true ∧ engB sAnvil 0 0 .tzero {} = true
    ∧ engB sAnvil 0 0 .tdrain fDrain = true ∧ 8 ≤ fmtBits (bits fDrain.w3 49 46) ∧ fmtScaled (bits fDrain.w3 49 46) = false
    ∧ bits fDrain.w3 32 31 = 0 ∧ bits fDrain.w3 30 29 = 0 := by
  refine ⟨by decide +kernel, by decide +kernel, by decide +kernel, by decide +kernel, by decide +kernel, by decide +kernel⟩

theorem wit_ModularMatrixCommands : engB sAnvil 0 0 .bconv fBconv = true ∧ engB sAnvil 0 0 .mmulm fMmulm = true := by
  refine ⟨by decide +kernel, by decide +kernel⟩

/-! ### Transfers -/

/-- Descriptors: 0 stacked memory at 0x1000, 1 drawer 224 of core 0, 2 drawer 0 of core 1, 3 stacked memory at 0x2000, 8 two units of which
the second lies in no scratchpad.
Drawers 225 and 230 of core 0 and 224 of core 1 are FULL; core 1 opens drawer 0 to core 0. The shelf ports are up. -/
def sXfer : State :=
  let s := withFull (withFull (world run0) 0 [225, 230]) 1 [224]
  let s := withDesc (withDesc (withDesc s 0 0 (descRun 0x1000 2 64)) 0 1 (descRun (drawerAddr 0 224) 2 64)) 0 2 (descRun (drawerAddr 1 0) 2 64)
  let s := withDesc (withDesc s 0 3 (descRun 0x2000 2 64)) 0 8 (descRun (drawerAddr 1 255 + 98240) 2 64)
  let s := (((s.setReg .winCfg 1 0 0x80000001).setReg .winBound 1 0 1536).setReg .winWdev 1 0 0x80000000).setReg .winWcore0 1 0 1
  let s := s.setRf .hmPolicy 0 0 10 8 4
  (List.range 16).foldl (fun s p => s.setRf .portStatus p 0 31 29 2) s

def opaX (sd dd hint cctr hdr dir : Nat) : BitVec 38 :=
  BitVec.ofNat 38 (sd * 2 ^ 32 + dd * 2 ^ 26 + hint * 2 ^ 24 + cctr * 2 ^ 16 + hdr * 2 ^ 8 + dir * 2 ^ 7)
def fX (sd dd : Nat) : CmdFields := { opa := opaX sd dd 2 255 9 0 }
def fQ : CmdFields := { w2 := BitVec.ofNat 64 (1 * 2 ^ 62 + 224 * 2 ^ 54 + 255 * 2 ^ 46 + 2 ^ 40) }
def fFar (op : Opcode) (src : Bool) (sd dd : Nat) : CmdFields :=
  { opa := opaX sd dd 2 255 0 0, w2 := BitVec.ofNat 64 (2 ^ 40), w3 := if op = .xfer then (if src then 3 else 2) else 0 }

def localB (s : State) (op : Opcode) (f : CmdFields) : Bool :=
  engB s 0 0 op f && !s.xferFar op (encodeCmd op f) && decide ((s.gather (bits f.opa 25 24) (s.xferD 0 0 op f).1.addrs).stop = none)
    && decide ((s.xferD 0 0 op f).2.region 64 = some 0 ∨ (s.xferD 0 0 op f).2.region 64 = some 1)

theorem local_of {s : State} {op : Opcode} {f : CmdFields} (h : localB s op f = true) :
    s.Quiet 0 0 ∧ s.Takes 0 0 op f ∧ LocalXfer op s 0 0 f := by
  simp only [localB, Bool.and_eq_true, decide_eq_true_eq, Bool.not_eq_true'] at h
  obtain ⟨⟨⟨h1, h2⟩, h3⟩, h4⟩ := h
  exact ⟨(eng_of h1).1, (eng_of h1).2.1, (eng_of h1).2.2.1, (eng_of h1).2.2.2, h2, h3, h4⟩

/-- Objects of N = 32: descriptor 5 in stacked memory below whose base a header lies, 6 drawer 226, 7 drawer 230, which is FULL. -/
def sXobj : State :=
  let h := { hdr0 1 2 1 1 with w0 := putBits (putBits (hdr0 1 2 1 1).w0 23 16 1) 28 24 5, w3 := BitVec.ofNat 64 (384 + 2 ^ 48) }.seal
  let s := withHdr sXfer 0 9 h
  let s := withDesc (withDesc (withDesc s 0 5 (descRun 0x8000 6 64)) 0 6 (descRun (drawerAddr 0 226) 6 64)) 0 7 (descRun (drawerAddr 0 230) 6 64)
  { s with mem := [], profs := [(0, prof0), (1, { prof0 with log2n := 5 })] }.writeBytes 0x7FC0 h.bytes

theorem wit_LocalTransfersCopy :
    (∀ op ∈ [Opcode.xfer, .xput, .xget], localB sXfer op (fX 0 1) = true)
    ∧ (engB sXfer 0 0 .xfer (fX 0 2) = true ∧ sXfer.xferFar .xfer (encodeCmd .xfer (fX 0 2)) = false
      ∧ (sXfer.gather 2 (sXfer.xferD 0 0 .xfer (fX 0 2)).1.addrs).stop = none
      ∧ (sXfer.xferD 0 0 .xfer (fX 0 2)).2.region 64 = some (1 + 1)
      ∧ (sXfer.scatter 0 ((sXfer.core 0).serial + 1) 2 ((sXfer.xferD 0 0 .xfer (fX 0 2)).2.addrs.zip
          ((sXfer.xferD 0 0 .xfer (fX 0 2)).1.addrs.map (fun a => sXfer.readBytes a.toNat 64)))).stop = none
      ∧ (sXfer.scatter 0 ((sXfer.core 0).serial + 1) 2 ((sXfer.xferD 0 0 .xfer (fX 0 2)).2.addrs.zip
          ((sXfer.xferD 0 0 .xfer (fX 0 2)).1.addrs.map (fun a => sXfer.readBytes a.toNat 64)))).waits = [])
    ∧ (engB sXfer 0 0 .qread fQ = true ∧ sXfer.parityHit (0 / 4 * 4 + bits fQ.w2 63 62) (drawerRun (bits fQ.w2 61 54) (bits fQ.w2 45 40)) = none
      ∧ ∀ d, ((sXfer.core (0 / 4 * 4 + bits fQ.w2 63 62)).drawer d).closing = false) := by
  refine ⟨by decide +kernel, ⟨by decide +kernel, by decide +kernel, by decide +kernel, by decide +kernel, ?_, ?_⟩, by decide +kernel,
    by decide +kernel, ?_⟩
  · decide +kernel
  · decide +kernel
  · exact fun d => closing_of (by decide +kernel) d

theorem wit_LocalTransfersCopy_xobj : localB sXobj .xobj (fX 5 6) = true ∧ bits (fX 5 6).opa 7 7 = 0
    ∧ localB sXobj .xobj { opa := opaX 7 5 2 255 9 1 } = true ∧ bits (opaX 7 5 2 255 9 1) 7 7 = 1 := by
  refine ⟨by decide +kernel, by decide +kernel, by decide +kernel, by decide +kernel⟩

def farB (s : State) (op : Opcode) (src : Bool) (f : CmdFields) : Bool :=
  engB s 0 0 op f && s.xferFar op (encodeCmd op f) && decide (xferSide op (encodeCmd op f) = some src)
    && (src || decide ((s.gather (bits f.opa 25 24) (s.xferD 0 0 op f).1.addrs).stop = none)) && (s.route s.myDev (bits f.w2 57 40)).isSome
    && (op != .xfer || !s.pathHeld (bits f.w2 57 40)) && farWhole (if src then (s.xferD 0 0 op f).1.addrs else (s.xferD 0 0 op f).2.addrs)

/-- A LOAD_REQ to the device of `f` unanswered, sent on port 15. -/
def sPathHeld (f : CmdFields) : State :=
  { sXfer with
    shelfPort := [(bits f.w2 57 40, 16)]
    fops := [{ opid := 1, dev := bits f.w2 57 40, core := 1, ctx := 0, cmd := 9, packets := 1, cctr := none }] }

/-- A remote transfer whose far side is not whole, on a context that runs no job. -/
def unwholeB (s : State) (op : Opcode) (src : Bool) (f : CmdFields) : Bool :=
  engB s 0 0 op f && s.xferFar op (encodeCmd op f) && decide (xferSide op (encodeCmd op f) = some src) && decide (s.jobOf 0 0 = {})
    && !s.pathHeld (bits f.w2 57 40) && !farWhole (if src then (s.xferD 0 0 op f).1.addrs else (s.xferD 0 0 op f).2.addrs)

theorem wit_RemoteTransfersSendPackets :
    (∀ o ∈ [(Opcode.xfer, false, 0, 2), (.xfer, true, 2, 1), (.xput, false, 0, 2), (.xget, true, 2, 1)],
      farB sXfer o.1 o.2.1 (fFar o.1 o.2.1 o.2.2.1 o.2.2.2) = true)
    ∧ (∀ o ∈ [(Opcode.xfer, false, 0, 8), (.xfer, true, 8, 1), (.xput, false, 0, 8), (.xget, true, 8, 1)],
      unwholeB sXfer o.1 o.2.1 (fFar o.1 o.2.1 o.2.2.1 o.2.2.2) = true)
    ∧ (let f := fFar .xfer true 0 1
       engB (sPathHeld f) 0 0 .xfer f = true ∧ (sPathHeld f).xferFar .xfer (encodeCmd .xfer f) = true ∧ (sPathHeld f).pathHeld (bits f.w2 57 40) = true) := by
  refine ⟨by decide +kernel, by decide +kernel, ?_⟩
  intro f
  and_intros <;> decide +kernel


/-! ### Die macros -/

/-- Bytes at an address, as memory lists them. -/
def cells (a : Nat) (bs : List Byte) : List (Nat × Byte) := bs.zipIdx.map (fun e => (a + e.2, e.1))
def words (a : Nat) (ws : List Nat) : List (Nat × Byte) := cells a (ws.flatMap (fun w => natLE 8 w))

/-- A key record's header of session 5, generation 1 for `prof0`. -/
def keyHead (i gen : Nat) : List Byte :=
  let b := natLE 8 (12 * 2 ^ 24 + 2 * 2 ^ 32 + 2 * 2 ^ 40 + 2 ^ 48) ++ natLE 8 (makeTag 5 gen i) ++ List.replicate 44 0
  b ++ natLE 4 (crc32c b)

/-- An owner table of drawers from `d` upward. -/
def ownerWords (d n : Nat) : List Nat := (List.range n).map (fun i => 2 ^ 63 + d + i)

/-- An object of `polys` polynomials in drawers 0 upward of core 0 and a key set of session 5 with keys `is`: tables at 0x2000 and 0x4000,
directory at 0x6000, a rotation step in entry 0, records from 0x10000. -/
def sMacro (polys gen : Nat) (is : List Nat) : State :=
  let s := withHdr (withFull (world run0) 0 [0, 1, 2, 3, 4, 5]) 0 0 (hdr0 1 polys 2 1)
  { s with
    sessions := [(5, { dir := 0x6000 })]
    mem := words 0x2000 (ownerWords 0 6) ++ words 0x4000 (ownerWords 8 4)
      ++ (is.zipIdx.flatMap (fun e => words (0x6000 + 8 * ((dirPos e.1).getD 0)) [2 ^ 63 + e.1 * 2 ^ 40 + 0x10000 + 64 * e.2]))
      ++ cells 0x6400 [1, 0, 0, 0x80] ++ (is.zipIdx.flatMap (fun e => cells (0x10000 + 64 * e.2) (keyHead e.1 gen))) }

def fM (w2 : Nat) (nent sum : Nat) : CmdFields :=
  { opa := BitVec.ofNat 38 (2 ^ 14 + sum * 2 ^ 7 + nent * 4), w2 := BitVec.ofNat 64 (0x2000 + w2 * 2 ^ 40), w3 := 0x4000 }

def macroB (s : State) (op : Opcode) (f : CmdFields) (p : Nat → Profile) : Bool :=
  let q := s.startedEntry 0 0 op f
  rowB s 0 0 op f && passB s 0 0 op f && q.lat.tarnish.all (· == 0)
    && (List.range q.lat.outs.length).all (fun j => decide (q.lat.profAt op j = some (p j)) && (s.macroStream op q (p j) j).2
      && s.stepsOk op (macroDir op q j) (macroKeys op q (p j) j))
    && decide (s.regs = []) && decide (s.ecc = []) && decide (s.linkBad = [])

/-- Where no register has been written and no error recorded, every granule reads sound. -/
theorem sound_of {s : State} (h1 : s.regs = []) (h2 : s.ecc = []) (h3 : s.linkBad = []) (g : Nat) :
    s.stackOnline (64 * g) = true ∧ s.severity (64 * g) ≠ 2 ∧ ¬ g ∈ s.linkBad := by
  refine ⟨?_, ?_, by simp [h3]⟩
  · unfold State.stackOnline State.rf State.reg State.regK
    rw [h1]
    show (bits (resetWord RegName.mtStatus.fields) 3 3 == 0) = true
    decide +kernel
  · unfold State.severity
    rw [h2]
    exact fun h => by cases h

/-- What the start of a macro asks of its drawers. -/
def startsB (s : State) (q : QCmd) (mid : List (Nat × Nat)) : Bool :=
  decide (s.pickDrawers 0 q = some mid) && q.inDr.all (fun e => ((s.core e.1).drawer e.2).ready)
    && q.outDr.all (fun o => o.all (fun e => ((s.core e.1).drawer e.2).open_ && !((s.core e.1).drawer e.2).closing))
    && decide (s.waitw = []) && decide (s.macroBadParity { q with macroDr := mid } = none)
    && s.keysets.all (fun k => decide (k.dir = (Tab.get {} s.sessions k.session).dir ∨ k.dir = (Tab.get {} s.sessions k.session).readyDir) || s.setStaged k)

theorem starts_of {s : State} {q : QCmd} {mid : List (Nat × Nat)} (h : startsB s q mid = true) : s.MacroStarts 0 q mid := by
  simp only [startsB, Bool.and_eq_true, Bool.or_eq_true, decide_eq_true_eq, List.all_eq_true, Bool.not_eq_true'] at h
  obtain ⟨⟨⟨⟨⟨h1, h2⟩, h3⟩, h4⟩, h5⟩, h6⟩ := h
  refine ⟨h1, h2, h3, fun w hw => ?_, h5, fun k hk => ?_⟩
  · rw [h4] at hw; cases hw
  · rcases h6 k hk with (h | h) | h
    · exact .inl h
    · exact .inr (.inl h)
    · exact .inr (.inr h)

/-- For HRESCALE: a scale that the top prime divides. -/
def sRescale : State := withHdr (sMacro 2 1 []) 0 0 ((hdr0 1 2 2 1).withScale 22272).seal

/-- For ANNEAL: a set of factors of one rotation each, and the keys of its sequence. -/
def sAnneal : State :=
  { sMacro 2 1 [0, 1, 0x8000, 0x8001, 0x8002, 0x8003, 0x8004] with
    tables := [(0, { active := true, gen := 1, bank := { bank4 with anneal := [[10240 * 2 ^ 48 + 176 * 2 ^ 32 + 2 * 2 ^ 16, 0]] } })]
    profs := [(0, { prof0 with anneal := 0 })] }
def fAnneal : CmdFields := { fM 0 0 0 with opa := BitVec.ofNat 38 ((2 ^ 24 - 1) * 2 ^ 14) }

theorem macro_of {s : State} {op : Opcode} {f : CmdFields} {p : Nat → Profile} {mid : List (Nat × Nat)}
    (h : macroB s op f p = true) (hs : startsB s (s.startedEntry 0 0 op f) mid = true) :
    s.Quiet 0 0 ∧ s.Takes 0 0 op f ∧ s.MacroReady 0 0 op f p mid := by
  simp only [macroB, Bool.and_eq_true, decide_eq_true_eq] at h
  obtain ⟨⟨⟨⟨⟨⟨h1, h2⟩, h3⟩, h4⟩, h5⟩, h6⟩, h7⟩ := h
  refine ⟨(row_of h1).1, (row_of h1).2, pass_of h2, h3, starts_of hs, fun j hj => ?_⟩
  have := List.all_eq_true.1 h4 j (List.mem_range.2 hj)
  simp only [Bool.and_eq_true, decide_eq_true_eq] at this
  exact ⟨this.1.1, this.1.2, this.2, fun g _ => sound_of h5 h6 h7 g⟩

/-- The intermediate drawers that a macro finds. -/
def midOf (s : State) (op : Opcode) (f : CmdFields) : List (Nat × Nat) := (s.pickDrawers 0 (s.startedEntry 0 0 op f)).getD []

theorem wit_DieMacrosStoreTheirOutputs_ksrelin : (sMacro 3 1 [0]).Quiet 0 0 ∧ (sMacro 3 1 [0]).Takes 0 0 .ksrelin (fM 0 0 0)
    ∧ (sMacro 3 1 [0]).MacroReady 0 0 .ksrelin (fM 0 0 0) (fun _ => prof0) (midOf (sMacro 3 1 [0]) .ksrelin (fM 0 0 0)) := macro_of (by decide +kernel) (by decide +kernel)
theorem wit_DieMacrosStoreTheirOutputs_ksrot : (sMacro 2 1 [2]).Quiet 0 0 ∧ (sMacro 2 1 [2]).Takes 0 0 .ksrot (fM 0 0 0)
    ∧ (sMacro 2 1 [2]).MacroReady 0 0 .ksrot (fM 0 0 0) (fun _ => prof0) (midOf (sMacro 2 1 [2]) .ksrot (fM 0 0 0)) := macro_of (by decide +kernel) (by decide +kernel)
theorem wit_DieMacrosStoreTheirOutputs_ksconj : (sMacro 2 1 [1]).Quiet 0 0 ∧ (sMacro 2 1 [1]).Takes 0 0 .ksconj (fM 0 0 0)
    ∧ (sMacro 2 1 [1]).MacroReady 0 0 .ksconj (fM 0 0 0) (fun _ => prof0) (midOf (sMacro 2 1 [1]) .ksconj (fM 0 0 0)) := macro_of (by decide +kernel) (by decide +kernel)
theorem wit_DieMacrosStoreTheirOutputs_kshoist : (sMacro 2 1 [2]).Quiet 0 0 ∧ (sMacro 2 1 [2]).Takes 0 0 .kshoist (fM 0 1 1)
    ∧ (sMacro 2 1 [2]).MacroReady 0 0 .kshoist (fM 0 1 1) (fun _ => prof0) (midOf (sMacro 2 1 [2]) .kshoist (fM 0 1 1)) := macro_of (by decide +kernel) (by decide +kernel)
theorem wit_DieMacrosStoreTheirOutputs_hrescale : sRescale.Quiet 0 0 ∧ sRescale.Takes 0 0 .hrescale (fM 0 0 0)
    ∧ sRescale.MacroReady 0 0 .hrescale (fM 0 0 0) (fun _ => prof0) (midOf sRescale .hrescale (fM 0 0 0)) := macro_of (by decide +kernel) (by decide +kernel)
theorem wit_DieMacrosStoreTheirOutputs_anneal : sAnneal.Quiet 0 0 ∧ sAnneal.Takes 0 0 .anneal fAnneal
    ∧ sAnneal.MacroReady 0 0 .anneal fAnneal (fun _ => { prof0 with anneal := 0 }) (midOf sAnneal .anneal fAnneal) := macro_of (by decide +kernel) (by decide +kernel)

/-- The key is of another generation. -/
theorem wit_WrongKeyTarnishesTheOutput :
    let s := sMacro 2 2 [1]
    let q := s.startedEntry 0 0 .ksconj (fM 0 0 0)
    s.Quiet 0 0 ∧ s.Takes 0 0 .ksconj (fM 0 0 0) ∧ s.Passes 0 0 .ksconj (fM 0 0 0) ∧ q.lat.prof = some prof0 ∧ q.lat.tarnish = [0]
      ∧ (∃ h, q.lat.outs = [(0, 8, h)]) ∧ s.MacroStarts 0 q (midOf s .ksconj (fM 0 0 0)) ∧ (s.macroStream .ksconj q prof0 0).2 = false := by
  intro s q
  refine ⟨quiet_of (by decide +kernel), takes_of (by decide +kernel), pass_of (by decide +kernel), by decide +kernel, by decide +kernel,
    ⟨((q.lat.outs[0]?).getD (0, 0, {})).2.2, by decide +kernel⟩, starts_of (by decide +kernel), by decide +kernel⟩

/-! ### Streams that stop -/

theorem wit_BadCommandsHaltTheirContext :
    (run0.Quiet 0 0 ∧ run0.plainCore 0 0 ∧ 0 < run0.narrowed 0 (Opcode.engine .hadd) (run0.queueShare 0)
      ∧ 4 ≤ ({ sigMode := 4 } : CmdFields).sigMode.toNat)
    ∧ (runAt (State.reset.setReg .coreMode 0 0 1) 0 1 0x20).Quiet 0 1 ∧ (runAt (State.reset.setReg .coreMode 0 0 1) 0 1 0x20).plainCore 0 1
    ∧ (((runAt (State.reset.setReg .coreMode 0 0 1) 0 1 0x20).entry 0 1 (encodeCmd .nop { waitA := ⟨63, 1, 0⟩ })).counters.all
        (fun n => (runAt (State.reset.setReg .coreMode 0 0 1) 0 1 0x20).ctrInShare 0 1 n) = false)
    ∧ (run0.Takes 0 0 .hadd (fO 64 96 128)
      ∧ (planOf .hadd (run0.arrived 0 0 (encodeCmd .hadd (fO 64 96 128))) 0 (run0.entry 0 0 (encodeCmd .hadd (fO 64 96 128)))).v ≠ .wait
      ∧ (run0.plan 0 0 .hadd (fO 64 96 128)).v = .halt stHeader ∧ halting stHeader = true
      ∧ (run0.plan 0 0 .hadd (fO 64 96 128)).lat.tarnish = [] ∧ (run0.plan 0 0 .hadd (fO 64 96 128)).lat.outs = [] ∧ (run0.plan 0 0 .hadd (fO 64 96 128)).peer = none) := by
  refine ⟨⟨quiet_of (by decide +kernel), ⟨by decide +kernel, fun _ => rfl⟩, by decide +kernel, by decide +kernel⟩,
    quiet_of (by decide +kernel), ⟨by decide +kernel, fun _ => rfl⟩, by decide +kernel, takes_of (by decide +kernel), by decide +kernel,
    by decide +kernel⟩

/-! ### Contexts and the life of a command -/

def withCtx (s : State) (c x : Nat) (f : Ctx → Ctx) : State := s.modContext c x f
def withMem (s : State) (m : List (Nat × Byte)) : State := { s with mem := m }
def withQ (s : State) (c : Nat) (q : List QCmd) : State := s.modCore c (fun k => { k with q := q })
def st0 (v : CtxSt) : State := withCtx run0 0 0 (fun y => { y with st := v })

theorem wit_ContextActions :
    (State.reset.ctlRefused 95 0 true = false ∧ (State.reset.context 95 0).st = .idle ∧ (State.reset.core 95).pewter = false)
    ∧ ((run0.context 0 0).st ≠ .idle ∧ State.reset.modeM 95 = false)
    ∧ (run0.ctlRefused 0 0 false = false ∧ (run0.context 0 0).st = .running)
    ∧ (((st0 .preempting).context 0 0).st = .preempting
      ∧ ∀ q ∈ ((st0 .preempting).core 0).q, q.ctx = 0 → q.stage ≠ .started ∧ q.stage ≠ .committed)
    ∧ ((st0 .preempted).ctlRefused 0 0 false = false ∧ ((st0 .preempted).context 0 0).st = .preempted
      ∧ ((st0 .preempted).core 0).q = [] ∧ ((st0 .preempted).context 0 0).saved = [])
    ∧ (run0.ctlRefused 0 0 true = false)
    ∧ (let s := withQ (st0 .aborting) 0 [{ (run0.entry 0 0 (encodeCmd .nop {})) with stage := .queued }];
      (s.context 0 0).st = .aborting ∧ (s.context 0 0).resetting = false ∧ (s.context 0 0).heldAct ≠ .reset ∧ ((s.core 0).q.map (·.id)).Nodup
      ∧ (∀ d, ((s.core 0).drawer d).closing = false)
      ∧ ∀ q ∈ (s.core 0).q, q.ctx = 0 → (q.stage = .queued ∨ q.stage = .arrived) ∧ q.bar = .no ∧ q.cmd.sigMode ≠ 3 ∧ q.peer = none) := by
  refine ⟨by decide +kernel, by decide +kernel, by decide +kernel, ⟨by decide +kernel, by decide +kernel⟩,
    ⟨by decide +kernel, by decide +kernel, by decide +kernel⟩, by decide +kernel, ?_⟩
  exact ⟨by decide +kernel, by decide +kernel, by decide +kernel, by decide +kernel, fun d => closing_of (by decide +kernel) d, by decide +kernel⟩

theorem wit_ContextReset :
    (State.reset.ctlRefused 0 0 true = false ∧ (State.reset.context 0 0).st = .idle
      ∧ (∀ d, State.reset.drawerInShare 0 0 d = true → State.reset.hasWaiter 0 d = false)
      ∧ (∀ k, k < 304 → barArmed (State.reset.barCfg k) = true → barOwner (State.reset.barCfg k) ≠ 4 * 0 + 0))
    ∧ (run0.ctlRefused 0 0 true = false ∧ (run0.context 0 0).st = .running)
    ∧ ((st0 .halted).context 0 0).st = .halted ∧ ((st0 .preempted).context 0 0).st = .preempted
    ∧ (∀ x, x < 4 → (State.reset.context 95 x).st = .idle) ∧ State.reset.modeM 95 = false
    ∧ (State.reset.setRf .coreMode 95 0 0 0 1).modeM 95 = true ∧ (∀ x, x < 4 → ((State.reset.setRf .coreMode 95 0 0 0 1).context 95 x).st = .idle)
    ∧ (∀ e ∈ (State.reset.setRf .coreMode 95 0 0 0 1).cores, e.2 = (State.reset.setRf .coreMode 95 0 0 0 1).core e.1) := by
  refine ⟨⟨by decide +kernel, by decide +kernel, fun d _ => rfl, by decide +kernel⟩, by decide +kernel, by decide +kernel,
    by decide +kernel, by decide +kernel, by decide +kernel⟩

def asIssued (q : QCmd) : QCmd := { q with stage := .issued }
/-- One command in core 0's queue, at a stage. -/
def sStage (op : Opcode) (f : CmdFields) (s : State) (g : Stage) : State := withQ s 0 [{ s.startedEntry 0 0 op f with stage := g }]

theorem wit_CommandLifeStepByStep :
    (let s := withMem run0 (cells 0 (encodeCmd .nop fSig).bytes);
      s.Quiet 0 0 ∧ s.stackOnline (s.context 0 0).pc = true ∧ (s.hbmRead (s.context 0 0).pc 0).2 = false
      ∧ decodeChecks (Cmd.ofBytes (s.readBytes (s.context 0 0).pc 32)) = some .nop
      ∧ (Opcode.engine .nop = 0 ∨ 0 < s.narrowed 0 (Opcode.engine .nop) (s.queueShare 0))
      ∧ (s.entry 0 0 (Cmd.ofBytes (s.readBytes (s.context 0 0).pc 32))).counters.all (fun n => s.ctrInShare 0 0 n) = true)
    ∧ engB sObj 0 0 .hadd (fO 64 96 128) = true
    ∧ (let s := sStage .hadd (fO 64 96 128) sObj .issued
      let q := asIssued (sObj.startedEntry 0 0 .hadd (fO 64 96 128));
      (s.core 0).q = [q] ∧ q.ctx = 0 ∧ q.eng = 2 ∧ (s.context 0 0).st = .running ∧ s.coreLive 0 = true ∧ q.peer = none
      ∧ (∀ d ∈ q.srcs, ((s.core 0).drawer d).ready = true) ∧ (∀ d ∈ q.dsts, ((s.core 0).drawer d).open_ = true) ∧ s.waitw = [])
    ∧ (let s := sStage .hadd (fO 64 96 128) sObj .started
      let q : QCmd := sObj.startedEntry 0 0 .hadd (fO 64 96 128);
      (s.core 0).q = [q] ∧ q.stage = .started ∧ q.cmd.op? = some .hadd ∧ q.peer = none ∧ badSource .hadd s 0 q = none
      ∧ (s.context 0 0).st = .running ∧ q.held = [] ∧ q.macroDr = []
      ∧ ∀ d, ((s.core 0).drawer d).closing = false)
    ∧ (let s := withQ run0 0 [run0.entry 0 0 (encodeCmd .hadd {})]
      let q := run0.entry 0 0 (encodeCmd .hadd {});
      (s.core 0).q[0]? = some q ∧ q.stage = .arrived ∧ q.bar = .no ∧ (s.context 0 q.ctx).st = .running ∧ q.cmd.sigMode ≠ 3 ∧ q.peer = none
      ∧ q.lat.group = none ∧ q.eng ≠ 5 ∧ s.keysets = [] ∧ ∀ d, ((s.core 0).drawer d).closing = false)
    ∧ ((run0.context 0 0).st = .running ∧ run0.coreLive 0 = true ∧ (run0.core 0).q = [])
    ∧ (let s := sStage .ksrot (fM 0 0 0) (sMacro 2 1 [2]) .started
      let q : QCmd := (sMacro 2 1 [2]).startedEntry 0 0 .ksrot (fM 0 0 0);
      (s.core 0).q = [q] ∧ q.stage = .started ∧ q.eng = 5 ∧ q.cmd.op? = some .ksrot ∧ q.lat.profAt .ksrot 0 = some prof0
      ∧ (macroKeys .ksrot q prof0 0)[0]? = some (2, 2) ∧ q.outSt 0 = 0
      ∧ (s.keyRec (macroDir .ksrot q 0) 2 (macroIn .ksrot q 0) prof0).isSome ∧ s.stepsOk .ksrot (macroDir .ksrot q 0) [(2, 2)] = true) := by
  refine ⟨⟨quiet_of (by decide +kernel), by decide +kernel⟩, by decide +kernel, by decide +kernel, ?_, ?_,
    by decide +kernel, by decide +kernel⟩
  · exact ⟨by decide +kernel, by decide +kernel, by decide +kernel, by decide +kernel, by decide +kernel, by decide +kernel,
      by decide +kernel, by decide +kernel, fun d => closing_of (by decide +kernel) d⟩
  · exact ⟨by decide +kernel, by decide +kernel, by decide +kernel, by decide +kernel, by decide +kernel, by decide +kernel,
      by decide +kernel, by decide +kernel, by decide +kernel, fun d => closing_of (by decide +kernel) d⟩

/-! ### Windows, signals, counters, barriers, tables, stacked memory -/

/-- Window 15 of core 95 open over drawers 224 to 255 for core 0 of the same device. -/
def sWin : State :=
  (((State.reset.setReg .winCfg 95 15 (winOpenValue 0 224 32)).setReg .winBound 95 15 49152).setReg .winWdev 95 15 0x80000000).setReg .winWcore0 95 15 1

/-- The same closed. -/
def sWin0 : State := sWin.setRf .winCfg 95 15 31 31 0

def waitW (off : Nat) : WaitWrite := { dev := 0, core := 0, cmdId := 7, owner := 95, off := off, data := List.replicate 64 0xA5 }

def withWait (s : State) (l : List WaitWrite) : State := { s with waitw := l }

theorem wit_WindowsOpenCloseAndTakeWrites :
    ((sWin0.win 95 15).isOpen = false
      ∧ (let u := sWin0.setReg .winCfg 95 15 (winOpenValue 0 224 32); u.mayOpen 95 15 (u.win 95 15) = true))
    ∧ ((sWin.win 95 15).isOpen = true)
    ∧ ((sWin.core 0).cmd? 7 = none ∧ (∀ v ∈ sWin.waitw, ¬ (v.dev = 0 ∧ v.core = 0 ∧ v.owner = 95)) ∧ sWin.portsHeld 95 = false
      ∧ sWin.winTest 95 0 0 (256 * 98304 - 64) 64 = .landed ∧ sWin.winAt 95 ((256 * 98304 - 64) / drawerBytes) = some 15)
    ∧ (sWin.winTest 95 0 1 (224 * 98304) 64 = .refused stWindow)
    ∧ ((withFull sWin 95 [224]).winTest 95 0 0 (224 * 98304) 64 = .waits)
    ∧ (let s := withWait sWin [waitW (224 * 98304)];
      s.waitw[0]? = some (waitW (224 * 98304)) ∧ (s.core 0).cmd? 7 = none ∧ (∀ u ∈ s.waitw.take 0, u.sameStream (waitW (224 * 98304)) = false)
      ∧ s.behindLoad (waitW (224 * 98304)) = false ∧ s.engineAhead (waitW (224 * 98304)) = false ∧ s.portsHeld 95 = false
      ∧ (waitW (224 * 98304)).bad = false ∧ (waitW (224 * 98304)).accepted = false ∧ s.winTest 95 0 0 (224 * 98304) 64 = .landed)
    ∧ (let w := waitW (224 * 98304)
      let s := withWait sWin [w, w];
      s.waitw[1]? = some w ∧ w ∈ s.waitw.take 1 ∧ w.sameStream w = true)
    ∧ ((State.reset.modCore 95 (fun k => { k with pewter := true })).core 95).pewter = true
    ∧ (State.reset.setRf .hmPolicy 0 0 5 4 2).repairLevel = true ∧ State.reset.repairLevel = false := by
  decide +kernel

/-- A signal to a counter of a core, of a die, of the device. -/
def sig (scope unit num : Nat) : PostedSig := { sender := 4, scope := scope, unit := unit, num := num, delta := 65535 }
/-- A signal to a counter of another device, of a context of core 0. -/
def sigFar (gone : Bool) : PostedSig := { sender := 0, scope := 3, unit := 0, num := 255, delta := 65535, dev := 1, after := 9, gone := gone }
def withSigs (s : State) (l : List PostedSig) : State := { s with sigs := l }

/-- Die counter 255 of die 3 armed, threshold 1, a step or not, at its threshold. -/
def sCtr (step : Nat) : State :=
  { ((State.reset.setReg .dieCtrCfg 3 63 (BitVec.ofNat 32 (2 ^ 31 + 64))).setReg .dieCtrThresh 3 63 (BitVec.ofNat 32 (1 + step * 2 ^ 16))) with
    ctrs := [(255, { value := 1 })] }

/-- A barrier armed for two, with one arrival: the command waits in core 0's queue where `q` says so. -/
def sBarW (q : Bool) : State :=
  let s := { sSync 2 with bars := [(63, { cur := [0] })] }
  if q then withQ s 0 [{ s.entry 0 0 (encodeCmd .barrier { opa := opaC 0 31 0 0 0 0 63 0 }) with bar := .waiting false }] else s

theorem wit_SignalsCountersAndWatchdogs :
    ((withSigs run0 [sig 0 0 255]).sigs[0]? = some (sig 0 0 255) ∧ ((withSigs run0 [sig 0 0 255]).context 0 (run0.ctrOwner 0 255)).fresh = false
      ∧ ((withSigs run0 [sig 0 95 255]).context 95 (run0.ctrOwner 95 255)).fresh = true
      ∧ ctrArmed ((withSigs (sCtr 0) [sig 1 3 63]).ctrCfg (64 * 3 + 63)) = true ∧ ((withSigs (sCtr 0) [sig 1 3 63]).ctr (64 * 3 + 63)).orphan = false
      ∧ ctrArmed ((withSigs run0 [sig 2 0 63]).ctrCfg (256 + 63)) = false ∧ (sig 0 0 255).scope ≠ 3
      ∧ (withSigs run0 [sig 0 0 255, sig 0 0 255]).sigs[1]? = some (sig 0 0 255) ∧ (sig 0 0 255).sameTarget (sig 0 0 255) = true)
    ∧ ((∀ b, (withSigs run0 [sigFar b]).sigs[0]? = some (sigFar b) ∧ (sigFar b).scope = 3 ∧ (sigFar b).gone = b)
      ∧ (sSync 1).windowsUnderWay (senderCore (sigFar false).sender) (senderCtx (sigFar false).sender) (sigFar false).after = false
      ∧ ((sSync 1).route (sSync 1).myDev (sigFar false).dev).isSome = true
      ∧ (withQ sXfer 0 [{ sXfer.startedEntry 0 0 .xfer (fX 0 2) with id := 1 }]).windowsUnderWay 0 0 (sigFar false).after = true)
    ∧ (ctrArmed ((sCtr 0).ctrCfg 255) = true ∧ ((sCtr 0).ctr 255).orphan = false
      ∧ ge16 ((sCtr 0).ctr 255).value (bits ((sCtr 0).ctrThresh 255) 15 0) = true ∧ bits ((sCtr 0).ctrThresh 255) 31 16 = 0
      ∧ bits ((sCtr 65535).ctrThresh 255) 31 16 = 65535 ∧ ctrArmed (State.reset.ctrCfg 319) = false)
    ∧ (barArmed ((sBarW false).barCfg 63) = true ∧ ((sBarW false).bar 63).poisoned = false ∧ ((sBarW false).bar 63).orphan = false
      ∧ ((sBarW false).bar 63).cur ≠ [] ∧ (sBarW false).barCmds 63 = [])
    ∧ (let s := sBarW true;
      barArmed (s.barCfg 63) = true ∧ (s.bar 63).poisoned = false ∧ (s.bar 63).orphan = false ∧ (s.bar 63).cur ≠ []
      ∧ (s.barCmds 63).map (fun e => (e.1, e.2.bar, e.2.ctx, e.2.peer)) = [(0, .waiting false, 0, none)]
      ∧ s.barCmds 63 = (s.core 0).q.map (fun q => (0, q)) ∧ (s.context 0 0).st = .running
      ∧ (∀ q ∈ (s.core 0).q, q.cmd.sigMode ≠ 3) ∧ (s.core 0).drawers.all (fun e => !e.2.closing) = true)
    ∧ barArmed (State.reset.barCfg 287) = false := by
  refine ⟨by decide +kernel, by decide +kernel, by decide +kernel, by decide +kernel, ?_,
    by decide +kernel⟩
  intro s
  and_intros <;> decide +kernel

/-- A record of the one prime 2^46 + 2^20 − 2^18 + 1: bytes 0 to 59, its entry, and 48 of the zero bytes after it. -/
def recHead : List Byte := natLE 8 0x101 ++ List.replicate 52 0
def recEntry : List Byte := natLE 8 (20 * 2 ^ 56 + 46 * 2 ^ 48 + 70368744964097) ++ natLE 8 (2 ^ 57 + 18 * 2 ^ 48 + 28799776835607)
def zeros48 : List Byte := List.replicate 48 0

/-- The bytes that RCRC covers, each run of them with the running value after it. -/
def recRuns : List (List Byte × Nat) :=
  [(recHead, 2227925031), (recEntry, 2138461112), (zeros48, 2931411558), (zeros48, 1387785428),
   (zeros48, 4148744566), (zeros48, 249369988), (zeros48, 4093148615), (zeros48, 4056714003),
   (zeros48, 1663795619), (zeros48, 1865107130), (zeros48, 728525940), (zeros48, 768333186),
   (zeros48, 1550800030), (zeros48, 1850247419), (zeros48, 1046133323), (zeros48, 2158014888),
   (zeros48, 2129217453), (zeros48, 3964954183), (zeros48, 3326692329), (zeros48, 1071061995),
   (zeros48, 1597182218), (zeros48, 3537695123), (zeros48, 4111117178)]

def runsOk (p : CrcProfile) : Nat → List (List Byte × Nat) → Bool
  | _, [] => true
  | r, (c, v) :: cs => crcFeed p r c == v && runsOk p v cs

theorem crcFeed_runs (p : CrcProfile) (cs : List (List Byte × Nat)) : ∀ r, runsOk p r cs = true →
    crcFeed p r (cs.flatMap (·.1)) = (cs.map (·.2)).getLastD r := by
  induction cs with
  | nil => intro r _; rfl
  | cons e cs ih =>
    intro r h
    obtain ⟨c, v⟩ := e
    rw [runsOk, Bool.and_eq_true, beq_iff_eq] at h
    have := ih v h.2
    simp only [List.flatMap_cons, crcFeed, List.foldl_append] at this h ⊢
    rw [h.1, this]
    cases cs <;> rfl

/-- The record. -/
def recTail : List Byte := (recRuns.drop 1).flatMap (·.1)
def recGood : List Byte := (recHead ++ natLE 4 0xA12AAF50) ++ recTail

theorem recGood_crc : crc32c (recHead ++ recTail) = 0xA12AAF50 := by
  have h : recHead ++ recTail = recRuns.flatMap (·.1) := rfl
  unfold crc32c crc
  rw [h, crcFeed_runs _ _ _ (by decide +kernel)]
  decide +kernel

/-- Memory that holds bytes from an address. -/
def memOf (a : Nat) : List Byte → Tab Byte
  | [] => []
  | b :: bs => (a, b) :: memOf (a + 1) bs

theorem memOf_find (bs : List Byte) : ∀ a i, i < bs.length → Tab.find? (memOf a bs) (a + i) = bs[i]? := by
  induction bs with
  | nil => intro a i h; simp at h
  | cons b bs ih =>
    intro a i h
    cases i with
    | zero => simp [memOf, Tab.find?]
    | succ i =>
      have := ih (a + 1) i (by simpa using h)
      rw [show a + 1 + i = a + (i + 1) by omega] at this
      simp [memOf, Tab.find?, this]

/-- A build of slot 3 under way from address 0x1000. -/
def sAlloy (bs : List Byte) : State :=
  { State.reset with tables := [(3, { shadow := 1, src := 0x1000 })], mem := memOf 0x1000 bs }

theorem sAlloy_read (bs : List Byte) (i n : Nat) (h : i + n ≤ bs.length) :
    (sAlloy bs).readBytes (0x1000 + i) n = (bs.drop i).take n := by
  refine List.ext_getElem? (fun k => ?_)
  by_cases hk : k < n
  · have hi : i + k < bs.length := by omega
    have := memOf_find bs 0x1000 (i + k) hi
    simp only [State.readBytes, List.getElem?_map, List.getElem?_range hk, Option.map_some, State.readByte, Mem.get?, sAlloy]
    rw [Nat.add_assoc, this, List.getElem?_take_of_lt hk, List.getElem?_drop, List.getElem?_eq_getElem hi]
    rfl
  · rw [List.getElem?_eq_none (by simp [State.readBytes]; omega), List.getElem?_eq_none (by simp; omega)]

theorem recGood_length : recGood.length = 1088 := by decide +kernel

theorem recGood_built : buildRecord 0 recGood = .built { primes := [⟨70368744964097, 28799776835607⟩] } := by
  have ht : recGood.take 60 = recHead := rfl
  have hd : recGood.drop 64 = recTail := rfl
  have hw : recGood.take 1088 = recGood := List.take_of_length_le (by rw [recGood_length])
  have hn : 1088 + natBits ((words64 recGood 8)[0]?.getD 0) 63 32 = 1088 := by decide +kernel
  unfold buildRecord
  simp only [hn, hw, ht, hd, recGood_crc]
  decide +kernel

theorem alloy_built : (sAlloy recGood).buildAt 3 0x1000 = .built { primes := [⟨70368744964097, 28799776835607⟩] } := by
  have h0 : (sAlloy recGood).recordLength 0x1000 = 1088 := by
    unfold State.recordLength State.readLE
    rw [sAlloy_read recGood 4 4 (by simp [recGood_length])]
    decide +kernel
  have hr : (sAlloy recGood).readBytes 0x1000 1088 = recGood := by
    have := sAlloy_read recGood 0 1088 (by rw [recGood_length])
    rwa [List.drop_zero, List.take_of_length_le (by rw [recGood_length])] at this
  have hg : (sAlloy recGood).rf .annealSect 0 3 9 0 = 0 := by decide +kernel
  have h1 : (!inHbm (0x1000 + 1088 - 1) || (sAlloy recGood).poisoned 0x1000 1088) = false := by decide +kernel
  unfold State.buildAt
  simp only [h0, hr, hg, h1, recGood_built]
  rfl

theorem wit_AlloyBuildsFillAShadowBank :
    ((∀ t, t < 4 → (State.reset.table t).shadow ≠ 1) ∧ (State.reset.table 3).shadow ≠ 2 ∧ inHbm (State.reset.alloySrc + 1087) = true)
    ∧ ((sAlloy []).table 3).shadow = 1 ∧ (∀ m, m < 3 → ((sAlloy []).table m).shadow ≠ 1)
    ∧ (sAlloy (List.replicate 8 0)).buildAt 3 0x1000 = .failed 1 0xFF ∧ ((sAlloy recGood).table 3).shadow = 1
    ∧ (sAlloy recGood).shadowLatched 3 = false
    ∧ (withQ (sAlloy recGood) 0 [{ run0.entry 0 0 (encodeCmd .nop {}) with lat := { slots := [(3, 1)] } }]).shadowLatched 3 = true
    ∧ { sAlloy (List.replicate 8 0) with ecc := [(0x1000 / 64, 2)] }.buildAt 3 0x1000 = .failed 1 0xFF := by
  refine ⟨?_, ?_, ?_, ?_, ?_, ?_, ?_, ?_⟩ <;> decide +kernel

theorem wit_StackedMemoryReadsAndWrites :
    inHbm 0x8FFFFFFFFF = true ∧ State.reset.stackOnline 0x8FFFFFFFFF = true ∧ (List.replicate 64 (0 : Byte)).length = 64
    ∧ bitOf (State.reset.reg .hbmCfg (State.reset.stackOf (0x8FFFFFFFFF / 64 * 64))) 3 = true ∧ (State.reset.core 0).cmd? 1 = none
    ∧ State.reset.guarded (0x8FFFFFFFFF / 64 * 64) = false
    ∧ bitOf (State.reset.reg .hbmFault (State.reset.stackOf (0x8FFFFFFFFF / 64 * 64))) 31 = false := by
  decide +kernel

/-- The repair level, service closed, stack 11 offline. -/
def sRepair (off : Nat) : State := (State.reset.setRf .hmPolicy 0 0 5 4 2).setRf .mtStatus 11 0 3 3 off

theorem wit_StackMaintenance :
    bitOf (State.reset.reg .recalCfg 11) 8 = true ∧ (sRepair 1).repairLevel = true ∧ (sRepair 1).serviceOpen = false
    ∧ ¬ 11 ∈ (sRepair 1).tap.wrapped ∧ bitOf ((sRepair 1).reg .mtStatus 11) 3 = true ∧ bitOf ((sRepair 0).reg .mtStatus 11) 3 = false
    ∧ State.reset.repairLevel = false := by
  decide +kernel

/-! ### The fabric -/

/-- A packet from core 0 of device `src` to core `dc` of device 0; the rows give it its type. -/
def pk (src dc len arg ctr addr : Nat) (pay : List Byte) : Packet := mkPacket 0 src 0 0 524287 dc len 9 arg ctr addr pay

def acceptsB (s : State) (port : Nat) (p : Packet) : Bool :=
  decide (port < 16) && s.portUp port && p.legal && decide (p.dstDev = s.myDev) && s.joined && !s.e2eOn p.srcDev

theorem accepts_of {s : State} {port : Nat} {p : Packet} (h : acceptsB s port p = true) : s.Accepts port p := by
  simp only [acceptsB, Bool.and_eq_true, decide_eq_true_eq, Bool.not_eq_true'] at h
  obtain ⟨⟨⟨⟨⟨h1, h2⟩, h3⟩, h4⟩, h5⟩, h6⟩ := h
  exact ⟨h1, h2, h3, h4, h5, .inl h6⟩

def reachB (s : State) (dev : Nat) : Bool := decide (devLevel s.myDev dev ≤ s.maxLevel) && (s.route s.myDev dev).isSome

theorem reaches_of {s : State} {dev : Nat} (h : reachB s dev = true) : s.reaches dev := by
  simpa [reachB, State.reaches] using h

def noJoinB (s : State) : Bool := s.joined || decide (s.boot ≠ 8)

theorem noJoin_of {s : State} (h : noJoinB s = true) : s.noJoinStep := by simpa [noJoinB, State.noJoinStep] using h

/-- All ports UP, all levels permitted, the device joined, FAB_CFG.E2E 0. -/
def sFab : State :=
  let s := (State.reset.setRf .hmPolicy 0 0 10 8 4).setRf .fabCfg 0 0 9 8 2
  (List.range 16).foldl (fun s p => s.setRf .portStatus p 0 31 29 2) s

/-- Window 15 of core 95 open over drawers 224 to 255 for core 0 of device 1. -/
def sFabWin : State :=
  (((sFab.setReg .winCfg 95 15 (winOpenValue 0 224 32)).setReg .winBound 95 15 49152).setReg .winWdev 95 15 1).setReg .winWcore0 95 15 1

/-- A packet of one unit for drawer 224 of core 95. -/
def pkWin : Packet := pk 1 95 1 0 0 (drawerAddr 95 224) (List.replicate 64 0x5A)

def pkReq : Packet := pk 1 95 1 0 0 (drawerAddr 95 224) []

def waitR : WaitRead := { dev := 1, core := 0, opid := 524287, owner := 95, off := 224 * 98304, len := 4096, get := false }
def withReads (s : State) (l : List WaitRead) : State := { s with waitr := l }
/-- Drawer 224 of core 95 FULL, its first granules written. -/
def sFabFull : State := (withFull sFabWin 95 [224])

theorem wit_RemoteStoresAndLoads :
    (∀ typ ∈ [0x01, 0x04],
      let s := sFabWin
      let p := pkWin.withTyp typ;
      acceptsB s 15 p = true ∧ p.inTarget = true ∧ p.srcDev ≠ s.myDev ∧ s.waitw = [] ∧ s.waitr = [] ∧ s.portsHeld p.dstCore = false
        ∧ p.payload.length = 64 * p.len64 ∧ s.winTest p.dstCore p.srcDev p.srcCore p.off (64 * p.len64) = .landed
        ∧ reachB s p.srcDev = true)
    ∧ (∀ typ ∈ [0x02, 0x05],
      let s := sFabFull
      let p := (pk 1 95 1 0 0 (drawerAddr 95 224) []).withTyp typ;
      acceptsB s 15 p = true ∧ p.inTarget = true ∧ s.waitw = [] ∧ s.waitr = [] ∧ (∀ b ∈ s.badpar, ¬ (p.addr ≤ b ∧ b < p.addr + 64 * p.len64))
        ∧ s.readTest p.dstCore p.srcDev p.srcCore p.off (64 * p.len64) = .landed ∧ reachB s p.srcDev = true)
    ∧ (∀ typ ∈ [0x02, 0x05],
      let s := sFabWin
      let p := (pk 1 95 1 0 0 (drawerAddr 95 224) []).withTyp typ;
      acceptsB s 15 p = true ∧ p.inTarget = true ∧ s.readTest p.dstCore p.srcDev p.srcCore p.off (64 * p.len64) = .waits)
    ∧ (let s := withReads sFabFull [waitR]
      let r := waitR;
      s.waitr[0]? = some r ∧ s.readBehind r = false ∧ s.readTest r.owner r.dev r.core r.off r.len = .landed
      ∧ (∀ b ∈ s.badpar, ¬ (spBase r.owner + r.off ≤ b ∧ b < spBase r.owner + r.off + r.len)) ∧ r.len ≤ 4096 ∧ r.len % 64 = 0
      ∧ r.dev < 2 ^ 18 ∧ r.opid < 2 ^ 19 ∧ r.owner < 96 ∧ r.core < 128 ∧ reachB s r.dev = true) := by
  decide +kernel

/-- Core 95's only command is a transfer with one packet out to device 1. -/
def qFar (op : Opcode) : QCmd :=
  { (run0.entry 0 0 (encodeCmd op { opa := BitVec.ofNat 38 (255 * 2 ^ 16), sigMode := 1, sigCtr := 7, sigDelta := 255 })) with
    stage := .started, eng := 4, remote := 1, dsts := [224, 225] }
def fopFar : FabOp := { opid := 524287, dev := 1, core := 95, ctx := 0, cmd := (qFar .xget).id, packets := 1, cctr := none, addrs := [0x1000] }
def sFar (op : Opcode) : State := { withQ sFab 95 [qFar op] with fops := [fopFar] }

def lastB (op : Opcode) (p : Packet) : Bool :=
  decide (p.opid = 524287) && decide ((qFar op).lat.outs = []) && decide ((qFar op).peer = none) && decide ((qFar op).cons = [])
    && (((sFar op).core 95).drawers.all (fun e => !e.2.closing)) && decide (((sFar op).core 95).q = [qFar op])

theorem last_of {op : Opcode} {p : Packet} (h : lastB op p = true) : (sFar op).lastOp p fopFar (qFar op) := by
  simp only [lastB, Bool.and_eq_true, decide_eq_true_eq] at h
  obtain ⟨⟨⟨⟨⟨h1, h2⟩, h3⟩, h4⟩, h5⟩, h6⟩ := h
  exact ⟨rfl, h1.symm, rfl, h6, rfl, rfl, rfl, h2, h3, h4, fun d => closing_of h5 d⟩

theorem wit_AnswersEndRemoteTransfers :
    (∀ typ ∈ [0x03, 0x06],
      let p := (pk 1 95 1 0 0 0 (List.replicate 64 0x5A)).withTyp typ;
      acceptsB (sFar .xget) 15 p = true ∧ lastB .xget p = true ∧ fopFar.addrs.length = p.len64 ∧ p.payload.length = 64 * p.len64
      ∧ (∀ a ∈ fopFar.addrs, (regionOf a = some 0 ∧ (sFar .xget).stackOnline a.toNat = true) ∨ regionOf a = some (1 + fopFar.core)))
    ∧ (∀ o ∈ [(Opcode.xput, stOk), (.xfer, 0x70), (.xput, 0x70)],
      let p := (pk 1 95 0 o.2 0 0 []).withTyp 0x07;
      acceptsB (sFar o.1) 15 p = true ∧ lastB o.1 p = true ∧ (o.2 = stOk ∨ o.2 = 0x70) ∧ p.arg % 256 = o.2 ∧ (qFar o.1).held = []
      ∧ (qFar o.1).macroDr = [] ∧ (qFar o.1).cmd.sigMode ≠ 3 ∧ ((qFar o.1).cmd.op? = some o.1))
    ∧ (let p := (pk 1 95 0 0x71 0 0 []).withTyp 0x07;
      acceptsB sFab 0 p = true ∧ p.arg % 256 = 0x71 ∧ (∀ f ∈ sFab.fops, f.dev ≠ p.srcDev) ∧ reachB sFab p.srcDev = true) := by
  decide +kernel

/-- FAB_CFG.E2E set; device 1 expected at alive value 9. -/
def sE2e (rx : Nat) (br : List Nat) : State := { sFab.setRf .fabCfg 0 0 8 8 1 with aliveRx := [(1, rx)], broken := br }
def sealed (p : Packet) : Packet := { p with f3 := BitVec.ofNat 64 (crc64 p.e2eBytes) }

theorem wit_PacketsAreCheckedAndForwarded :
    (let p := (mkPacket 0 1 64 1 7 0 1 0 0 0 0 []);
      sFab.portUp 15 = true ∧ p.legal = true ∧ p.dstDev ≠ sFab.myDev ∧ sFab.joined = true ∧ (sFab.route p.srcDev p.dstDev).isSome)
    ∧ ((pk 1 95 65 0 0 0 []).withTyp 1).legal = false ∧ ((pk 1 95 1 0 0 0 []).withTyp 15).legal = false
    ∧ (let p := pkReq.withTyp 2
      let s := sE2e 0 [];
      s.portUp 15 = true ∧ p.legal = true ∧ p.dstDev = s.myDev ∧ s.joined = true ∧ s.e2eOn p.srcDev = true ∧ p.f3.toNat ≠ crc64 p.e2eBytes)
    ∧ (let p := sealed (pkReq.withTyp 2)
      let s := sE2e 9 [];
      s.portUp 15 = true ∧ p.legal = true ∧ p.dstDev = s.myDev ∧ s.joined = true ∧ s.e2eOn p.srcDev = true ∧ p.f3.toNat = crc64 p.e2eBytes
      ∧ ¬ p.srcDev ∈ s.broken ∧ Tab.get 0 s.aliveRx p.srcDev ≠ 0
      ∧ 32768 < (Tab.get 0 s.aliveRx p.srcDev + 65535 - p.alive) % 65536 ∧ p.alive + 1 ≠ Tab.get 0 s.aliveRx p.srcDev)
    ∧ (let p := (sealed ((pk 1 0 0 0 0 0 []).withTyp 0x0D))
      let s := sE2e 5 [1];
      s.portUp 15 = true ∧ p.withTyp 0x0D = p ∧ p.legal = true ∧ p.dstDev = s.myDev ∧ s.e2eOn p.srcDev = true
      ∧ p.f3.toNat = crc64 p.e2eBytes ∧ p.srcDev ∈ s.broken)
    ∧ (let s := sE2e 10 [];
      (∃ p : Packet, p = sealed (pkReq.withTyp 2) ∧ s.e2eOn p.srcDev = true ∧ p.f3.toNat = crc64 p.e2eBytes ∧ ¬ p.srcDev ∈ s.broken
        ∧ p.alive + 1 = Tab.get 0 s.aliveRx p.srcDev)) := by
  refine ⟨by decide +kernel, by decide +kernel, by decide +kernel, by decide +kernel, by decide +kernel, by decide +kernel, ?_⟩
  exact ⟨_, rfl, by decide +kernel, by decide +kernel, by decide +kernel, by decide +kernel⟩

/-- Fabric barrier 15 armed for one participant; its home is `home`, its members devices 0 and 1. -/
def sFbar (home : Nat) (cur : List Nat) (here : List Nat) : State :=
  let s := (sFab.setReg (barCfgReg 303).reg (barCfgReg 303).inst (barCfgReg 303).idx (BitVec.ofNat 32 (2 ^ 31 + 2 ^ 22)))
  let s := (s.setReg .fbarHome 0 15 (BitVec.ofNat 32 home)).setReg .fbarDevs 0 15 2
  let s := s.setReg .fbarListLo 0 15 0x1000
  { s with mem := cells 0x1000 [0, 0, 0, 0, 1, 0, 0, 0], bars := [(303, { cur := here })], fbars := [(15, { cur := cur })] }

/-- A grant of device 4096, and window 15 of core 95 open for it. -/
def sGrant : State := (sFabWin.setReg .winWdev 95 15 4096).setReg .fabGrant 0 15 (BitVec.ofNat 32 (2 ^ 31 + 4096))

theorem wit_FabricSignalsBarriersAndGrants :
    (let s := { sFab with cores := run0.cores }
      let p := (pk 1 0 0 65535 255 0 []).withTyp 0x08;
      acceptsB s 15 p = true ∧ p.dstCore < 96 ∧ devLevel s.myDev p.srcDev ≤ s.maxLevel ∧ (devLevel s.myDev p.srcDev ≠ 4 ∨ s.granted p.srcDev = true)
        ∧ (s.context p.dstCore (s.ctrOwner p.dstCore p.ctr)).fresh = false)
    ∧ (let p := (sealed ((pk 4096 0 0 65535 255 0 []).withTyp 0x08));
      p.withTyp 0x08 = p ∧ sFab.portUp 15 = true ∧ p.legal = true ∧ p.dstDev = sFab.myDev ∧ sFab.joined = true ∧ p.f3.toNat = crc64 p.e2eBytes
        ∧ ¬ p.srcDev ∈ sFab.broken ∧ Tab.get 0 sFab.aliveRx p.srcDev = 0
        ∧ p.dstCore < 96 ∧ devLevel sFab.myDev p.srcDev = 4 ∧ sFab.granted p.srcDev = false)
    ∧ (let s := { sFab.setRf .hmPolicy 0 0 10 8 0 with cores := run0.cores }
      let p := (pk 1 0 0 65535 255 0 []).withTyp 0x08;
      acceptsB s 15 p = true ∧ p.dstCore < 96 ∧ s.maxLevel < devLevel s.myDev p.srcDev)
    ∧ (let s := sFbar 0 [] []
      let p := (pk 1 0x7F 0 15 0 0 []).withTyp 0x09;
      acceptsB s 15 p = true ∧ s.fbarHomeDev (p.arg % 16) = s.myDev ∧ barArmed (s.barCfg (288 + p.arg % 16)) = true
        ∧ p.srcDev ∈ s.fbarMembers (p.arg % 16) ∧ (s.bar (288 + p.arg % 16)).poisoned = false ∧ natBit p.arg 15 = false
        ∧ natBit p.arg 14 = (s.bar (288 + p.arg % 16)).sense
        ∧ ((s.fbar (p.arg % 16)).cur.length + 1 < s.rf .fbarDevs 0 (p.arg % 16) 12 0))
    ∧ (let s := sFbar 0 [0] []
      let p := (pk 1 0x7F 0 15 0 0 []).withTyp 0x09;
      acceptsB s 15 p = true ∧ s.fbarHomeDev (p.arg % 16) = s.myDev ∧ barArmed (s.barCfg (288 + p.arg % 16)) = true
        ∧ p.srcDev ∈ s.fbarMembers (p.arg % 16) ∧ (s.bar (288 + p.arg % 16)).poisoned = false ∧ natBit p.arg 15 = false
        ∧ natBit p.arg 14 = (s.bar (288 + p.arg % 16)).sense
        ∧ (addOnce p.srcDev (s.fbar (p.arg % 16)).cur).length = s.rf .fbarDevs 0 (p.arg % 16) 12 0
        ∧ s.barCmds (288 + p.arg % 16) = [] ∧ (s.bar (288 + p.arg % 16)).nxt = [] ∧ (s.bar (288 + p.arg % 16)).held = [])
    ∧ (let s := sFbar 0 [0] []
      let p := (pk 1 0x7F 0 0x800F 0 0 []).withTyp 0x09;
      acceptsB s 15 p = true ∧ s.fbarHomeDev (p.arg % 16) = s.myDev ∧ barArmed (s.barCfg (288 + p.arg % 16)) = true
        ∧ p.srcDev ∈ s.fbarMembers (p.arg % 16) ∧ natBit p.arg 15 = true)
    ∧ (let s := sFbar 1 [] [0]
      let p := (pk 1 0x7F 0 15 0 0 []).withTyp 0x0A;
      acceptsB s 15 p = true ∧ s.fbarHomeDev (p.arg % 16) = p.srcDev ∧ barArmed (s.barCfg (288 + p.arg % 16)) = true
        ∧ (s.bar (288 + p.arg % 16)).orphan = false ∧ natBit p.arg 15 = false ∧ natBit p.arg 14 = (s.bar (288 + p.arg % 16)).sense
        ∧ (s.bar (288 + p.arg % 16)).poisoned = false ∧ s.barCmds (288 + p.arg % 16) = [] ∧ (s.bar (288 + p.arg % 16)).nxt = []
        ∧ (s.bar (288 + p.arg % 16)).held = [])
    ∧ (barArmed ((sFbar 0 [0] []).barCfg 303) = true ∧ ((sFbar 0 [0] []).bar 303).poisoned = false ∧ (sFbar 0 [0] []).fbarHomeDev 15 = (sFbar 0 [0] []).myDev
      ∧ ((sFbar 0 [0] []).fbar 15).cur ≠ [] ∧ barArmed ((sFbar 1 [] [0]).barCfg 303) = true ∧ ((sFbar 1 [] [0]).bar 303).poisoned = false ∧ ((sFbar 1 [] [0]).bar 303).orphan = false ∧ ((sFbar 1 [] [0]).bar 303).cur ≠ [])
    ∧ bitOf (sFab.reg .fabGrant 0 15) 31 = false
    ∧ (bitOf (sGrant.reg .fabGrant 0 15) 31 = true ∧ devLevel sGrant.myDev (bits (sGrant.reg .fabGrant 0 15) 17 0) = 4
      ∧ (sGrant.win 95 15).isOpen = true ∧ (sGrant.win 95 15).device sGrant = bits (sGrant.reg .fabGrant 0 15) 17 0) := by
  refine ⟨?_, ?_, ?_, ?_, ?_, ?_, ?_, by decide +kernel, by decide +kernel, by decide +kernel⟩ <;> decide +kernel

/-- Port 15 in a state, with a width and failures. -/
def sPort (st w fails : Nat) : State :=
  { (sFab.setRf .portStatus 15 0 31 29 st).setRf .portStatus 15 0 28 27 w with links := [(15, { fails := fails })] }

theorem wit_FabricPortsTrainAndJoin :
    (sPort 2 3 0).portUp 15 = true ∧ (sPort 2 3 8).portUp 15 = true ∧ (Tab.get {} (sPort 2 3 8).links 15).fails = 8
    ∧ noJoinB (sPort 2 3 8) = true ∧ (Tab.get {} (sPort 2 3 0).links 15).rxSeq = 0 ∧ (Tab.get {} (sPort 2 3 0).links 15).fails ≠ 8
    ∧ (let s := { sPort 2 3 0 with out := [.pkt 15 pkReq] };
      s.portUp 15 = true ∧ ((s.framesOf 15).zipIdx.reverse.find? (fun e => e.2 % 4096 == 0)).isSome = true
        ∧ (Tab.get ({} : Link) s.links 15).resent = 0)
    ∧ noJoinB (sPort 1 3 0) = true ∧ (sPort 1 0 0).portState 15 = 1 ∧ (sPort 4 0 0).portState 15 = 4
    ∧ ((sPort 4 0 0).setRf .portCtrl 15 0 0 0 1).portEnabled 15 = true ∧ (sPort 1 3 0).rf .portStatus 15 0 28 27 ≠ 0
    ∧ (sPort 1 3 0).portState 15 = 1 ∧ (sPort 2 3 0).rf .portStatus 15 0 28 27 ≠ 0
    ∧ ((sPort 0 0 0).setRf .portCtrl 15 0 0 0 0).portEnabled 15 = false ∧ (sPort 0 0 0).portDisabled 15 = false
    ∧ ((sPort 0 0 0).setRf .bootStatus 0 0 3 0 11).fabricBegan = true ∧ (State.reset.setRf .hmPolicy 0 0 10 8 3).portDisabled 15 = true := by
  decide +kernel

/-- Device 1, its ports UP. -/
def sTime (set : Bool) : State := { sFab.setRf .fabId 0 0 17 0 1 with timeSet := set }

theorem wit_TimeAndObjectConfigurations :
    (∀ b, (sTime b).portUp ((parentPort 1).getD 0) = true ∧ (timeParent (sTime b).myDev).isSome = true
      ∧ parentPort (sTime b).myDev = some ((parentPort 1).getD 0) ∧ noJoinB (sTime b) = true ∧ (parentPort 1).getD 0 < 16)
    ∧ (sTime false).timeSet = false ∧ (sTime false).serviceOpen = false ∧ (sTime true).timeSet = true
    ∧ (let v : W32 := BitVec.ofNat 32 (2 ^ 31 + 384 * 2 ^ 22 + 3 * 2 ^ 20 + 95 * 2 ^ 13);
      barArmed (State.reset.barCfg 287) = false ∧ barArmed v = true ∧ 1 ≤ barCount v ∧ barCount v ≤ barMost 287 ∧ ownerOk 287 (barOwner v / 4) = true)
    ∧ (barArmed ((sFbar 0 [] []).barCfg 303) = true ∧ barArmed ((sSync 2).barCfg 63) = true)
    ∧ (let v : W32 := BitVec.ofNat 32 (2 ^ 31 + 95 * 2 ^ 22);
      ctrArmed (State.reset.ctrCfg 319) = false ∧ ctrArmed v = true ∧ ownerOk 319 (bits v 28 22) = true)
    ∧ ((sFab.setRf .hmPolicy 0 0 10 8 0).setReg .fbarHome 0 15 4096).fbarLevelOk 15 = false
    ∧ barArmed (((sFab.setRf .hmPolicy 0 0 10 8 0).setReg .fbarHome 0 15 4096).barCfg 303) = false
    ∧ ctrArmed ((sCtr 0).ctrCfg 255) = true ∧ ownerOk 255 71 = false := by
  decide +kernel

/-! ### Service ports and sessions -/

/-- A frame of TYPE `t` at port 1, without a CRC, its tag zero. -/
def frRaw (t seq job frag count : Nat) (pl : List Byte) (last : Bool) (sess : Nat) (he : Bool) : SvcFrame :=
  { port := 1
    env := { udpLen := 60 + pl.length }
    h0 := BitVec.ofNat 64 (1 + t * 2 ^ 8 + sess * 2 ^ 16 + seq % 65536 * 2 ^ 40 + (if last then 2 ^ 56 else 0) + (if he then 2 ^ 57 else 0))
    h1 := BitVec.ofNat 64 (seq * 2 ^ 16)
    h2 := BitVec.ofNat 64 (job * 2 ^ 32 + frag * 2 ^ 12)
    h3 := BitVec.ofNat 64 (pl.length * 2 ^ 50 + count * 2 ^ 30)
    payload := pl
    tag := List.replicate 16 0 }

/-- The bytes its CRC covers as a frame of TYPE `t`. -/
def crcBytes (t : Nat) (f : SvcFrame) : List Byte := (f.withTyp t).header ++ (f.withTyp t).payload ++ (f.withTyp t).tag

/-- The frame with its CRC. -/
def fr (t seq job frag count : Nat) (pl : List Byte) (last : Bool) (sess : Nat := 5) (he : Bool := false) : SvcFrame :=
  { frRaw t seq job frag count pl last sess he with crc := BitVec.ofNat 32 (crc32c (crcBytes t (frRaw t seq job frag count pl last sess he))) }

theorem crc_lt (p : CrcProfile) (h : p.width = 32) (bs : List Byte) : crc p bs < 2 ^ 32 := by
  have e : crc p bs < 2 ^ p.width := by
    unfold crc crcValue
    exact Nat.mod_lt _ (Nat.two_pow_pos _)
  rwa [h] at e

theorem toNat_ofNat_lt (n : Nat) (h : n < 2 ^ 32) : (BitVec.ofNat 32 n).toNat = n := by
  rw [BitVec.toNat_ofNat, Nat.mod_eq_of_lt h]

theorem crcOk_iff (f : SvcFrame) (c : W32) (t : Nat) :
    ({ f with crc := c }.withTyp t).crcOk = true ↔ c.toNat = crc32c (crcBytes t f) := by
  have e : { f with crc := c }.withTyp t = { (f.withTyp t) with crc := c } := by
    have hc : ({ f with crc := c } : SvcFrame).fromClient = f.fromClient := rfl
    cases h : f.fromClient <;> simp [SvcFrame.withTyp, hc, h]
  rw [e, SvcFrame.crcOk, beq_iff_eq]
  rfl

theorem fr_crcOk (t seq job frag count : Nat) (pl : List Byte) (last : Bool) (sess : Nat) (he : Bool) :
    ((fr t seq job frag count pl last sess he).withTyp t).crcOk = true := by
  unfold fr
  rw [crcOk_iff]
  refine toNat_ofNat_lt _ ?_
  unfold crc32c
  exact crc_lt _ rfl _

def svcB (s : State) (f : SvcFrame) (he op : Bool) : Bool :=
  decide (f.port < 2) && s.svcRuns f.port && !f.env.pause && s.ethOk f && f.formOk he && (s.session f.session).isOpen
    && decide ((s.session f.session).port = f.port) && (!op || decide ((s.session f.session).role = 2)) && (s.session f.session).isNew f.seq

theorem svc_of {s : State} {f : SvcFrame} {he op : Bool} (hc : f.crcOk = true) (h : svcB s f he op = true) : s.SvcIn f he op := by
  simp only [svcB, Bool.and_eq_true, Bool.or_eq_true, decide_eq_true_eq, Bool.not_eq_true'] at h
  obtain ⟨⟨⟨⟨⟨⟨⟨⟨h1, h2⟩, hp⟩, h3⟩, h4⟩, h5⟩, h6⟩, h7⟩, h8⟩ := h
  exact ⟨h1, h2, hp, h3, hc, h4, h5, h6, fun ho => h7.resolve_left (by simp [ho]), h8⟩

def sess5 : Session := { port := 1, isOpen := true, role := 2, rxHigh := 8, txSeq := 3, keys := List.replicate 88 7 }
/-- Service open on port 1 with session 5, paired, a journal and key chests. -/
def sSvc : State :=
  let s := (((State.reset.setRf .svcCtrl 1 0 4 0 23).setRf .svcStatus 0 0 2 2 1).setRf .svcStatus 1 0 1 0 3).setRf .witStatus 0 0 2 0 2
  { (((s.setRf .jrnlBase 0 0 23 0 0x100).setRf .jrnlSize 0 0 11 0 64).setRf .kchestSize 0 0 11 0 1).setRf .kchestBase 0 0 23 0 0x20000 with sessions := [(5, sess5)] }

def withSess (s : State) (g : Session → Session) : State := s.modSession 5 g
def withRec (s : State) (r : JRec) : State := { s with journal := [(0, r)] }

theorem wit_ServicePortsAnswerTheNetwork :
    (∀ e ∈ sSvc.journal, e.2.state ≠ 5 ∨ e.2.sentAt.isSome)
    ∧ State.reset.svcRuns 1 = false
    ∧ (let f : SvcFrame := { fr 0x51 9 0 0 1 [] true with env := { udpLen := 60, dstPort := 1 } };
      sSvc.svcRuns f.port = true ∧ f.env.pause = false ∧ sSvc.ethOk (f.withTyp 0x51) = false)
    ∧ (let f : SvcFrame := { fr 0x51 9 0 0 1 [] true with crc := 0 };
      sSvc.svcRuns f.port = true ∧ f.env.pause = false ∧ sSvc.ethOk (f.withTyp 0x51) = true ∧ (f.withTyp 0x51).crcOk = false)
    ∧ (let f := fr 0x60 9 0 0 1 [] true;
      sSvc.svcRuns f.port = true ∧ f.env.pause = false ∧ sSvc.ethOk (f.withTyp 0x51) = true ∧ (f.withTyp 0x51).crcOk = true ∧ f.fromClient = false)
    ∧ (let f := fr 0x51 9 0 1 1 [] true;
      sSvc.svcRuns f.port = true ∧ f.env.pause = false ∧ sSvc.ethOk (f.withTyp 0x51) = true ∧ (f.withTyp 0x51).crcOk = true
      ∧ (f.withTyp 0x51).formOk false = false)
    ∧ (let f := fr 0x51 9 0 0 1 [] true 6;
      (f.withTyp 0x51).crcOk = true ∧ sSvc.svcRuns f.port = true ∧ f.env.pause = false ∧ sSvc.ethOk (f.withTyp 0x51) = true
      ∧ (f.withTyp 0x51).formOk false = true ∧ (sSvc.session f.session).isOpen = false)
    ∧ (let f := fr 0x51 8 0 0 1 [] true
      let s := withSess sSvc (fun v => { v with rxMarks := [8] });
      (f.withTyp 0x51).crcOk = true ∧ s.svcRuns f.port = true ∧ f.env.pause = false ∧ s.ethOk (f.withTyp 0x51) = true
      ∧ (f.withTyp 0x51).formOk false = true ∧ (s.session f.session).isOpen = true
      ∧ (s.session f.session).port = f.port ∧ (s.session f.session).isNew f.seq = false) := by
  refine ⟨by decide +kernel, by decide +kernel, by decide +kernel, by decide +kernel, ?_, ?_, ⟨fr_crcOk .., ?_⟩, fr_crcOk .., ?_⟩ <;> decide +kernel

/-- A set-up of session 5 under way, fragment 0 of FINISH held; the trust list has one anchor of index 1 and role 1. -/
def sSetup (hold : List (Nat × List Byte)) : State :=
  { sSvc with
    progLen := 0x10000
    sessions := [(5, { inSetup := true, setupPort := 1, hello := [1], finish := hold })]
    mem := words (sSvc.progBase + 32) [0x1000, 2752] ++ cells (sSvc.progBase + 0x1000) [1, 1] }

/-- A FINISH payload of ones. -/
def ones : List Byte := List.replicate 11277 1

theorem wit_SessionsAreSetUp_hello :
    let f := fr 0x01 1 0 0 1 (List.replicate 72 0) true 0;
    (f.withTyp 0x01).crcOk = true ∧ f.port < 2 ∧ sSvc.svcRuns f.port = true ∧ f.env.pause = false ∧ sSvc.ethOk (f.withTyp 0x01) = true ∧ (f.withTyp 0x01).formOk false = true
    ∧ (f.withTyp 0x01).session = 0 ∧ sSvc.sbActive = false ∧ f.payload.length = 72 ∧ sSvc.setups < 256
    ∧ leNat ((f.payload.drop 4).take 3) = 0 ∧ sSvc.freeSession = some 1
    ∧ (∀ r ∈ sSvc.ts.queue, r.isHash = true) := by
  refine ⟨fr_crcOk .., ?_⟩
  decide +kernel

theorem wit_SessionsAreSetUp_finish :
    let s := sSetup [(0, ones)]
    let f := fr 0x03 2 0 1 2 [] true
    let n := (f.withTyp 0x03).session
    let v := s.session n;
    f.port < 2 ∧ s.svcRuns f.port = true ∧ f.env.pause = false ∧ s.ethOk (f.withTyp 0x03) = true ∧ (f.withTyp 0x03).crcOk = true ∧ (f.withTyp 0x03).formOk false = true
    ∧ v.inSetup = true ∧ v.resume = false ∧ v.isOpen = false ∧ v.setupPort = f.port ∧ v.setupNew f.seq = true ∧ (∀ e ∈ v.finish, e.1 ≠ f.frag)
    ∧ v.finish.length + 1 = f.count ∧ (∀ e ∈ s.journal, e.2.session ≠ n) ∧ (∀ r ∈ s.ts.queue, r.isHash = true)
    ∧ (List.range f.count).flatMap (fun i => (((v.finish ++ [(f.frag, f.payload)]).find? (fun e => e.1 == i)).map (·.2)).getD []) = ones
    ∧ ones.length = 11277 ∧ (s.trust (((ones.drop 1088).drop 1).headD 0).toNat ((v.hello.take 1).headD 0).toNat).isSome
    ∧ (ones.drop 1088).headD 0 = (v.hello.take 1).headD 0 ∧ ((v.hello.take 1).headD 0 = 2 → bitOf (s.reg .svcCtrl f.port) 4 = true) := by
  have h1 : (((ones.drop 1088).drop 1).headD 0) = 1 := by
    rw [ones, List.drop_replicate, List.drop_replicate]; rfl
  have h2 : (ones.drop 1088).headD 0 = 1 := by rw [ones, List.drop_replicate]; rfl
  have h3 : ((sSetup [(0, ones)]).session ((fr 0x03 2 0 1 2 [] true).withTyp 0x03).session).finish = [(0, ones)] := rfl
  have hc : (fr 0x03 2 0 1 2 [] true).count = 2 := by decide +kernel
  have hf : (fr 0x03 2 0 1 2 [] true).frag = 1 := by decide +kernel
  intro s f n v
  refine ⟨by decide +kernel, by decide +kernel, by decide +kernel, by decide +kernel, fr_crcOk .., by decide +kernel, by decide +kernel,
    by decide +kernel, by decide +kernel, by decide +kernel, by decide +kernel, ?_, ?_, ?_, by decide +kernel, ?_, List.length_replicate, ?_, ?_, ?_⟩
  · simp only [v, n, f, s, h3, hf]; simp
  · simp only [v, n, f, s, h3, hc]; rfl
  · decide +kernel
  · simp only [v, n, f, s, h3, hc, hf]; simp [fr, frRaw, List.range_succ]
  · rw [h1]; decide +kernel
  · rw [h2]; decide +kernel
  · decide +kernel

theorem wit_SessionsAreSetUp :
    (let s := sSetup []
      let f := fr 0x03 2 0 1 2 [] true
      let v := s.session (f.withTyp 0x03).session;
      (f.withTyp 0x03).crcOk = true ∧ s.svcRuns f.port = true ∧ f.env.pause = false ∧ s.ethOk (f.withTyp 0x03) = true
      ∧ (f.withTyp 0x03).formOk false = true ∧ v.inSetup = true ∧ v.setupPort = f.port ∧ v.setupNew f.seq = true
      ∧ (∀ e ∈ v.finish, e.1 ≠ f.frag) ∧ v.finish.length + 1 ≠ f.count)
    ∧ ((sSetup []).session 5).inSetup = true := by
  refine ⟨⟨fr_crcOk .., ?_⟩, by decide +kernel⟩
  decide +kernel

theorem wit_SessionsRekeyAndClose :
    (sSvc.SvcIn ((fr 0x51 9 0 0 1 [] true).withTyp 0x51) false false)
    ∧ (sSvc.SvcIn ((fr 0x50 9 0 0 1 [] true).withTyp 0x50) false false
      ∧ ((fr 0x50 9 0 0 1 [] true).withTyp 0x50).kphase = (sSvc.session ((fr 0x50 9 0 0 1 [] true).withTyp 0x50).session).kphase)
    ∧ (sSvc.SvcIn ((fr 0x52 9 0 0 1 [] true).withTyp 0x52) false false ∧ sSvc.retained 5 = false)
    ∧ (let s := withRec sSvc { session := 5, kind := 1, state := 3 };
      s.SvcIn ((fr 0x52 9 0 0 1 [] true).withTyp 0x52) false false ∧ s.retained 5 = true ∧ (s.session 5).seqFree)
    ∧ (sSvc.session 5).isOpen = true := by
  refine ⟨svc_of (fr_crcOk ..) (by decide +kernel), ⟨svc_of (fr_crcOk ..) (by decide +kernel), by decide +kernel⟩,
    ⟨svc_of (fr_crcOk ..) (by decide +kernel), by decide +kernel⟩, ⟨svc_of (fr_crcOk ..) (by decide +kernel), by decide +kernel, ?_⟩,
    by decide +kernel⟩
  constructor <;> decide +kernel

/-- A payload of session 5 as it travels under SEQ 9. -/
def enc9 (pl : List Byte) : List Byte := frameCrypt (List.replicate 88 7) false 9 false pl

/-- Session 5 with a sealed result of job 7, sent at time 0. -/
def sSealed (sent : Nat) : State :=
  withRec (withSess sSvc (fun v => { v with highSent := sent }))
    { session := 5, kind := 1, state := 5, job := 7, result := 0x2000000, resultLen := 4096, sentAt := some 0 }

theorem wit_ResultsAreKeptUntilAcknowledged :
    (∀ sent ∈ [6, 7],
      let s := sSealed sent
      let f := (fr 0x32 9 0 0 1 (enc9 [7, 0, 0, 0]) true).withTyp 0x32;
      f.crcOk = true ∧ svcB s f false false = true ∧ leNat (((s.session f.session).plain f).take 4) = 7)
    ∧ (let s := sSealed 7
      let f := (fr 0x33 9 7 0 1 (enc9 [0, 0, 0x10, 0, 0, 0, 0, 0]) true).withTyp 0x33;
      s.SvcIn f false false ∧ (s.session f.session).seqFree ∧ f.payload.length = 8
      ∧ s.findRec (fun r => r.session == f.session && r.kind == 1 && r.job == f.job && r.state == 5) = some 0
      ∧ (s.jrec 0).sentAt.isSome = true ∧ 0 < s.payloadMax f.port ∧ 0 * s.payloadMax f.port < (s.jrec 0).resultLen - receiptLen
      ∧ unpackRanges ((s.session f.session).plain f) = [(0, 1)])
    ∧ ((sSealed 7).jrec 0).sentAt = some 0 ∧ ((sSealed 7).jrec 0).state = 5 ∧ ((sSealed 7).jrec 0).kind = 1
    ∧ ((sSealed 7).session 5).isOpen = true ∧ (sSealed 7).svcUp ((sSealed 7).session 5).port = true := by
  refine ⟨?_, ?_, by decide +kernel, by decide +kernel, by decide +kernel, by decide +kernel, by decide +kernel⟩
  · intro sent h s f
    refine ⟨fr_crcOk .., ?_⟩
    revert h
    revert sent
    decide +kernel
  · intro s f
    refine ⟨svc_of (fr_crcOk ..) (by decide +kernel), ⟨by decide +kernel, by decide +kernel⟩, ?_⟩
    and_intros <;> decide +kernel

def newBodyB (s : State) (g : SvcFrame) (slot body : Nat) : Bool :=
  !s.sbActive && (s.reasmOf g.session g.job 1).isNone && (s.reasmOf g.session g.job 3).isNone
  && s.journal.all (fun e => !(decide (e.2.session = g.session) && decide (e.2.job = g.job)))
  && decide ((s.session g.session).highAck < g.job) && decide ((s.session g.session).highRef < g.job)
  && decide ((s.session g.session).highAcc < g.job) && !(decide (g.job ∈ (s.session g.session).refused)) && s.paired && s.takenOk g.session
  && decide ((s.reasm.filter (fun m => m.session == g.session && m.kind != 2)).length < 8)
  && decide (s.freeSlot = some slot) && decide (s.bodyAlloc (g.count * s.payloadMax g.port) = some body) && decide (1 < g.count)
  && s.fragFits g ((s.session g.session).plain g) g.count

theorem newBody_of {s : State} {g : SvcFrame} {slot body : Nat} (h : newBodyB s g slot body = true) : s.newBody g slot body := by
  simp only [newBodyB, Bool.and_eq_true, Bool.not_eq_true', decide_eq_true_eq, decide_eq_false_iff_not, Option.isNone_iff_eq_none,
    List.all_eq_true, Bool.and_eq_false_imp] at h
  obtain ⟨⟨⟨⟨⟨⟨⟨⟨⟨⟨⟨⟨⟨⟨h1, h2⟩, h3⟩, h4⟩, h5⟩, h6⟩, h7⟩, h8⟩, h9⟩, h10⟩, h11⟩, h12⟩, h13⟩, h14⟩, h15⟩ := h
  exact ⟨h1, h2, h3, fun e he hc => h4 e he hc.1 hc.2, h5, h6, h7, h8, h9, h10, h11, h12, h13, h14, h15⟩

def reas : Reasm := { session := 5, job := 7, kind := 1, slot := 0, got := [0], count := 2 }

/-- The first of two full fragments of a body. -/
def frBody (t job : Nat) : SvcFrame := fr t 9 job 0 2 (List.replicate (sSvc.payloadMax 1) 0) false 5 true

theorem wit_BodiesArriveInFragments :
    (∀ t ∈ [0x20, 0x40],
      let f := (frBody t 7).withTyp t;
      f.crcOk = true ∧ svcB sSvc f true true = true
      ∧ newBodyB sSvc f 0 ((sSvc.bodyAlloc (2 * sSvc.payloadMax 1)).getD 0) = true)
    ∧ (let s := withSess sSvc (fun v => { v with highAck := 7 })
      let f := (fr 0x20 9 7 1 2 [] true).withTyp 0x20;
      s.SvcIn f true false ∧ s.sbActive = false ∧ s.reasmOf f.session f.job 1 = none ∧ f.job ≤ (s.session f.session).highAck
      ∧ ¬ f.job ∈ (s.session f.session).refused ∧ (s.session f.session).seqFree)
    ∧ (let s := sSvc.setRf .sbStatus 0 0 31 31 1
      let f := (fr 0x20 9 7 1 2 [] true).withTyp 0x20;
      s.SvcIn f true false ∧ s.sbActive = true ∧ (s.session f.session).seqFree)
    ∧ (let f := (frBody 0x10 0).withTyp 0x10;
      f.crcOk = true ∧ svcB sSvc f true false = true ∧ sSvc.sbActive = false ∧ sSvc.reasmOf f.session 0 2 = none
      ∧ (sSvc.session f.session).keyBusy = false ∧ (sSvc.sessions.map (fun e => e.1)).Nodup ∧ sSvc.freeSlot = some 0
      ∧ (sSvc.keyDieFor f.session (1024 + f.count * sSvc.payloadMax f.port)).isSome = true ∧ 1 < f.count
      ∧ sSvc.fragFits f ((sSvc.session f.session).plain f) f.count = true)
    ∧ (let s := withSess sSvc (fun v => { v with keyBusy := true })
      let f := (fr 0x10 9 0 1 2 [] true).withTyp 0x10;
      s.SvcIn f true false ∧ s.sbActive = false ∧ s.reasmOf f.session 0 2 = none ∧ (s.session f.session).keyBusy = true
      ∧ (s.session f.session).seqFree)
    ∧ (let s := { sSvc with reasm := [reas] };
      s.reasm[0]? = some reas ∧ reas.hold = false ∧ (s.session reas.session).seqFree ∧ s.svcUp (s.session reas.session).port = true
      ∧ (∀ v ∈ s.reasm, v.hold = false) ∧ (s.session (s.jrec reas.slot).session).seqFree
      ∧ (∀ e ∈ s.journal, e.2.confirmed = true → e.2.state ≠ 1 ∧ e.2.state ≠ 2)) := by
  refine ⟨?_, ?_, ?_, ⟨fr_crcOk .., by decide +kernel⟩, ?_, ?_⟩
  · intro t h f
    refine ⟨fr_crcOk .., ?_⟩
    revert h
    revert t
    decide +kernel
  · exact ⟨svc_of (fr_crcOk ..) (by decide +kernel), by decide +kernel, by decide +kernel, by decide +kernel, by decide +kernel,
      by decide +kernel, by decide +kernel⟩
  · exact ⟨svc_of (fr_crcOk ..) (by decide +kernel), by decide +kernel, by decide +kernel, by decide +kernel⟩
  · exact ⟨svc_of (fr_crcOk ..) (by decide +kernel), by decide +kernel, by decide +kernel, by decide +kernel, by decide +kernel, by decide +kernel⟩
  · exact ⟨by decide +kernel, by decide +kernel, ⟨by decide +kernel, by decide +kernel⟩, by decide +kernel, by decide +kernel,
      ⟨by decide +kernel, by decide +kernel⟩, by decide +kernel⟩

/-! ### The partner -/

/-- Paired with device 1, sessions of the partner from 5001 on, the journal as `sSvc` has it; records in slots. -/
def sWit (st : Nat) (rs : List (Nat × JRec)) : State :=
  { (sSvc.setReg .witCfg 0 0 0x80000001).setRf .witStatus 0 0 2 0 st with journal := rs }

def recA : JRec := { session := 5, kind := 1, state := 1, job := 7, body := 0x2000000, bodyLen := 64, ended := some 0 }
def recM (st : Nat) : JRec :=
  { session := 6000, kind := 1, origin := 1, state := st, job := 7, body := 0x1800000, bodyLen := 8, mirrored := 8 }
def withTime (s : State) (n : Nat) : State := { s with time := n }
def withSessions (s : State) (l : List (Nat × Session)) : State := { s with sessions := l }
/-- Session 6000 held as witness, with eight bytes of its body. -/
def sHeld (st : Nat) : State :=
  { (withSessions (sWit 3 [(0, recM st)]) [(6000, { partner := true })]) with mem := cells 0x1800000 [1, 2, 3, 4, 5, 6, 7, 8] }

/-- Every record of a journal satisfies a property that FREE has. -/
theorem jrec_of {s : State} {P : JRec → Prop} (h0 : P {}) (h : ∀ e ∈ s.journal, P e.2) (k : Nat) : P (s.jrec k) := by
  unfold State.jrec Tab.get
  generalize s.journal = t at h
  induction t with
  | nil => exact h0
  | cons e t ih =>
    by_cases hk : e.1 = k
    · simpa [Tab.find?, hk] using h e (by simp)
    · simpa [Tab.find?, hk] using ih (fun x hx => h x (by simp [hx]))

theorem wit_PartnersPairAndWatch :
    (sWit 1 []).mayPair 1 5000 4096 = true ∧ (sWit 0 []).mayPair 1 4096 4096 = false ∧ (sWit 0 []).partnerDev = some 1
    ∧ (sWit 1 []).witState = 1 ∧ (sWit 1 []).mayPair 2 5000 4096 = false ∧ (sWit 1 []).partnerDev ≠ some 2
    ∧ (sWit 1 []).closed = [] ∧ (sWit 1 []).mayPair 1 4096 4096 = false
    ∧ (let s := sWit 2 [(0, recA)];
      s.paired = true ∧ (s.session 5).seqFree ∧ (∀ e ∈ s.journal, e.2.confirmed = true → e.2.state ≠ 1 ∧ e.2.state ≠ 2)
      ∧ s.recsWhere (fun r => r.origin == 0 && (r.kind == 1 || r.kind == 3) && r.state == 1 && r.session == 5 && r.job == 7) = [0])
    ∧ (let s := sWit 1 [(65535, { recA with state := 2 })];
      s.boot ≠ 9 ∧ (∀ k, ¬ ((s.jrec k).origin = 1 ∧ 3 ≤ (s.jrec k).state ∧ (s.jrec k).state ≤ 5)) ∧ (∀ e ∈ s.sessions, e.2.taken = false)
      ∧ (∀ k, ¬ ((s.jrec k).origin = 0 ∧ ((s.jrec k).kind = 2 ∨ (s.jrec k).kind = 4) ∧ (s.jrec k).state = 1))
      ∧ (∀ k, (s.jrec k).ownDoubt → 0 < (s.jrec k).job) ∧ (s.jrec 65535).ownDoubt)
    ∧ (sWit 2 []).paired = true ∧ (∀ k, ¬ ((sWit 2 []).jrec k).ownDoubt)
    ∧ (sWit 2 [(0, { recA with state := 2 })]).recsWhere (fun r => r.origin == 0 && r.state == 2) = [0]
    ∧ (sWit 3 []).paired = false := by
  refine ⟨by decide +kernel, by decide +kernel, by decide +kernel, by decide +kernel, by decide +kernel, by decide +kernel, by decide +kernel,
    by decide +kernel, ⟨by decide +kernel, ⟨by decide +kernel, by decide +kernel⟩, by decide +kernel, by decide +kernel⟩, ?_, by decide +kernel,
    ?_, by decide +kernel, by decide +kernel⟩
  · refine ⟨by decide +kernel, ?_, by decide +kernel, ?_, ?_, ⟨rfl, rfl⟩⟩
    · exact jrec_of (P := fun r => ¬ (r.origin = 1 ∧ 3 ≤ r.state ∧ r.state ≤ 5)) (by decide) (by decide +kernel)
    · exact jrec_of (P := fun r => ¬ (r.origin = 0 ∧ (r.kind = 2 ∨ r.kind = 4) ∧ r.state = 1)) (by decide) (by decide +kernel)
    · exact jrec_of (P := fun r => r.origin = 0 ∧ r.state = 2 → 0 < r.job) (by decide) (by decide +kernel)
  · exact jrec_of (P := fun r => ¬ (r.origin = 0 ∧ r.state = 2)) (by decide) (by decide +kernel)

/-- Boot state 10, before the journal is read back. -/
def sBoot10 (warm : Bool) : State :=
  (sSvc.setRf .bootStatus 0 0 3 0 10).setRf .rstCause 0 0 0 0 (if warm then 0 else 1)

theorem wit_TakeoverAndRecovery :
    ((sSvc.session 5).partner = false ∧ (sSvc.session 5).isOpen = true)
    ∧ ((sHeld 4).witState = 3 ∧ ((sHeld 4).session 6000).partner = true ∧ ((sHeld 4).session 6000).taken = false
      ∧ ((sHeld 4).jrec 0).origin = 1 ∧ ((sHeld 4).jrec 0).kind = 1 ∧ 3 ≤ ((sHeld 4).jrec 0).state ∧ ((sHeld 4).jrec 0).session = 6000)
    ∧ (sWit 2 []).witState ≠ 3 ∧ ((sWit 2 []).paired = true ∧ ∀ r ∈ (sWit 2 []).ts.queue, r.isHash = true) ∧ (sWit 3 []).paired = false
    ∧ ((withSessions (sWit 2 []) [(6000, { partner := true })]).session 6000).partner = true
    ∧ (let s := sSvc;
      s.jrnlSize ≠ 0 ∧ (∀ j, ¬ ((s.jrec j).origin = 0 ∧ (s.jrec j).session = 5 ∧ (s.jrec j).kind = 1 ∧ (s.jrec j).job = 7
        ∧ 2 ≤ (s.jrec j).state ∧ (s.jrec j).state ≤ 6)) ∧ (s.journal.map (fun e => e.1)).Nodup ∧ (∀ e ∈ s.journal, e.1 < 65536)
      ∧ s.freeSlot = some 0 ∧ (s.bodyAlloc [1, 2, 3].length).isSome = true ∧ 0 < [1, 2, 3].length)
    ∧ (let s := sBoot10 false; s.boot = 10 ∧ s.init.recovered = false ∧ s.init.read = false ∧ s.jrnlSize ≠ 0 ∧ bitOf (s.reg .rstCause) 0 = true)
    ∧ (let s := sBoot10 true; s.boot = 10 ∧ s.init.recovered = false ∧ s.init.read = false ∧ s.jrnlSize ≠ 0 ∧ bitOf (s.reg .rstCause) 0 = false ∧ s.journal = []
      ∧ s.readSlot 65535 = none)
    ∧ State.reset.boot ≠ 10 := by
  refine ⟨by decide +kernel, by decide +kernel, by decide +kernel, by decide +kernel, by decide +kernel, by decide +kernel, ?_, by decide +kernel,
    by decide +kernel, by decide +kernel⟩
  refine ⟨by decide +kernel, fun j => ?_, by decide +kernel, by decide +kernel, by decide +kernel, by decide +kernel⟩
  have h : sSvc.jrec j = {} := rfl
  rw [h]
  decide

theorem natBE_length (n w : Nat) : (natBE n w).length = n := by simp [natBE, natLE_length]

theorem idSign_length (bs : List Byte) : (idSign bs).length = 96 := by
  rw [idSign, p384Sign, List.length_append, natBE_length, natBE_length]

theorem wit_MirrorsAreHeldAndConfirmed :
    (let s := sWit 2 []; s.paired = true ∧ s.mirrorRec 6000 7 1 = none ∧ s.freeSlot = some 0 ∧ (s.bodyAlloc (4 + 4)).isSome = true)
    ∧ (let s := sWit 2 [(0, recM 1)];
      s.mirrorRec 6000 7 1 = some 0 ∧ (s.jrec 0).state < 3 ∧ (s.jrec 0).body ≠ 0 ∧ 65528 + 8 ≤ bodyUnits (s.jrec 0).bodyLen
      ∧ s.jrnlBase + jrnlRecordArea ≤ (s.jrec 0).body)
    ∧ (∀ st ∈ [1, 3],
      let s := { sWit 2 [(0, recM st)] with mem := (sHeld 1).mem };
      s.paired = true ∧ (∀ j, (s.jrec j).mirrorStaged 6000 → 7 ≤ (s.jrec j).job) ∧ s.mirrorRec 6000 7 1 = some 0
      ∧ (s.jrec 0).body ≠ 0 ∧ 8 ≤ (s.jrec 0).mirrored ∧ (s.jrec 0).mirrored < 9
      ∧ (∃ crc, crc64 (s.readBytes (s.jrec 0).body 8) = crc) ∧ (s.jrec 0).state = st)
    ∧ ((sHeld 3).session 6000).partner = true ∧ ((sHeld 3).session 6000).taken = false ∧ ((sHeld 3).session 5).partner = false
    ∧ (let s := sWit 2 [(0, recA)];
      s.ownRec 5 7 1 = some 0 ∧ (s.jrec 0).ended = some 0 ∧ s.heldBack 0 = false
      ∧ (∀ j, j ≠ 0 → ¬ ((s.jrec j).session = 5 ∧ (s.jrec j).origin = 0 ∧ (s.jrec j).confirmed = true)) ∧ (s.session 5).seqFree
      ∧ s.svcUp (s.session 5).port = true ∧ (s.jrec 0).state = 1)
    ∧ (∀ kind ∈ [2, 4], (sWit 2 [(0, { recA with kind := kind })]).ownRec 5 7 kind = some 0)
    ∧ (sWit 2 [(0, { recA with state := 2 })]).ownRec 5 7 1 = some 0 ∧ ((sWit 2 [(0, { recA with state := 2 })]).jrec 0).state = 2
    ∧ (sWit 2 []).ownRec 5 7 1 = none
    ∧ (let s := sWit 2 [(0, recA)]; (s.jrec 0).origin = 0 ∧ (s.jrec 0).kind = 1 ∧ (s.jrec 0).state = 1 ∧ (s.jrec 0).confirmed = false)
    ∧ (let s := sWit 2 [(0, { recA with state := 4 })];
      (∀ e ∈ s.journal, e.1 < 65536)
      ∧ s.findRec (fun r => r.origin == 0 && r.kind == 1 && r.session == 5 && r.job == 7 && r.state == 4) = some 0
      ∧ (∀ p ∈ s.placed, p.slot ≠ 0) ∧ (∀ r ∈ s.ts.queue, r.isHash = true)
      ∧ (let rf := receiptFields 5 7 (s.clientTag (s.jrec 0)) 0 0 [1, 2, 3];
        (s.bodyAlloc ([1, 2, 3].length + (rf ++ idSign rf).length)).isSome = true)) := by
  refine ⟨by decide +kernel, by decide +kernel, ?_, by decide +kernel, by decide +kernel, by decide +kernel, ?_, by decide +kernel,
    by decide +kernel, by decide +kernel, by decide +kernel, by decide +kernel,
    ⟨by decide +kernel, by decide +kernel, by decide +kernel, by decide +kernel, ?_⟩⟩
  · intro st h
    simp only [List.mem_cons, List.not_mem_nil, or_false] at h
    rcases h with rfl | rfl
    all_goals
      refine ⟨by decide +kernel, ?_, by decide +kernel, by decide +kernel, by decide +kernel, by decide +kernel, ⟨_, rfl⟩, by decide +kernel⟩
      exact jrec_of (P := fun r => (r.origin = 1 ∧ r.session = 6000 ∧ (r.kind = 1 ∨ r.kind = 3) ∧ r.state = 1) → 7 ≤ r.job) (by decide)
        (by decide +kernel)
  · refine ⟨by decide +kernel, by decide +kernel, by decide +kernel, fun j hj => ?_, ⟨by decide +kernel, by decide +kernel⟩,
      by decide +kernel, by decide +kernel⟩
    have h : (sWit 2 [(0, recA)]).jrec j = {} := by
      unfold State.jrec Tab.get
      show ((Tab.find? [(0, recA)] j).getD {}) = {}
      simp [Tab.find?, Ne.symm hj]
    rw [h]
    decide
  · intro rf
    have h : (rf ++ idSign rf).length = 162 := by
      rw [List.length_append, idSign_length]
      decide +kernel
    rw [h]
    decide +kernel

/-! ### Placement -/

/-- A program descriptor: one core, mode S or M. -/
def progBytes (prog need : Nat) : List Byte :=
  let b := natLE 8 (prog + need * 2 ^ 16 + 0x400 * 2 ^ 32) ++ natLE 8 (192 * 2 ^ 8) ++ List.replicate 44 0xFF
  b ++ natLE 4 (crc32c b)

/-- An accepted job of session 5 in slot 0 for program 9 of `need` cores; its body names no object. -/
def sPlace (origin need : Nat) : State :=
  { (sWit 2 [(0, { session := 5, kind := 1, origin := origin, state := 3, job := 7, body := 0x1800000, bodyLen := 64 })]).setRf .plcCtrl 0 0 0 0 1 with
    progLen := 0x10000
    mem := words sSvc.progBase [0x1000, 64] ++ cells (sSvc.progBase + 0x1000) (progBytes 9 need)
      ++ words 0x1800000 [9 * 2 ^ 32, 0, 0, 0, 0, 0, 0, 0] }

def prog9 (need : Nat) : Program := { entry := 0x400, need := need, modeS := false, csplit := 0, outDrawer := 192, inDrawer := 0, hot := [] }

def placeB (s : State) (n : Nat) (p : Program) (cores : List Nat) (tab : Nat) : Bool :=
  bitOf (s.reg .plcCtrl) 0 && !s.sbActive && !s.plcBad && decide ((s.jrec n).kind = 1 ∧ (s.jrec n).state = 3)
    && decide (s.program (s.jobProgram (s.jrec n)) = some p) && !s.mustWait n (s.keyDieOf (s.jrec n))
    && decide (s.pickCores (s.keyDieOf (s.jrec n)) p.need p.modeS = some cores)
    && (List.range 16).all (fun k => s.bodyAlloc (8192 * ((s.bodyObjects (s.jrec n)).length + (1 + k))) == some tab)
    && s.placed.all (fun v => v.slot != n) && decide (n < 65536)

theorem place_of {s : State} {n : Nat} {p : Program} {cores : List Nat} {tab : Nat} (h : placeB s n p cores tab = true) :
    s.CanPlace n p cores tab := by
  simp only [placeB, Bool.and_eq_true, decide_eq_true_eq, Bool.not_eq_true', List.all_eq_true, beq_iff_eq, bne_iff_ne] at h
  obtain ⟨⟨⟨⟨⟨⟨⟨⟨⟨h1, h2⟩, h0⟩, h3, h4⟩, h5⟩, h6⟩, h7⟩, h8⟩, h9⟩, h10⟩ := h
  exact ⟨h1, h2, h0, h3, h4, h5, h6, h7, fun k hk => h8 k (List.mem_range.mpr hk), h9, h10⟩

theorem wit_JobsArePlacedAndEpochsCommit :
    ((sPlace 0 24).CanPlace 0 (prog9 24) (List.range 24) ((sPlace 0 24).bodyAlloc 8192 |>.getD 0) ∧ ((sPlace 0 24).jrec 0).origin = 0
      ∧ (sPlace 0 24).pewterDie ((sPlace 0 24).jrec 0) = none)
    ∧ ((sPlace 1 1).CanPlace 0 (prog9 1) [0] ((sPlace 1 1).bodyAlloc 8192 |>.getD 0)
      ∧ (sPlace 1 1).findRec (fun r => r.origin == 1 && r.kind == 1 && r.session == 5 && r.job == 7 && r.state == 3) = some 0)
    ∧ (let s := sPlace 0 25;
      bitOf (s.reg .plcCtrl) 0 = true ∧ s.sbActive = false ∧ s.plcBad = false ∧ (s.jrec 0).kind = 1 ∧ (s.jrec 0).state = 3 ∧ (s.jrec 0).origin = 0
      ∧ s.pewterDie (s.jrec 0) = none ∧ s.program (s.jobProgram (s.jrec 0)) = some (prog9 25)
      ∧ s.pickCores (s.keyDieOf (s.jrec 0)) 25 false = none)
    ∧ bitOf ((State.reset.setRf .plcCtrl 0 0 0 0 0).reg .plcCtrl) 0 = false ∧ (State.reset.setRf .plcStatus 0 0 1 0 1).rf .plcStatus 0 0 1 0 = 1
    ∧ State.reset.rf .plcStatus 0 0 1 0 = 0 ∧ State.reset.commitDue = false
    ∧ (withTime (State.reset.setRf .plcStatus 0 0 1 0 2) 4000000000).commitDue = true
    ∧ (State.reset.sessions.map (fun e => e.1)).Nodup := by
  refine ⟨⟨place_of (by decide +kernel), by decide +kernel, by decide +kernel⟩, ⟨place_of (by decide +kernel), by decide +kernel⟩,
    by decide +kernel, by decide +kernel, by decide +kernel, by decide +kernel, by decide +kernel, by decide +kernel, by decide +kernel⟩

/-! ### The touchstone -/

def readyB (s : State) (r : TsReq) : Bool :=
  (decide (r.who ≠ 0) || !s.tsFull) && s.tsPushOk r && decide (4 ≤ s.tsLen) && s.ts.queue.all (fun v => v.isHash != r.isHash)

theorem ready_of {s : State} {r : TsReq} (h : readyB s r = true) : s.TsReady r := by
  simp only [readyB, Bool.and_eq_true, Bool.or_eq_true, decide_eq_true_eq, Bool.not_eq_true', List.all_eq_true, bne_iff_ne] at h
  obtain ⟨⟨⟨h1, h2⟩, h3⟩, h4⟩ := h
  exact ⟨fun hw => h1.resolve_left (by simp [hw]), h2, h3, h4⟩

def withTs (s : State) (f : Ts → Ts) : State := { s with ts := f s.ts }
/-- Curve 0x11 loaded, the sources of CURVE_LOAD, MODEXP and HASH valid. -/
def sTs : State := withTs State.reset (fun t => { t with curves := [(1, [23, 1, 1, 0, 1, 7, 1])], valid := List.range 1024 })

/-- A request of every operation, by the management port and by the acceptance unit. -/
def tsAll (who a b c d : Nat) : List TsReq :=
  [tsReqOf who 0x01 0 7 a b c d 0 0 false, tsReqOf who 0x10 0x11 7 0 0 0 d 0 0 false, tsReqOf who 0x11 2 7 a 0 c d 48 0 false,
   tsReqOf who 0x12 1 7 a b c 0 48 0 false, tsReqOf who 0x13 0x11 7 a b 0 d 0 0 false, tsReqOf who 0x20 4 7 0 0 0 d 0 0 false,
   tsReqOf who 0x21 5 7 a b 0 d 0 0 false, tsReqOf who 0x28 4 7 0 0 0 d 0 0 false, tsReqOf who 0x29 5 7 a 0 c d 100 0 false,
   tsReqOf who 0x2A 4 7 a b c 0 100 0 false, tsReqOf who 0x30 8 7 0 0 0 d 0 0 false, tsReqOf who 0x31 9 7 a 0 0 d 0 0 false,
   tsReqOf who 0x32 8 7 a b 0 d 0 0 false, tsReqOf who 0x38 0x0A 7 0 0 0 d 0 0 false, tsReqOf who 0x39 0x0B 7 a 0 c d 100 0 false,
   tsReqOf who 0x3A 0x0A 7 a b c 0 100 0 false, tsReqOf who 0x40 0x10 7 a 0 0 0 0 0 false, tsReqOf who 0x41 0x11 7 0 0 0 0 0 0 false,
   tsReqOf who 0x50 0x22 7 0 0 c d 100 1024 false]

theorem wit_TouchstoneOperations :
    (∀ r ∈ tsAll 0 512 600 700 800 ++ tsAll 3 0 100 200 300, readyB sTs r = true)
    ∧ 512 ∈ sTs.ts.valid ∧ 600 ∈ sTs.ts.valid ∧ 700 ∈ sTs.ts.valid
    ∧ (∀ k ∈ partSlots (sTs.tsSrc (tsReqOf 0 0x50 0x22 7 0 0 700 800 100 1024 false)), k ∈ sTs.ts.valid)
    ∧ (∀ i, i < 7 → 512 + i ∈ sTs.ts.valid) := by
  refine ⟨by decide +kernel, by decide +kernel, by decide +kernel, by decide +kernel, by decide +kernel, by decide +kernel⟩

/-- A request held in TS_REQ0 to TS_REQ3: MODEXP, or no operation at all. -/
def sTsHeld (op n : Nat) (q : List TsReq) : State :=
  withTs ((((sTs.setReg .tsReq0 0 0 (BitVec.ofNat 32 (op * 2 ^ 16 + 7))).setReg .tsReq1 0 0 (BitVec.ofNat 32 (512 + 600 * 2 ^ 16))).setReg .tsReq2 0 0
    (BitVec.ofNat 32 (700 + 800 * 2 ^ 16))).setRf .tsSlotSel 0 0 11 0 512) (fun t => { t with queue := q, done := List.replicate n ⟨0, 1, 0, 0⟩ })

def reqM : TsReq := tsReqOf 0 0x01 0 9 512 600 700 800 0 0 false
def started (r : TsReq) : TsReq := { r with started := true }

theorem wit_TouchstoneQueueAndSlots :
    ((sTsHeld 1 7 []).tsFull = false ∧ (sTsHeld 1 7 []).tsPushOk (sTsHeld 1 7 []).tsHeld = true)
    ∧ ((sTsHeld 2 7 []).tsFull = false ∧ (sTsHeld 2 7 []).tsPushOk (sTsHeld 2 7 []).tsHeld = false)
    ∧ (sTsHeld 1 8 []).tsFull = true
    ∧ ((sTsHeld 1 0 [reqM]).ts.queue = [] ++ reqM :: [] ∧ reqM.isHash = false
      ∧ (∀ v ∈ (sTsHeld 1 0 [reqM]).ts.queue, v.isHash = false → v.started = false))
    ∧ (∃ v ∈ (sTsHeld 1 0 [started reqM]).ts.queue, v.isHash = false ∧ v.started = true)
    ∧ ((started reqM).isHash = false ∧ (started reqM).started = true ∧ ecAlg (started reqM).alg = false
      ∧ 4 ≤ (sTsHeld 1 0 [started reqM]).tsLen ∧ (sTsHeld 1 0 [started reqM]).ts.queue = [] ++ started reqM :: [])
    ∧ (reqM.who = 0 ∧ reqM.tag = 9)
    ∧ (let s := sTsHeld 1 0 [];
      s.ts.queue = [] ∧ s.rf .tsSlotSel 0 0 11 0 = 512 ∧ ¬ 512 ∈ s.tsBusy ∧ 512 < s.tsSlots ∧ ¬ 512 ∈ s.ts.secret ∧ s.rf .tsPart 0 0 11 0 ≤ 512
      ∧ 17 < 2 * s.tsLen)
    ∧ 512 ∈ (sTsHeld 1 0 [started reqM]).tsBusy ∧ (sTsHeld 1 0 [reqM]).ts.queue ≠ []
    ∧ State.reset.ts.entropyBad = false := by
  refine ⟨by decide +kernel, by decide +kernel, by decide +kernel, by decide +kernel, by decide +kernel, by decide +kernel, by decide +kernel,
    by decide +kernel, by decide +kernel, by decide +kernel, by decide +kernel⟩

/-! ### Check values, peening, power, resets -/

def withInit (s : State) (f : Boot → Boot) : State := { s with init := f s.init }
/-- Boot state `n`, no strongbox cause. -/
def sBoot (n : Nat) : State := State.reset.setRf .bootStatus 0 0 3 0 n
/-- Peening permitted; slot 7 armed or not. -/
def sPeen (on : Bool) : State :=
  (State.reset.setRf .hmPolicy 0 0 1 1 1).setReg .pnCfg 0 7 (BitVec.ofNat 32 ((if on then 2 ^ 31 else 0) + 3 * 2 ^ 20 + 95))

theorem wit_CheckValueUnitsAndPeening :
    State.reset.cvOwned 63 = true ∧ State.reset.cvOwned 31 = false ∧ (∀ u ∈ [0, 31, 32, 63], State.reset.cvBusy u = false)
    ∧ (((State.reset.setRf .cvCfg 0 31 6 0 32).cvProfile 31).width ≤ 32) ∧ 32 < ((State.reset.setRf .cvCfg 0 31 6 0 64).cvProfile 31).width
    ∧ (State.reset.setRf .cvStat 0 31 0 0 1).cvBusy 31 = true
    ∧ (sPeen false).peenOk = true ∧ bitOf ((sPeen false).reg .pnCfg 0 7) 31 = false ∧ targetFits 3 95 = true
    ∧ bitOf (0xC030005F : W32) 30 = true ∧ bits (0xC030005F : W32) 23 20 = 3 ∧ bits (0xC030005F : W32) 19 0 = 95 ∧ (sPeen false).reg .pnSeed 0 7 = 0
    ∧ ((sPeen false).setReg .pnSeed 0 7 5).reg .pnSeed 0 7 ≠ 0
    ∧ bitOf ((sPeen true).reg .pnCfg 0 7) 31 = true ∧ (sPeen true).reg .pnCfg 0 7 &&& 0xC0FFFFFF = (sPeen true).reg .pnCfg 0 7
    ∧ (State.reset.setRf .hmPolicy 0 0 1 1 0).peenOk = false
    ∧ (Tab.get {} (withTime (sPeen true) 400000).peen 7).opened + 400000 ≤ (withTime (sPeen true) 400000).time := by
  decide +kernel

/-- AVS on; a journal whose record 0 is a PLACED job of die 3. -/
def sRail : State :=
  { withRec (sSvc.setRf .avsCfg 0 0 0 0 1) { session := 5, kind := 1, state := 4, job := 7 } with
    init := { resetN := true }, placed := [{ slot := 0, die := 3, mask := 1, ctxs := [288] }] }

theorem wit_RailsJunctionsAndClocks :
    bitOf (sRail.reg .avsCfg) 0 = true ∧ bitOf (sRail.reg .railStatus 0 4) 28 = false
    ∧ bitOf ((sRail.setRf .railStatus 0 3 28 28 1).reg .railStatus 0 3) 28 = true
    ∧ bitOf ((sRail.setRf .avsCfg 0 0 0 0 0).reg .avsCfg) 0 = false
    ∧ sRail.inReset = false ∧ State.reset.inReset = true ∧ sRail.sbActive = false ∧ sRail.dieLost 3 = false ∧ sRail.jrnlSize ≠ 0 ∧ sRail.jrnlBase / dieRange = 0
    ∧ (∀ p ∈ sRail.placed, p.die = 3 ∧ (sRail.jrec p.slot).kind = 1 ∧ (sRail.jrec p.slot).state = 4)
    ∧ (∀ k, k < 16 → bitOf (sRail.reg .clkFail 0 1) (12 + k) = false)
    ∧ mayStop 46 = true ∧ sRail.domainPowered 46 = true ∧ sRail.domainPowered 43 = true ∧ (sRail.setRf .sbStatus 0 0 11 11 1).domainPowered 42 = false
    ∧ sRail.domainIdle 46 = true ∧ bitOf ((sRail.setRf .clkStopEn 0 1 14 14 1).reg .clkStopEn 0 1) 14 = true
    ∧ bitOf (sRail.reg .clkStatus) 1 = false ∧ mayStop 59 = false := by
  decide +kernel

theorem wit_ResetsAndSnapshots :
    (withInit State.reset (fun i => { i with pwrgd := false })).init.pwrgd = false ∧ State.reset.init.pwrgd = true
    ∧ State.reset.tap.drive = false ∧ sRail.tap.drive = false ∧ sRail.inReset = false ∧ sRail.sbActive = false ∧ sRail.dieLost 3 = false
    ∧ bitOf (State.reset.reg .snapStatus) 1 = false ∧ bitOf ((State.reset.setRf .snapStatus 0 0 1 1 1).reg .snapStatus) 1 = true
    ∧ (∀ d, d < 4 → granOf (State.reset.rf .hbmMap d 0 2 0) = granOf 3)
    ∧ (let s := { withTime sRail 400 with snapAt := some 100 }; s.snapAt = some 100 ∧ 100 ≤ s.time / 4 ∧ (s.regs.map (fun e => e.1)).Nodup)
    ∧ (let s := { withTime sRail 400 with snapAt := some 101 }; s.snapAt = some 101 ∧ s.time / 4 < 101) := by
  decide +kernel

/-! ### Start-up, assays, pewter mode -/

/-- A slot whose sections are `d`; section types to `n` are loaded, in boot state `b`. -/
def sLoad (b n : Nat) (d : List Byte) : State :=
  withInit (sBoot b) (fun i => { i with loaded := n, slots := [{ secs := List.replicate 9 (d.length, sha384 d) }, { reject := 3 }] })

theorem wit_StartUpGoesStepByStep :
    (State.reset.init.pwrgd = true ∧ State.reset.boot = 0 ∧ State.reset.tap.drive = false ∧ State.reset.init.newCause = false)
    ∧ ((sBoot 2).boot = 2 ∧ (sBoot 2).init.newCause = false ∧ bitOf ((sBoot 2).reg .sbStatus) 3 = false
      ∧ bitOf (((sBoot 2).setRf .sbStatus 0 0 3 3 1).reg .sbStatus) 3 = true)
    ∧ ((sBoot 3).boot = 3 ∧ (sBoot 3).init.force = none ∧ (sBoot 3).init.newCause = false)
    ∧ (∀ e ∈ [(4, 0), (5, 2), (6, 8)], (sLoad e.1 e.2 [0]).nextSection = some (e.2 + 1))
    ∧ (∃ len digest, ((sLoad 4 0 []).slot ((sLoad 4 0 []).rf .imgStatus 0 0 0 0)).secs[1 - 1]? = some (len, digest) ∧ digest = sha384 [])
    ∧ (sBoot 3).nextSection = none
    ∧ ((sLoad 4 0 []).init.retried = false ∧ (sLoad 4 0 []).init.force = none ∧ (sLoad 4 0 []).init.loaded = 0
      ∧ ((sLoad 4 0 []).slot (1 - (sLoad 4 0 []).rf .imgStatus 0 0 0 0)).reject ≠ 0
      ∧ ((withInit (sLoad 4 1 []) (fun i => { i with slots := [{}, {}] })).slot (1 - (sLoad 4 1 []).rf .imgStatus 0 0 0 0)).reject = 0)
    ∧ ((withInit (sBoot 6) (fun i => { i with recs := [{ kind := 1, addr := 0 }], loaded := 3 })).init.recs = { kind := 1, addr := 0 } :: [])
    ∧ ((sLoad 5 3 []).boot = 5 ∧ (sLoad 5 3 []).init.loaded = 3 ∧ (sLoad 5 3 []).init.newCause = false)
    ∧ ((sBoot 7).boot = 7 ∧ (sBoot 7).init.newCause = false ∧ ((sBoot 7).cores.map (fun e => e.1)).Nodup ∧ (sBoot 7).dieLost (dieOf 95) = false)
    ∧ ((sBoot 6).boot ≠ 7 ∧ (sBoot 6).assay.whole = false)
    ∧ ((sBoot 8).boot = 8 ∧ (sBoot 9).boot = 9 ∧ (sBoot 8).init.newCause = false ∧ (sBoot 9).init.newCause = false)
    ∧ ((withInit (sBoot 10) (fun i => { i with recovered := true })).boot = 10 ∧ (sBoot 10).init.recovered = false
      ∧ (sBoot 10).rf .sbStatus 0 0 5 0 = 0 ∧ bitOf ((sBoot 10).reg .hmPolicy) 0 = true ∧ (sBoot 10).jrnlSize = 0
      ∧ ((sBoot 10).setRf .jrnlSize 0 0 11 0 1).jrnlSize ≠ 0
      ∧ bitOf (((sBoot 10).setRf .hmPolicy 0 0 0 0 0).reg .hmPolicy) 0 = false) := by
  refine ⟨by decide +kernel, by decide +kernel, by decide +kernel, by decide +kernel, ⟨_, _, rfl, rfl⟩, by decide +kernel, by decide +kernel,
    by decide +kernel, by decide +kernel, by decide +kernel, by decide +kernel, by decide +kernel, by decide +kernel⟩

/-- Core 95 under assay, ASSAY in the current table. -/
def sAssay (testing : Bool) (x : CtxSt) : State :=
  let s := withCtx State.reset 95 3 (fun y => { y with st := x })
  { s with assay := { core := some 95, pre := if testing then [383] else [], testing := testing }
           plcActive := { cores := [(95, 3)] } }

theorem wit_AssaysOnRequest :
    (State.reset.sbActive = false ∧ (sBoot 13).serviceOpen = false ∧ (sBoot 13).boot = 13 ∧ State.reset.boot ≠ 13 ∧ State.reset.boot ≠ 14)
    ∧ (sAssay false .idle).assayRefused 95 = true ∧ State.reset.assayRefused 95 = false ∧ State.reset.assay.core = none
    ∧ State.reset.assay.queue = []
    ∧ ((sAssay false .idle).assayRefused 94 = false ∧ (sAssay false .idle).assay.core = some 95)
    ∧ (Tab.get 0 (sAssay false .running).plcActive.cores 95 = 3 ∧ ((sAssay false .running).context 95 3).st = .running)
    ∧ (∀ x, x < 4 → ((sAssay false .idle).context 95 x).st ≠ .running ∧ ((sAssay false .idle).context 95 x).st ≠ .preempting)
    ∧ (let s := sAssay true .preempted;
      s.assay.core = some 95 ∧ s.assay.testing = true ∧ s.assay.queue = [] ∧ s.decState ≠ 2 ∧ (∀ a ∈ s.assay.pre, a / 4 = 95)
      ∧ (s.core 95).q = [] ∧ 4 * 95 + 3 ∈ s.assay.pre ∧ (s.context 95 3).st = .preempted ∧ ¬ (95 % 24 = 0)) := by
  decide +kernel

/-- Pewter permitted, service open; bits of PW_STATE. -/
def sPw (bits : Nat) : State :=
  { ((sSvc.setRf .svcStatus 0 0 2 2 1).setRf .hmPolicy 0 0 2 2 1).setReg .pwState 0 0 (BitVec.ofNat 32 bits) with
    plcActive := { cores := [(72, 2)] } }

/-- A pewter job accepted for die 3, waiting or running: one input, `ng` gates, one output. -/
def sPwJob (bits ng : Nat) (running : Bool) : State :=
  let s := withRec (sPw bits) { session := 5, kind := 1, state := if running then 4 else 3, job := 7, body := 0x1800000, bodyLen := 4096 }
  { s with mem := cells 0x1800040 ([0, 0, 0, 1, 0, 0, 0, BitVec.ofNat 8 ng, 0, 0, 0, 1] ++ List.replicate 52 0 ++ natBE 8 (1 * 2 ^ 60))
           pwq := if running then [] else [(3, [0])], pwJobs := if running then [(3, { slot := 0 })] else [] }

theorem wit_PewterMode :
    (State.reset.enterRefused 3 = true ∧ (sPw 0).enterRefused 3 = false ∧ bitOf ((sPw 0).reg .pwState) 11 = false
      ∧ bitOf ((sPw 0).reg .pwState) 3 = false ∧ (sPw 0).inAssay 72 = false)
    ∧ (bitOf ((sPw 8).reg .pwState) 3 = true ∧ bitOf ((sPw 0x800).reg .pwState) 11 = true ∧ bitOf ((sPw 0x800).reg .pwState) 7 = false
      ∧ bitOf ((sPw 0x880).reg .pwState) 7 = true)
    ∧ (Tab.get 0 (sPw 8).plcActive.cores 72 = 2 ∧ (sPw 8).pwDrained 72 = true
      ∧ ((sPw 8).setRf .winCfg 72 15 31 31 1).pwDrained 72 = false)
    ∧ ((sPw 0).pwStage = none ∧ { sPw 0 with pwStage := some (0, 2 ^ 3) }.pwStage = some (0, 2 ^ 3))
    ∧ (let s := sPwJob 0x800 1 false;
      Tab.get [] s.pwq 3 = 0 :: [] ∧ bitOf (s.reg .pwState) 11 = true ∧ bitOf (s.reg .pwState) 7 = false ∧ ¬ 3 ∈ s.pwLeaving
      ∧ s.noDispatch = false ∧ (s.jrec 0).state = 3 ∧ (s.jrec 0).job < 2 ^ 32 ∧ s.jrnlBase + jrnlRecordArea ≤ (s.pwBody (s.jrec 0)).ins
      ∧ (s.pwBody (s.jrec 0)).nin = 1)
    ∧ (∀ ng ∈ [1, 2],
      let s := sPwJob 0x880 ng true;
      Tab.find? s.pwJobs 3 = some { slot := 0 } ∧ s.badpar = [] ∧ (0 + 1 = (s.pwBody (s.jrec 0)).ngate ↔ ng = 1)
      ∧ (s.jrec 0).body + 128 ≤ 0x9000000000 ∧ (s.pwBody (s.jrec 0)).outs + 4 * (s.pwBody (s.jrec 0)).nout ≤ 0x9000000000
      ∧ (∀ r ∈ s.ts.queue, r.isHash = true) ∧ (∀ c, c < 96 → bitOf (s.reg .spInject c) 8 = false)
      ∧ (s.bodyAlloc (3072 * (s.pwBody (s.jrec 0)).nout + 162)).isSome = true)
    ∧ Tab.find? (sPw 0x800).pwJobs 3 = none := by
  decide +kernel

/-! ### Decisions, the strongbox state, the event router -/

def dec (a : Nat) : Decision := ⟨a, if a ≤ 3 then 5 else 0, if a ≤ 3 then 7 else 0, if 4 ≤ a ∧ a ≤ 8 then 95 else 0, if 4 ≤ a ∧ a ≤ 6 then 3 else 0, 0, 0⟩
def decSt (s : State) (st : Nat) : State := s.setRf .decStatus 0 0 2 0 st
/-- Decision `a` on unit 95 waits for its answer. -/
def sDec (a : Nat) (s : State) : State :=
  ((decSt s 1).setReg .decAct 0 0 (BitVec.ofNat 32 (a * 2 ^ 28))).setReg .decTgt 0 0 (BitVec.ofNat 32 (95 * 2 ^ 8))
/-- A job that can be decided on, in a state, no partner. -/
def sJob (st : Nat) : State := sWit 0 [(0, { session := 5, kind := 1, state := st, job := 7, body := 0x1800000, bodyLen := 64, confirmed := true })]
def sSb : State := (State.reset.setRf .sbStatus 0 0 31 31 1).setRf .bootStatus 0 0 3 0 15
def modeM (s : State) (c : Nat) : State := s.setRf .coreMode c 0 0 0 1

theorem fits_of {d : Decision} (h : (decide (d.session < 2 ^ 24) && decide (d.job < 2 ^ 32) && decide (d.unit < 256) && decide (d.ctx < 4)
    && decide (d.status < 256) && decide (d.addr < 2 ^ 40) && decide (d.addr % 32 = 0)) = true) : d.fits := by
  simp only [Bool.and_eq_true, decide_eq_true_eq] at h
  obtain ⟨⟨⟨⟨⟨⟨h1, h2⟩, h3⟩, h4⟩, h5⟩, h6⟩, h7⟩ := h
  exact ⟨h1, h2, h3, h4, h5, h6, h7⟩

theorem wit_DecisionsAreMadeAndExecuted :
    ((∀ a ∈ [1, 2, 3, 4, 5, 6, 7, 8, 9], (dec a).fits) ∧ (∀ a, 1 ≤ a → a ≤ 9 → (dec a).targetOk = true) ∧ State.reset.decBusy = false
      ∧ (decSt State.reset 1).decBusy = true ∧ ({ dec 7 with unit := 0x64 } : Decision).targetOk = false ∧ sSb.sbActive = true)
    ∧ (∀ st ∈ [3, 4, 6], (sJob st).grants
      ∧ (sJob st).findRec (fun r => (r.origin == 0 || ((sJob st).session r.session).taken) && r.kind == 1 && r.session == 5 && r.job == 7
        && (r.state == 3 || r.state == 4 || r.state == 6)) = some 0
      ∧ (∀ p ∈ (sJob st).placed, p.slot ≠ 0) ∧ (sJob st).pwJobs = [] ∧ bitOf (((sJob st).setRf .plcCtrl 0 0 0 0 0).reg .plcCtrl) 0 = false
      ∧ ((sJob st).jrec 0).confirmed = true
      ∧ (∀ e ∈ (sJob st).journal, e.1 < 65536) ∧ ((sJob st).bodyAlloc 162).isSome = true ∧ (∀ r ∈ (sJob st).ts.queue, r.isHash = true)
      ∧ (∀ e ∈ (sJob st).journal, e.2.session = 5 → e.2.confirmed = true → e.2.state ≠ 1 ∧ e.2.state ≠ 2))
    ∧ (let s : State := { withCtx (sJob 4) 95 3 (fun y => { y with st := .running }) with placed := [{ slot := 0, die := 3, mask := 2 ^ 23, ctxs := [383] }] };
      s.grants ∧ (s.context 95 3).st = .running ∧ s.placed = [{ slot := 0, die := 3, mask := 2 ^ 23, ctxs := [4 * 95 + 3] }])
    ∧ (sWit 0 []).grants
    ∧ (let s := modeM (sWit 3 []) 95; s.grants ∧ s.modeM 95 = true ∧ s.assay.core ≠ some 95 ∧ (s.context 95 3).st = .idle ∧ (s.core 95).pewter = false)
    ∧ (sDec 7 State.reset).decState = 1 ∧ (sDec 7 State.reset).decision.action = 7 ∧ (sDec 7 State.reset).decision.unit = 95
    ∧ (sDec 9 sSb).decState = 1 ∧ (sDec 9 sSb).decision.action = 9 ∧ (sDec 9 sSb).sbActive = true ∧ bitOf ((sDec 9 sSb).reg .sbStatus) 30 = false
    ∧ (let s := withTime (sDec 7 State.reset) (2 ^ 40); s.decAt + s.rf .witTimers 0 0 23 16 * 400000 ≤ s.time) := by
  refine ⟨⟨fun a h => fits_of (by revert h; revert a; decide +kernel), ?_, by decide +kernel, by decide +kernel, by decide +kernel,
    by decide +kernel⟩, ?_, ⟨⟨by decide +kernel, by decide +kernel, by decide +kernel⟩, by decide +kernel, by decide +kernel⟩,
    ⟨by decide +kernel, by decide +kernel, by decide +kernel⟩, ⟨⟨by decide +kernel, by decide +kernel, by decide +kernel⟩, by decide +kernel⟩, ?_⟩
  · intro a h1 h2
    have h : ∀ a ∈ [1, 2, 3, 4, 5, 6, 7, 8, 9], (dec a).targetOk = true := by decide +kernel
    exact h a (by simp only [List.mem_cons, List.not_mem_nil, or_false]; omega)
  · intro st h
    simp only [List.mem_cons, List.not_mem_nil, or_false] at h
    rcases h with rfl | rfl | rfl
    all_goals exact ⟨⟨by decide +kernel, by decide +kernel, by decide +kernel⟩, by decide +kernel⟩
  · and_intros <;> decide +kernel

/-- The strongbox state with a partner and a journal. -/
def sCust : State := (sWit 2 []).setRf .sbStatus 0 0 31 31 1

theorem wit_ConcurrenceAndTheStrongbox :
    ((withSessions (sWit 2 []) [(6000, { taken := true })]).session 6000).taken = true ∧ ((sWit 2 []).session 5).taken = false
    ∧ (sWit 2 []).mirrorOf 5 7 = none ∧ (sWit 2 [(0, recM 3)]).mirrorOf 6000 7 = some 0 ∧ ((sWit 2 [(0, recM 3)]).session 6000).taken = false
    ∧ (let s := sBoot 11; 11 ≤ s.boot ∧ s.sbActive = false)
    ∧ (let s := sCust;
      s.sbActive = true ∧ bitOf (s.reg .sbStatus) 29 = false ∧ bitOf (s.reg .sbStatus) 3 = false
      ∧ s.rf .thermStatus (s.stackOf s.jrnlBase) 0 15 8 ≤ s.rf .thermCfg (s.stackOf s.jrnlBase) 0 7 0
      ∧ bitOf (s.reg .clkStatus) 1 = false ∧ s.paired = true ∧ ∀ r ∈ s.ts.queue, r.isHash = true)
    ∧ ((sWit 3 []).setRf .sbStatus 0 0 31 31 1).paired = false
    ∧ State.reset.sbActive = false ∧ State.reset.dieLost 3 = false := by
  decide +kernel

def ev (cls unit : Nat) : Event := { code := 0x0101, cls := cls, unit := unit }
def withRouter (s : State) (r : Router) : State := { s with router := r }
/-- The ring configured, records waiting. -/
def sRing (r : Router) : State := { withRouter State.reset r with based := [regAddr .evRingBase] }
def win0 : LogWin := { code := 0x0101, unit := 95, opened := 0, passed := 1, suppressed := 1, first := some (ev 2 95) }

theorem wit_EventsAreRoutedAndAcknowledged :
    (∀ c ∈ [0, 1, 2, 3],
      let s := sRing { q := [ev c 95], slotNo := 18 };
      s.ringReady = true ∧ s.router.early = [] ∧ s.router.q = ev c 95 :: [] ∧ s.router.reserved = [] ∧ s.router.slotNo < 19 ∧ s.router.hold = []
      ∧ s.router.holdRes = [] ∧ s.heldCount < heldSlots)
    ∧ (let s := sRing { q := [ev 2 3, ev 0 3, ev 0 95], slotNo := 19 };
      s.ringReady = true ∧ s.router.slotNo = 19 ∧ s.router.q[2]? = some (ev 0 95) ∧ (∀ k, k ∈ s.router.q.take 2 → k.unit ≠ (ev 0 95).unit)
      ∧ (∀ j k, j < 2 → s.router.q[j]? = some k → k.cls = 0 → ∃ m ∈ s.router.q.take j, m.unit = k.unit))
    ∧ State.reset.router.q = []
    ∧ (let s := withTime (sRing { wins := [win0] }) (2 ^ 40);
      s.router.wins = win0 :: [] ∧ win0.opened + s.logWindow ≤ s.time ∧ s.router.q = [])
    ∧ (let s := (sRing {}).setRf .evHeldWr 0 0 21 0 4;
      (bits (3 : W32) 24 0 + 2 ^ 22 - s.heldAck) % 2 ^ 22 ≤ s.heldCount ∧ s.heldCount < (bits (5 : W32) 24 0 + 2 ^ 22 - s.heldAck) % 2 ^ 22)
    ∧ (let s := (sRing { hold := [ev 0 95] }).setRf .evHeldWr 0 0 21 0 heldSlots;
      (bits (1 : W32) 24 0 + 2 ^ 22 - s.heldAck) % 2 ^ 22 ≤ s.heldCount ∧ s.router.hold = [ev 0 95] ∧ s.router.holdRes = []
      ∧ (s.heldWr + 2 ^ 22 - bits (1 : W32) 24 0) % 2 ^ 22 < heldSlots)
    ∧ (let s := sRing { mgmtWait := [ev 0 95], mgmt := List.replicate 256 (ev 1 3) };
      s.router.mgmtWait = ev 0 95 :: [] ∧ s.router.mgmt.length ≤ 256 ∧ 0 < s.router.mgmt.length)
    ∧ (let s := ((sRing { supBatch := [(3, [ev 0 95])] }).setReg .evSup 0 3 0x80000001).setRf .evHeldWr 0 0 21 0 4;
      bitOf (s.reg .evSup 0 3) 31 = true ∧ Tab.get [] s.router.supBatch 3 = ev 0 95 :: []
      ∧ (4 + 2 ^ 22 - s.supPos 3) % 2 ^ 22 ≤ (s.heldWr + 2 ^ 22 - s.supPos 3) % 2 ^ 22)
    ∧ bitOf (State.reset.reg .evSup 0 3) 31 = false
    ∧ (let s := { (sRing { mgmt := [ev 3 1, ev 0 95] }).setRf .mgmtStatus 0 0 0 0 1 with enec := true };
      s.router.mgmt = [ev 3 1] ++ ev 0 95 :: [] ∧ s.ibiFor (ev 0 95).cls = true ∧ (∀ k ∈ [ev 3 1], s.ibiFor k.cls = false)) := by
  refine ⟨by decide +kernel, ⟨by decide +kernel, by decide +kernel, by decide +kernel, by decide +kernel, ?_⟩, by decide +kernel, by decide +kernel,
    by decide +kernel, by decide +kernel, by decide +kernel, by decide +kernel, by decide +kernel, by decide +kernel⟩
  intro j k hj hk hc
  have h : j = 0 ∨ j = 1 := by omega
  rcases h with rfl | rfl
  · have e : k = ev 2 3 := (Option.some.inj hk).symm
    subst e
    exact absurd hc (by decide)
  · have e : k = ev 0 3 := (Option.some.inj hk).symm
    subst e
    exact ⟨ev 2 3, by decide +kernel, rfl⟩

/-! ### The register interface, the management port, the test access port -/

def key (r : RegName) (i x : Nat) : RegKey := ⟨r, i, x⟩

def regOnB (s : State) (k : RegKey) : Bool :=
  decide (blockAt k.addr = some (k.reg.block, k.inst)) && decide (regAt k.reg.block k.inst (k.addr % 0x10000) = some k)
    && decide (k.addr % 0x10000 < 0xFFF0) && s.powered k.reg.block k.inst
    && decide (s.rf .clkRun 0 (k.reg.block.domain k.inst / 32) (k.reg.block.domain k.inst % 32) (k.reg.block.domain k.inst % 32) ≠ 0)

theorem regOn_of {s : State} {k : RegKey} (h : regOnB s k = true) : s.RegOn k k.addr := by
  simp only [regOnB, Bool.and_eq_true, decide_eq_true_eq] at h
  obtain ⟨⟨⟨⟨h1, h2⟩, h3⟩, h4⟩, h5⟩ := h
  exact ⟨h1, h2, rfl, h3, h4, h5⟩

theorem plain_scratch (v : Nat) : PlainFor (key .scratch 0 0) v := ⟨fun _ _ _ => rfl, by decide +kernel, rfl⟩
theorem plain_recalCfg : PlainFor (key .recalCfg 11 0) 0x105 := ⟨fun _ _ _ => rfl, by decide +kernel, by decide +kernel⟩
theorem plain_aliveCfg : PlainFor (key .aliveCfg 0 0) 20 := ⟨fun _ _ _ => rfl, by decide +kernel, by decide +kernel⟩
theorem plain_clkSpread : PlainFor (key .clkSpread 0 0) 1 := ⟨fun _ _ _ => rfl, by decide +kernel, by decide +kernel⟩

def withHub (s : State) (a : Nat) (h : HubBlock) : State := s.modHub a (fun _ => h)
def pairOf (k : RegKey) (v : Nat) : PairPend := { addr := k.addr, value := v, req := 0, at_ := 0, byHm := false }

theorem wit_RegisterWritesCrossTheHub :
    (let s := State.reset
      let k := key .scratch 0 0;
      s.RegOn k k.addr ∧ PlainFor k 0xFFFFFFFF ∧ (s.hubAt k.addr).pair = none ∧ (s.hubAt k.addr).post = none ∧ s.keyed k = false
      ∧ k.reg.pairTyped = false ∧ s.pairByHm k = false ∧ k.reg.block.posted = false)
    ∧ (let s := State.reset
      let k := key .recalCfg 11 0;
      s.RegOn k k.addr ∧ PlainFor k 0x105 ∧ s.keyed k = false ∧ k.reg.pairTyped = false ∧ s.pairByHm k = false ∧ k.reg.block.posted = true)
    ∧ (let k := key .aliveCfg 0 0
      let s := withHub State.reset k.addr { keys := [5] };
      s.RegOn k k.addr ∧ PlainFor k 20 ∧ (s.hubAt k.addr).pair = none ∧ (s.hubAt k.addr).post = none ∧ s.keyed k = true
      ∧ 5 ∈ (s.hubAt k.addr).keys ∧ ¬ 0 ∈ (s.hubAt k.addr).keys ∧ k.reg.pairTyped = false ∧ s.pairByHm k = false ∧ k.reg.block.posted = false)
    ∧ (let s := State.reset
      let k := key .clkSpread 0 0;
      s.RegOn k k.addr ∧ PlainFor k 1 ∧ (s.hubAt k.addr).pair = none ∧ s.keyed k = false ∧ k.reg.pairTyped = true)
    ∧ (let k := key .recalCfg 11 0
      let s := withHub State.reset k.addr { post := some ⟨k.addr, 0, 0⟩ };
      s.RegOn k k.addr ∧ (s.hubAt k.addr).pair = none ∧ (s.hubAt k.addr).post.isSome = true)
    ∧ (let k := key .lsCount 0 0;
      State.reset.RegOn k k.addr ∧ State.reset.keyed k = false ∧ k.reg.writeMask ≠ 0 ∧ reservedValue k (BitVec.ofNat 32 0 &&& k.reg.writeMask) = true
      ∧ (State.reset.hubAt k.addr).post = none)
    ∧ (blockAt 3 = none)
    ∧ (let s := State.reset.setRf .sbStatus 0 0 11 11 1
      let a := (key .recalCfg 11 0).addr;
      blockAt a = some (.hbm, 11) ∧ a % 0x10000 < 0xFFF0 ∧ (s.hubAt a).pair = none ∧ s.powered .hbm 11 = false)
    ∧ (let a := (key .scratch 0 0).addr;
      (blockAt a).isSome = true ∧ State.reset.debugMay 2 a = false ∧ (State.reset.setRf .hmPolicy 0 0 5 4 2).mayWrite 2 a ∧ State.reset.mayWrite 0 a)
    ∧ ((State.reset.hubAt (controlBase + 0xFFFC)).pair = none ∧ (blockAt (controlBase + 0xFFFC)).isSome = true)
    ∧ (let k := key .clkSpread 0 0
      let p := pairOf k 1
      let s := withTime (withHub State.reset k.addr { pair := some p }) 64;
      (s.hubAt (controlBase + 2 % 4096 * 0x10000)).pair = some p ∧ p.addr / 0x10000 = (controlBase + 2 % 4096 * 0x10000) / 0x10000
      ∧ s.RegOn k p.addr ∧ PlainFor k p.value ∧ s.time ≤ p.at_ + 64 ∧ blockAt p.compl = some (k.reg.block, k.inst)
      ∧ p.compl / 0x10000 = p.addr / 0x10000 ∧ (p.byHm = false → p.compl % 0x10000 < 0xFFF0) ∧ k.reg.block.posted = false
      ∧ p.req = 0 ∧ p.value < 2 ^ 32)
    ∧ (let k := key .recalCfg 11 0
      let p := pairOf k 1
      let s := withTime (withHub State.reset k.addr { pair := some p }) 64;
      s.RegOn k k.addr ∧ (s.hubAt k.addr).pair = some p ∧ s.time ≤ p.at_ + 64 ∧ p.compl ≠ k.addr)
    ∧ (∀ r ∈ [0, 2, 5], let p := pairOf (key .clkSpread 0 0) 1
      let q : PairPend := { p with req := r }
      let s := withTime (withHub State.reset q.addr { pair := some q }) 65;
      (s.hubAt (controlBase + 2 % 4096 * 0x10000)).pair = some q ∧ q.at_ + 64 < s.time)
    ∧ (let k := key .headerWord 95 4095;
      State.reset.RegOn k k.addr ∧ State.reset.keyed k = false ∧ State.reset.pairByHm k = false ∧ (State.reset.hubAt k.addr).pair = none
      ∧ (State.reset.hubAt k.addr).post = none)
    ∧ (let k := key .recalCfg 11 0
      let b := (k.addr - controlBase) / 0x10000
      let s := withHub State.reset k.addr { post := some ⟨k.addr, 0x105, 0⟩ };
      (s.hubAt (controlBase + b % 4096 * 0x10000)).post = some ⟨k.addr, 0x105, 0⟩ ∧ s.RegOn k k.addr ∧ PlainFor k 0x105 ∧ regOf k.addr = some k) := by
  refine ⟨⟨regOn_of (by decide +kernel), plain_scratch _, by decide +kernel⟩, ⟨regOn_of (by decide +kernel), plain_recalCfg, by decide +kernel⟩,
    ⟨regOn_of (by decide +kernel), plain_aliveCfg, by decide +kernel⟩, ⟨regOn_of (by decide +kernel), plain_clkSpread, by decide +kernel⟩,
    ⟨regOn_of (by decide +kernel), by decide +kernel⟩, ⟨regOn_of (by decide +kernel), by decide +kernel⟩, by decide +kernel, by decide +kernel,
    ⟨by decide +kernel, by decide +kernel, fun _ => by decide +kernel, fun h => by cases h⟩,
    by decide +kernel, ⟨by decide +kernel, by decide +kernel, regOn_of (by decide +kernel), plain_clkSpread, by decide +kernel⟩,
    ⟨regOn_of (by decide +kernel), by decide +kernel⟩, by decide +kernel,
    ⟨regOn_of (by decide +kernel), by decide +kernel⟩,
    ⟨by decide +kernel, regOn_of (by decide +kernel), plain_recalCfg, by decide +kernel⟩⟩

/-- A request with its PEC. -/
def withCheck (cmd : Nat) (bs : List Byte) : List Byte := bs ++ [BitVec.ofNat 8 (crc8 (BitVec.ofNat 8 cmd :: bs))]
/-- The address of the scratch register in a request. -/
def adrBytes : List Byte := natLE 5 (key .scratch 0 0).addr
/-- The management port on, with a dynamic address or without. -/
def sMgmt (dyn : Nat) : State := (State.reset.setRf .clkStatus 0 0 0 0 1).setRf .mgmtStatus 0 0 0 0 dyn

theorem wit_ManagementPortAnswers :
    ((sMgmt 1).mgmtOn = true ∧ pecOk 0x01 5 (withCheck 0x01 adrBytes) = true ∧ reqAddr (withCheck 0x01 adrBytes) = (key .scratch 0 0).addr
      ∧ regOnB (sMgmt 1) (key .scratch 0 0) = true)
    ∧ (pecOk 0x01 5 (withCheck 0x01 [3, 0, 0, 0, 0]) = true ∧ blockAt (reqAddr (withCheck 0x01 [3, 0, 0, 0, 0])) = none)
    ∧ (∀ e ∈ [(1, 5), (2, 9), (3, 13), (4, 13), (5, 17)], pecOk e.1 e.2 [0] = false)
    ∧ (∀ e ∈ [(2, 9), (3, 13), (4, 13), (5, 17)], pecOk e.1 e.2 (withCheck e.1 (adrBytes ++ List.replicate (e.2 - 5) 1)) = true)
    ∧ (pecOk 0x06 0 (withCheck 0x06 []) = true ∧ { sMgmt 1 with resp := some (0, [0]) }.resp = some (0, [0]))
    ∧ (bitOf ((sMgmt 0).reg .mgmtStatus) 0 = false ∧ bitOf ((sMgmt 0).reg .mgmtCfg) 8 = false ∧ (sMgmt 0).mgmtOn = true)
    ∧ bitOf ((sMgmt 1).reg .mgmtStatus) 0 = true ∧ State.reset.mgmtOn = false
    ∧ (let b := fun (r : RegName) => reqAddr (withCheck 0x02 (natLE 5 (key r 0 0).addr ++ [1, 0, 0, 0]));
      (sMgmt 1).opensPair ((sMgmt 1).hubWrite (b .clkSpread) 1 0).1 (b .clkSpread) = true
      ∧ (sMgmt 1).opensPair ((sMgmt 1).hubWrite (b .scratch) 1 0).1 (b .scratch) = false) := by
  decide +kernel

def withTap (s : State) (f : TapState → TapState) : State := { s with tap := f s.tap }

theorem wit_TestAccessPort :
    State.reset.init.resetN = false ∧ (withInit State.reset (fun i => { i with resetN := true })).init.resetN = true
    ∧ (∀ n ∈ [0, 1, 2, 3], (State.reset.setRf .hmPolicy 0 0 5 4 n).debugLevel = n)
    ∧ regOnB (State.reset.setRf .hmPolicy 0 0 5 4 1) (key .scratch 0 0) = true ∧ (blockAt (key .scratch 0 0).addr).isSome = true
    ∧ State.reset.debugWaits = false ∧ (State.reset.setRf .hmPolicy 0 0 5 4 3).debugWaits = false
    ∧ (withHub State.reset 0 { pair := some { pairOf (key .clkSpread 0 0) 1 with req := 2 } }).debugWaits = true
    ∧ (withTap (sRepair 1) (fun t => { t with stack := 11 })).wrapperMay = true
    ∧ bitOf ((withTap (sRepair 1) (fun t => { t with stack := 11 })).reg .mtStatus 11) 3 = true
    ∧ (withTap (sRepair 1) (fun t => { t with stack := 12 })).wrapperMay = false := by
  decide +kernel

/-! ### The block as a whole -/

def withPending (s : State) (l : List Instr) : State := { s with pending := l }

theorem wit_StepRunsTheFrontOfTheQueue :
    (withPending State.reset [.sbEnter, .sbEnter]).pending = .sbEnter :: [.sbEnter] ∧ State.reset.pending = [] := by
  decide +kernel

theorem wit_EveryStepKeepsMemoryCanonical :
    Mem.wf (withPending sXobj [.sbEnter]).mem = true ∧ ∃ t, step (withPending sXobj [.sbEnter]) = .next t := by
  refine ⟨by decide +kernel, _, rfl⟩

theorem wit_StreamCommandsDecodeAndEncode :
    (fSig.sigMode.toNat < 4 ∧ (fSig.sigMode = 0 ∨ fSig.sigDelta ≠ 0) ∧ ¬ (fSig.waitA.cond = 3 ∧ fSig.waitB.cond = 3 ∧ fSig.waitA.ctr = fSig.waitB.ctr))
    ∧ decodeCmd (encodeCmd .hadd fSig) = some (.hadd, fSig)
    ∧ ((3 < ({ sigMode := 4 } : CmdFields).sigMode.toNat) ∨ False)
    ∧ (({ sigMode := 1 } : CmdFields).sigMode ≠ 0 ∧ ({ sigMode := 1 } : CmdFields).sigDelta = 0)
    ∧ (let f : CmdFields := { waitA := ⟨9, 3, 1⟩, waitB := ⟨9, 3, 2⟩ }; f.waitA.cond = 3 ∧ f.waitB.cond = 3 ∧ f.waitA.ctr = f.waitB.ctr) := by
  decide +kernel

theorem wit_RegistersStandWhereTheMapsSay :
    ((key .desc 95 25).exists ∧ (key .lsCount 3 0).exists)
    ∧ blockAt 2 = none
    ∧ (let a := controlBase + 0x8000;
      blockAt a = some (.steward, 0) ∧ a % 0x10000 < 0xFFF0 ∧ regAt .steward 0 (a % 0x10000) = none ∧ State.reset.powered .steward 0 = true
      ∧ State.reset.rf .clkRun 0 (Block.domain .steward 0 / 32) (Block.domain .steward 0 % 32) (Block.domain .steward 0 % 32) ≠ 0
      ∧ (State.reset.hubAt a).pair = none ∧ regAt .steward 0 (a % 0x10000 - 4) = none) := by
  refine ⟨⟨⟨by decide +kernel, by decide +kernel, by decide +kernel, by decide +kernel⟩, ⟨by decide +kernel, by decide +kernel, by decide +kernel,
    by decide +kernel⟩⟩, by decide +kernel, by decide +kernel⟩

theorem wit_WellFormedCommandsAreCarriedOut : wfInstr (.hadd 95 3 fSig) = true := by decide +kernel

/-! ### Lands -/

/-- The counts of 25 R526 over the whole package, and the worked example of R530. -/
theorem test_lands :
    (let n := fun (p : Land → Bool) => ((List.range 96).map (fun i => ((List.range 96).filter (fun c => p (landAt (i + 1) (c + 1)))).length)).sum;
      n (· == .vss) = 4862 ∧ n (· == .vcoreC 2) = 616 ∧ n (· == .vserdes) = 160)
    ∧ landAt 94 61 = .fabric 37 true true ∧ landAt 92 60 = .fabric 37 false false ∧ landAt 94 5 = .service 6 true true
    ∧ landAt 41 41 = .vcoreH ∧ rowCode 94 = "DW" ∧ rowCode 96 = "EA" := by
  decide +kernel

end Sys2Proof.Tests
end

section
/-!
What reset leaves: one rule for each kind of thing the state holds, from the reading of an empty table, and the obligation about it
assembled from them (00 R11, 09 R546, 13 R271).
-/
namespace Sys2Proof.Machine

/-! ### Empty tables -/

@[simp] theorem Tab.find?_nil {α : Type} (j : Nat) : Tab.find? ([] : Tab α) j = none := rfl

@[simp] theorem Tab.get_nil {α : Type} (d : α) (j : Nat) : Tab.get d [] j = d := rfl

@[simp] theorem Mem.get?_nil (a : Nat) : Mem.get? [] a = memDefault a := rfl

@[simp] theorem Mem.wf_nil : Mem.wf [] = true := rfl

/-! ### Parts as they stand before anything is written to them -/

@[simp] theorem Core.context_default (x : Nat) : ({} : Core).context x = {} := Tab.get_nil _ _

@[simp] theorem Core.drawer_default (d : Nat) : ({} : Core).drawer d = {} := Tab.get_nil _ _

@[simp] theorem Core.counter_default (n : Nat) : ({} : Core).counter n = 0 := Tab.get_nil _ _

theorem Ctx.reg_default (r : Nat) : ({} : Ctx).reg r = 0 := Tab.get_nil _ _

/-! ### The state after reset -/

@[simp] theorem State.reset_mem : State.reset.mem = [] := rfl

@[simp] theorem State.reset_core (c : Nat) : State.reset.core c = {} := Tab.get_nil _ _

@[simp] theorem State.reset_bar (b : Nat) : State.reset.bar b = {} := Tab.get_nil _ _

@[simp] theorem State.reset_ctr (n : Nat) : State.reset.ctr n = {} := Tab.get_nil _ _

@[simp] theorem State.reset_context (c x : Nat) : State.reset.context c x = {} := by
  rw [State.context, State.reset_core, Core.context_default]

@[simp] theorem State.reset_regK (k : RegKey) : State.reset.regK k = k.reset := Tab.get_nil _ _

@[simp] theorem State.reset_reg (r : RegName) (i x : Nat) : State.reset.reg r i x = RegKey.reset ⟨r, i, x⟩ :=
  State.reset_regK _

/-- The scratchpads are zero (09 R546). -/
theorem State.reset_readByte_of_not_inHbm {a : Nat} (h : inHbm a = false) : State.reset.readByte a = 0 := by
  simp [State.readByte, memDefault, h]

/-- Stacked memory has no defined contents (13 R271). -/
theorem State.reset_readByte_of_inHbm {a : Nat} (h : inHbm a = true) : State.reset.readByte a = Config.freeByte a := by
  simp [State.readByte, memDefault, h]

/-- Every core is in mode S: CORE_MODE.MODE resets to 0 (10 R204, R235). -/
@[simp] theorem State.reset_modeM (c : Nat) : State.reset.modeM c = false := by
  have hword : RegKey.reset ⟨.coreMode, c, 0⟩ = 0 := rfl
  simp [State.modeM, hword, bitOf]

/-! ### Reset words named in the maps -/

theorem RegKey.reset_lossScale (i : Nat) : RegKey.reset ⟨.lossScale, i, 0⟩ = 0x00180010 := rfl

theorem RegKey.reset_lsCount (i : Nat) : RegKey.reset ⟨.lsCount, i, 0⟩ = 0x07D00000 := rfl

theorem RegKey.reset_clkRun_one (i : Nat) : RegKey.reset ⟨.clkRun, i, 1⟩ = 0x0FFFFFFF := rfl

theorem RegKey.reset_railLimit_four (i : Nat) : RegKey.reset ⟨.railLimit, i, 4⟩ = 0x032002BC := rfl

/-! ### The obligation -/

/-- Settles O56: every part of the state reads as an empty table or an unwritten record does, and a register as its map's reset word. -/
theorem resetLeavesResetValues : Obligations.ResetLeavesResetValues := by
  unfold Obligations.ResetLeavesResetValues
  have hctx (c x : Nat) : (State.reset.context c x).st = .idle ∧ (State.reset.context c x).pc = 0
      ∧ (∀ r, (State.reset.context c x).reg r = 0) ∧ (State.reset.context c x).p = 0 := by
    rw [State.reset_context]
    exact ⟨rfl, rfl, Ctx.reg_default, rfl⟩
  have hdrawer (c d : Nat) : ((State.reset.core c).drawer d).tag = .empty ∧ ((State.reset.core c).drawer d).claim = false := by
    simp
  have hcounter (c n : Nat) : (State.reset.core c).counter n = 0 := by simp
  have hsync (k : Nat) : State.reset.bar k = {} ∧ State.reset.ctr k = {} := ⟨State.reset_bar k, State.reset_ctr k⟩
  have hcore (c : Nat) : State.reset.modeM c = false ∧ (State.reset.core c).q = [] := by simp
  have hboot : State.reset.boot = 0 := rfl
  exact ⟨rfl, hboot, Mem.wf_nil, fun _ => State.reset_readByte_of_not_inHbm, fun _ => State.reset_readByte_of_inHbm,
    State.reset_regK, hctx, hdrawer, hcounter, hsync, hcore, rfl, rfl, rfl, rfl, rfl, RegKey.reset_lossScale 0,
    RegKey.reset_lsCount 0, RegKey.reset_clkRun_one 0, RegKey.reset_railLimit_four 0⟩

end Sys2Proof.Machine
end

section
/-!
What raising an event changes, and a refused register access (19 R410 to R414; 22 R490 to R492).
-/
namespace Sys2Proof.Machine

/-! ### Raising an event -/

theorem State.find?_setReg_ne (s : State) (r : RegName) (i x : Nat) (v : W32) {a : Nat} (h : a ≠ RegKey.addr ⟨r, i, x⟩) :
    Tab.find? (s.setReg r i x v).regs a = Tab.find? s.regs a := Tab.find?_set_ne _ _ _ h

theorem State.eventsOnly.trans {s t u : State} (h : s.eventsOnly t) (g : t.eventsOnly u) : s.eventsOnly u := by
  refine ⟨?_, fun a ha => (g.2 a ha).trans (h.2 a ha)⟩
  have h1 := h.1
  rw [← g.1] at h1
  exact h1

/-- A part of the state that events do not change. -/
theorem State.eventsOnly.get {α : Type} {s t : State} (h : s.eventsOnly t) (g : State → α)
    (hg : ∀ u r v, g { u with router := r, regs := v } = g u) : g t = g s := by
  rw [← hg t s.router s.regs]
  exact congrArg g h.1

theorem State.eventsOnly_router (s : State) (r : Router) : s.eventsOnly { s with router := r } := ⟨rfl, fun _ _ => rfl⟩

/-- The counters of events. -/
def eventCounters : List RegName := [.alarmCoalesced, .errorCoalesced, .traceDrop, .logDrop, .logSuppressed]

theorem State.eventsOnly_countReg (s : State) {r : RegName} (hr : r ∈ eventCounters) (n : Nat) : s.eventsOnly (s.countReg r 0 0 n) :=
  ⟨rfl, fun _ ha => s.find?_setReg_ne r 0 0 _ fun e => ha ⟨r, hr, e⟩⟩

theorem State.eventsOnly_countCoalesced (s : State) (e : Event) : s.eventsOnly (s.countCoalesced e) := by
  unfold State.countCoalesced
  split
  · exact s.eventsOnly_countReg (by decide) 1
  · exact s.eventsOnly_countReg (by decide) 1

/-- Putting a record into the router's queue changes the router and the counters of what was coalesced or dropped. -/
theorem State.enqueueEvent_eventsOnly (s : State) (e : Event) : s.eventsOnly (s.enqueueEvent e) := by
  have hr := s.eventsOnly_router
  unfold State.enqueueEvent
  dsimp only
  split
  · split
    · exact (hr _).trans (State.eventsOnly_countCoalesced _ e)
    · exact hr _
  split
  · exact hr _
  split
  · split
    · exact (hr _).trans (State.eventsOnly_countReg _ (by decide) 1)
    split
    · exact (hr _).trans (State.eventsOnly_countReg _ (by decide) 1)
    · exact (hr _).trans (State.eventsOnly_countCoalesced _ e)
  · split
    · exact s.eventsOnly_countReg (by decide) 1
    · exact s.eventsOnly_countReg (by decide) 1

/-- Raising an event changes the router and the event counters (19 R410 to R414). -/
theorem State.raise_eventsOnly (s : State) (e : Event) : s.eventsOnly (s.raise e) := by
  have hr := s.eventsOnly_router
  unfold State.raise
  dsimp only
  split
  · split
    · exact s.enqueueEvent_eventsOnly _
    · exact s.eventsOnly_countReg (by decide) 1
  split
  · split
    · exact (hr _).trans (State.enqueueEvent_eventsOnly _ _)
    split
    · exact (hr _).trans (State.enqueueEvent_eventsOnly _ _)
    · exact (hr _).trans (State.eventsOnly_countReg _ (by decide) 1)
  · exact s.enqueueEvent_eventsOnly _

theorem State.eventsOnly.reg_eq {s t : State} (h : s.eventsOnly t) {r : RegName} {i x : Nat} (hr : ¬ eventCounter (RegKey.addr ⟨r, i, x⟩)) :
    t.reg r i x = s.reg r i x := State.regK_congr (h.2 _ hr)

/-! ### A refused access -/

theorem regRefused_not_eventCounter : ¬ eventCounter (RegKey.addr ⟨.regRefused, 0, 0⟩) := by
  rintro ⟨r, hr, h⟩
  fin_cases hr <;> exact absurd h (by decide)

theorem State.reg_setReg_ne (s : State) {r r' : RegName} {i i' x x' : Nat} (v : W32)
    (h : RegKey.addr ⟨r', i', x'⟩ ≠ RegKey.addr ⟨r, i, x⟩) : (s.setReg r i x v).reg r' i' x' = s.reg r' i' x' :=
  State.regK_setRegK_ne s v h

theorem State.countReg_toNat (s : State) (r : RegName) (i x : Nat) :
    ((s.countReg r i x 1).reg r i x).toNat = min (2 ^ 32 - 1) ((s.reg r i x).toNat + 1) := by
  have h := (s.reg r i x).isLt
  rw [State.countReg, State.reg_setReg, satAdd, BitVec.toNat_ofNat]
  split <;> omega

/-- `t` differs from `s` in registers, and in those at given addresses only. -/
def State.regsOnly (s t : State) (as : List Nat) : Prop :=
  { t with regs := s.regs } = s ∧ ∀ a, ¬ a ∈ as → Tab.find? t.regs a = Tab.find? s.regs a

theorem State.setReg_regsOnly (s : State) (r : RegName) (i x : Nat) (v : W32) : s.regsOnly (s.setReg r i x v) [adr r i x] :=
  ⟨rfl, fun _ ha => s.find?_setReg_ne r i x v fun e => ha (List.mem_singleton.2 e)⟩

theorem State.regsOnly.trans {s t u : State} {as bs : List Nat} (h : s.regsOnly t as) (g : t.regsOnly u bs) : s.regsOnly u (as ++ bs) := by
  refine ⟨?_, fun a ha => ?_⟩
  · have h1 := h.1
    rw [← g.1] at h1
    exact h1
  · rw [List.mem_append, not_or] at ha
    rw [g.2 a ha.2, h.2 a ha.1]

/-- The record of a refusal is in three registers (22 R490, R492). -/
theorem State.noteRefusal_regsOnly (s : State) (addr req st reason : Nat) :
    s.regsOnly (s.noteRefusal addr req st reason) ([adr .regLastLo 0 0] ++ [adr .regLastHi 0 0] ++ [adr .regRefused 0 0]) :=
  ((State.setReg_regsOnly _ _ _ _ _).trans (State.setReg_regsOnly _ _ _ _ _)).trans (State.setReg_regsOnly _ _ _ _ _)

/-- REG_REFUSED counts it. -/
theorem State.noteRefusal_count (s : State) (addr req st reason : Nat) :
    ((s.noteRefusal addr req st reason).reg .regRefused).toNat = min (2 ^ 32 - 1) ((s.reg .regRefused).toNat + 1) := by
  unfold State.noteRefusal State.noteLast
  rw [State.countReg_toNat, State.reg_setReg_ne _ _ (by decide), State.reg_setReg_ne _ _ (by decide)]

theorem refusalRecord_of_mem {a : Nat} (h : a ∈ [adr .regLastLo 0 0] ++ [adr .regLastHi 0 0] ++ [adr .regRefused 0 0]) : refusalRecord a := by
  simp only [List.mem_append, List.mem_singleton] at h
  rcases h with (h | h) | h
  · exact ⟨_, by decide, h⟩
  · exact ⟨_, by decide, h⟩
  · exact ⟨_, by decide, h⟩

theorem State.reg_withRegSt (s : State) (n : Nat) (r : RegName) (i x : Nat) : State.reg { s with regSt := n } r i x = s.reg r i x := rfl

theorem State.refuse_refusedOnly (s : State) (addr req reason : Nat) : s.refusedOnly (s.refuse addr req stRefused reason) := by
  obtain ⟨hrest, hregs⟩ := s.noteRefusal_regsOnly addr req stRefused reason
  have hcount := s.noteRefusal_count addr req stRefused reason
  unfold State.refuse State.regEvent
  generalize s.noteRefusal addr req stRefused reason = u at hcount hregs hrest
  generalize Event.mk .. = e
  have hev : State.eventsOnly { u with regSt := stRefused } (State.raise { u with regSt := stRefused } e) := State.raise_eventsOnly _ _
  refine ⟨?_, hev.get State.regSt fun _ _ _ => rfl, ?_, fun a he hr => (hev.2 a he).trans (hregs a fun h => hr (refusalRecord_of_mem h))⟩
  · refine (hev.get (fun t => { t with router := s.router, regs := s.regs, regSt := s.regSt, hub := s.hub }) fun _ _ _ => rfl).trans ?_
    exact congrArg (fun t : State => { t with router := s.router, regs := s.regs, regSt := s.regSt, hub := s.hub }) hrest
  · rw [hev.reg_eq regRefused_not_eventCounter, State.reg_withRegSt, hcount]

/-- The late flag of a posted block is no part of what a refusal is judged by. -/
theorem State.refusedOnly.modHub {s t : State} (h : s.refusedOnly t) (addr : Nat) (g : HubBlock → HubBlock) :
    s.refusedOnly (t.modHub addr g) := h

/-- A write refused by a rule of its chapter changes what a refusal changes and nothing else. -/
theorem State.refuseState_refusedOnly (s : State) (r : RegName) (i x req reason : Nat) : s.refusedOnly (s.refuseState r i x req reason) := by
  unfold State.refuseState
  dsimp only
  split
  · exact (s.refuse_refusedOnly _ _ _).modHub _ _
  · exact s.refuse_refusedOnly _ _ _

end Sys2Proof.Machine
end

section
/-!
Stores of hub units to stacked memory, and the diagonals a built table's Anneal sets leave there (05 R108).
-/
namespace Sys2Proof.Machine

/-! ### Stores of a hub unit -/

/-- `t` differs from `s` by what a store to stacked memory changes: memory and its errors. -/
def State.hbmOnly (s t : State) : Prop := { t with mem := s.mem, ecc := s.ecc } = s

theorem State.hbmOnly.trans {s t u : State} (h : s.hbmOnly t) (g : t.hbmOnly u) : s.hbmOnly u := by
  unfold State.hbmOnly at *
  rw [← h, ← g]

/-- A part of the state that stores to stacked memory do not change. -/
theorem State.hbmOnly.get {α : Type} {s t : State} (h : s.hbmOnly t) (g : State → α)
    (hg : ∀ u m e, g { u with mem := m, ecc := e } = g u) : g t = g s := by
  rw [← hg t s.mem s.ecc]
  exact congrArg g h

theorem State.hbmOnly.tables {s t : State} (h : s.hbmOnly t) : t.tables = s.tables := h.get State.tables fun _ _ _ => rfl
theorem State.hbmOnly.regs {s t : State} (h : s.hbmOnly t) : t.regs = s.regs := h.get State.regs fun _ _ _ => rfl
theorem State.hbmOnly.cores {s t : State} (h : s.hbmOnly t) : t.cores = s.cores := h.get State.cores fun _ _ _ => rfl

theorem State.cacheWrite_stream (s : State) (g : Nat) : s.cacheWrite g 0 = s := rfl

/-- A STREAM store writes its bytes and clears the errors of their granules. -/
theorem State.hubStore_spec (s : State) (a : Nat) (bs : List Byte) :
    s.hbmOnly (s.hubStore a bs) ∧ (s.hubStore a bs).mem = (s.writeBytes a bs).mem := by
  unfold State.hubStore State.hbmStore
  have key : ∀ (l : List Nat) (t : State), s.hbmOnly t →
      s.hbmOnly (l.foldl (fun s g => State.cacheWrite { s with ecc := Tab.set 0 s.ecc g 0 } g 0) t)
        ∧ (l.foldl (fun s g => State.cacheWrite { s with ecc := Tab.set 0 s.ecc g 0 } g 0) t).mem = t.mem := by
    intro l
    induction l with
    | nil => exact fun t h => ⟨h, rfl⟩
    | cons g l ih =>
      intro t h
      rw [List.foldl_cons, State.cacheWrite_stream]
      exact ih _ h
  exact key _ _ rfl

theorem State.readByte_hubStore_out (s : State) {a b : Nat} {bs : List Byte} (h : ¬ (a ≤ b ∧ b < a + bs.length)) :
    (s.hubStore a bs).readByte b = s.readByte b := by
  have hw := s.readByte_writeBytes a bs b
  rw [if_neg h] at hw
  rw [← hw]
  unfold State.readByte
  rw [(s.hubStore_spec a bs).2]

/-- Stores of hub units in turn leave what none of them covers. -/
theorem State.hubStores_frame {α : Type} (addr : α → Nat) (bytes : α → List Byte) (l : List α) (s : State) :
    s.hbmOnly (l.foldl (fun s e => s.hubStore (addr e) (bytes e)) s)
      ∧ ∀ a, (∀ e ∈ l, ¬ (addr e ≤ a ∧ a < addr e + (bytes e).length)) →
        (l.foldl (fun s e => s.hubStore (addr e) (bytes e)) s).readByte a = s.readByte a := by
  induction l generalizing s with
  | nil => exact ⟨rfl, fun _ _ => rfl⟩
  | cons e l ih =>
    obtain ⟨h1, h2⟩ := ih (s.hubStore (addr e) (bytes e))
    refine ⟨(s.hubStore_spec _ _).1.trans h1, fun a ha => ?_⟩
    rw [List.foldl_cons, h2 a fun d hd => ha d (List.mem_cons_of_mem _ hd)]
    exact s.readByte_hubStore_out (ha e (List.mem_cons_self ..))

/-! ### The diagonals of a built bank -/

theorem State.rf_congr {s t : State} (h : t.regs = s.regs) (r : RegName) (i x hi lo : Nat) : t.rf r i x hi lo = s.rf r i x hi lo := by
  simp [State.rf, State.reg, State.regK, h]

theorem State.annealSection_congr {s t : State} (h : t.regs = s.regs) (d n bank : Nat) : t.annealSection d n bank = s.annealSection d n bank := by
  unfold State.annealSection
  simp only [State.rf_congr h]

theorem State.table_congr {s t : State} (h : t.tables = s.tables) (n : Nat) : t.table n = s.table n := by simp [State.table, h]

/-- First byte of the section that a build of table `n` writes on die `d` (05 R108, R109). -/
def State.shadowSection (s : State) (d n : Nat) : Nat := (s.annealSection d n (((s.table n).gen + 1) % 2)).1

theorem State.hbmOnly.shadowSection {s t : State} (h : s.hbmOnly t) (d n : Nat) : t.shadowSection d n = s.shadowSection d n := by
  unfold State.shadowSection
  rw [State.annealSection_congr h.regs, State.table_congr h.tables]

/-- Does the address lie among the diagonals that a build of table `n` writes? -/
def State.inDiagonals (s : State) (n : Nat) (b : Bank) (a : Nat) : Prop :=
  ∃ d, d < 4 ∧ ∃ e ∈ b.anneal.zipIdx, s.shadowSection d n / dieRange = d
    ∧ s.shadowSection d n + b.setBase e.2 ≤ a ∧ a < s.shadowSection d n + b.setBase e.2 + (b.diagBytes e.1).length

/-- The diagonals of one die. -/
def State.writeDiagonalsOn (s : State) (n : Nat) (b : Bank) (d : Nat) : State :=
  if s.shadowSection d n / dieRange ≠ d then s
  else b.anneal.zipIdx.foldl (fun t e => t.hubStore (s.shadowSection d n + b.setBase e.2) (b.diagBytes e.1)) s

theorem State.writeDiagonals_eq (s : State) (n : Nat) (b : Bank) :
    s.writeDiagonals n b = (List.range 4).foldl (fun s d => s.writeDiagonalsOn n b d) s := rfl

/-- Building writes the diagonals, and nothing else of memory or of the state (05 R108). -/
theorem State.writeDiagonals_frame (s : State) (n : Nat) (b : Bank) :
    s.hbmOnly (s.writeDiagonals n b) ∧ ∀ a, ¬ s.inDiagonals n b a → (s.writeDiagonals n b).readByte a = s.readByte a := by
  rw [State.writeDiagonals_eq]
  have key : ∀ (l : List Nat) (t : State), (∀ d ∈ l, d < 4) → s.hbmOnly t →
      s.hbmOnly (l.foldl (fun s d => s.writeDiagonalsOn n b d) t)
        ∧ ∀ a, ¬ s.inDiagonals n b a → (l.foldl (fun s d => s.writeDiagonalsOn n b d) t).readByte a = t.readByte a := by
    intro l
    induction l with
    | nil => exact fun t _ h => ⟨h, fun _ _ => rfl⟩
    | cons d l ih =>
      intro t hl h
      have hone : t.hbmOnly (t.writeDiagonalsOn n b d)
          ∧ ∀ a, ¬ s.inDiagonals n b a → (t.writeDiagonalsOn n b d).readByte a = t.readByte a := by
        unfold State.writeDiagonalsOn
        rw [h.shadowSection]
        split
        case isTrue => exact ⟨rfl, fun _ _ => rfl⟩
        case isFalse hd =>
          obtain ⟨h1, h2⟩ := State.hubStores_frame (fun e : List Nat × Nat => s.shadowSection d n + b.setBase e.2)
            (fun e => b.diagBytes e.1) b.anneal.zipIdx t
          exact ⟨h1, fun a ha => h2 a fun e he hin => ha ⟨d, hl d (List.mem_cons_self ..), e, he, not_not.1 hd, hin⟩⟩
      obtain ⟨h1, h2⟩ := ih (t.writeDiagonalsOn n b d) (fun e he => hl e (List.mem_cons_of_mem _ he)) (h.trans hone.1)
      exact ⟨h1, fun a ha => (h2 a ha).trans (hone.2 a ha)⟩
  exact key _ s (fun d hd => List.mem_range.1 hd) rfl

/-- A bank with no Anneal set leaves memory as it is. -/
theorem State.writeDiagonals_nil (s : State) (n : Nat) {b : Bank} (h : b.anneal = []) : s.writeDiagonals n b = s := by
  rw [State.writeDiagonals_eq]
  refine foldl_fixed _ s _ fun d _ => ?_
  unfold State.writeDiagonalsOn
  rw [h]
  split <;> rfl

end Sys2Proof.Machine
end

section
/-!
The builds of alloy tables (03 R60 to R64): their start, their refusal and their end.
-/
namespace Sys2Proof.Machine

variable {s : State}

/-! ### The start of a build -/

/-- The fields of the word that a build's row writes to ALLOY_BUILD (03 R62). -/
theorem alloyBuild_word {slot : Nat} (h : slot < 4) (commit : Bool) :
    let v := BitVec.ofNat 32 (slot % 4 + 4 + 8 * b2n commit)
    bits v 1 0 = slot ∧ bitOf v 2 = true ∧ bitOf v 3 = commit := by
  have key : ∀ (k : Fin 4) (b : Bool), let v := BitVec.ofNat 32 (k.val % 4 + 4 + 8 * b2n b)
      bits v 1 0 = k.val ∧ bitOf v 2 = true ∧ bitOf v 3 = b := by decide
  exact key ⟨slot, h⟩ commit

theorem State.alloyBusy_eq_true_iff (s : State) (slot : Nat) :
    s.alloyBusy slot = true ↔ (∃ t, t < 4 ∧ (s.table t).shadow = 1) ∨ (s.table slot).shadow = 2 := by
  simp [State.alloyBusy]

/-- What a build's row does: the refusal of R64, or the start of R62. -/
theorem execAlloyBuild_eq {slot : Nat} (h : slot < 4) (commit : Bool) (req : Nat) :
    ∃ v, execAlloyBuild slot commit req s =
      .next (if s.alloyBusy slot || !inHbm (s.alloySrc + recordMin - 1) then s.refuseState .alloyBuild 0 0 req
        else (s.setReg .alloyBuild 0 0 v).alloyStart slot s.alloySrc commit) := by
  obtain ⟨hslot, hstart, hcommit⟩ := alloyBuild_word h commit
  unfold execAlloyBuild State.alloyBuildWrite
  rw [hslot, hstart, hcommit]
  exact ⟨_, rfl⟩

theorem State.table_setTable_ne (s : State) {n m : Nat} (v : TableSlot) (h : m ≠ n) : (s.setTable n v).table m = s.table m := by
  simp [State.table, State.setTable, Tab.get_set_ne _ _ _ h]

/-- A build that may start marks its slot as building and clears START in ALLOY_BUILD. -/
theorem execAlloyBuild_starts {slot : Nat} (h : slot < 4) (commit : Bool) (req : Nat) (hfree : s.alloyBusy slot = false)
    (hin : inHbm (s.alloySrc + 1087) = true) :
    ∃ t, execAlloyBuild slot commit req s = .next t
      ∧ t.table slot = { (s.table slot) with shadow := 1, check := 0, failIndex := 0, commitNow := commit, src := s.alloySrc }
      ∧ (∀ i, i ≠ slot → t.table i = s.table i) ∧ { s with tables := t.tables }.onlyRegs t [adr .alloyBuild 0 0] := by
  obtain ⟨v, hv⟩ := execAlloyBuild_eq (s := s) h commit req
  have hlast : s.alloySrc + recordMin - 1 = s.alloySrc + 1087 := by
    unfold recordMin
    omega
  rw [hfree, hlast, hin] at hv
  refine ⟨_, hv, State.table_setTable _ _ _, fun i hi => State.table_setTable_ne _ _ hi, rfl, fun a ha _ => ?_⟩
  exact s.find?_setReg_ne _ _ _ _ fun e => ha (List.mem_singleton.2 e)

/-- A build of a slot that is built, or while one is under way, is refused (03 R64). -/
theorem execAlloyBuild_refused {slot : Nat} (h : slot < 4) (commit : Bool) (req : Nat) (hbusy : s.alloyBusy slot = true) :
    ∃ t, execAlloyBuild slot commit req s = .next t ∧ s.refusedOnly t := by
  obtain ⟨v, hv⟩ := execAlloyBuild_eq (s := s) h commit req
  rw [hbusy, Bool.true_or, if_pos rfl] at hv
  exact ⟨_, hv, s.refuseState_refusedOnly _ _ _ _ _⟩

/-! ### The end of a build -/

/-- ALLOY_BUILD_DONE ends the build of the first slot that is building. -/
theorem execAlloyBuildDone_eq {n : Nat} (hn : n < 4) (hb : (s.table n).shadow = 1) (hfirst : ∀ m, m < n → (s.table m).shadow ≠ 1) :
    execAlloyBuildDone s = .next (s.alloyDone n) := by
  have hfind : (List.range 4).find? (fun t => (s.table t).shadow == 1) = some n :=
    List.find?_range_eq_some.2 ⟨by simp [hb], List.mem_range.2 hn, fun m hm => by simp [hfirst m hm]⟩
  unfold execAlloyBuildDone
  rw [hfind]

/-- A record that fails a check: its slot is rejected, and an event is raised. -/
theorem State.alloyDone_failed {n ck i : Nat} (h : s.buildAt n (s.table n).src = .failed ck i) :
    (s.setTable n { (s.table n) with shadow := 3, check := ck, failIndex := i }).eventsOnly (s.alloyDone n) := by
  unfold State.alloyDone
  dsimp only
  rw [h]
  exact State.raise_eventsOnly _ _

/-- A bank that commands still use is not written yet (03 R64). -/
theorem State.alloyDone_latched {n : Nat} {b : Bank} (h : s.buildAt n (s.table n).src = .built b) (hl : s.shadowLatched n = true) :
    s.alloyDone n = s := by
  unfold State.alloyDone
  dsimp only
  rw [h, hl]
  rfl

/-- A slot whose build has ended with a bank: committed at once where the build said so (03 R62). -/
def TableSlot.withBuilt (v : TableSlot) (b : Bank) : TableSlot :=
  if v.commitNow then { v with shadow := 0, shadowBank := {}, bank := b, active := true, gen := (v.gen + 1) % 256 }
  else { v with shadow := 2, shadowBank := b }

theorem State.commitTable_built {n : Nat} (h : (s.table n).shadow = 2) :
    s.commitTable n = s.setTable n { (s.table n) with
      bank := (s.table n).shadowBank, shadowBank := {}, active := true, gen := ((s.table n).gen + 1) % 256, shadow := 0 } := if_pos h

/-- The state once the bank of a record that passes has been written to its shadow bank, and its diagonals to their sections. -/
def State.shadowBuilt (s : State) (n : Nat) (b : Bank) : State :=
  (s.setTable n { (s.table n) with shadow := 2, shadowBank := b }).writeDiagonals n b

theorem State.alloyDone_built {n : Nat} {b : Bank} (h : s.buildAt n (s.table n).src = .built b) (hl : s.shadowLatched n = false) :
    s.alloyDone n = if (s.table n).commitNow then (s.shadowBuilt n b).commitTable n else s.shadowBuilt n b := by
  unfold State.alloyDone
  dsimp only
  rw [h]
  dsimp only
  rw [hl, if_neg (by decide)]
  unfold State.shadowBuilt
  rfl

theorem State.shadowBuilt_table (s : State) (n : Nat) (b : Bank) :
    (s.shadowBuilt n b).table n = { (s.table n) with shadow := 2, shadowBank := b } := by
  rw [State.shadowBuilt, State.table_congr (State.writeDiagonals_frame _ n b).1.tables, State.table_setTable]

theorem State.shadowBuilt_table_ne (s : State) {n i : Nat} (b : Bank) (h : i ≠ n) : (s.shadowBuilt n b).table i = s.table i := by
  rw [State.shadowBuilt, State.table_congr (State.writeDiagonals_frame _ n b).1.tables, State.table_setTable_ne _ _ h]

/-- The tables once the build of a record that passes has ended. -/
theorem State.alloyDone_tables {n : Nat} {b : Bank} (h : s.buildAt n (s.table n).src = .built b) (hl : s.shadowLatched n = false) :
    (s.alloyDone n).table n = (s.table n).withBuilt b ∧ ∀ i, i ≠ n → (s.alloyDone n).table i = s.table i := by
  rw [State.alloyDone_built h hl, TableSlot.withBuilt]
  have ht := s.shadowBuilt_table n b
  split
  · rw [State.commitTable_built (by rw [ht]), State.table_setTable, ht]
    exact ⟨rfl, fun i hi => by rw [State.table_setTable_ne _ _ hi, s.shadowBuilt_table_ne b hi]⟩
  · exact ⟨ht, fun i hi => s.shadowBuilt_table_ne b hi⟩

/-- Cores and memory once it has ended are as the writing of the diagonals left them. -/
theorem State.alloyDone_rest {n : Nat} {b : Bank} (h : s.buildAt n (s.table n).src = .built b) (hl : s.shadowLatched n = false) :
    (s.alloyDone n).cores = (s.shadowBuilt n b).cores ∧ (s.alloyDone n).mem = (s.shadowBuilt n b).mem := by
  rw [State.alloyDone_built h hl]
  have ht : ((s.shadowBuilt n b).table n).shadow = 2 := by rw [s.shadowBuilt_table]
  split
  · rw [State.commitTable_built ht]
    exact ⟨State.setTable_cores _ _ _, State.setTable_mem _ _ _⟩
  · exact ⟨rfl, rfl⟩

theorem State.shadowBuilt_frame (s : State) (n : Nat) (b : Bank) : (s.shadowBuilt n b).cores = s.cores
    ∧ (b.anneal = [] → (s.shadowBuilt n b).mem = s.mem)
    ∧ ∀ a, ¬ s.inDiagonals n b a → (s.shadowBuilt n b).readByte a = s.readByte a := by
  have hsec : ∀ d, (s.setTable n { (s.table n) with shadow := 2, shadowBank := b }).shadowSection d n = s.shadowSection d n := by
    intro d
    unfold State.shadowSection
    rw [State.table_setTable]
    rfl
  obtain ⟨h1, h2⟩ := State.writeDiagonals_frame (s.setTable n { (s.table n) with shadow := 2, shadowBank := b }) n b
  refine ⟨h1.cores, fun hb => ?_, fun a ha => h2 a fun hin => ha ?_⟩
  · rw [State.shadowBuilt, State.writeDiagonals_nil _ _ hb]
    rfl
  · unfold State.inDiagonals at hin ⊢
    simpa only [hsec] using hin

theorem State.alloyDone_rejected {n ck i : Nat} (h : s.buildAt n (s.table n).src = .failed ck i) :
    (s.alloyDone n).table n = { (s.table n) with shadow := 3, check := ck, failIndex := i } ∧ (s.alloyDone n).mem = s.mem := by
  have hev := s.alloyDone_failed h
  exact ⟨(hev.get (State.table · n) fun _ _ _ => rfl).trans (State.table_setTable _ _ _), hev.get State.mem fun _ _ _ => rfl⟩

/-- Whatever the checks find, the end of a build leaves the other slots and the cores. -/
theorem State.alloyDone_others (s : State) (n : Nat) : (∀ i, i ≠ n → (s.alloyDone n).table i = s.table i) ∧ (s.alloyDone n).cores = s.cores := by
  cases hres : s.buildAt n (s.table n).src with
  | failed ck i =>
    have hev := s.alloyDone_failed hres
    refine ⟨fun m hm => ?_, hev.get State.cores fun _ _ _ => rfl⟩
    rw [hev.get (State.table · m) fun _ _ _ => rfl, State.table_setTable_ne _ _ hm]
  | built b =>
    cases hl : s.shadowLatched n with
    | true =>
      rw [State.alloyDone_latched hres hl]
      exact ⟨fun _ _ => rfl, rfl⟩
    | false =>
      obtain ⟨-, hother⟩ := State.alloyDone_tables hres hl
      obtain ⟨hcores, -⟩ := State.alloyDone_rest hres hl
      exact ⟨hother, hcores.trans (s.shadowBuilt_frame n b).1⟩

/-- Memory once the build of a record that passes has ended: only its diagonals were written. -/
theorem State.alloyDone_mem {n : Nat} {b : Bank} (h : s.buildAt n (s.table n).src = .built b) (hl : s.shadowLatched n = false) :
    (b.anneal = [] → (s.alloyDone n).mem = s.mem) ∧ ∀ a, ¬ s.inDiagonals n b a → (s.alloyDone n).readByte a = s.readByte a := by
  obtain ⟨-, hnil, hframe⟩ := s.shadowBuilt_frame n b
  obtain ⟨-, hmem⟩ := State.alloyDone_rest h hl
  refine ⟨fun hb => hmem.trans (hnil hb), fun a ha => ?_⟩
  rw [← hframe a ha]
  unfold State.readByte
  rw [hmem]

/-- What the checks find of a record that stands whole in memory, and of one that does not (03 R60). -/
theorem State.buildAt_eq (s : State) (n a : Nat) :
    s.buildAt n a =
      if inHbm (a + s.recordLength a - 1) = false ∨ s.poisoned a (s.recordLength a) = true then .failed 1 0xFF
      else buildRecord (s.rf .annealSect 0 n 9 0) (s.readBytes a (s.recordLength a)) := by
  simp [State.buildAt]

/-! ### The obligation -/

/-- Settles O23: the start and the refusal of a build by its row's equation; its end by what the checks find of its record. -/
theorem alloyBuildsFillAShadowBank : Obligations.AlloyBuildsFillAShadowBank := by
  unfold Obligations.AlloyBuildsFillAShadowBank
  refine ⟨fun s slot req commit hslot hnone hnot hin => ?_, fun s slot req commit hslot hbusy => ?_, fun s n hn hb hfirst => ?_⟩
  · refine execAlloyBuild_starts hslot commit req (Bool.eq_false_iff.2 fun hbusy => ?_) hin
    rcases (s.alloyBusy_eq_true_iff slot).1 hbusy with ⟨m, hm, h⟩ | h
    · exact hnone m hm h
    · exact hnot h
  · exact execAlloyBuild_refused hslot commit req ((s.alloyBusy_eq_true_iff slot).2 hbusy)
  · obtain ⟨hothers, hcores⟩ := s.alloyDone_others n
    refine ⟨s.alloyDone n, execAlloyBuildDone_eq hn hb hfirst, hothers, hcores, fun _ _ h => State.alloyDone_rejected h,
      fun _ h hl => State.alloyDone_latched h hl, fun b h hl => ?_, fun len hlen => ?_⟩
    · obtain ⟨hnil, hframe⟩ := State.alloyDone_mem h hl
      exact ⟨(State.alloyDone_tables h hl).1, hnil,
        fun a ha => hframe a fun ⟨d, hd, e, he, hdie, hin⟩ => ha d hd e he hdie hin⟩
    · rw [hlen]
      exact s.buildAt_eq n (s.table n).src

end Sys2Proof.Machine
end

section
/-!
Stores to the scratchpad: what a read finds after a store, and what a command that stores a run of limbs one after another leaves in
memory when the run it reads is the one it writes or lies apart from it (03 R69, R75).
-/
namespace Sys2Proof.Machine

/-! ### Byte ranges -/

theorem State.readBytes_congr {s t : State} {a n : Nat} (h : ∀ i, i < n → t.readByte (a + i) = s.readByte (a + i)) :
    t.readBytes a n = s.readBytes a n :=
  List.map_congr_left fun i hi => h i (List.mem_range.1 hi)

theorem State.store_mem (s : State) (a : Nat) (bs : List Byte) : (s.store a bs).mem = (s.writeBytes a bs).mem := by
  unfold State.store
  dsimp only
  repeat' split
  all_goals rfl

/-- A byte read after a store: the byte stored there, and elsewhere what stood there. -/
theorem State.readByte_store (s : State) (a : Nat) (bs : List Byte) (b : Nat) :
    (s.store a bs).readByte b = if a ≤ b ∧ b < a + bs.length then bs.getD (b - a) 0 else s.readByte b := by
  rw [← State.readByte_writeBytes]
  unfold State.readByte
  rw [State.store_mem]

theorem State.readBytes_store_self (s : State) (a : Nat) (bs : List Byte) : (s.store a bs).readBytes a bs.length = bs := by
  apply List.ext_getElem (by simp [State.readBytes])
  intro i h _
  have hi : i < bs.length := by simpa [State.readBytes] using h
  simp [State.readBytes, State.readByte_store, hi]

/-! ### States that differ by stores -/

/-- `t` differs from `s` by what stores change: memory, its parity, and the injection registers. -/
def State.storesOnly (s t : State) : Prop := { t with mem := s.mem, badpar := s.badpar, regs := s.regs } = s

theorem State.storesOnly.refl (s : State) : s.storesOnly s := rfl

theorem State.storesOnly.trans {s t u : State} (h : s.storesOnly t) (g : t.storesOnly u) : s.storesOnly u := by
  unfold State.storesOnly at *
  rw [← h, ← g]

/-- A part of the state that stores do not change. -/
theorem State.storesOnly.get {α : Type} {s t : State} (h : s.storesOnly t) (g : State → α)
    (hg : ∀ u m b r, g { u with mem := m, badpar := b, regs := r } = g u) : g t = g s := by
  rw [← hg t s.mem s.badpar s.regs]
  exact congrArg g h

theorem State.storesOnly.cores {s t : State} (h : s.storesOnly t) : t.cores = s.cores := h.get State.cores fun _ _ _ _ => rfl
theorem State.storesOnly.bars {s t : State} (h : s.storesOnly t) : t.bars = s.bars := h.get State.bars fun _ _ _ _ => rfl
theorem State.storesOnly.ctrs {s t : State} (h : s.storesOnly t) : t.ctrs = s.ctrs := h.get State.ctrs fun _ _ _ _ => rfl
theorem State.storesOnly.sigs {s t : State} (h : s.storesOnly t) : t.sigs = s.sigs := h.get State.sigs fun _ _ _ _ => rfl
theorem State.storesOnly.out {s t : State} (h : s.storesOnly t) : t.out = s.out := h.get State.out fun _ _ _ _ => rfl

theorem State.store_storesOnly (s : State) (a : Nat) (bs : List Byte) : s.storesOnly (s.store a bs) := by
  unfold State.store
  dsimp only
  repeat' split
  all_goals rfl

theorem foldl_storesOnly {α : Type} (g : State → α → State) (h : ∀ (u : State) (a : α), u.storesOnly (g u a)) (l : List α) (s : State) :
    s.storesOnly (l.foldl g s) := by
  induction l generalizing s with
  | nil => exact State.storesOnly.refl s
  | cons a l ih => exact (h s a).trans (ih _)

/-! ### Limbs -/

/-- A limb fits the drawers it is given (03 R69). -/
theorem limb_fits (log2n : Nat) : 6 * 2 ^ log2n ≤ limbDrawers log2n * 98304 := by
  unfold limbDrawers
  by_cases h : log2n < 14
  · have : 2 ^ log2n ≤ 2 ^ 14 := Nat.pow_le_pow_right (by decide) (by omega)
    omega
  · obtain ⟨k, rfl⟩ := Nat.exists_eq_add_of_le (Nat.le_of_not_lt h)
    rw [Nat.pow_add, Nat.mul_div_cancel_left _ (by decide)]
    omega

theorem limbDrawers_pos (log2n : Nat) : 1 ≤ limbDrawers log2n := Nat.le_max_left _ _

theorem limbAddr_eq (c d log2n i : Nat) : limbAddr c d log2n i = spBase c + (d + i * limbDrawers log2n) * 98304 := rfl

/-- A limb whose drawers end before another's begin ends before it. -/
theorem limb_before {c d e log2n i j : Nat} (h : d + (i + 1) * limbDrawers log2n ≤ e + j * limbDrawers log2n) :
    limbAddr c d log2n i + 6 * 2 ^ log2n ≤ limbAddr c e log2n j := by
  have hf := limb_fits log2n
  rw [limbAddr_eq, limbAddr_eq]
  rw [Nat.succ_mul] at h
  omega

/-- Two runs of `n` limbs that are one, or have no drawer in common (03 R75). -/
def runsApart (src dst n log2n : Nat) : Prop :=
  src = dst ∨ src + n * limbDrawers log2n ≤ dst ∨ dst + n * limbDrawers log2n ≤ src

/-- A limb still to be read lies apart from every limb written before it. -/
theorem runsApart.limb_apart {src dst n log2n : Nat} (h : runsApart src dst n log2n) (c : Nat) {i j : Nat} (hij : i < j) (hj : j < n) :
    limbAddr c src log2n j + 6 * 2 ^ log2n ≤ limbAddr c dst log2n i
      ∨ limbAddr c dst log2n i + 6 * 2 ^ log2n ≤ limbAddr c src log2n j := by
  have hi1 : (i + 1) * limbDrawers log2n ≤ j * limbDrawers log2n := Nat.mul_le_mul_right _ hij
  have hj1 : (j + 1) * limbDrawers log2n ≤ n * limbDrawers log2n := Nat.mul_le_mul_right _ hj
  have hjn : j * limbDrawers log2n ≤ n * limbDrawers log2n := Nat.mul_le_mul_right _ (Nat.le_of_lt hj)
  rcases h with rfl | h | h
  · exact .inr (limb_before (by omega))
  · exact .inl (limb_before (by omega))
  · exact .inr (limb_before (by omega))

theorem runsApart.mono {src dst n m log2n : Nat} (h : runsApart src dst n log2n) (hm : m ≤ n) : runsApart src dst m log2n := by
  have := Nat.mul_le_mul_right (limbDrawers log2n) hm
  rcases h with h | h | h
  · exact .inl h
  · exact .inr (.inl (by omega))
  · exact .inr (.inr (by omega))

/-- Runs of drawers that are the same or disjoint are runs apart. -/
theorem runsApart_of_sameOrDisjoint {src dst n log2n : Nat}
    (h : sameOrDisjoint (objDrawers src n log2n) (objDrawers dst n log2n) = true) (hn : 1 ≤ n) : runsApart src dst n log2n := by
  have hpos : 1 ≤ n * limbDrawers log2n := Nat.mul_pos hn (limbDrawers_pos log2n)
  have hmem : ∀ e d, e ∈ objDrawers d n log2n ↔ d ≤ e ∧ e < d + n * limbDrawers log2n := by
    intro e d
    simp only [objDrawers, drawerRun, List.mem_map, List.mem_range]
    exact ⟨fun ⟨i, hi, he⟩ => by omega, fun he => ⟨e - d, by omega, by omega⟩⟩
  unfold runsApart
  generalize n * limbDrawers log2n = k at *
  rcases Bool.or_eq_true_iff.1 h with h | h
  · have heq : objDrawers src n log2n = objDrawers dst n log2n := by simpa using h
    have h1 := (hmem src dst).1 (heq ▸ (hmem src src).2 (by omega))
    have h2 := (hmem dst src).1 (heq ▸ (hmem dst dst).2 (by omega))
    exact .inl (by omega)
  · have hout : ∀ e, src ≤ e → e < src + k → ¬ (dst ≤ e ∧ e < dst + k) := by
      intro e h1 h2
      have := List.all_eq_true.1 h e ((hmem e src).2 ⟨h1, h2⟩)
      rw [← hmem]
      simpa using this
    have h1 := hout src (by omega) (by omega)
    by_cases hd : dst < src + k
    · have h2 := hout dst
      exact .inr (by omega)
    · exact .inr (.inl (by omega))

theorem residueBytes_length (vs : List Nat) : (residueBytes vs).length = 6 * vs.length := by
  simp [residueBytes, List.length_flatMap, natLE_length, Nat.mul_comm]

theorem State.readLimb_congr {s t : State} {c d log2n i : Nat}
    (h : ∀ a, limbAddr c d log2n i ≤ a → a < limbAddr c d log2n i + 6 * 2 ^ log2n → t.readByte a = s.readByte a) :
    t.readLimb c d log2n i = s.readLimb c d log2n i := by
  refine List.map_congr_left fun k hk => ?_
  have hk := List.mem_range.1 hk
  unfold State.readLE
  rw [State.readBytes_congr fun j hj => h _ (by omega) (by omega)]

/-- What stands in memory is all that `limbsWritten` looks at. -/
theorem State.limbsWritten.congr {s s' t t' : State} {c d log2n n : Nat} {v v' : Nat → List Nat} (h : s.limbsWritten t c d log2n n v)
    (hs : ∀ a, s'.readByte a = s.readByte a) (ht : ∀ a, t'.readByte a = t.readByte a) (hv : ∀ i, v' i = v i) :
    s'.limbsWritten t' c d log2n n v' := by
  refine ⟨fun i hi => ?_, fun a ha => ?_⟩
  · rw [State.readBytes_congr fun j _ => ht _, h.1 i hi, hv]
  · rw [ht, hs, h.2 a ha]

/-- A command that makes limb `i` of a run from limb `i` of another. -/
def State.mapLimbs (s : State) (c src dst log2n n : Nat) (g : Nat → List Nat → List Nat) : State :=
  (List.range n).foldl (fun u i => u.storeLimb c dst log2n i (g i (u.readLimb c src log2n i))) s

theorem State.mapLimbs_succ (s : State) (c src dst log2n n : Nat) (g : Nat → List Nat → List Nat) :
    s.mapLimbs c src dst log2n (n + 1) g =
      (s.mapLimbs c src dst log2n n g).storeLimb c dst log2n n (g n ((s.mapLimbs c src dst log2n n g).readLimb c src log2n n)) := by
  unfold State.mapLimbs
  rw [List.range_succ, List.foldl_append, List.foldl_cons, List.foldl_nil]

theorem State.mapLimbs_storesOnly (s : State) (c src dst log2n n : Nat) (g : Nat → List Nat → List Nat) :
    s.storesOnly (s.mapLimbs c src dst log2n n g) :=
  foldl_storesOnly _ (fun _ _ => State.store_storesOnly _ _ _) _ s

/-- Limbs made in order from runs apart are each made from the limb as it stood at first. -/
theorem State.mapLimbs_written (s : State) (c : Nat) {src dst log2n n : Nat} {g : Nat → List Nat → List Nat}
    (hg : ∀ i vs, (g i vs).length = 2 ^ log2n) (hr : runsApart src dst n log2n) :
    s.limbsWritten (s.mapLimbs c src dst log2n n g) c dst log2n n (fun i => g i (s.readLimb c src log2n i)) := by
  induction n with
  | zero => exact ⟨fun i hi => absurd hi (Nat.not_lt_zero i), fun _ _ => rfl⟩
  | succ n ih =>
    obtain ⟨hin, hout⟩ := ih (hr.mono (Nat.le_succ n))
    have hread : (s.mapLimbs c src dst log2n n g).readLimb c src log2n n = s.readLimb c src log2n n := by
      refine State.readLimb_congr fun a h1 h2 => hout a fun i hi => ?_
      have := hr.limb_apart c hi (Nat.lt_succ_self n)
      omega
    have hbyte : ∀ a, (s.mapLimbs c src dst log2n (n + 1) g).readByte a =
        if limbAddr c dst log2n n ≤ a ∧ a < limbAddr c dst log2n n + 6 * 2 ^ log2n
        then (residueBytes (g n (s.readLimb c src log2n n))).getD (a - limbAddr c dst log2n n) 0
        else (s.mapLimbs c src dst log2n n g).readByte a := by
      intro a
      have hlen := residueBytes_length (g n (s.readLimb c src log2n n))
      rw [hg] at hlen
      rw [State.mapLimbs_succ, hread, State.storeLimb, State.readByte_store, ← residueBytes, hlen]
    refine ⟨fun i hi => ?_, fun a ha => ?_⟩
    · rcases Nat.lt_succ_iff_lt_or_eq.1 hi with hi | rfl
      · rw [← hin i hi]
        refine State.readBytes_congr fun j hj => ?_
        have hle : (i + 1) * limbDrawers log2n ≤ n * limbDrawers log2n := Nat.mul_le_mul_right _ hi
        have := limb_before (c := c) (d := dst) (e := dst) (log2n := log2n) (i := i) (j := n) (by omega)
        rw [hbyte, if_neg (by omega)]
      · have hlen := residueBytes_length (g i (s.readLimb c src log2n i))
        rw [hg] at hlen
        rw [State.mapLimbs_succ, hread, State.storeLimb, ← residueBytes, ← hlen, State.readBytes_store_self]
    · rw [hbyte, if_neg (ha n (Nat.lt_succ_self n)), hout a fun i hi => ha i (Nat.lt_succ_of_lt hi)]

end Sys2Proof.Machine
end

section
/-!
The whole row of an engine command: what its core, its drawers and the rest of the state are once it has completed, from its plan and
from a run that only stores (09 R189, R191; 10 R208).
-/
namespace Sys2Proof.Machine

variable {s : State} {c x : Nat} {op : Opcode} {f : CmdFields}

/-! ### Tags -/

/-- Drawers changed in turn, but for some of them, by a change that is the same done twice. -/
theorem Core.drawer_foldl_modDrawer_unless (p : Nat → Prop) [DecidablePred p] (g : Drawer → Drawer) (hg : ∀ v, g (g v) = g v) (l : List Nat)
    (k : Core) (d : Nat) :
    (l.foldl (fun k d => if p d then k else k.modDrawer d g) k).drawer d = if d ∈ l ∧ ¬ p d then g (k.drawer d) else k.drawer d := by
  induction l generalizing k with
  | nil => simp
  | cons e l ih =>
    rw [List.foldl_cons, ih]
    by_cases hp : p e
    · have : d = e → p d := fun h => h ▸ hp
      by_cases hd : d = e
      · simp [hd, hp]
      · simp [hd, hp]
    · rw [if_neg hp]
      by_cases hd : d = e
      · subst hd
        simp [Core.modDrawer, hp, hg]
      · simp [Core.modDrawer, Core.drawer_setDrawer_ne _ _ hd, hd]

theorem Core.drawer_foldl_modDrawer (g : Drawer → Drawer) (hg : ∀ v, g (g v) = g v) (l : List Nat) (k : Core) (d : Nat) :
    (l.foldl (fun k d => k.modDrawer d g) k).drawer d = if d ∈ l then g (k.drawer d) else k.drawer d := by
  simpa using Core.drawer_foldl_modDrawer_unless (fun _ => False) g hg l k d

theorem Core.butDrawers_modDrawer (k : Core) (d : Nat) (g : Drawer → Drawer) : (k.modDrawer d g).butDrawers k := rfl

theorem foldl_butDrawers (g : Core → Nat → Core) (h : ∀ k d, (g k d).butDrawers k) (l : List Nat) (k : Core) :
    (l.foldl g k).butDrawers k := by
  induction l generalizing k with
  | nil => rfl
  | cons d l ih => exact (ih _).trans (h k d)

theorem Core.commitDrawers_butDrawers (k : Core) (q : QCmd) : (k.commitDrawers q).butDrawers k := by
  refine Core.butDrawers.trans (foldl_butDrawers _ (fun l d => ?_) _ _) (foldl_butDrawers _ (fun l d => ?_) _ k)
  · split
    · rfl
    · exact l.butDrawers_modDrawer d _
  · exact l.butDrawers_modDrawer d _

/-- The tags a commit sets (09 R191). -/
theorem Core.drawer_commitDrawers (k : Core) (q : QCmd) (d : Nat) :
    (k.commitDrawers q).drawer d =
      if d ∈ q.cons ∧ ¬ d ∈ q.held then
        { (if d ∈ q.dsts then { (k.drawer d) with tag := .full, claim := false } else k.drawer d) with closing := true }
      else if d ∈ q.dsts then { (k.drawer d) with tag := .full, claim := false } else k.drawer d := by
  unfold Core.commitDrawers
  rw [Core.drawer_foldl_modDrawer_unless (· ∈ q.held) (fun v => { v with closing := true }) (fun _ => rfl),
    Core.drawer_foldl_modDrawer (fun v => { v with tag := .full, claim := false }) (fun _ => rfl)]

/-- When consumed drawers settle, a drawer stands, or it was closing and is EMPTY. -/
theorem State.settleClosing_drawer (s : State) (c d : Nat) :
    ((s.settleClosing c).core c).drawer d = (s.core c).drawer d
      ∨ ((s.core c).drawer d).closing = true ∧ ((s.settleClosing c).core c).drawer d = ((s.core c).drawer d).emptied := by
  unfold State.settleClosing
  generalize (s.core c).drawers.map (·.1) = l
  have key : ∀ (l : List Nat) (t : State), ((t.core c).drawer d = (s.core c).drawer d
        ∨ ((s.core c).drawer d).closing = true ∧ (t.core c).drawer d = ((s.core c).drawer d).emptied) →
      (let u := l.foldl (fun s e =>
        if ((s.core c).drawer e).closing && !s.readers c e then s.modCore c (fun k => k.modDrawer e Drawer.emptied) else s) t
       (u.core c).drawer d = (s.core c).drawer d
        ∨ ((s.core c).drawer d).closing = true ∧ (u.core c).drawer d = ((s.core c).drawer d).emptied) := by
    intro l
    induction l with
    | nil => exact fun t h => h
    | cons e l ih =>
      intro t h
      rw [List.foldl_cons]
      refine ih _ ?_
      split
      case isFalse => exact h
      case isTrue hc =>
        rw [State.core_modCore]
        by_cases hd : d = e
        · subst hd
          have hcl : ((t.core c).drawer d).closing = true := (Bool.and_eq_true_iff.1 hc).1
          rw [Core.modDrawer, Core.drawer_setDrawer]
          rcases h with h | ⟨h1, h2⟩
          · rw [h] at hcl ⊢
            exact .inr ⟨hcl, rfl⟩
          · exact .inr ⟨h1, by rw [h2]; rfl⟩
        · rw [Core.modDrawer, Core.drawer_setDrawer_ne _ _ hd]
          exact h
  exact key l s (.inl rfl)

/-! ### Result headers -/

/-- Header slots written in turn. -/
def Core.withHdrs (k : Core) (os : List (Nat × Nat × Header)) : Core := os.foldl (fun k o => k.setHdr o.2.1 o.2.2) k

/-- A part of a core that header slots are no part of. -/
theorem Core.withHdrs_get {α : Type} (g : Core → α) (hg : ∀ l v, g { l with hdrs := v } = g l) (os : List (Nat × Nat × Header)) (k : Core) :
    g (k.withHdrs os) = g k := by
  induction os generalizing k with
  | nil => rfl
  | cons o os ih => exact (ih (k.setHdr o.2.1 o.2.2)).trans (hg k _)

/-- Two states that differ in their cores only. -/
def State.coresOnly (s t : State) : Prop := { t with cores := s.cores } = s

theorem State.coresOnly.get {α : Type} {s t : State} (h : s.coresOnly t) (g : State → α) (hg : ∀ u v, g { u with cores := v } = g u) :
    g t = g s := by
  rw [← hg t s.cores]
  exact congrArg g h

/-- Result headers for slots of one core change that core's slots and nothing else. -/
theorem State.writeOuts_frame (s : State) {c : Nat} {q : QCmd} (hc : c < 96) (h : ∀ o ∈ q.lat.outs, o.1 = c) :
    (s.writeOuts q).core c = (s.core c).withHdrs q.lat.outs ∧ (∀ d, d ≠ c → (s.writeOuts q).core d = s.core d)
      ∧ s.coresOnly (s.writeOuts q) := by
  unfold State.writeOuts
  generalize q.lat.outs = os at h
  induction os generalizing s with
  | nil => exact ⟨rfl, fun _ _ => rfl, rfl⟩
  | cons o os ih =>
    obtain ⟨o1, d, hd⟩ := o
    obtain rfl : o1 = c := h _ (List.mem_cons_self ..)
    have hput : s.putOut (q.cmd.opa 25 24) (o1, d, hd) = s.modCore o1 (fun k => k.setHdr d hd) := if_pos hc
    obtain ⟨h1, h2, h3⟩ := ih (s.modCore o1 (fun k => k.setHdr d hd)) fun e he => h e (List.mem_cons_of_mem _ he)
    rw [List.foldl_cons, hput]
    refine ⟨?_, fun e he => ?_, ?_⟩
    · rw [h1, State.core_modCore]
      rfl
    · rw [h2 e he, State.core_modCore_ne _ _ he]
    · exact congrArg (fun t : State => { t with cores := s.cores }) h3

/-! ### What goes between the parts of the device -/

/-- Barriers, counters, signals under way and what the device has sent stand. -/
structure State.sameTraffic (s t : State) : Prop where
  bars : t.bars = s.bars
  ctrs : t.ctrs = s.ctrs
  sigs : t.sigs = s.sigs
  out : t.out = s.out

theorem State.sameTraffic.trans {s t u : State} (h : s.sameTraffic t) (g : t.sameTraffic u) : s.sameTraffic u :=
  ⟨g.bars.trans h.bars, g.ctrs.trans h.ctrs, g.sigs.trans h.sigs, g.out.trans h.out⟩

theorem State.storesOnly.traffic {s t : State} (h : s.storesOnly t) : s.sameTraffic t := ⟨h.bars, h.ctrs, h.sigs, h.out⟩

theorem State.Kept.traffic {s t : State} (h : s.Kept t) : s.sameTraffic t := ⟨h.bars, h.ctrs, h.sigs, h.out⟩

/-! ### The start and the commit -/

theorem Core.butDrawers.eq_with {k l : Core} (h : k.butDrawers l) : k = { l with drawers := k.drawers } :=
  congrArg (fun m : Core => { m with drawers := k.drawers }) h

/-- A part of a core that its drawers are no part of. -/
theorem Core.butDrawers.get {α : Type} {k l : Core} (h : k.butDrawers l) (g : Core → α) (hg : ∀ m v, g { m with drawers := v } = g m) :
    g k = g l := by
  rw [← hg k [], ← hg l []]
  exact congrArg g h

theorem Core.butDrawers.withHdrs {k l : Core} (h : k.butDrawers l) (os : List (Nat × Nat × Header)) :
    (k.withHdrs os).butDrawers (l.withHdrs os) := by
  induction os generalizing k l with
  | nil => exact h
  | cons o os ih => exact ih (congrArg (fun m : Core => m.setHdr o.2.1 o.2.2) h)

theorem Core.withHdrs_hdrs_congr {k l : Core} (h : k.hdrs = l.hdrs) (os : List (Nat × Nat × Header)) :
    (k.withHdrs os).hdrs = (l.withHdrs os).hdrs := by
  induction os generalizing k l with
  | nil => exact h
  | cons o os ih =>
    have ho : Tab.set {} k.hdrs o.2.1 o.2.2 = Tab.set {} l.hdrs o.2.1 o.2.2 := by rw [h]
    exact ih ho

/-- An engine command at its start: the core it found, but for the claims of its drawers and the engine's turn. -/
theorem State.claimedDests_core (h : op.engine < 4) : ∃ cs sv,
    ((s.claimedDests c x op f).core c).butDrawers { (s.frontCore c x op f cs) with served := sv }
      ∧ ∀ n, Tab.get 0 cs n = (s.core c).counter n - f.claims n + CmdFields.early f n := by
  obtain ⟨cs, h1, h2⟩ := State.issued_core (s := s) (c := c) (x := x) (f := f) h
  refine ⟨cs, Tab.set 3 (s.core c).served (s.issuedEntry c x op f).eng x, ?_, h2⟩
  have hclaim := foldl_butDrawers (fun k d => k.modDrawer d (fun v => { v with claim := true })) (fun _ _ => rfl)
    (s.issuedEntry c x op f).dsts ((s.issued c x op f).core c)
  rw [h1] at hclaim
  unfold State.claimedDests State.started
  rw [State.core_modCore, h1, hclaim.eq_with]
  simp only [Core.modCmd, modFirst, State.issuedEntry_id, beq_self_eq_true, if_true, State.frontCore]
  rw [← State.started_of_issued h]
  rfl

theorem State.claimedDests_drawer (h : op.engine < 4) (d : Nat) :
    ((s.claimedDests c x op f).core c).drawer d =
      if d ∈ (s.plan c x op f).dsts then { ((s.core c).drawer d) with claim := true } else (s.core c).drawer d := by
  have hf := Core.drawer_foldl_modDrawer (fun v => { v with claim := true }) (fun _ => rfl) (s.issuedEntry c x op f).dsts
    ((s.issued c x op f).core c) d
  rw [State.issued_drawer h] at hf
  unfold State.claimedDests State.started
  rw [State.core_modCore]
  exact hf

theorem State.claimedDests_other (h : op.engine < 4) {d : Nat} (hd : d ≠ c) : (s.claimedDests c x op f).core d = s.core d := by
  rw [State.claimedDests, State.started, State.core_modCore_ne _ _ hd, State.issued_other h hd]

theorem State.claimedDests_kept (h : op.engine < 4) : s.Kept (s.claimedDests c x op f) :=
  (State.issued_kept h).trans (State.kept_of (State.modCore_rest _ c _) (fun _ _ => rfl))

/-- An engine command that computes on its own core by stores alone: its run only stores, its result headers are for its core, it reads no
peer, and it does not consume what it writes. -/
structure State.StoreRow (s : State) (c x : Nat) (op : Opcode) (f : CmdFields) : Prop where
  engine : op.engine = 1 ∨ op.engine = 2 ∨ op.engine = 3
  peer : (s.plan c x op f).peer = none
  outs : ∀ o ∈ (s.plan c x op f).lat.outs, o.1 = c
  apart : ∀ d ∈ (s.plan c x op f).dsts, d ∈ (s.plan c x op f).cons → d ∈ (s.plan c x op f).held
  run : (s.claimedDests c x op f).storesOnly (engineRun op (s.claimedDests c x op f) c (s.startedEntry c x op f))

/-- What the row of an engine command leaves. -/
def State.finished (s : State) (c x : Nat) (op : Opcode) (f : CmdFields) : State :=
  (s.ran c x op f).complete c (s.startedEntry c x op f) stOk

/-- A part of the core that completing does not change. -/
theorem State.finished_get {α : Type} (g : Core → α) (hd : ∀ k v, g { k with drawers := v } = g k) (hq : ∀ k v, g { k with q := v } = g k)
    (hc : ∀ k v, g { k with counters := v } = g k) : g ((s.finished c x op f).core c) = g ((s.ran c x op f).core c) := by
  have hend := State.complete_core (s.ran c x op f) c (s.startedEntry c x op f) stOk (by decide) (by decide) c
  rw [State.finished, hend.get g hd, State.dropped_core]
  split
  · exact (hc _ _).trans (hq _ _)
  · exact hq _ _

namespace State.StoreRow

variable (h : s.StoreRow c x op f) (hq : s.Quiet c x)
include h

theorem plain : op.engine < 4 := (Opcode.plain_engine h.engine).1

include hq

theorem ran_core : (s.ran c x op f).core c =
    (((s.claimedDests c x op f).core c).withHdrs (s.plan c x op f).lat.outs).commitDrawers (s.startedEntry c x op f) := by
  have hw := (State.writeOuts_frame (engineRun op (s.claimedDests c x op f) c (s.startedEntry c x op f)) (q := s.startedEntry c x op f)
    hq.core h.outs).1
  unfold State.ran
  rw [State.core_modCore, hw, State.core_congr h.run.cores]
  rfl

theorem ran_other {d : Nat} (hd : d ≠ c) : (s.ran c x op f).core d = s.core d := by
  have hw := (State.writeOuts_frame (engineRun op (s.claimedDests c x op f) c (s.startedEntry c x op f)) (q := s.startedEntry c x op f)
    hq.core h.outs).2.1 d hd
  rw [State.ran, State.core_modCore_ne _ _ hd, hw, State.core_congr h.run.cores, State.claimedDests_other h.plain hd]

/-- The core once the command has run, its drawers apart. -/
theorem ran_front : ∃ cs sv,
    ((s.ran c x op f).core c).butDrawers (Core.withHdrs { (s.frontCore c x op f cs) with served := sv } (s.plan c x op f).lat.outs)
      ∧ ∀ n, Tab.get 0 cs n = (s.core c).counter n - f.claims n + CmdFields.early f n := by
  obtain ⟨cs, sv, h1, h2⟩ := State.claimedDests_core (s := s) (c := c) (x := x) (f := f) h.plain
  refine ⟨cs, sv, ?_, h2⟩
  rw [h.ran_core hq]
  exact (Core.commitDrawers_butDrawers _ _).trans (h1.withHdrs _)

/-- The core that a command's row leaves, its drawers and counters apart: the program counter has moved on, and the result headers stand in
their slots. -/
theorem finished_core : ((s.finished c x op f).core c).hdrs = ((s.core c).withHdrs (s.plan c x op f).lat.outs).hdrs
    ∧ (s.finished c x op f).context c x = { (s.context c x) with pc := (s.context c x).pc + 32 }
    ∧ ((s.finished c x op f).core c).descs = (s.core c).descs ∧ ((s.finished c x op f).core c).tiles = (s.core c).tiles
    ∧ ((s.finished c x op f).core c).accs = (s.core c).accs := by
  obtain ⟨cs, sv, h1, -⟩ := h.ran_front hq
  have hpart : ∀ {α : Type} (g : Core → α), (∀ k v, g { k with drawers := v } = g k) → (∀ k v, g { k with q := v } = g k) →
      (∀ k v, g { k with counters := v } = g k) → (∀ k v, g { k with hdrs := v } = g k) →
      g ((s.finished c x op f).core c) = g { (s.frontCore c x op f cs) with served := sv } := by
    intro α g hd hqq hcc hh
    rw [State.finished_get g hd hqq hcc, h1.get g hd, Core.withHdrs_get g hh]
  have hctx := s.frontCore_context (c := c) (x := x) (op := op) (f := f) cs x
  rw [if_pos rfl] at hctx
  refine ⟨?_, ?_, ?_, ?_, ?_⟩
  · rw [State.finished_get Core.hdrs (fun _ _ => rfl) (fun _ _ => rfl) fun _ _ => rfl, h1.get Core.hdrs fun _ _ => rfl]
    exact Core.withHdrs_hdrs_congr (k := { (s.frontCore c x op f cs) with served := sv }) (l := s.core c) rfl _
  · exact (hpart (Core.context · x) (fun _ _ => rfl) (fun _ _ => rfl) (fun _ _ => rfl) fun _ _ => rfl).trans hctx
  · exact hpart Core.descs (fun _ _ => rfl) (fun _ _ => rfl) (fun _ _ => rfl) fun _ _ => rfl
  · exact hpart Core.tiles (fun _ _ => rfl) (fun _ _ => rfl) (fun _ _ => rfl) fun _ _ => rfl
  · exact hpart Core.accs (fun _ _ => rfl) (fun _ _ => rfl) (fun _ _ => rfl) fun _ _ => rfl

theorem finished_done (ht : s.Takes c x op f) :
    s.Done (s.finished c x op f) c x f ((s.context c x).pc + 32) .running (s.core c).counter := by
  obtain ⟨cs, sv, h1, h2⟩ := h.ran_front hq
  have hctx : ∀ y, (s.ran c x op f).context c y
      = if y = x then { (s.context c x) with pc := (s.context c x).pc + 32 } else s.context c y := by
    intro y
    rw [State.context, h1.context, Core.withHdrs_get (Core.context · y) fun _ _ => rfl]
    exact s.frontCore_context (op := op) (f := f) cs y
  have hcount : ∀ n, ((s.ran c x op f).core c).counter n = (s.core c).counter n - f.claims n + CmdFields.early f n := by
    intro n
    rw [h1.counter, Core.withHdrs_get (Core.counter · n) fun _ _ => rfl]
    exact h2 n
  refine State.complete_done _ _ _ _ (State.ran_q h.plain) h.peer (by simp) (by simp) ?_ ?_ (fun d hd => h.ran_other hq hd) ?_ (by simp)
    ht.mode _ hcount
  · rw [hctx, if_pos rfl]
  · rw [hctx, if_pos rfl]
    exact hq.running
  · intro y hy
    rw [hctx, if_neg hy]

/-- A drawer of the core once the command has run. -/
theorem ran_drawer (d : Nat) : ((s.ran c x op f).core c).drawer d =
    if d ∈ (s.plan c x op f).dsts then { ((s.core c).drawer d) with tag := .full, claim := false }
    else if d ∈ (s.plan c x op f).cons ∧ ¬ d ∈ (s.plan c x op f).held then { ((s.core c).drawer d) with closing := true }
    else (s.core c).drawer d := by
  rw [h.ran_core hq, Core.drawer_commitDrawers,
    Core.withHdrs_get (Core.drawer · d) fun _ _ => rfl, State.claimedDests_drawer h.plain]
  change (if d ∈ (s.plan c x op f).cons ∧ ¬ d ∈ (s.plan c x op f).held then _ else _) = _
  have ha := h.apart d
  by_cases hd : d ∈ (s.plan c x op f).dsts
  · have hc : ¬ (d ∈ (s.plan c x op f).cons ∧ ¬ d ∈ (s.plan c x op f).held) := fun hc => hc.2 (ha hd hc.1)
    rw [if_neg hc, if_pos hd, if_pos hd]
    exact if_pos hd
  · rw [if_neg hd, if_neg hd]
    split
    · exact congrArg (fun v : Drawer => { v with closing := true }) (if_neg hd)
    · exact if_neg hd

theorem finished_tags (hs : s.Starts c x op f) : s.tagsLeft (s.finished c x op f) c (s.plan c x op f) := by
  have hend : ∀ d, ((s.finished c x op f).core c).drawer d = ((s.ran c x op f).core c).drawer d
      ∨ (((s.ran c x op f).core c).drawer d).closing = true
        ∧ ((s.finished c x op f).core c).drawer d = (((s.ran c x op f).core c).drawer d).emptied := by
    intro d
    have hdrop : (((s.ran c x op f).dropped c (s.startedEntry c x op f) stOk).core c).drawer d = ((s.ran c x op f).core c).drawer d := by
      rw [State.dropped_core]
      split <;> rfl
    rw [State.finished, State.complete_ok _ _ _ h.peer, ← hdrop]
    exact State.settleClosing_drawer _ c d
  refine ⟨fun d hd => ?_, fun d hc hh => ?_, fun d hd hc hcl => ?_⟩
  · have hopen := List.all_eq_true.1 hs.dests d hd
    simp only [Bool.and_eq_true, Bool.not_eq_true'] at hopen
    have hr := h.ran_drawer hq d
    rw [if_pos hd] at hr
    rcases hend d with he | ⟨he, -⟩
    · rw [he, hr]
      exact ⟨rfl, rfl⟩
    · rw [hr] at he
      exact absurd (he : ((s.core c).drawer d).closing = true) (by simp [hopen.2])
  · have hnd : ¬ d ∈ (s.plan c x op f).dsts := fun hd => hh (h.apart d hd hc)
    have hr := h.ran_drawer hq d
    rw [if_neg hnd, if_pos ⟨hc, hh⟩] at hr
    rcases hend d with he | ⟨-, he⟩
    · rw [he, hr]
      exact .inr rfl
    · rw [he]
      exact .inl rfl
  · have hr := h.ran_drawer hq d
    rw [if_neg hd, if_neg fun h => hc h.1] at hr
    rcases hend d with he | ⟨he, -⟩
    · rw [he, hr]
    · rw [hr, hcl] at he
      exact absurd he (by decide)

theorem finished_traffic : s.sameTraffic (s.finished c x op f) := by
  have hw := (State.writeOuts_frame (engineRun op (s.claimedDests c x op f) c (s.startedEntry c x op f)) (q := s.startedEntry c x op f)
    hq.core h.outs).2.2
  have h1 : s.sameTraffic (engineRun op (s.claimedDests c x op f) c (s.startedEntry c x op f)) :=
    (State.claimedDests_kept h.plain).traffic.trans h.run.traffic
  have h2 : State.sameTraffic (engineRun op (s.claimedDests c x op f) c (s.startedEntry c x op f)) (s.ran c x op f) :=
    ⟨hw.get State.bars fun _ _ => rfl, hw.get State.ctrs fun _ _ => rfl, hw.get State.sigs fun _ _ => rfl, hw.get State.out fun _ _ => rfl⟩
  exact (h1.trans h2).trans (State.complete_kept _ c _ h.peer).traffic

/-- Memory once the row has completed is memory as the run left it. -/
theorem finished_readByte (a : Nat) : (s.finished c x op f).readByte a =
    (engineRun op (s.claimedDests c x op f) c (s.startedEntry c x op f)).readByte a := by
  have hw := (State.writeOuts_frame (engineRun op (s.claimedDests c x op f) c (s.startedEntry c x op f)) (q := s.startedEntry c x op f)
    hq.core h.outs).2.2
  rw [State.finished, (State.complete_kept _ c _ h.peer).mem]
  exact hw.get (State.readByte · a) fun _ _ => rfl

end State.StoreRow

theorem State.Quiet.runRow_eq (hq : s.Quiet c x) : runRow op c x f s = .next (s.runWord c x (encodeCmd op f)) := by
  have : ctxExists c x = true := decide_eq_true ⟨hq.core, hq.ctx⟩
  rw [runRow, if_pos this]

/-- An engine row of commands that compute by stores: what is left to show is what its own effect is. -/
theorem engineRow_of_storeRow {mk : Nat → Nat → CmdFields → Instr} {pre : State → Nat → Nat → CmdFields → Prop}
    {post : State → Nat → Nat → CmdFields → State → Prop} (hmk : ∀ c x f s, exec (mk c x f) s = runRow op c x f s)
    (hrow : ∀ s c x f, s.Passes c x op f → pre s c x f → s.StoreRow c x op f)
    (hpost : ∀ s c x f, s.Quiet c x → s.Passes c x op f → pre s c x f → post s c x f (s.finished c x op f)) :
    EngineRow mk op pre post := by
  intro s c x f hq ht ⟨hp, hs, hpre⟩
  have h := hrow s c x f hp hpre
  obtain ⟨-, -, hdescs, -, -⟩ := h.finished_core hq
  obtain ⟨hbars, hctrs, hsigs, hout⟩ := h.finished_traffic hq
  refine ⟨s.finished c x op f, ?_, hpost s c x f hq hp hpre, h.finished_tags hq hs, h.finished_done hq ht, hdescs, hbars, hctrs, hsigs, hout⟩
  rw [hmk, hq.runRow_eq, hq.engine ht hp h.engine hs]
  rfl

end Sys2Proof.Machine
end

section
/-!
What the issue checks of the NTT engine's commands leave once they pass (03 R72, R73, R76), and the obligation about those commands.
-/
namespace Sys2Proof.Machine

variable {s : State} {c x : Nat} {f : CmdFields}

/-! ### Plans that pass -/

theorem firstFail_eq_none {cs : List (Bool × Nat)} (h : firstFail cs = none) : ∀ e ∈ cs, e.1 = true := by
  induction cs with
  | nil => simp
  | cons e cs ih =>
    obtain ⟨ok, st⟩ := e
    cases ok with
    | false => simp [firstFail] at h
    | true =>
      intro d hd
      rcases List.mem_cons.1 hd with rfl | hd
      · rfl
      · exact ih h d hd

/-- A plan behind checks that is not refused passed them all. -/
theorem Plan.checks_ok {cs : List (Bool × Nat)} {p : Plan} (h : (Plan.checks cs p).v = .ok) :
    (∀ e ∈ cs, e.1 = true) ∧ Plan.checks cs p = p := by
  unfold Plan.checks at h ⊢
  split at h
  case h_1 => cases h
  case h_2 hn => exact ⟨firstFail_eq_none hn, rfl⟩

/-- A plan behind the header checks that is not refused and does not wait has a resident profile (02 R41). -/
theorem Plan.header_ok {h : Header} {p : Plan} (hv : (Plan.header s h p).v = .ok) :
    (∃ pr, s.profOf h = some pr) ∧ Plan.header s h p = p := by
  unfold Plan.header at hv ⊢
  dsimp only at hv ⊢
  split at hv
  case isTrue => cases hv
  rename_i h1
  split at hv
  case isTrue => cases hv
  rename_i h2
  split at hv
  case h_1 => cases hv
  rename_i h3
  refine ⟨?_, by rw [if_neg h1, if_neg h2]⟩
  cases hp : s.profOf h with
  | some pr => exact ⟨pr, rfl⟩
  | none =>
    rw [hp] at h3
    simp [Header.check, Header.check5, h1] at h3

/-- Whatever is consumed, a run of drawers read and a run apart written share none that is both. -/
theorem Plan.runs_apart {a b : List Nat} {consume : Bool} (h : sameOrDisjoint a b = true) :
    ∀ d ∈ (({} : Plan).runs a b consume).dsts, ¬ d ∈ (({} : Plan).runs a b consume).cons := by
  unfold Plan.runs
  split
  case isTrue => simp
  case isFalse hne =>
    intro d hd hc
    have hc : d ∈ a := by
      cases consume with
      | false => simp at hc
      | true => exact hc
    rcases Bool.or_eq_true_iff.1 h with h | h
    · exact hne (by simpa using h)
    · have := List.all_eq_true.1 h d hc
      simp [show d ∈ b from hd] at this

theorem Plan.runs_peer (a b : List Nat) (consume : Bool) : (({} : Plan).runs a b consume).peer = none := by
  unfold Plan.runs
  split <;> rfl

theorem Plan.runs_lat (a b : List Nat) (consume : Bool) : (({} : Plan).runs a b consume).lat = {} := by
  unfold Plan.runs
  split <;> rfl

/-! ### Result headers of a transform -/

/-- Writing a field leaves the bits below it. -/
theorem putBits_toNat_mod {n : Nat} (v : BitVec n) {hi lo : Nat} (x : Nat) (hn : lo ≤ n) (hl : lo ≤ hi + 1) :
    (putBits v hi lo x).toNat % 2 ^ lo = v.toNat % 2 ^ lo := by
  obtain ⟨k, hk⟩ := Nat.exists_eq_add_of_le hl
  have hpow : ∀ y, y * 2 ^ (hi + 1) = y * 2 ^ k * 2 ^ lo := fun y => by rw [hk, Nat.pow_add]; ring
  rw [putBits, BitVec.toNat_ofNat, Nat.mod_mod_of_dvd _ (Nat.pow_dvd_pow 2 hn), natPut, hpow, Nat.add_mul_mod_self_right,
    Nat.add_mul_mod_self_right, Nat.mod_mod]

/-- A field below a field that is written reads as it did. -/
theorem bits_putBits_below {n : Nat} (v : BitVec n) {hi lo hi' : Nat} (lo' x : Nat) (hn : lo ≤ n) (hl : lo ≤ hi + 1) (h : hi' < lo) :
    bits (putBits v hi lo x) hi' lo' = bits v hi' lo' := by
  have hmod := putBits_toNat_mod v x hn hl
  have hbit : ∀ i, i < lo → (putBits v hi lo x).toNat.testBit i = v.toNat.testBit i := by
    intro i hi
    have := congrArg (Nat.testBit · i) hmod
    simpa [Nat.testBit_mod_two_pow, hi] using this
  refine Nat.eq_of_testBit_eq fun i => ?_
  simp only [bits, natBits, Nat.testBit_mod_two_pow, Nat.testBit_div_two_pow]
  by_cases hi : i < hi' + 1 - lo'
  · rw [hbit _ (by omega)]
  · simp [hi]

/-- A header with its DOMAIN written and sealed names an object of the same size. -/
theorem Header.withDomain_seal_size (h : Header) (d : Nat) :
    (h.withDomain d).seal.log2n = h.log2n ∧ (h.withDomain d).seal.limbs = h.limbs ∧ (h.withDomain d).seal.polys = h.polys :=
  ⟨bits_putBits_below h.w0 24 d (by decide) (by decide) (by decide), bits_putBits_below h.w0 32 d (by decide) (by decide) (by decide),
    bits_putBits_below h.w0 40 d (by decide) (by decide) (by decide)⟩

/-! ### The plans of the NTT engine -/

theorem encodeCmd_nSrc (op : Opcode) : (encodeCmd op f).nSrc = bits f.w2 63 56 := by rw [Cmd.nSrc, encodeCmd_w2]
theorem encodeCmd_nDst (op : Opcode) : (encodeCmd op f).nDst = bits f.w2 55 48 := by rw [Cmd.nDst, encodeCmd_w2]
theorem encodeCmd_nSlot (op : Opcode) : (encodeCmd op f).nSlot = bits f.w2 47 46 := by rw [Cmd.nSlot, encodeCmd_w2]
theorem encodeCmd_nFirst (op : Opcode) : (encodeCmd op f).nFirst = bits f.w2 45 40 := by rw [Cmd.nFirst, encodeCmd_w2]
theorem encodeCmd_nCount (op : Opcode) : (encodeCmd op f).nCount = bits f.w2 39 33 := by rw [Cmd.nCount, encodeCmd_w2]
theorem encodeCmd_nLog2n (op : Opcode) : (encodeCmd op f).nLog2n = bits f.w2 32 28 := by rw [Cmd.nLog2n, encodeCmd_w2]
theorem encodeCmd_nGhalf (op : Opcode) : (encodeCmd op f).nGhalf = bits f.w2 27 11 := by rw [Cmd.nGhalf, encodeCmd_w2]

theorem Core.hdr_congr {k l : Core} (h : k.hdrs = l.hdrs) (e : Nat) : k.hdr e = l.hdr e := by rw [Core.hdr, h, Core.hdr]

theorem State.hdr_claimed (w : Cmd) (d : Nat) : ((s.claimed c x w).core c).hdr d = (s.core c).hdr d := by
  simp [State.claimed, State.arrived, Core.hdr, Core.setContext]

/-- What an NTTO or INTTO that passes its checks does: it reads the run of its source, writes the run of its destination, and latches the
profile, its bank and the result header (03 R72, R76). -/
theorem planNttObject_ok {dom : Nat} {q : QCmd} (hv : (planNttObject dom s c q).v = .ok) :
    let h := (s.core c).hdr q.cmd.nSrc
    sameOrDisjoint (h.run q.cmd.nSrc) (h.run q.cmd.nDst) = true
    ∧ (∃ p, s.profOf h = some p)
    ∧ planNttObject dom s c q = (({} : Plan).runs (h.run q.cmd.nSrc) (h.run q.cmd.nDst) q.cmd.consume1).latched s h
        [(c, q.cmd.nDst, (h.withDomain (1 - dom)).seal)] := by
  unfold planNttObject at hv ⊢
  dsimp only at hv ⊢
  obtain ⟨hchecks, he1⟩ := Plan.checks_ok hv
  rw [he1] at hv ⊢
  obtain ⟨hprof, he2⟩ := Plan.header_ok hv
  rw [he2] at hv ⊢
  obtain ⟨-, he3⟩ := Plan.checks_ok hv
  rw [he3] at hv ⊢
  refine ⟨?_, hprof, ?_⟩
  · have := hchecks _ (List.mem_cons_of_mem _ (List.mem_cons_of_mem _ (List.mem_cons_self ..)))
    simp only [Bool.and_eq_true] at this
    exact this.2
  · split at hv
    case h_1 => cases hv
    case h_2 => rfl

/-- The same for the commands on runs of limbs (03 R73, R76). -/
theorem planNttLimbs_ok {q : QCmd} (hv : (planNttLimbs s c q).v = .ok) :
    1 ≤ q.cmd.nCount
    ∧ sameOrDisjoint (objDrawers q.cmd.nSrc q.cmd.nCount q.cmd.nLog2n) (objDrawers q.cmd.nDst q.cmd.nCount q.cmd.nLog2n) = true
    ∧ planNttLimbs s c q = { (({} : Plan).runs (objDrawers q.cmd.nSrc q.cmd.nCount q.cmd.nLog2n)
        (objDrawers q.cmd.nDst q.cmd.nCount q.cmd.nLog2n) q.cmd.consume1) with lat := { bank := (s.table q.cmd.nSlot).bank } } := by
  unfold planNttLimbs at hv ⊢
  dsimp only at hv ⊢
  obtain ⟨hchecks, he1⟩ := Plan.checks_ok hv
  rw [he1] at hv ⊢
  have hshape := hchecks _ (List.mem_cons_of_mem _ (List.mem_cons_self ..))
  have hruns := hchecks _ (List.mem_cons_of_mem _ (List.mem_cons_of_mem _ (List.mem_cons_of_mem _ (List.mem_cons_self ..))))
  simp only [Bool.and_eq_true] at hruns
  refine ⟨(of_decide_eq_true hshape).1, hruns.2, ?_⟩
  split at hv
  case isTrue => cases hv
  case isFalse ha =>
    rw [if_neg ha]
    exact (Plan.checks_ok hv).2

theorem State.table_claimed (w : Cmd) (n : Nat) : (s.claimed c x w).table n = s.table n := rfl

theorem State.profOf_claimed (w : Cmd) (h : Header) : (s.claimed c x w).profOf h = s.profOf h := rfl

/-- The plan of an NTTO or INTTO on a quiet core. -/
theorem State.plan_transformObject {op : Opcode} {dom : Nat} (hop : ∀ s c q, planOf op s c q = planNttObject dom s c q)
    (hv : (s.plan c x op f).v = .ok) :
    let h := (s.core c).hdr (bits f.w2 63 56)
    sameOrDisjoint (h.run (bits f.w2 63 56)) (h.run (bits f.w2 55 48)) = true
    ∧ ∃ p, s.profOf h = some p
      ∧ s.plan c x op f = { (({} : Plan).runs (h.run (bits f.w2 63 56)) (h.run (bits f.w2 55 48)) (encodeCmd op f).consume1) with
          lat := { prof := some p, bank := (s.table p.slot).bank, outs := [(c, bits f.w2 55 48, (h.withDomain (1 - dom)).seal)] } } := by
  rw [State.plan, hop] at hv ⊢
  obtain ⟨hruns, ⟨p, hprof⟩, hplan⟩ := planNttObject_ok hv
  have hcmd : (s.entry c x (encodeCmd op f)).cmd = encodeCmd op f := rfl
  rw [hcmd, encodeCmd_nSrc, State.hdr_claimed, State.profOf_claimed] at hprof
  rw [hcmd, encodeCmd_nSrc, encodeCmd_nDst, State.hdr_claimed] at hruns hplan
  refine ⟨hruns, p, hprof, ?_⟩
  rw [hplan, Plan.latched, Plan.runs_lat, State.profOf_claimed, hprof]
  rfl

/-- The plan of a command on a run of limbs on a quiet core. -/
theorem State.plan_transformLimbs {op : Opcode} (hop : ∀ s c q, planOf op s c q = planNttLimbs s c q) (hv : (s.plan c x op f).v = .ok) :
    1 ≤ bits f.w2 39 33
    ∧ sameOrDisjoint (objDrawers (bits f.w2 63 56) (bits f.w2 39 33) (bits f.w2 32 28))
        (objDrawers (bits f.w2 55 48) (bits f.w2 39 33) (bits f.w2 32 28)) = true
    ∧ s.plan c x op f = { (({} : Plan).runs (objDrawers (bits f.w2 63 56) (bits f.w2 39 33) (bits f.w2 32 28))
        (objDrawers (bits f.w2 55 48) (bits f.w2 39 33) (bits f.w2 32 28)) (encodeCmd op f).consume1) with
          lat := { bank := (s.table (bits f.w2 47 46)).bank } } := by
  rw [State.plan, hop] at hv ⊢
  have hok := planNttLimbs_ok hv
  have hcmd : (s.entry c x (encodeCmd op f)).cmd = encodeCmd op f := rfl
  rw [hcmd, encodeCmd_nSrc, encodeCmd_nDst, encodeCmd_nCount, encodeCmd_nLog2n, encodeCmd_nSlot, State.table_claimed] at hok
  exact hok

/-! ### The runs of the NTT engine -/

theorem transformLimb_length (inverse : Bool) (b : Bank) (e n : Nat) (vs : List Nat) : (transformLimb inverse b e n vs).length = 2 ^ n := by
  unfold transformLimb
  dsimp only
  split
  · simp [inttLimb]
  · simp [nttLimb]

theorem autLimb_length (n g : Nat) (vs : List Nat) : (autLimb n g vs).length = 2 ^ n := by simp [autLimb]

theorem runNttObject_storesOnly (inverse : Bool) (q : QCmd) : s.storesOnly (runNttObject inverse s c q) := by
  unfold runNttObject
  split
  · exact State.mapLimbs_storesOnly _ _ _ _ _ _ _
  · exact State.storesOnly.refl s

/-- An object is transformed limb by limb, each by the prime of its profile (03 R72). -/
theorem runNttObject_eq (inverse : Bool) {q : QCmd} {d : Nat} {h : Header} {p : Profile} (hout : q.lat.outs = [(c, d, h)])
    (hprof : q.lat.prof = some p) :
    runNttObject inverse s c q = s.mapLimbs c q.cmd.nSrc q.cmd.nDst h.log2n (h.polys * h.limbs)
      (fun i => transformLimb inverse q.lat.bank (p.qFirst + i / h.polys) h.log2n) := by
  unfold runNttObject
  rw [hout, hprof]
  rfl

/-- A row whose run makes limbs in order leaves them made from the limbs it found. -/
theorem State.StoreRow.finished_limbs {op : Opcode} (h : s.StoreRow c x op f) (hq : s.Quiet c x) {src dst log2n n : Nat}
    {g : Nat → List Nat → List Nat}
    (hrun : engineRun op (s.claimedDests c x op f) c (s.startedEntry c x op f) = (s.claimedDests c x op f).mapLimbs c src dst log2n n g)
    (hg : ∀ i vs, (g i vs).length = 2 ^ log2n) (hr : runsApart src dst n log2n) :
    s.limbsWritten (s.finished c x op f) c dst log2n n (fun i => g i (s.readLimb c src log2n i)) := by
  have hkept := (State.claimedDests_kept (s := s) (c := c) (x := x) (f := f) h.plain).mem
  refine (State.mapLimbs_written (s.claimedDests c x op f) c hg hr).congr (fun a => (hkept a).symm) (fun a => ?_) fun i => ?_
  · rw [h.finished_readByte hq, hrun]
  · rw [State.readLimb_congr fun a _ _ => hkept a]

/-! ### The rows -/

theorem State.storeRow_transformObject {op : Opcode} {inverse : Bool} {dom : Nat} (heng : op.engine = 1)
    (hop : ∀ s c q, planOf op s c q = planNttObject dom s c q) (hrun : ∀ s c q, engineRun op s c q = runNttObject inverse s c q)
    (hv : (s.plan c x op f).v = .ok) : s.StoreRow c x op f := by
  obtain ⟨hruns, p, -, hplan⟩ := State.plan_transformObject hop hv
  refine ⟨.inl heng, ?_, ?_, ?_, ?_⟩
  · rw [hplan]
    exact Plan.runs_peer _ _ _
  · rw [hplan]
    exact fun o ho => by rw [List.mem_singleton.1 ho]
  · rw [hplan]
    exact fun d hd hc => absurd hc (Plan.runs_apart hruns d hd)
  · rw [hrun]
    exact runNttObject_storesOnly inverse _

theorem State.storeRow_transformLimbs {op : Opcode} (heng : op.engine = 1) (hop : ∀ s c q, planOf op s c q = planNttLimbs s c q)
    (hrun : State.storesOnly (s.claimedDests c x op f) (engineRun op (s.claimedDests c x op f) c (s.startedEntry c x op f)))
    (hv : (s.plan c x op f).v = .ok) : s.StoreRow c x op f := by
  obtain ⟨-, hruns, hplan⟩ := State.plan_transformLimbs hop hv
  refine ⟨.inl heng, ?_, ?_, ?_, hrun⟩
  · rw [hplan]
    exact Plan.runs_peer _ _ _
  · rw [hplan]
    exact fun o ho => absurd ho List.not_mem_nil
  · rw [hplan]
    exact fun d hd hc => absurd hc (Plan.runs_apart hruns d hd)

/-- What a started entry has latched is what its plan says, the table slots apart. -/
theorem State.startedEntry_lat (op : Opcode) : (s.startedEntry c x op f).lat.outs = (s.plan c x op f).lat.outs
    ∧ (s.startedEntry c x op f).lat.prof = (s.plan c x op f).lat.prof ∧ (s.startedEntry c x op f).lat.bank = (s.plan c x op f).lat.bank :=
  ⟨rfl, rfl, rfl⟩

/-- NTTO and INTTO: the transform of every limb, and the header of the result. -/
theorem transformObject_row {mk : Nat → Nat → CmdFields → Instr} {op : Opcode} {inverse : Bool} {dom : Nat} (heng : op.engine = 1)
    (hmk : ∀ c x f s, exec (mk c x f) s = runRow op c x f s) (hop : ∀ s c q, planOf op s c q = planNttObject dom s c q)
    (hrun : ∀ s c q, engineRun op s c q = runNttObject inverse s c q) :
    EngineRow mk op (fun s c _ f => ((s.core c).hdr (bits f.w2 63 56)).sized = true) (fun s c x f t =>
      ∃ p, s.profOf ((s.core c).hdr (bits f.w2 63 56)) = some p
        ∧ s.limbsWritten t c (bits f.w2 55 48) ((s.core c).hdr (bits f.w2 63 56)).log2n
            (((s.core c).hdr (bits f.w2 63 56)).polys * ((s.core c).hdr (bits f.w2 63 56)).limbs)
            (fun i => transformLimb inverse (s.table p.slot).bank (p.qFirst + i / ((s.core c).hdr (bits f.w2 63 56)).polys)
              ((s.core c).hdr (bits f.w2 63 56)).log2n (s.readLimb c (bits f.w2 63 56) ((s.core c).hdr (bits f.w2 63 56)).log2n i))
        ∧ s.onlyHeader t c x (bits f.w2 55 48) ((((s.core c).hdr (bits f.w2 63 56)).withDomain (1 - dom)).seal)) := by
  refine engineRow_of_storeRow hmk (fun s c x f hp _ => State.storeRow_transformObject heng hop hrun hp.2) fun s c x f hq hp hsized => ?_
  have h := State.storeRow_transformObject heng hop hrun hp.2
  obtain ⟨hruns, p, hprof, hplan⟩ := State.plan_transformObject hop hp.2
  obtain ⟨hout, hlprof, hbank⟩ := State.startedEntry_lat (s := s) (c := c) (x := x) (f := f) op
  obtain ⟨hhdrs, hctx, -, htiles, haccs⟩ := h.finished_core hq
  rw [hplan] at hout hlprof hbank hhdrs
  generalize (s.core c).hdr (bits f.w2 63 56) = hd at hsized hruns hprof hout hlprof hbank hhdrs ⊢
  obtain ⟨hlog, hlimbs, hpolys⟩ := hd.withDomain_seal_size (1 - dom)
  have hsize : 1 ≤ hd.polys * hd.limbs := Nat.mul_pos (of_decide_eq_true hsized).1 (of_decide_eq_true hsized).2.1
  have hapart : runsApart (bits f.w2 63 56) (bits f.w2 55 48) (hd.polys * hd.limbs) hd.log2n := by
    refine runsApart_of_sameOrDisjoint ?_ hsize
    simpa only [Header.run, hsized, if_true] using hruns
  have hnew : ∀ e, ((s.finished c x op f).core c).hdr e
      = ((s.core c).setHdr (bits f.w2 55 48) (hd.withDomain (1 - dom)).seal).hdr e := Core.hdr_congr hhdrs
  refine ⟨p, hprof, ?_, ?_, fun e he => ?_, hctx, htiles, haccs⟩
  · refine h.finished_limbs hq (g := fun i => transformLimb inverse (s.table p.slot).bank (p.qFirst + i / hd.polys) hd.log2n) ?_
      (fun i vs => transformLimb_length _ _ _ _ _) hapart
    rw [hrun, runNttObject_eq inverse hout hlprof, hlog, hlimbs, hpolys, hbank, State.startedEntry_cmd, encodeCmd_nSrc, encodeCmd_nDst]
  · rw [hnew, Core.hdr_setHdr]
  · rw [hnew, Core.hdr_setHdr_ne _ _ he]

/-- A command on a run of limbs: each limb of the result by the entry of its number, and no header. -/
theorem transformLimbs_row {mk : Nat → Nat → CmdFields → Instr} {op : Opcode} (g : CmdFields → Bank → Nat → List Nat → List Nat)
    (heng : op.engine = 1) (hmk : ∀ c x f s, exec (mk c x f) s = runRow op c x f s) (hop : ∀ s c q, planOf op s c q = planNttLimbs s c q)
    (hg : ∀ f b i vs, (g f b i vs).length = 2 ^ bits f.w2 32 28)
    (hrun : ∀ (s : State) (c : Nat) (q : QCmd) (f : CmdFields), q.cmd = encodeCmd op f → engineRun op s c q =
      s.mapLimbs c (bits f.w2 63 56) (bits f.w2 55 48) (bits f.w2 32 28) (bits f.w2 39 33) (g f q.lat.bank)) :
    EngineRow mk op (fun _ _ _ _ => True) (fun s c x f t =>
      s.limbsWritten t c (bits f.w2 55 48) (bits f.w2 32 28) (bits f.w2 39 33)
        (fun i => g f (s.table (bits f.w2 47 46)).bank i (s.readLimb c (bits f.w2 63 56) (bits f.w2 32 28) i))
      ∧ (t.core c).hdrs = (s.core c).hdrs ∧ t.context c x = { (s.context c x) with pc := (s.context c x).pc + 32 }) := by
  have hrow : ∀ (s : State) (c x : Nat) (f : CmdFields), s.Passes c x op f → s.StoreRow c x op f := by
    intro s c x f hp
    refine State.storeRow_transformLimbs heng hop ?_ hp.2
    rw [hrun _ _ _ f rfl]
    exact State.mapLimbs_storesOnly _ _ _ _ _ _ _
  refine engineRow_of_storeRow hmk (fun s c x f hp _ => hrow s c x f hp) fun s c x f hq hp _ => ?_
  have h := hrow s c x f hp
  obtain ⟨hcount, hruns, hplan⟩ := State.plan_transformLimbs hop hp.2
  obtain ⟨-, -, hbank⟩ := State.startedEntry_lat (s := s) (c := c) (x := x) (f := f) op
  obtain ⟨hhdrs, hctx, -, -, -⟩ := h.finished_core hq
  rw [hplan] at hbank hhdrs
  refine ⟨h.finished_limbs hq ?_ (hg f _) (runsApart_of_sameOrDisjoint hruns hcount), hhdrs, hctx⟩
  rw [hrun _ _ _ f rfl, hbank]

/-- A transform of a run of limbs makes them in order, limb `i` by entry FIRST + `i` (03 R73). -/
theorem runNttLimbs_eq {op : Opcode} (inverse : Bool) {q : QCmd} (hq : q.cmd = encodeCmd op f) :
    runNttLimbs inverse s c q = s.mapLimbs c (bits f.w2 63 56) (bits f.w2 55 48) (bits f.w2 32 28) (bits f.w2 39 33)
      (fun i => transformLimb inverse q.lat.bank (bits f.w2 45 40 + i) (bits f.w2 32 28)) := by
  unfold runNttLimbs State.mapLimbs
  simp only [hq, encodeCmd_nSrc, encodeCmd_nDst, encodeCmd_nFirst, encodeCmd_nCount, encodeCmd_nLog2n]

/-- AUTOL applies the automorphism to limb after limb (03 R70). -/
theorem runAutol_eq {op : Opcode} {q : QCmd} (hq : q.cmd = encodeCmd op f) :
    runAutol s c q = s.mapLimbs c (bits f.w2 63 56) (bits f.w2 55 48) (bits f.w2 32 28) (bits f.w2 39 33)
      (fun i vs => autLimb (bits f.w2 32 28) (galoisOf (bits f.w2 32 28) (bits f.w2 27 11))
        (vs.map (· % q.lat.bank.q (bits f.w2 45 40 + i)))) := by
  unfold runAutol State.mapLimbs
  simp only [hq, encodeCmd_nSrc, encodeCmd_nDst, encodeCmd_nFirst, encodeCmd_nCount, encodeCmd_nLog2n, encodeCmd_nGhalf]

/-- NTTL and INTTL: each limb by the entry of its number (03 R73). -/
theorem nttLimbs_row {mk : Nat → Nat → CmdFields → Instr} {op : Opcode} {inverse : Bool} (heng : op.engine = 1)
    (hmk : ∀ c x f s, exec (mk c x f) s = runRow op c x f s) (hop : ∀ s c q, planOf op s c q = planNttLimbs s c q)
    (hrun : ∀ s c q, engineRun op s c q = runNttLimbs inverse s c q) :
    EngineRow mk op (fun _ _ _ _ => True) (fun s c x f t =>
      s.limbsWritten t c (bits f.w2 55 48) (bits f.w2 32 28) (bits f.w2 39 33)
        (fun i => transformLimb inverse (s.table (bits f.w2 47 46)).bank (bits f.w2 45 40 + i) (bits f.w2 32 28)
          (s.readLimb c (bits f.w2 63 56) (bits f.w2 32 28) i))
      ∧ (t.core c).hdrs = (s.core c).hdrs ∧ t.context c x = { (s.context c x) with pc := (s.context c x).pc + 32 }) :=
  transformLimbs_row (fun f b i => transformLimb inverse b (bits f.w2 45 40 + i) (bits f.w2 32 28)) heng hmk hop
    (fun _ _ _ _ => transformLimb_length _ _ _ _ _) fun _ _ _ _ hq => (hrun _ _ _).trans (runNttLimbs_eq inverse hq)

/-! ### The obligation -/

/-- Settles O8: each command's row by its plan and by the limbs its run makes. -/
theorem nttCommandsTransformLimbs : Obligations.NttCommandsTransformLimbs := by
  unfold Obligations.NttCommandsTransformLimbs
  refine ⟨fun inverse => ?_, fun inverse => ?_, ?_⟩
  · cases inverse with
    | false => exact transformObject_row (dom := 0) rfl (fun _ _ _ _ => rfl) (fun _ _ _ => rfl) fun _ _ _ => rfl
    | true => exact transformObject_row (dom := 1) rfl (fun _ _ _ _ => rfl) (fun _ _ _ => rfl) fun _ _ _ => rfl
  · cases inverse with
    | false => exact nttLimbs_row rfl (fun _ _ _ _ => rfl) (fun _ _ _ => rfl) fun _ _ _ => rfl
    | true => exact nttLimbs_row rfl (fun _ _ _ _ => rfl) (fun _ _ _ => rfl) fun _ _ _ => rfl
  · exact transformLimbs_row (fun f b i vs => autLimb (bits f.w2 32 28) (galoisOf (bits f.w2 32 28) (bits f.w2 27 11))
        (vs.map (· % b.q (bits f.w2 45 40 + i))))
      rfl (fun _ _ _ _ => rfl) (fun _ _ _ => rfl) (fun _ _ _ _ => autLimb_length _ _ _) fun _ _ _ _ hq => runAutol_eq hq

end Sys2Proof.Machine
end

section
/-!
The whole row of an engine command that works on storage of its own core, beside what stores change: what its core, its drawers and the
rest of the state are once it has completed, from its plan and from what its run leaves (06 R126; 09 R189, R191).
-/
namespace Sys2Proof.Machine

variable {s : State} {c x : Nat} {op : Opcode} {f : CmdFields}

/-- A plan that reads no peer, makes no result header, and consumes nothing it writes. -/
structure Plan.ownCore (p : Plan) : Prop where
  peer : p.peer = none
  outs : p.lat.outs = []
  apart : ∀ d ∈ p.dsts, ¬ d ∈ p.cons

theorem Plan.ownCore_checks {p : Plan} (h : p.ownCore) (cs : List (Bool × Nat)) : (Plan.checks cs p).ownCore := by
  unfold Plan.checks
  split
  · exact ⟨rfl, rfl, fun _ hd => absurd hd List.not_mem_nil⟩
  · exact h

/-- An engine command's run, from the state that its start leaves. -/
def State.afterRun (s : State) (c x : Nat) (op : Opcode) (f : CmdFields) : State :=
  engineRun op (s.claimedDests c x op f) c (s.startedEntry c x op f)

/-- An engine command that computes on its own core: its run touches no context and nothing that goes between the parts of the device. -/
structure State.CoreRow (s : State) (c x : Nat) (op : Opcode) (f : CmdFields) : Prop where
  engine : op.engine = 1 ∨ op.engine = 2 ∨ op.engine = 3
  plan : (s.plan c x op f).ownCore
  ctx : ((s.afterRun c x op f).core c).ctx = ((s.claimedDests c x op f).core c).ctx
  traffic : (s.claimedDests c x op f).sameTraffic (s.afterRun c x op f)

/-- A drawer as its command's completion leaves it: as the commit did, or closing then and EMPTY now. -/
theorem State.finished_drawer (hp : (s.plan c x op f).peer = none) (d : Nat) :
    ((s.finished c x op f).core c).drawer d = ((s.ran c x op f).core c).drawer d
      ∨ (((s.ran c x op f).core c).drawer d).closing = true
        ∧ ((s.finished c x op f).core c).drawer d = (((s.ran c x op f).core c).drawer d).emptied := by
  have hdrop : (((s.ran c x op f).dropped c (s.startedEntry c x op f) stOk).core c).drawer d = ((s.ran c x op f).core c).drawer d := by
    rw [State.dropped_core]
    split <;> rfl
  rw [State.finished, State.complete_ok _ _ _ hp, ← hdrop]
  exact State.settleClosing_drawer _ c d

namespace State.CoreRow

variable (h : s.CoreRow c x op f)
include h

theorem plain : op.engine < 4 := (Opcode.plain_engine h.engine).1

theorem ran_eq : s.ran c x op f = (s.afterRun c x op f).modCore c (fun k => k.commitDrawers (s.startedEntry c x op f)) := by
  have hout : (s.startedEntry c x op f).lat.outs = [] := h.plan.outs
  have hw : (s.afterRun c x op f).writeOuts (s.startedEntry c x op f) = s.afterRun c x op f := by
    rw [State.writeOuts, hout]
    rfl
  rw [← hw]
  rfl

/-- A part of the core that neither the commit nor the completion changes is as the run left it. -/
theorem finished_part {α : Type} (g : Core → α) (hd : ∀ k v, g { k with drawers := v } = g k) (hq : ∀ k v, g { k with q := v } = g k)
    (hc : ∀ k v, g { k with counters := v } = g k) : g ((s.finished c x op f).core c) = g ((s.afterRun c x op f).core c) := by
  rw [State.finished_get g hd hq hc, h.ran_eq, State.core_modCore]
  exact (Core.commitDrawers_butDrawers _ _).get g hd

/-- A part of the core that the run leaves is, at the commit, what the start left. -/
theorem ran_part {α : Type} {g : Core → α} (hd : ∀ k v, g { k with drawers := v } = g k)
    (hrun : g ((s.afterRun c x op f).core c) = g ((s.claimedDests c x op f).core c)) :
    g ((s.ran c x op f).core c) = g ((s.claimedDests c x op f).core c) := by
  rw [h.ran_eq, State.core_modCore, (Core.commitDrawers_butDrawers _ _).get g hd, hrun]

theorem finished_hdrs_descs : ((s.finished c x op f).core c).hdrs = (s.core c).hdrs
    ∧ ((s.finished c x op f).core c).descs = (s.core c).descs := by
  obtain ⟨cs, sv, h1, -⟩ := State.claimedDests_core (s := s) (c := c) (x := x) (f := f) h.plain
  obtain ⟨-, -, hhdrs, hdescs, -⟩ := (engineRun_front op (s.claimedDests c x op f) c (s.startedEntry c x op f)).1
  refine ⟨?_, ?_⟩
  · exact (h.finished_part Core.hdrs (fun _ _ => rfl) (fun _ _ => rfl) fun _ _ => rfl).trans
      (hhdrs.trans (h1.get Core.hdrs fun _ _ => rfl))
  · exact (h.finished_part Core.descs (fun _ _ => rfl) (fun _ _ => rfl) fun _ _ => rfl).trans
      (hdescs.trans (h1.get Core.descs fun _ _ => rfl))

theorem ran_other {d : Nat} (hd : d ≠ c) : (s.ran c x op f).core d = s.core d := by
  rw [h.ran_eq, State.core_modCore_ne _ _ hd]
  exact ((engineRun_front op (s.claimedDests c x op f) c (s.startedEntry c x op f)).2 d hd).trans (State.claimedDests_other h.plain hd)

theorem finished_done (hq : s.Quiet c x) (ht : s.Takes c x op f) :
    s.Done (s.finished c x op f) c x f ((s.context c x).pc + 32) .running (s.core c).counter := by
  obtain ⟨cs, sv, h1, h2⟩ := State.claimedDests_core (s := s) (c := c) (x := x) (f := f) h.plain
  obtain ⟨-, -, -, -, hcounters, -⟩ := (engineRun_front op (s.claimedDests c x op f) c (s.startedEntry c x op f)).1
  have hctx : ∀ y, (s.ran c x op f).context c y
      = if y = x then { (s.context c x) with pc := (s.context c x).pc + 32 } else s.context c y := by
    intro y
    have hrun : ((s.ran c x op f).core c).context y = ((s.claimedDests c x op f).core c).context y :=
      congrArg (Tab.get ({} : Ctx) · y) (h.ran_part (g := Core.ctx) (fun _ _ => rfl) h.ctx)
    rw [State.context, hrun, h1.context]
    exact s.frontCore_context (op := op) (f := f) cs y
  have hcount : ∀ n, ((s.ran c x op f).core c).counter n = (s.core c).counter n - f.claims n + CmdFields.early f n := by
    intro n
    have hrun : ((s.ran c x op f).core c).counter n = ((s.claimedDests c x op f).core c).counter n :=
      congrArg (Tab.get (0 : W16) · n) (h.ran_part (g := Core.counters) (fun _ _ => rfl) hcounters)
    rw [hrun, h1.counter]
    exact h2 n
  refine State.complete_done _ _ _ _ (State.ran_q h.plain) h.plan.peer (by simp) (by simp) ?_ ?_ (fun d hd => h.ran_other hd) ?_ (by simp)
    ht.mode _ hcount
  · rw [hctx, if_pos rfl]
  · rw [hctx, if_pos rfl]
    exact hq.running
  · intro y hy
    rw [hctx, if_neg hy]

/-- A drawer of the core once the command has committed (09 R191). -/
theorem ran_drawer (d : Nat) : ((s.ran c x op f).core c).drawer d =
    if d ∈ (s.plan c x op f).dsts then { ((s.core c).drawer d) with tag := .full, claim := false }
    else if d ∈ (s.plan c x op f).cons ∧ ¬ d ∈ (s.plan c x op f).held then { ((s.core c).drawer d) with closing := true }
    else (s.core c).drawer d := by
  obtain ⟨-, hdrawers, -⟩ := (engineRun_front op (s.claimedDests c x op f) c (s.startedEntry c x op f)).1
  have hrun : ((s.afterRun c x op f).core c).drawer d = ((s.claimedDests c x op f).core c).drawer d :=
    congrArg (Tab.get ({} : Drawer) · d) hdrawers
  rw [h.ran_eq, State.core_modCore, Core.drawer_commitDrawers, hrun, State.claimedDests_drawer h.plain]
  change (if d ∈ (s.plan c x op f).cons ∧ ¬ d ∈ (s.plan c x op f).held then _ else if d ∈ (s.plan c x op f).dsts then _ else _) = _
  by_cases hd : d ∈ (s.plan c x op f).dsts
  · simp [hd, h.plan.apart d hd]
  · simp only [hd, if_false]
    split
    · exact congrArg (fun v : Drawer => { v with closing := true }) (if_neg hd)
    · rfl

theorem finished_tags (hs : s.Starts c x op f) : s.tagsLeft (s.finished c x op f) c (s.plan c x op f) := by
  refine ⟨fun d hd => ?_, fun d hc hh => ?_, fun d hd hc hcl => ?_⟩
  · have hopen := List.all_eq_true.1 hs.dests d hd
    simp only [Bool.and_eq_true, Bool.not_eq_true'] at hopen
    have hr := h.ran_drawer d
    rw [if_pos hd] at hr
    have he := (State.finished_drawer h.plan.peer d).resolve_right (by simp [hr, hopen.2])
    simp [he, hr]
  · have hr := h.ran_drawer d
    rw [if_neg fun hd => h.plan.apart d hd hc, if_pos ⟨hc, hh⟩] at hr
    rcases State.finished_drawer h.plan.peer d with he | ⟨-, he⟩
    · exact .inr (by rw [he, hr])
    · exact .inl (by rw [he]; rfl)
  · have hr := h.ran_drawer d
    rw [if_neg hd, if_neg fun hcons => hc hcons.1] at hr
    rw [(State.finished_drawer h.plan.peer d).resolve_right (by simp [hr, hcl]), hr]

theorem finished_traffic : s.sameTraffic (s.finished c x op f) := by
  have hrun : (s.afterRun c x op f).sameTraffic (s.ran c x op f) := by
    rw [h.ran_eq]
    exact ⟨rfl, rfl, rfl, rfl⟩
  exact (((State.claimedDests_kept h.plain).traffic.trans h.traffic).trans hrun).trans (State.complete_kept _ c _ h.plan.peer).traffic

/-- Memory once the row has completed is memory as the run left it. -/
theorem finished_readByte (a : Nat) : (s.finished c x op f).readByte a = (s.afterRun c x op f).readByte a := by
  rw [State.finished, (State.complete_kept _ c _ h.plan.peer).mem, h.ran_eq]
  rfl

end State.CoreRow

/-- An engine row of commands that compute on their own core: what is left to show is what its own effect is. -/
theorem engineRow_of_coreRow {mk : Nat → Nat → CmdFields → Instr} {pre : State → Nat → Nat → CmdFields → Prop}
    {post : State → Nat → Nat → CmdFields → State → Prop} (hmk : ∀ c x f s, exec (mk c x f) s = runRow op c x f s)
    (hrow : ∀ s c x f, pre s c x f → s.CoreRow c x op f)
    (hpost : ∀ s c x f, pre s c x f → post s c x f (s.finished c x op f)) : EngineRow mk op pre post := by
  intro s c x f hq ht ⟨hp, hs, hpre⟩
  have h := hrow s c x f hpre
  obtain ⟨hbars, hctrs, hsigs, hout⟩ := h.finished_traffic
  refine ⟨s.finished c x op f, ?_, hpost s c x f hpre, h.finished_tags hs, h.finished_done hq ht, h.finished_hdrs_descs.2,
    hbars, hctrs, hsigs, hout⟩
  rw [hmk, hq.runRow_eq, hq.engine ht hp h.engine hs]
  rfl

end Sys2Proof.Machine
end


section
/-!
What the runs of the tensor commands leave of the anvil's storage and of memory (06 R125, R127, R128, R130).
-/
namespace Sys2Proof.Machine

variable {s t : State} {c x : Nat} {op : Opcode} {f : CmdFields} {q : QCmd}

/-! ### Entries written in turn -/

/-- Entries written in turn, of which those for one key agree: the key holds what was written for it, if anything was. -/
theorem Tab.get_foldl_set {α β : Type} [DecidableEq β] (d : β) (key : α → Nat) (val : α → β) (es : List α) (t : Tab β) (k : Nat) (v : β)
    (h : ∀ e ∈ es, key e = k → val e = v) :
    Tab.get d (es.foldl (fun t e => Tab.set d t (key e) (val e)) t) k = if ∃ e ∈ es, key e = k then v else Tab.get d t k := by
  induction es generalizing t with
  | nil => simp
  | cons e es ih =>
    rw [List.foldl_cons, ih _ fun a ha => h a (List.mem_cons_of_mem _ ha), Tab.get_set]
    by_cases he : key e = k
    · simp [he, h e (List.mem_cons_self ..) he]
    · simp [he, Ne.symm he]

/-- A key that no entry is for holds what it held. -/
theorem Tab.get_foldl_set_ne {α β : Type} [DecidableEq β] (d : β) (key : α → Nat) (val : α → β) (es : List α) (t : Tab β) {k : Nat}
    (h : ∀ e ∈ es, key e ≠ k) : Tab.get d (es.foldl (fun t e => Tab.set d t (key e) (val e)) t) k = Tab.get d t k := by
  rw [Tab.get_foldl_set d key val es t k d fun e he hk => absurd hk (h e he), if_neg fun ⟨e, he, hk⟩ => h e he hk]

/-- Rows of a grid of 128 columns do not overlap (06 R130). -/
theorem gridKey_inj {m n m' n' : Nat} (hn : n < 128) (hn' : n' < 128) (h : 128 * m + n = 128 * m' + n') : m = m' ∧ n = n' := by omega

/-! ### Storage of the anvil -/

theorem Core.tile_setTile (k : Core) (n m : Nat) (v : Tile) : (k.setTile n v).tile m = if m = n then v else k.tile m := Tab.get_set ..
theorem Core.acc_setAcc (k : Core) (n m : Nat) (v : Acc) : (k.setAcc n v).acc m = if m = n then v else k.acc m := Tab.get_set ..
theorem Core.latch_setLatch (k : Core) (n m : Nat) (v : RLatch) : (k.setLatch n v).latch m = if m = n then v else k.latch m := Tab.get_set ..

theorem Core.foldl_setTile {α : Type} (key : α → Nat) (val : α → Tile) (es : List α) (k : Core) :
    es.foldl (fun k e => k.setTile (key e) (val e)) k
      = { k with tiles := es.foldl (fun t e => Tab.set {} t (key e) (val e)) k.tiles } := by
  induction es generalizing k with
  | nil => rfl
  | cons e es ih => exact ih _

theorem State.nodup_tilesOf (s : State) (c x : Nat) : (s.tilesOf c x).Nodup := by
  unfold State.tilesOf
  split
  · simp
  · exact List.nodup_range

/-- The anvil's storage, and the shares of it, as an engine command finds them at its commit. -/
structure State.sameAnvil (s t : State) (c : Nat) : Prop where
  mode : t.modeM c = s.modeM c
  tiles : (t.core c).tiles = (s.core c).tiles
  accs : (t.core c).accs = (s.core c).accs
  latches : (t.core c).latches = (s.core c).latches

namespace State.sameAnvil

variable (h : s.sameAnvil t c)
include h

theorem tile (n : Nat) : (t.core c).tile n = (s.core c).tile n := congrArg (Tab.get ({} : Tile) · n) h.tiles
theorem acc (n : Nat) : (t.core c).acc n = (s.core c).acc n := congrArg (Tab.get ({} : Acc) · n) h.accs
theorem latch (n : Nat) : (t.core c).latch n = (s.core c).latch n := congrArg (Tab.get ({} : RLatch) · n) h.latches
theorem tileNo (y n : Nat) : t.tileNo c y n = s.tileNo c y n := by rw [State.tileNo, h.mode, State.tileNo]
theorem accNo (y n : Nat) : t.accNo c y n = s.accNo c y n := by rw [State.accNo, h.mode, State.accNo]
theorem latchNo (y : Nat) : t.latchNo c y = s.latchNo c y := by rw [State.latchNo, h.mode, State.latchNo]
theorem tilesOf (y : Nat) : t.tilesOf c y = s.tilesOf c y := by rw [State.tilesOf, h.mode, State.tilesOf]
theorem tmulB (q : QCmd) : Machine.tmulB t c q = Machine.tmulB s c q := by
  rw [Machine.tmulB, h.latch, h.latchNo, h.tile, h.tileNo, Machine.tmulB]

end State.sameAnvil

theorem State.claimedDests_sameAnvil (h : op.engine < 4) : s.sameAnvil (s.claimedDests c x op f) c := by
  obtain ⟨htiles, haccs, hlatches⟩ := State.claimedDests_anvil (s := s) (c := c) (x := x) (f := f) h
  exact ⟨State.issued_modeM h c, htiles, haccs, hlatches⟩

/-! ### Units read and stored -/

theorem State.readUnits_congr (h : ∀ a, t.readByte a = s.readByte a) : t.readUnits = s.readUnits := by
  funext as u
  exact List.map_congr_left fun a _ => congrArg leNat (State.readBytes_congr fun i _ => h _)

theorem State.storeUnits_storesOnly (s : State) (as : List Int) (u : Nat) (vs : List Nat) : s.storesOnly (s.storeUnits as u vs) :=
  foldl_storesOnly _ (fun t _ => State.store_storesOnly t _ _) _ s

/-- The same units stored in states of the same memory leave the same memory. -/
theorem State.readByte_storeUnits_congr (h : ∀ a, t.readByte a = s.readByte a) (as : List Int) (u : Nat) (vs : List Nat) (a : Nat) :
    (t.storeUnits as u vs).readByte a = (s.storeUnits as u vs).readByte a := by
  unfold State.storeUnits
  induction as.zip vs generalizing s t with
  | nil => exact h a
  | cons e es ih =>
    rw [List.foldl_cons, List.foldl_cons]
    refine ih fun b => ?_
    rw [State.storeLE, State.storeLE, State.readByte_store, State.readByte_store, h]

/-! ### TCFG (06 R125) -/

theorem runTcfg_core (s : State) (c : Nat) (q : QCmd) : (runTcfg s c q).core c =
    { (s.core c) with
        tiles := (s.tilesOf c q.ctx).zipIdx.foldl (fun t e => Tab.set {} t e.1 { desc := q.cmd.tileDesc e.2 }) (s.core c).tiles
        latches := Tab.set {} (s.core c).latches (s.latchNo c q.ctx) {} } := by
  rw [runTcfg, State.core_modCore,
    Core.foldl_setTile (fun e : Nat × Nat => e.1) (fun e => ({ desc := q.cmd.tileDesc e.2 } : Tile))]
  rfl

/-- Every tile of the context has the shape of its place, and is zero. -/
theorem runTcfg_tile_mem (s : State) (c : Nat) (q : QCmd) {e : Nat × Nat} (he : e ∈ (s.tilesOf c q.ctx).zipIdx) :
    ((runTcfg s c q).core c).tile e.1 = { desc := q.cmd.tileDesc e.2 } := by
  have hnodup : ((s.tilesOf c q.ctx).zipIdx.map Prod.fst).Nodup := by
    rw [List.zipIdx_map_fst]
    exact s.nodup_tilesOf c q.ctx
  rw [runTcfg_core]
  refine (Tab.get_foldl_set ({} : Tile) (fun e : Nat × Nat => e.1) (fun e => { desc := q.cmd.tileDesc e.2 }) _ _ e.1 _ fun a ha hae => ?_).trans
    (if_pos ⟨e, he, rfl⟩)
  rw [List.inj_on_of_nodup_map hnodup ha he hae]

theorem runTcfg_tile_not_mem (s : State) (c : Nat) (q : QCmd) {n : Nat} (hn : ¬ n ∈ s.tilesOf c q.ctx) :
    ((runTcfg s c q).core c).tile n = (s.core c).tile n := by
  rw [runTcfg_core]
  refine Tab.get_foldl_set_ne ({} : Tile) (fun e : Nat × Nat => e.1) (fun e => { desc := q.cmd.tileDesc e.2 }) _ _ fun e he hen => ?_
  exact hn (hen ▸ List.fst_mem_of_mem_zipIdx he)

theorem runTcfg_latch (s : State) (c : Nat) (q : QCmd) : ((runTcfg s c q).core c).latch (s.latchNo c q.ctx) = {} := by
  rw [runTcfg_core]
  exact Tab.get_set_self ({} : RLatch) _ _ {}

/-! ### TLOAD and TZERO (06 R127, R130) -/

/-- The tile a TLOAD makes of what it reads. -/
def tloadTile (d : BitVec 16) (q : QCmd) (read : List Int → Nat → List Nat) : Tile :=
  { desc := d, inuse := true, torn := false
    bytes := (read (q.desc q.cmd.tVd).addrs (if tdFmt d = 9 then 2 else 1)).flatMap (natLE (if tdFmt d = 9 then 2 else 1))
    side := if fmtScaled (tdFmt d) then (read (q.desc q.cmd.tSd).addrs 1).map (BitVec.ofNat 8) else [] }

theorem runTload_core (s : State) (c : Nat) (q : QCmd) : (runTload s c q).core c = (s.core c).setTile (s.tileNo c q.ctx q.cmd.tA)
    (tloadTile ((s.core c).tile (s.tileNo c q.ctx q.cmd.tA)).desc q s.readUnits) := by
  rw [runTload, State.core_modCore]
  rfl

theorem runTzero_core (s : State) (c : Nat) (q : QCmd) :
    (runTzero s c q).core c = (s.core c).setAcc (s.accNo c q.ctx q.cmd.tAcc) {} := by
  rw [runTzero, State.core_modCore]

/-! ### TMUL (06 R128) -/

/-- The products a TMUL adds up, row by row. -/
def tmulEntries (a b : Tile) (init : Bool) (base : Tab (BitVec 32)) : List (Nat × Nat) :=
  (List.range (min 128 (tdCols a.desc))).flatMap (fun m => (List.range (min 128 (tdCols b.desc))).map (fun n =>
    (128 * m + n, tmulEntry a b m n (if init then 0 else (Tab.get 0 base (128 * m + n)).toNat))))

/-- The values of an accumulator with a product of tiles added. -/
def tmulVals (a b : Tile) (init : Bool) (base : Tab (BitVec 32)) : Tab (BitVec 32) :=
  (tmulEntries a b init base).foldl (fun t e => Tab.set 0 t e.1 (BitVec.ofNat 32 e.2)) base

/-- The B operand as the array reads it: a latch whole, a tile by its flag (06 R129, R131). -/
def tmulBSeen (s : State) (c : Nat) (q : QCmd) : Tile := if q.cmd.tReuse then tmulB s c q else (tmulB s c q).seen

theorem mem_tmulEntries {a b : Tile} {init : Bool} {base : Tab (BitVec 32)} {e : Nat × Nat} :
    e ∈ tmulEntries a b init base ↔ ∃ m < min 128 (tdCols a.desc), ∃ n < min 128 (tdCols b.desc),
      (128 * m + n, tmulEntry a b m n (if init then 0 else (Tab.get 0 base (128 * m + n)).toNat)) = e := by
  simp only [tmulEntries, List.mem_flatMap, List.mem_map, List.mem_range]

theorem tmulVals_in (a b : Tile) (init : Bool) (base : Tab (BitVec 32)) {m n : Nat} (hm : m < min 128 (tdCols a.desc))
    (hn : n < min 128 (tdCols b.desc)) : Tab.get 0 (tmulVals a b init base) (128 * m + n)
      = BitVec.ofNat 32 (tmulEntry a b m n (if init then 0 else (Tab.get 0 base (128 * m + n)).toNat)) := by
  refine (Tab.get_foldl_set 0 Prod.fst (fun e => BitVec.ofNat 32 e.2) _ _ _ _ fun e he hk => ?_).trans
    (if_pos ⟨_, mem_tmulEntries.2 ⟨m, hm, n, hn, rfl⟩, rfl⟩)
  obtain ⟨m', -, n', hn', rfl⟩ := mem_tmulEntries.1 he
  obtain ⟨rfl, rfl⟩ := gridKey_inj (by omega) (by omega) hk
  rfl

theorem tmulVals_out (a b : Tile) (init : Bool) (base : Tab (BitVec 32)) {m n : Nat} (hn : n < 128)
    (h : min 128 (tdCols a.desc) ≤ m ∨ min 128 (tdCols b.desc) ≤ n) :
    Tab.get 0 (tmulVals a b init base) (128 * m + n) = Tab.get 0 base (128 * m + n) := by
  refine Tab.get_foldl_set_ne 0 Prod.fst (fun e => BitVec.ofNat 32 e.2) _ _ fun e he hk => ?_
  obtain ⟨m', hm', n', hn', rfl⟩ := mem_tmulEntries.1 he
  obtain ⟨rfl, rfl⟩ := gridKey_inj (by omega) hn hk
  omega

/-- The accumulator a TMUL leaves: the sums, in use. -/
theorem runTmul_accs (s : State) (c : Nat) (q : QCmd) : ∃ v : Acc,
    v.vals = tmulVals ((s.core c).tile (s.tileNo c q.ctx q.cmd.tA)).seen (tmulBSeen s c q) q.cmd.tInit
      ((s.core c).acc (s.accNo c q.ctx q.cmd.tAcc)).seen
    ∧ v.inuse = true ∧ ((runTmul s c q).core c).accs = ((s.core c).setAcc (s.accNo c q.ctx q.cmd.tAcc) v).accs
    ∧ ((runTmul s c q).core c).ctx = (s.core c).ctx := by
  unfold runTmul
  extract_lets w k ta tb an a braw b acc base es vals bad full k1 k2 t1 k3 t2 k4
  have hkeep : ∀ (b : Bool) (l m : Core), m.accs = l.accs ∧ m.ctx = l.ctx →
      (if b then m else l).accs = l.accs ∧ (if b then m else l).ctx = l.ctx := by
    intro b l m hm
    cases b
    · exact ⟨rfl, rfl⟩
    · exact hm
  obtain ⟨ha2, hc2⟩ : k2.accs = k1.accs ∧ k2.ctx = k1.ctx := by
    cases hb : w.tReuse <;> simp only [k2, hb] <;> exact ⟨rfl, rfl⟩
  obtain ⟨ha3, hc3⟩ : k3.accs = k2.accs ∧ k3.ctx = k2.ctx := hkeep _ _ _ ⟨rfl, rfl⟩
  obtain ⟨ha4, hc4⟩ : k4.accs = k3.accs ∧ k4.ctx = k3.ctx := hkeep _ _ _ ⟨rfl, rfl⟩
  refine ⟨{ vals := vals, inuse := true, torn := acc.torn && !full, ovf := acc.ovf || bad }, rfl, rfl, ?_, ?_⟩
  · rw [State.core_setCore]
    exact ha4.trans (ha3.trans ha2)
  · rw [State.core_setCore]
    exact hc4.trans (hc3.trans hc2)

/-! ### TDRAIN (06 R130) -/

/-- The elements of the rows that a TDRAIN without scaling converts. -/
def drainElems (q : QCmd) (acc : Acc) : List Nat :=
  (List.range q.cmd.tRows).flatMap (fun r => (convertAll q.cmd.tOfmt q.lat.ovfInf q.lat.strict q.cmd.tOblk
    ((List.range q.cmd.tCols).map (fun n => (Tab.get 0 acc.seen (128 * r + n)).toNat))).elems)

/-- Histograms and overflow flags are registers. -/
def State.regFileOnly (s t : State) : Prop := { t with regs := s.regs } = s

theorem State.regFileOnly.refl (s : State) : s.regFileOnly s := rfl

theorem State.regFileOnly.trans {u : State} (h : s.regFileOnly t) (g : t.regFileOnly u) : s.regFileOnly u := by
  unfold State.regFileOnly at *
  rw [← h, ← g]

theorem State.regFileOnly.storesOnly (h : s.regFileOnly t) : s.storesOnly t := by
  unfold State.storesOnly
  rw [← h]

theorem State.regFileOnly.readByte (h : s.regFileOnly t) (a : Nat) : t.readByte a = s.readByte a := by
  have hread := congrArg (State.readByte · a) h
  exact hread

theorem State.setOvf_regFileOnly (s : State) (c x : Nat) : s.regFileOnly (s.setOvf c x) := rfl

theorem State.histCount_regFileOnly (s : State) (c n : Nat) (b : Int) (vs : List (Nat × Bool)) : s.regFileOnly (s.histCount c n b vs).1 := by
  unfold State.histCount
  generalize hu : (s, false) = u
  rw [show s = u.1 by rw [← hu]]
  clear hu
  induction vs generalizing u with
  | nil => rfl
  | cons v vs ih => exact State.regFileOnly.trans (t := u.1.countReg .histBin c (64 * n + histBin b v.2 (ofFp32 v.1)) 1) rfl (ih _)

theorem State.writeEffects_regFileOnly (s : State) (c x : Nat) (hist : Bool) (n : Nat) (b : Int) (vs : List (Nat × Bool)) (nf : Bool) :
    s.regFileOnly (s.writeEffects c x hist n b vs nf) := by
  unfold State.writeEffects
  extract_lets r
  have hr : s.regFileOnly r.1 := by
    cases hist
    · rfl
    · exact s.histCount_regFileOnly c n b vs
  split
  · exact hr.trans (r.1.setOvf_regFileOnly c x)
  · exact hr

/-- A TDRAIN to an unscaled format of whole bytes, no scale asked for: the rows stored, registers changed, and the accumulator cleared where
it is released. -/
theorem runTdrain_unscaled (s : State) (c : Nat) (q : QCmd) (hbits : 8 ≤ fmtBits q.cmd.tOfmt) (hfmt : fmtScaled q.cmd.tOfmt = false)
    (hlayer : q.cmd.tLayop = 0) (hloss : q.cmd.tLossop = 0) :
    let an := s.accNo c q.ctx q.cmd.tAcc
    let acc := (s.core c).acc an
    ∃ u, (s.storeUnits (q.desc q.cmd.tVd).addrs (fmtUnit q.cmd.tOfmt) (drainElems q acc)).regFileOnly u
      ∧ runTdrain s c q = if q.cmd.tInit then u.modCore c (fun k => k.setAcc an { torn := acc.torn }) else u := by
  intro an acc
  unfold runTdrain
  extract_lets w l an' acc' f scale rows cvs vals s1 s2 s3 s4
  have hscale : ∀ v, scale v = v := by
    intro v
    have h1 : w.tLayop = 0 := hlayer
    have h2 : w.tLossop = 0 := hloss
    simp [scale, h1, h2]
  have hvals : vals = drainElems q acc := by
    have hf : ¬ fmtBits f < 8 := by
      have : 8 ≤ fmtBits f := hbits
      omega
    simp only [vals, hf, if_false, cvs, rows, hscale, List.flatMap_map, List.map_map]
    rfl
  have hs2 : s2 = s1 := by
    have : fmtScaled f = false := hfmt
    simp [s2, this]
  refine ⟨s4, ?_, rfl⟩
  rw [← hvals]
  change s1.regFileOnly s4
  rw [← hs2]
  have h3 : s2.regFileOnly s3 := s2.writeEffects_regFileOnly _ _ _ _ _ _ _
  cases hovf : acc'.ovf with
  | false => simpa [s4, hovf] using h3
  | true => simpa [s4, hovf] using h3.trans (s3.setOvf_regFileOnly c q.ctx)

end Sys2Proof.Machine
end


section
/-!
The rows of the tensor commands (06 R125, R127, R128, R130) and the obligation about them.
-/
namespace Sys2Proof.Machine

variable {s : State} {c x : Nat} {f : CmdFields}

/-! ### Fields and plans -/

theorem encodeCmd_tA (op : Opcode) : (encodeCmd op f).tA = bits f.opa 37 35 := encodeCmd_opa op f 37 35 (by decide)
theorem encodeCmd_tAcc (op : Opcode) : (encodeCmd op f).tAcc = bits f.opa 31 30 := encodeCmd_opa op f 31 30 (by decide)
theorem encodeCmd_tInit (op : Opcode) : (encodeCmd op f).tInit = (bits f.opa 29 29 == 1) :=
  congrArg (· == 1) (encodeCmd_opa op f 29 29 (by decide))
theorem encodeCmd_tReuse (op : Opcode) : (encodeCmd op f).tReuse = (bits f.opa 28 28 == 1) :=
  congrArg (· == 1) (encodeCmd_opa op f 28 28 (by decide))

/-- A plan that writes no drawer, or consumes none, keeps to its core when it reads no peer and makes no header. -/
theorem Plan.ownCore_of {p : Plan} (hp : p.peer = none) (ho : p.lat.outs = []) (h : p.dsts = [] ∨ p.cons = []) : p.ownCore := by
  refine ⟨hp, ho, fun d hd hc => ?_⟩
  rcases h with h | h
  · exact absurd (h ▸ hd) List.not_mem_nil
  · exact absurd (h ▸ hc) List.not_mem_nil

theorem planTcfg_ownCore (q : QCmd) : (planTcfg s c q).ownCore := Plan.ownCore_checks (Plan.ownCore_of rfl rfl (.inl rfl)) _
theorem planTload_ownCore (q : QCmd) : (planTload s c q).ownCore := Plan.ownCore_checks (Plan.ownCore_of rfl rfl (.inl rfl)) _
theorem planTzero_ownCore (q : QCmd) : (planTzero s c q).ownCore := Plan.ownCore_checks (Plan.ownCore_of rfl rfl (.inl rfl)) _
theorem planTdrain_ownCore (q : QCmd) : (planTdrain s c q).ownCore := Plan.ownCore_checks (Plan.ownCore_of rfl rfl (.inr rfl)) _

theorem planTmul_ownCore (q : QCmd) : (planTmul s c q).ownCore := by
  unfold planTmul
  dsimp only
  split
  · exact Plan.ownCore_of rfl rfl (.inl rfl)
  · exact Plan.ownCore_checks (Plan.ownCore_of rfl rfl (.inl rfl)) _

/-! ### Rows -/

section
variable {op : Opcode} (h : s.CoreRow c x op f)
include h

theorem State.CoreRow.finished_tile (n : Nat) : ((s.finished c x op f).core c).tile n = ((s.afterRun c x op f).core c).tile n :=
  h.finished_part (Core.tile · n) (fun _ _ => rfl) (fun _ _ => rfl) fun _ _ => rfl

theorem State.CoreRow.finished_acc (n : Nat) : ((s.finished c x op f).core c).acc n = ((s.afterRun c x op f).core c).acc n :=
  h.finished_part (Core.acc · n) (fun _ _ => rfl) (fun _ _ => rfl) fun _ _ => rfl

theorem State.CoreRow.finished_latch (n : Nat) : ((s.finished c x op f).core c).latch n = ((s.afterRun c x op f).core c).latch n :=
  h.finished_part (Core.latch · n) (fun _ _ => rfl) (fun _ _ => rfl) fun _ _ => rfl

theorem State.CoreRow.finished_tiles : ((s.finished c x op f).core c).tiles = ((s.afterRun c x op f).core c).tiles :=
  h.finished_part Core.tiles (fun _ _ => rfl) (fun _ _ => rfl) fun _ _ => rfl

theorem State.CoreRow.finished_accs : ((s.finished c x op f).core c).accs = ((s.afterRun c x op f).core c).accs :=
  h.finished_part Core.accs (fun _ _ => rfl) (fun _ _ => rfl) fun _ _ => rfl

theorem State.CoreRow.finished_latches : ((s.finished c x op f).core c).latches = ((s.afterRun c x op f).core c).latches :=
  h.finished_part Core.latches (fun _ _ => rfl) (fun _ _ => rfl) fun _ _ => rfl

/-- A run that leaves memory leaves it as the command found it. -/
theorem State.CoreRow.finished_readByte_kept (hrun : ∀ a, (s.afterRun c x op f).readByte a = (s.claimedDests c x op f).readByte a)
    (a : Nat) : (s.finished c x op f).readByte a = s.readByte a := by
  rw [h.finished_readByte, hrun, (State.claimedDests_kept h.plain).mem]

end

/-- A command of the anvil keeps to its core when its run leaves the contexts of that core. -/
theorem State.coreRow_of_core {op : Opcode} {k : Core} (heng : op.engine = 3) (hplan : (s.plan c x op f).ownCore)
    (hcore : (s.afterRun c x op f).core c = k) (hk : k.ctx = ((s.claimedDests c x op f).core c).ctx)
    (htraffic : (s.claimedDests c x op f).sameTraffic (s.afterRun c x op f)) : s.CoreRow c x op f :=
  ⟨.inr (.inr heng), hplan, (congrArg Core.ctx hcore).trans hk, htraffic⟩

/-- The tensor commands that read and write the anvil's storage alone keep to their core. -/
theorem tcfg_coreRow : s.CoreRow c x .tcfg f :=
  State.coreRow_of_core rfl (planTcfg_ownCore _) (runTcfg_core _ c _) rfl ⟨rfl, rfl, rfl, rfl⟩

theorem tload_coreRow : s.CoreRow c x .tload f :=
  State.coreRow_of_core rfl (planTload_ownCore _) (runTload_core _ c _) rfl ⟨rfl, rfl, rfl, rfl⟩

theorem tzero_coreRow : s.CoreRow c x .tzero f :=
  State.coreRow_of_core rfl (planTzero_ownCore _) (runTzero_core _ c _) rfl ⟨rfl, rfl, rfl, rfl⟩

theorem tmul_coreRow : s.CoreRow c x .tmul f := by
  obtain ⟨_, -, -, -, hctx⟩ := runTmul_accs (s.claimedDests c x .tmul f) c (s.startedEntry c x .tmul f)
  exact ⟨.inr (.inr rfl), planTmul_ownCore _, hctx, rfl, rfl, rfl, rfl⟩

/-- Where a TDRAIN stores unscaled elements of whole bytes and neither scales by layer nor by loss. -/
def plainDrain (f : CmdFields) : Prop :=
  8 ≤ fmtBits (bits f.w3 49 46) ∧ fmtScaled (bits f.w3 49 46) = false ∧ bits f.w3 32 31 = 0 ∧ bits f.w3 30 29 = 0

/-- The accumulator a TDRAIN reads. -/
def State.drained (s : State) (c x : Nat) (f : CmdFields) : Acc := (s.core c).acc (s.accNo c x (bits f.opa 31 30))

/-- The accumulator a TDRAIN leaves. -/
def leftDrained (f : CmdFields) (a : Acc) : Acc := if bits f.opa 29 29 = 1 then { torn := a.torn } else a

/-- What a TDRAIN on a quiet core leaves at its commit. -/
theorem State.afterRun_tdrain (hf : plainDrain f) : ∃ u : State,
    (s.claimedDests c x .tdrain f).storesOnly u
    ∧ (∀ a, u.readByte a = (s.storeUnits ((s.startedEntry c x .tdrain f).desc (bits f.w2 63 58)).addrs (fmtUnit (bits f.w3 49 46))
        (drainElems (s.startedEntry c x .tdrain f) (s.drained c x f))).readByte a)
    ∧ s.afterRun c x .tdrain f = if (bits f.opa 29 29 == 1) then
        u.modCore c (fun k => k.setAcc (s.accNo c x (bits f.opa 31 30)) { torn := (s.drained c x f).torn }) else u := by
  obtain ⟨hbits, hfmt, hlayer, hloss⟩ := hf
  have ha := State.claimedDests_sameAnvil (s := s) (c := c) (x := x) (op := .tdrain) (f := f) (by decide)
  have hmem := (State.claimedDests_kept (s := s) (c := c) (x := x) (op := .tdrain) (f := f) (by decide)).mem
  obtain ⟨u, hu, hrun⟩ := runTdrain_unscaled (s.claimedDests c x .tdrain f) c (s.startedEntry c x .tdrain f) hbits hfmt hlayer hloss
  rw [State.startedEntry_cmd, encodeCmd_tAcc, ha.accNo, ha.acc] at hu hrun
  rw [encodeCmd_tInit] at hrun
  refine ⟨u, (State.storeUnits_storesOnly _ _ _ _).trans hu.storesOnly, fun a => ?_, hrun⟩
  rw [hu.readByte]
  exact State.readByte_storeUnits_congr hmem _ _ _ a

theorem tdrain_coreRow (hf : plainDrain f) : s.CoreRow c x .tdrain f := by
  obtain ⟨u, hu, -, hrun⟩ := State.afterRun_tdrain (s := s) (c := c) (x := x) hf
  refine ⟨.inr (.inr rfl), planTdrain_ownCore _, ?_, ?_⟩
  · rw [hrun, ← State.core_congr hu.cores]
    split
    · rw [State.core_modCore]
      rfl
    · rfl
  · rw [hrun]
    split
    · exact hu.traffic.trans ⟨rfl, rfl, rfl, rfl⟩
    · exact hu.traffic

/-! ### The obligation -/

/-- TCFG: each tile of the context zero in its new shape (06 R125). -/
theorem State.finished_tcfg (s : State) (c x : Nat) (f : CmdFields) :
    (∀ e ∈ (s.tilesOf c x).zipIdx, ((s.finished c x .tcfg f).core c).tile e.1 = { desc := (encodeCmd .tcfg f).tileDesc e.2 })
    ∧ (∀ n, ¬ n ∈ s.tilesOf c x → ((s.finished c x .tcfg f).core c).tile n = (s.core c).tile n)
    ∧ (((s.finished c x .tcfg f).core c).latch (s.latchNo c x)).valid = false
    ∧ ((s.finished c x .tcfg f).core c).accs = (s.core c).accs ∧ ((s.finished c x .tcfg f).core c).hdrs = (s.core c).hdrs
    ∧ ∀ a, (s.finished c x .tcfg f).readByte a = s.readByte a := by
  have h := tcfg_coreRow (s := s) (c := c) (x := x) (f := f)
  have ha := State.claimedDests_sameAnvil (s := s) (c := c) (x := x) (op := .tcfg) (f := f) (by decide)
  have hcore := runTcfg_core (s.claimedDests c x .tcfg f) c (s.startedEntry c x .tcfg f)
  refine ⟨fun e he => ?_, fun n hn => ?_, ?_, ?_, h.finished_hdrs_descs.1, h.finished_readByte_kept fun _ => rfl⟩
  · rw [h.finished_tile]
    exact runTcfg_tile_mem _ c _ ((ha.tilesOf x).symm ▸ he)
  · rw [h.finished_tile]
    exact (runTcfg_tile_not_mem _ c _ ((ha.tilesOf x).symm ▸ hn)).trans (ha.tile n)
  · rw [h.finished_latch, ← ha.latchNo]
    exact congrArg RLatch.valid (runTcfg_latch _ c _)
  · rw [h.finished_accs]
    exact (congrArg Core.accs hcore).trans ha.accs

/-- TLOAD: what its streams hold, in its tile (06 R127). -/
theorem State.finished_tload (s : State) (c x : Nat) (f : CmdFields) :
    ((s.finished c x .tload f).core c).tile (s.tileNo c x (bits f.opa 37 35))
      = tloadTile ((s.core c).tile (s.tileNo c x (bits f.opa 37 35))).desc (s.startedEntry c x .tload f) s.readUnits
    ∧ s.onlyTile (s.finished c x .tload f) c (s.tileNo c x (bits f.opa 37 35)) := by
  have h := tload_coreRow (s := s) (c := c) (x := x) (f := f)
  have ha := State.claimedDests_sameAnvil (s := s) (c := c) (x := x) (op := .tload) (f := f) (by decide)
  have hmem := (State.claimedDests_kept (s := s) (c := c) (x := x) (op := .tload) (f := f) (by decide)).mem
  have hcore := runTload_core (s.claimedDests c x .tload f) c (s.startedEntry c x .tload f)
  rw [State.startedEntry_cmd, encodeCmd_tA, ha.tileNo, ha.tile, State.readUnits_congr hmem] at hcore
  have htile : ∀ m, ((s.finished c x .tload f).core c).tile m = if m = s.tileNo c x (bits f.opa 37 35)
      then tloadTile ((s.core c).tile (s.tileNo c x (bits f.opa 37 35))).desc (s.startedEntry c x .tload f) s.readUnits
      else (s.core c).tile m := by
    intro m
    rw [h.finished_tile, State.afterRun, ← ha.tile m, ← Core.tile_setTile]
    exact congrArg (Core.tile · m) hcore
  refine ⟨?_, fun m hm => ?_, ?_, ?_, h.finished_hdrs_descs.1, h.finished_readByte_kept fun _ => rfl⟩
  · rw [htile, if_pos rfl]
  · rw [htile, if_neg hm]
  · exact h.finished_accs.trans ((congrArg Core.accs hcore).trans ha.accs)
  · exact h.finished_latches.trans ((congrArg Core.latches hcore).trans ha.latches)

/-- TZERO: its accumulator clear (06 R130). -/
theorem State.finished_tzero (s : State) (c x : Nat) (f : CmdFields) :
    ((s.finished c x .tzero f).core c).acc (s.accNo c x (bits f.opa 31 30)) = {}
    ∧ (∀ m, m ≠ s.accNo c x (bits f.opa 31 30) → ((s.finished c x .tzero f).core c).acc m = (s.core c).acc m)
    ∧ ((s.finished c x .tzero f).core c).tiles = (s.core c).tiles ∧ ((s.finished c x .tzero f).core c).hdrs = (s.core c).hdrs
    ∧ ∀ a, (s.finished c x .tzero f).readByte a = s.readByte a := by
  have h := tzero_coreRow (s := s) (c := c) (x := x) (f := f)
  have ha := State.claimedDests_sameAnvil (s := s) (c := c) (x := x) (op := .tzero) (f := f) (by decide)
  have hcore := runTzero_core (s.claimedDests c x .tzero f) c (s.startedEntry c x .tzero f)
  rw [State.startedEntry_cmd, encodeCmd_tAcc, ha.accNo] at hcore
  have hacc : ∀ m, ((s.finished c x .tzero f).core c).acc m
      = if m = s.accNo c x (bits f.opa 31 30) then {} else (s.core c).acc m := by
    intro m
    rw [h.finished_acc, State.afterRun, ← ha.acc m, ← Core.acc_setAcc]
    exact congrArg (Core.acc · m) hcore
  refine ⟨?_, fun m hm => ?_, ?_, h.finished_hdrs_descs.1, h.finished_readByte_kept fun _ => rfl⟩
  · rw [hacc, if_pos rfl]
  · rw [hacc, if_neg hm]
  · exact h.finished_tiles.trans ((congrArg Core.tiles hcore).trans ha.tiles)

theorem tmulBSeen_started (s : State) (c x : Nat) (f : CmdFields) : tmulBSeen s c (s.startedEntry c x .tmul f) =
    if bits f.opa 28 28 = 1 then tmulB s c (s.startedEntry c x .tmul f) else (tmulB s c (s.startedEntry c x .tmul f)).seen := by
  simp only [tmulBSeen, State.startedEntry_cmd, encodeCmd_tReuse, beq_iff_eq]

/-- TMUL: the sums in its accumulator (06 R128). -/
theorem State.finished_tmul (s : State) (c x : Nat) (f : CmdFields) :
    (((s.finished c x .tmul f).core c).acc (s.accNo c x (bits f.opa 31 30))).vals
      = tmulVals ((s.core c).tile (s.tileNo c x (bits f.opa 37 35))).seen (tmulBSeen s c (s.startedEntry c x .tmul f))
          (bits f.opa 29 29 == 1) ((s.core c).acc (s.accNo c x (bits f.opa 31 30))).seen
    ∧ (((s.finished c x .tmul f).core c).acc (s.accNo c x (bits f.opa 31 30))).inuse = true
    ∧ (∀ m, m ≠ s.accNo c x (bits f.opa 31 30) → ((s.finished c x .tmul f).core c).acc m = (s.core c).acc m)
    ∧ ((s.finished c x .tmul f).core c).hdrs = (s.core c).hdrs ∧ ∀ a, (s.finished c x .tmul f).readByte a = s.readByte a := by
  have h := tmul_coreRow (s := s) (c := c) (x := x) (f := f)
  have ha := State.claimedDests_sameAnvil (s := s) (c := c) (x := x) (op := .tmul) (f := f) (by decide)
  obtain ⟨v, hvals, hinuse, haccs, -⟩ := runTmul_accs (s.claimedDests c x .tmul f) c (s.startedEntry c x .tmul f)
  rw [tmulBSeen, ha.tmulB, ← tmulBSeen, State.startedEntry_cmd, encodeCmd_tA, encodeCmd_tAcc, encodeCmd_tInit, ha.tileNo, ha.tile, ha.accNo,
    ha.acc] at hvals
  rw [State.startedEntry_cmd, encodeCmd_tAcc, ha.accNo] at haccs
  have hacc : ∀ m, ((s.finished c x .tmul f).core c).acc m = if m = s.accNo c x (bits f.opa 31 30) then v else (s.core c).acc m := by
    intro m
    rw [h.finished_acc, State.afterRun, ← ha.acc m, ← Core.acc_setAcc]
    exact congrArg (Tab.get ({} : Acc) · m) haccs
  refine ⟨?_, ?_, fun m hm => ?_, h.finished_hdrs_descs.1, h.finished_readByte_kept fun _ => rfl⟩
  · rw [hacc, if_pos rfl]
    exact hvals
  · rw [hacc, if_pos rfl]
    exact hinuse
  · rw [hacc, if_neg hm]

/-- TDRAIN: the converted rows in memory, and the accumulator cleared where it is released (06 R130). -/
theorem State.finished_tdrain (s : State) (c x : Nat) {f : CmdFields} (hf : plainDrain f) :
    s.storesLeft (s.finished c x .tdrain f) ((s.startedEntry c x .tdrain f).desc (bits f.w2 63 58)).addrs (fmtUnit (bits f.w3 49 46))
      (drainElems (s.startedEntry c x .tdrain f) (s.drained c x f))
    ∧ ((s.finished c x .tdrain f).core c).acc (s.accNo c x (bits f.opa 31 30)) = leftDrained f (s.drained c x f)
    ∧ ((s.finished c x .tdrain f).core c).hdrs = (s.core c).hdrs := by
  have h := tdrain_coreRow (s := s) (c := c) (x := x) hf
  have ha := State.claimedDests_sameAnvil (s := s) (c := c) (x := x) (op := .tdrain) (f := f) (by decide)
  obtain ⟨u, hu, hmem, hrun⟩ := State.afterRun_tdrain (s := s) (c := c) (x := x) hf
  refine ⟨fun a => ?_, ?_, h.finished_hdrs_descs.1⟩
  · rw [h.finished_readByte, ← hmem, hrun]
    split <;> rfl
  · rw [h.finished_acc, hrun, leftDrained]
    by_cases hrel : bits f.opa 29 29 = 1
    · rw [if_pos (beq_iff_eq.2 hrel), if_pos hrel, State.core_modCore, Core.acc_setAcc, if_pos rfl]
    · rw [if_neg (mt beq_iff_eq.1 hrel), if_neg hrel, State.core_congr hu.cores, ha.acc]
      rfl

/-- Settles O11: each command keeps to its core, and its own effect is what its run leaves. -/
theorem anvilCommands : Obligations.AnvilCommands := by
  unfold Obligations.AnvilCommands
  refine ⟨engineRow_of_coreRow (fun _ _ _ _ => rfl) (fun _ _ _ _ _ => tcfg_coreRow) fun s c x f _ => s.finished_tcfg c x f,
    engineRow_of_coreRow (fun _ _ _ _ => rfl) (fun _ _ _ _ _ => tload_coreRow) fun s c x f _ => s.finished_tload c x f,
    engineRow_of_coreRow (fun _ _ _ _ => rfl) (fun _ _ _ _ _ => tmul_coreRow) fun s c x f _ => ?_,
    engineRow_of_coreRow (fun _ _ _ _ => rfl) (fun _ _ _ _ _ => tzero_coreRow) fun s c x f _ => s.finished_tzero c x f,
    engineRow_of_coreRow (fun _ _ _ _ => rfl) (fun _ _ _ _ hf => tdrain_coreRow hf) fun s c x f hf => s.finished_tdrain c x hf⟩
  obtain ⟨hvals, hrest⟩ := s.finished_tmul c x f
  dsimp only
  rw [← tmulBSeen_started, hvals]
  refine ⟨fun m n hm hn => ?_, fun m n hn hout => tmulVals_out _ _ _ _ hn hout, hrest⟩
  rw [tmulVals_in _ _ _ _ hm hn]
  simp only [beq_iff_eq]

end Sys2Proof.Machine
end


section
/-!
The modular commands of the anvil (06 R134 to R137): what their issue checks leave once they pass, their rows, and the obligation about
them.
-/
namespace Sys2Proof.Machine

variable {s : State} {c x : Nat} {op : Opcode} {f : CmdFields} {q : QCmd}

/-! ### Fields -/

theorem encodeCmd_mSlot (op : Opcode) : (encodeCmd op f).mSlot = bits f.opa 37 36 := encodeCmd_opa op f 37 36 (by decide)
theorem encodeCmd_mEntry (op : Opcode) : (encodeCmd op f).mEntry = bits f.opa 35 30 := encodeCmd_opa op f 35 30 (by decide)
theorem encodeCmd_mLen (op : Opcode) : (encodeCmd op f).mLen = 128 * bits f.opa 29 20 :=
  congrArg (128 * ·) (encodeCmd_opa op f 29 20 (by decide))
theorem encodeCmd_mXd (op : Opcode) : (encodeCmd op f).mXd = bits f.opa 19 14 := encodeCmd_opa op f 19 14 (by decide)
theorem encodeCmd_mZd (op : Opcode) : (encodeCmd op f).mZd = bits f.opa 13 8 := encodeCmd_opa op f 13 8 (by decide)
theorem encodeCmd_mWd (op : Opcode) : (encodeCmd op f).mWd = bits f.opa 7 2 := encodeCmd_opa op f 7 2 (by decide)

/-! ### Plans -/

theorem mem_addOnce {α : Type} [DecidableEq α] {a b : α} {l : List α} : a ∈ addOnce b l ↔ a ∈ l ∨ a = b := by
  unfold addOnce
  by_cases hb : b ∈ l
  · rw [if_pos hb]
    exact ⟨.inl, fun h => h.elim id fun e => e ▸ hb⟩
  · rw [if_neg hb, List.mem_append, List.mem_singleton]

theorem mem_foldl_addOnce {α : Type} [DecidableEq α] {a : α} {l acc : List α} :
    a ∈ l.foldl (fun acc b => addOnce b acc) acc ↔ a ∈ acc ∨ a ∈ l := by
  induction l generalizing acc with
  | nil => simp
  | cons b l ih => rw [List.foldl_cons, ih, mem_addOnce, List.mem_cons, or_assoc]

/-- A BCONV or MMULM that passes its checks consumes only what it reads, and computes with the bank of its slot (06 R137). -/
theorem planModular_ok {mm : Bool} (hv : (planModular mm s c q).v = .ok) :
    (planModular mm s c q).peer = none ∧ (planModular mm s c q).lat = { bank := (s.table q.cmd.mSlot).bank }
      ∧ ∀ d ∈ (planModular mm s c q).cons, d ∈ (planModular mm s c q).srcs := by
  unfold planModular at hv ⊢
  dsimp only at hv ⊢
  obtain ⟨-, he⟩ := Plan.checks_ok hv
  rw [he] at hv ⊢
  split at hv
  case isTrue => cases hv
  rename_i hactive
  rw [if_neg hactive, (Plan.checks_ok hv).2]
  refine ⟨rfl, rfl, fun d hd => ?_⟩
  rcases List.mem_append.1 hd with hd | hd
  · have hx : d ∈ (q.desc q.cmd.mXd).drawers c 6 := (List.mem_ite_nil_right.1 hd).2
    cases mm <;> simp [modularStreams, mem_foldl_addOnce, hx]
  · obtain ⟨hmm, hw⟩ := List.mem_ite_nil_right.1 hd
    obtain rfl : mm = true := (Bool.and_eq_true_iff.1 hmm).1
    simp [modularStreams, mem_foldl_addOnce, hw]

/-- The plan of a BCONV or MMULM on a quiet core. -/
theorem State.plan_modular {mm : Bool} (hop : ∀ s c q, planOf op s c q = planModular mm s c q) (hp : s.Passes c x op f) :
    (s.plan c x op f).peer = none ∧ (s.plan c x op f).lat = { bank := (s.table (bits f.opa 37 36)).bank }
      ∧ ∀ d ∈ (s.plan c x op f).cons, d ∈ (s.plan c x op f).srcs := by
  have hv := hp.2
  rw [State.plan, hop] at hv ⊢
  have hok := planModular_ok hv
  have hcmd : (s.entry c x (encodeCmd op f)).cmd = encodeCmd op f := rfl
  rwa [hcmd, encodeCmd_mSlot, State.table_claimed] at hok

/-- A command that starts writes no drawer it reads: a source is FULL, a destination EMPTY or TORN (09 R189). -/
theorem State.Starts.dst_not_src (hs : s.Starts c x op f) {d : Nat} (hd : d ∈ (s.plan c x op f).dsts) : ¬ d ∈ (s.plan c x op f).srcs := by
  intro hsrc
  have hready := List.all_eq_true.1 hs.sources (c, d) (List.mem_append_left _ (List.mem_map.2 ⟨d, hsrc, rfl⟩))
  have hopen := (Bool.and_eq_true_iff.1 (List.all_eq_true.1 hs.dests d hd)).1
  rcases State.open_tag _ hopen with h | h <;> rw [State.ready_not_torn _ hready] at h <;> cases h

/-! ### Rows -/

/-- A command of the modular mode that starts computes by stores: it writes no drawer that it reads, and so none that it consumes. -/
theorem State.storeRow_modular {mm : Bool} (heng : op.engine = 3) (hop : ∀ s c q, planOf op s c q = planModular mm s c q)
    (hrun : (s.claimedDests c x op f).storesOnly (engineRun op (s.claimedDests c x op f) c (s.startedEntry c x op f)))
    (hp : s.Passes c x op f) (hs : s.Starts c x op f) : s.StoreRow c x op f := by
  obtain ⟨hpeer, hlat, hcons⟩ := State.plan_modular hop hp
  refine ⟨.inr (.inr heng), hpeer, ?_, fun d hd hc => absurd (hcons d hc) (hs.dst_not_src hd), hrun⟩
  rw [hlat]
  exact fun o ho => absurd ho List.not_mem_nil

/-- That its drawers are ready is known of a row before it is asked what the row needs beside that. -/
theorem engineRow_of_starts {mk : Nat → Nat → CmdFields → Instr} {pre : State → Nat → Nat → CmdFields → Prop}
    {post : State → Nat → Nat → CmdFields → State → Prop}
    (h : EngineRow mk op (fun s c x f => s.Starts c x op f ∧ pre s c x f) post) : EngineRow mk op pre post :=
  fun s c x f hq ht ⟨hp, hs, hpre⟩ => h s c x f hq ht ⟨hp, hs, hs, hpre⟩

/-- A command of the modular mode: it stores what `vals` makes of the units that it reads. -/
theorem modular_row {mk : Nat → Nat → CmdFields → Instr} {mm : Bool} (vals : Bank → Cmd → (Nat → List Nat) → List Nat) (heng : op.engine = 3)
    (hmk : ∀ c x f s, exec (mk c x f) s = runRow op c x f s) (hop : ∀ s c q, planOf op s c q = planModular mm s c q)
    (hrun : ∀ s c q, engineRun op s c q
      = s.storeUnits (q.desc q.cmd.mZd).addrs 6 (vals q.lat.bank q.cmd (fun n => s.readUnits (q.desc n).addrs 6))) :
    EngineRow mk op (fun _ _ _ _ => True) (fun s c x f t =>
      s.storesLeft t ((s.startedEntry c x op f).desc (bits f.opa 13 8)).addrs 6
        (vals (s.table (bits f.opa 37 36)).bank (encodeCmd op f) (fun n => s.readUnits ((s.startedEntry c x op f).desc n).addrs 6))
      ∧ (t.core c).hdrs = (s.core c).hdrs ∧ (t.core c).tiles = (s.core c).tiles ∧ (t.core c).accs = (s.core c).accs) := by
  have hrow : ∀ (s : State) (c x : Nat) (f : CmdFields), s.Passes c x op f → s.Starts c x op f → s.StoreRow c x op f := by
    refine fun s c x f => State.storeRow_modular heng hop ?_
    rw [hrun]
    exact State.storeUnits_storesOnly _ _ _ _
  refine engineRow_of_starts (engineRow_of_storeRow hmk (fun s c x f hp hpre => hrow s c x f hp hpre.1) fun s c x f hq hp hpre => ?_)
  have h := hrow s c x f hp hpre.1
  obtain ⟨-, hlat, -⟩ := State.plan_modular hop hp
  obtain ⟨hhdrs, -, -, htiles, haccs⟩ := h.finished_core hq
  have hbank : (s.startedEntry c x op f).lat.bank = (s.table (bits f.opa 37 36)).bank := congrArg Latch.bank hlat
  have hmem := (State.claimedDests_kept (s := s) (c := c) (x := x) (f := f) h.plain).mem
  refine ⟨fun a => ?_, ?_, htiles, haccs⟩
  · rw [h.finished_readByte hq, hrun, hbank, State.startedEntry_cmd, encodeCmd_mZd, State.readUnits_congr hmem]
    exact State.readByte_storeUnits_congr hmem _ _ _ a
  · rw [hhdrs, hlat]
    rfl

/-! ### The obligation -/

/-- The approximate conversion of `len` residues modulo each prime of `ins`, modulo each prime of `outs` (06 R135). -/
def bconvSums (b : Bank) (ins outs : List Nat) (len : Nat) (xs : List Nat) : List Nat :=
  outs.flatMap (fun j => (List.range len).map (fun k =>
    ((ins.map (fun i => (b.q i, (ins.filter (· != i)).foldl (fun acc r => acc * b.q r % b.q j) (1 % b.q j)))).zipIdx.foldl
      (fun acc e => acc + ((xs[e.2 * len + k]?).getD 0) % e.1.1 * e.1.2) 0) % b.q j))

/-- The product of an `nj` by `ni` matrix and one of `ni` rows of `len` residues, modulo `p` (06 R136). -/
def mmulmSums (p ni nj len : Nat) (xs ws : List Nat) : List Nat :=
  (List.range nj).flatMap (fun j => (List.range len).map (fun k =>
    ((List.range ni).foldl (fun acc i => acc + ((ws[j * ni + i]?).getD 0) * ((xs[i * len + k]?).getD 0)) 0) % p))

/-- Settles O12: each command's row by its plan and by the sums its run stores. -/
theorem modularMatrixCommands : Obligations.ModularMatrixCommands := by
  unfold Obligations.ModularMatrixCommands
  refine ⟨?_, ?_⟩
  · have hrow := modular_row (mk := .bconv) (op := .bconv) (mm := false)
      (fun b w read => bconvSums b (setBits 64 w.w2.toNat) (setBits 64 w.w3.toNat) w.mLen (read w.mXd))
      rfl (fun _ _ _ _ => rfl) (fun _ _ _ => rfl) fun _ _ _ => rfl
    simp only [encodeCmd_mLen, encodeCmd_mXd] at hrow
    exact hrow
  · have hrow := modular_row (mk := .mmulm) (op := .mmulm) (mm := true)
      (fun b w read => mmulmSums (b.q w.mEntry) w.mI w.mJ w.mLen (read w.mXd) (read w.mWd))
      rfl (fun _ _ _ _ => rfl) (fun _ _ _ => rfl) fun _ _ _ => rfl
    simp only [encodeCmd_mEntry, encodeCmd_mLen, encodeCmd_mXd, encodeCmd_mWd] at hrow
    exact hrow

end Sys2Proof.Machine
end


section
/-!
Fields of a word, predicates, the registers of a core, and what completing a control-core command keeps of its effect (10 R208, R211, R234).
-/
namespace Sys2Proof.Machine

variable {s t : State} {c x : Nat} {op : Opcode} {f : CmdFields} {q : QCmd} {r : RegName}

/-! ### Bits of a word with a field written -/

theorem natPut_testBit (v : Nat) {hi lo : Nat} (y i : Nat) (hl : lo ≤ hi + 1) :
    (natPut v hi lo y).testBit i = if lo ≤ i ∧ i ≤ hi then y.testBit (i - lo) else v.testBit i := by
  have hsum : natPut v hi lo y = 2 ^ lo * (2 ^ (hi + 1 - lo) * (v / 2 ^ (hi + 1)) + y % 2 ^ (hi + 1 - lo)) + v % 2 ^ lo := by
    have hpow : 2 ^ (hi + 1) = 2 ^ lo * 2 ^ (hi + 1 - lo) := by rw [← Nat.pow_add, Nat.add_sub_cancel' hl]
    rw [natPut, Nat.mul_add, ← Nat.mul_assoc, ← hpow]
    ring
  rw [hsum, Nat.testBit_two_pow_mul_add _ (Nat.mod_lt _ (Nat.two_pow_pos _)),
    Nat.testBit_two_pow_mul_add _ (Nat.mod_lt _ (Nat.two_pow_pos _)), Nat.testBit_mod_two_pow, Nat.testBit_mod_two_pow, Nat.testBit_div_two_pow]
  by_cases hlo : i < lo
  · rw [if_pos hlo, if_neg (by omega)]
    simp [hlo]
  · rw [if_neg hlo]
    by_cases hin : i ≤ hi
    · rw [if_pos (by omega), if_pos (by omega)]
      simp only [show i - lo < hi + 1 - lo by omega, decide_true, Bool.true_and]
    · rw [if_neg (by omega), if_neg (by omega)]
      congr 1
      omega

/-- A word with a field written has the value's bits in the field and its own elsewhere. -/
theorem bitOf_putBits {n : Nat} (v : BitVec n) {hi lo : Nat} (y : Nat) {i : Nat} (hl : lo ≤ hi + 1) (hi' : i < n) :
    bitOf (putBits v hi lo y) i = if lo ≤ i ∧ i ≤ hi then y.testBit (i - lo) else bitOf v i := by
  rw [bitOf, putBits, BitVec.getLsbD_ofNat, natPut_testBit _ _ _ hl]
  simp only [hi', decide_true, Bool.true_and]
  rfl

theorem b2n_testBit_zero (b : Bool) : (b2n b).testBit 0 = b := by cases b <;> rfl

theorem bitOf_putBits_self {n : Nat} (v : BitVec n) {i : Nat} (b : Bool) (hi : i < n) : bitOf (putBits v i i (b2n b)) i = b := by
  rw [bitOf_putBits v _ (by omega) hi, if_pos ⟨le_rfl, le_rfl⟩, Nat.sub_self, b2n_testBit_zero]

theorem bitOf_putBits_ne {n : Nat} (v : BitVec n) {i j : Nat} (y : Nat) (hj : j < n) (h : j ≠ i) : bitOf (putBits v i i y) j = bitOf v j := by
  rw [bitOf_putBits v y (by omega) hj, if_neg (by omega)]

/-- A field reads as it was written. -/
theorem bits_putBits_self {n : Nat} (v : BitVec n) {hi lo : Nat} (y : Nat) (hl : lo ≤ hi) (hn : hi < n) :
    bits (putBits v hi lo y) hi lo = y % 2 ^ (hi + 1 - lo) := by
  refine Nat.eq_of_testBit_eq fun i => ?_
  rw [bits, natBits, Nat.testBit_mod_two_pow, Nat.testBit_mod_two_pow, Nat.testBit_div_two_pow]
  by_cases hi' : i < hi + 1 - lo
  · have hbit := bitOf_putBits v (hi := hi) (lo := lo) (i := i + lo) y (by omega) (by omega)
    rw [if_pos (by omega), Nat.add_sub_cancel] at hbit
    simp only [hi', decide_true, Bool.true_and]
    exact hbit
  · simp [hi']

theorem signed_eight_range (v : Nat) : -128 ≤ signed 8 v ∧ signed 8 v ≤ 127 := by
  simp only [signed]
  omega

/-- A number that fits eight bits, written to a field of eight bits, reads back. -/
theorem signed_bits_putBits {n : Nat} (v : BitVec n) {e : Int} (hn : 7 < n) (hlo : -128 ≤ e) (hhi : e ≤ 127) :
    signed 8 (bits (putBits v 7 0 (toBits 8 e)) 7 0) = e := by
  rw [bits_putBits_self v _ (by decide) hn]
  simp only [signed, toBits]
  omega

/-! ### Predicates -/

theorem Ctx.pred_setPred (y : Ctx) {i : Nat} (b : Bool) (hi : i < 8) : (y.setPred i b).pred i = (i == 0 || b) := by
  unfold Ctx.setPred Ctx.pred
  by_cases h0 : i = 0
  · simp [h0]
  · rw [if_neg h0]
    exact congrArg (i == 0 || ·) (bitOf_putBits_self y.p b hi)

theorem Ctx.pred_setPred_ne (y : Ctx) {i j : Nat} (b : Bool) (h : j ≠ i) : (y.setPred i b).pred j = y.pred j := by
  unfold Ctx.setPred Ctx.pred
  by_cases h0 : i = 0
  · rw [if_pos h0]
  · rw [if_neg h0]
    refine congrArg (j == 0 || ·) ?_
    by_cases hj : j < 8
    · exact bitOf_putBits_ne y.p _ hj h
    · rw [BitVec.getLsbD_of_ge _ _ (by omega), BitVec.getLsbD_of_ge _ _ (by omega)]

theorem Ctx.reg_setPred (y : Ctx) (i : Nat) (b : Bool) (n : Nat) : (y.setPred i b).reg n = y.reg n := by
  unfold Ctx.setPred
  split <;> rfl

/-! ### Registers of a core -/

theorem RegKey.addr_core (hr : r.block = .core) (i n : Nat) :
    RegKey.addr ⟨r, i, n⟩ = controlBase + 4194304 + i * 0x10000 + r.offset + r.stride * n :=
  RegKey.addr_eq r i n _ _ _ (congrArg Block.base hr) rfl rfl

theorem coreReg_not_peen (hr : r.block = .core) (i n : Nat) : ¬ appliedAddr (RegKey.addr ⟨r, i, n⟩) := by
  rintro ⟨k, hk, h⟩
  rw [RegKey.addr_core hr, RegKey.addr_eq .pnApplied 0 k 983040 512 4 rfl rfl rfl] at h
  omega

theorem eventCounter_addr_lt {a : Nat} (h : eventCounter a) : a < controlBase + 4194304 := by
  obtain ⟨r, hr, rfl⟩ := h
  revert r
  decide

theorem coreReg_not_eventCounter (hr : r.block = .core) (i n : Nat) : ¬ eventCounter (RegKey.addr ⟨r, i, n⟩) := by
  intro h
  have := eventCounter_addr_lt h
  rw [RegKey.addr_core hr] at this
  omega

theorem State.eventsOnly.coreReg (h : s.eventsOnly t) (hr : r.block = .core) (i n : Nat) : t.reg r i n = s.reg r i n :=
  h.reg_eq (coreReg_not_eventCounter hr i n)

theorem State.Kept.coreReg (h : s.Kept t) (hr : r.block = .core) (i n : Nat) : t.reg r i n = s.reg r i n :=
  State.regK_congr (h.regs _ (coreReg_not_peen hr i n))

theorem State.eventsOnly.cores (h : s.eventsOnly t) : t.cores = s.cores := h.get State.cores fun _ _ _ => rfl
theorem State.eventsOnly.mem (h : s.eventsOnly t) : t.mem = s.mem := h.get State.mem fun _ _ _ => rfl

/-! ### The store of a core -/

theorem Core.sameStore.trans {k l m : Core} (h : k.sameStore l) (g : l.sameStore m) : k.sameStore m := by
  obtain ⟨h1, h2, h3, h4, h5⟩ := h
  obtain ⟨g1, g2, g3, g4, g5⟩ := g
  exact ⟨h1.trans g1, h2.trans g2, h3.trans g3, h4.trans g4, h5.trans g5⟩

theorem Core.sameStore_setContext (k : Core) (y : Nat) (v : Ctx) : k.sameStore (k.setContext y v) := ⟨rfl, rfl, rfl, rfl, rfl⟩

theorem Core.butDrawers.sameStore {k l : Core} (h : k.butDrawers l) : l.sameStore k := by
  rw [h.eq_with]
  exact ⟨rfl, rfl, rfl, rfl, rfl⟩

/-! ### A control-core command at its start -/

theorem State.begun_context (h : op.engine < 4) (hr : op ≠ .rsig) (y : Nat) : (s.begun c x op f).context c y
    = if y = x then { (s.context c x) with pc := (s.context c x).pc + 32 } else s.context c y := by
  obtain ⟨cs, hcore, -⟩ := State.begun_core (s := s) (c := c) (x := x) (f := f) h hr
  rw [State.context, hcore, State.frontCore_context]

theorem State.begun_sameStore (h : op.engine < 4) (hr : op ≠ .rsig) : (s.core c).sameStore ((s.begun c x op f).core c) := by
  obtain ⟨cs, hcore, -⟩ := State.begun_core (s := s) (c := c) (x := x) (f := f) h hr
  rw [hcore]
  exact ⟨rfl, rfl, rfl, rfl, rfl⟩

/-! ### What a completion keeps -/

theorem State.cmdEvent_eventsOnly (s : State) (c : Nat) (q : QCmd) (code cls st : Nat) : s.eventsOnly (s.cmdEvent c q code cls st) :=
  s.raise_eventsOnly _

theorem State.eventsOnly.refl (s : State) : s.eventsOnly s := ⟨rfl, fun _ _ => rfl⟩

theorem State.tarnishEvent_eventsOnly (s : State) (c : Nat) (q : QCmd) (st : Nat) : s.eventsOnly (s.tarnishEvent c q st) := by
  unfold State.tarnishEvent
  split
  · exact s.cmdEvent_eventsOnly ..
  split
  · exact s.cmdEvent_eventsOnly ..
  · exact .refl s

theorem State.statusEvent_eventsOnly (s : State) (c : Nat) (q : QCmd) (st : Nat) : s.eventsOnly (s.statusEvent c q st) := by
  unfold State.statusEvent
  split
  · exact s.cmdEvent_eventsOnly ..
  split
  · split
    · exact .refl s
    · exact s.tarnishEvent_eventsOnly c q st
  split
  · exact s.cmdEvent_eventsOnly ..
  split
  · exact s.cmdEvent_eventsOnly ..
  · exact .refl s

/-- A completion that neither halts nor reports an abort, of a command that reads no other core. -/
theorem State.complete_eq {st : Nat} (hh : halting st = false) (ha : st ≠ stAborted) (hp : q.peer = none) :
    t.complete c q st = ((t.dropped c q st).statusEvent c q st).settleClosing c := by
  unfold State.complete
  simp only [hh, ha, Bool.false_eq_true, if_false, hp]
  rfl

/-- `t` has the contexts, header slots, descriptors and anvil storage of core `c`, memory, and the registers of every core as `s` has them: what
a completion leaves of what its command did. -/
structure State.KeepsWork (s t : State) (c : Nat) : Prop where
  context : ∀ y, t.context c y = s.context c y
  store : (s.core c).sameStore (t.core c)
  mem : ∀ a, t.readByte a = s.readByte a
  reg : ∀ {r : RegName}, r.block = .core → ∀ i n, t.reg r i n = s.reg r i n

theorem State.complete_keepsWork {st : Nat} (hh : halting st = false) (ha : st ≠ stAborted) (hp : q.peer = none) :
    t.KeepsWork (t.complete c q st) c := by
  have hcore := State.complete_core t c q st hh ha c
  have hev := (t.dropped c q st).statusEvent_eventsOnly c q st
  refine ⟨fun y => ?_, ?_, fun a => ?_, fun hr i n => ?_⟩
  · rw [State.context, hcore.context, State.dropped_core]
    split <;> rfl
  · refine Core.sameStore.trans ?_ hcore.sameStore
    rw [State.dropped_core]
    split <;> exact ⟨rfl, rfl, rfl, rfl, rfl⟩
  · rw [State.readByte, State.complete_eq hh ha hp, (State.butCores.of_settle _ c).mem, hev.mem, (State.dropped_rest t c q st).mem]
    rfl
  · rw [State.complete_eq hh ha hp]
    calc State.reg (((t.dropped c q st).statusEvent c q st).settleClosing c) _ i n
        = ((t.dropped c q st).statusEvent c q st).reg _ i n := State.regK_congr (by rw [State.settleClosing_regs])
      _ = (t.dropped c q st).reg _ i n := hev.coreReg hr i n
      _ = t.reg _ i n := State.regK_congr (State.dropped_regs t c q st _ (coreReg_not_peen hr i n))

end Sys2Proof.Machine
end

section
/-!
LSDECIDE and LRPICK (07 R154, R157): what each one's effect leaves, its row on a quiet core, and the obligation about them.
-/
namespace Sys2Proof.Machine

variable {s t : State} {c x : Nat} {op : Opcode} {f : CmdFields} {q : QCmd}

/-! ### Fields -/

theorem encodeCmd_pd (op : Opcode) : (encodeCmd op f).pd = f.pd := encodeCmd_opa op f 37 35 (by decide)
theorem encodeCmd_ra (op : Opcode) : (encodeCmd op f).ra = f.ra := encodeCmd_opa op f 29 25 (by decide)
theorem encodeCmd_num (op : Opcode) : (encodeCmd op f).num = f.num := encodeCmd_opa op f 14 7 (by decide)

theorem CmdFields.pd_lt (f : CmdFields) : f.pd < 8 := Nat.mod_lt _ (by decide)
theorem CmdFields.num_lt (f : CmdFields) : f.num < 256 := Nat.mod_lt _ (by decide)

/-! ### The registers of the loss scale and of the layers -/

theorem lossScale_ne_lsCount (c i j : Nat) : RegKey.addr ⟨.lossScale, c, i⟩ ≠ RegKey.addr ⟨.lsCount, c, j⟩ := by
  rw [RegKey.addr_eq .lossScale c i 4194304 1808 8 rfl rfl rfl, RegKey.addr_eq .lsCount c j 4194304 1812 8 rfl rfl rfl]
  omega

theorem lossScale_ne_clearStatus (c i : Nat) : RegKey.addr ⟨.lossScale, c, i⟩ ≠ RegKey.addr ⟨.clearStatus, c, 0⟩ := by
  rw [RegKey.addr_eq .lossScale c i 4194304 1808 8 rfl rfl rfl, RegKey.addr_eq .clearStatus c 0 4194304 1796 0 rfl rfl rfl]
  omega

theorem lsCount_ne_clearStatus (c i : Nat) : RegKey.addr ⟨.lsCount, c, i⟩ ≠ RegKey.addr ⟨.clearStatus, c, 0⟩ := by
  rw [RegKey.addr_eq .lsCount c i 4194304 1812 8 rfl rfl rfl, RegKey.addr_eq .clearStatus c 0 4194304 1796 0 rfl rfl rfl]
  omega

theorem layer_ne_histBin (c : Nat) {l : Nat} (hl : l < 256) (n : Nat) : RegKey.addr ⟨.layer, c, l⟩ ≠ RegKey.addr ⟨.histBin, c, n⟩ := by
  rw [RegKey.addr_eq .layer c l 4194304 2048 4 rfl rfl rfl, RegKey.addr_eq .histBin c n 4194304 8192 4 rfl rfl rfl]
  omega

/-! ### LSDECIDE -/

/-- LOSS_SCALE after a decision: EXP steps down to EXP_MIN at an overflow, and up to EXP_MAX once enough clean steps are counted (07 R154). -/
def nextScale (ovf : Bool) (l n : W32) : W32 :=
  if ovf then putBits l 7 0 (toBits 8 (max (signed 8 (bits l 7 0) - 1) (signed 8 (bits l 15 8))))
  else if bits n 31 16 ≤ bits n 15 0 + 1 then putBits l 7 0 (toBits 8 (min (signed 8 (bits l 7 0) + 1) (signed 8 (bits l 23 16))))
  else l

/-- LS_COUNT after a decision: CLEAN counts the clean steps since EXP last moved (07 R154). -/
def nextCount (ovf : Bool) (n : W32) : W32 :=
  putBits n 15 0 (if ovf then 0 else if bits n 31 16 ≤ bits n 15 0 + 1 then 0 else bits n 15 0 + 1)

theorem nextScale_overflow (l n : W32) :
    signed 8 (bits (nextScale true l n) 7 0) = max (signed 8 (bits l 7 0) - 1) (signed 8 (bits l 15 8)) := by
  have he := signed_eight_range (bits l 7 0)
  have hlo := signed_eight_range (bits l 15 8)
  rw [nextScale, if_pos rfl, signed_bits_putBits l (by decide) (by omega) (by omega)]

theorem nextScale_double (l : W32) {n : W32} (h : bits n 31 16 ≤ bits n 15 0 + 1) :
    signed 8 (bits (nextScale false l n) 7 0) = min (signed 8 (bits l 7 0) + 1) (signed 8 (bits l 23 16)) := by
  have he := signed_eight_range (bits l 7 0)
  have hhi := signed_eight_range (bits l 23 16)
  rw [nextScale, if_neg Bool.false_ne_true, if_pos h, signed_bits_putBits l (by decide) (by omega) (by omega)]

theorem nextScale_keep (l : W32) {n : W32} (h : ¬ bits n 31 16 ≤ bits n 15 0 + 1) : nextScale false l n = l := by
  rw [nextScale, if_neg Bool.false_ne_true, if_neg h]

theorem nextCount_overflow (n : W32) : bits (nextCount true n) 15 0 = 0 := by
  rw [nextCount, if_pos rfl, bits_putBits_self n _ (by decide) (by decide), Nat.zero_mod]

theorem nextCount_double {n : W32} (h : bits n 31 16 ≤ bits n 15 0 + 1) : bits (nextCount false n) 15 0 = 0 := by
  rw [nextCount, if_neg Bool.false_ne_true, if_pos h, bits_putBits_self n _ (by decide) (by decide), Nat.zero_mod]

theorem nextCount_keep {n : W32} (h : ¬ bits n 31 16 ≤ bits n 15 0 + 1) : bits (nextCount false n) 15 0 = bits n 15 0 + 1 := by
  have hinterval : bits n 31 16 < 2 ^ 16 := Nat.mod_lt _ (by decide)
  rw [nextCount, if_neg Bool.false_ne_true, if_neg h, bits_putBits_self n _ (by decide) (by decide)]
  exact Nat.mod_eq_of_lt (by omega)

/-- The decision of LSDECIDE at its commit: the flag it sampled at issue, or bit 0 of its scalar register (07 R154). -/
def decidesOverflow (s : State) (c : Nat) (q : QCmd) : Bool := q.lat.ovf || bitOf ((s.context c q.ctx).reg q.cmd.ra) 0

/-- `t` is `s` after context `x` of core `c` decided a step: its predicate, LOSS_SCALE and LS_COUNT, and its bit of LAST_SKIP. -/
structure State.Decided (s t : State) (c x pd : Nat) (ovf : Bool) : Prop where
  cores : t.cores = (s.modContext c x (fun y => y.setPred pd (!ovf))).cores
  mem : t.mem = s.mem
  scale : t.reg .lossScale c x = nextScale ovf (s.reg .lossScale c x) (s.reg .lsCount c x)
  count : t.reg .lsCount c x = nextCount ovf (s.reg .lsCount c x)
  status : t.reg .clearStatus c = putBits (s.reg .clearStatus c) (16 + x) (16 + x) (b2n ovf)

@[simp] theorem State.setReg_cores (s : State) (r : RegName) (i n : Nat) (v : W32) : (s.setReg r i n v).cores = s.cores := rfl
@[simp] theorem State.setReg_mem (s : State) (r : RegName) (i n : Nat) (v : W32) : (s.setReg r i n v).mem = s.mem := rfl
@[simp] theorem State.modContext_mem (s : State) (c x : Nat) (g : Ctx → Ctx) : (s.modContext c x g).mem = s.mem := rfl
theorem State.reg_modContext (s : State) (c x : Nat) (g : Ctx → Ctx) (r : RegName) (i n : Nat) :
    (s.modContext c x g).reg r i n = s.reg r i n := rfl

theorem State.modContext_cores (h : t.cores = s.cores) (c x : Nat) (g : Ctx → Ctx) : (t.modContext c x g).cores = (s.modContext c x g).cores := by
  unfold State.modContext State.modCore State.setCore State.core
  rw [h]

theorem runLsdecide_overflow (hovf : decidesOverflow s c q = true) : s.Decided (runLsdecide s c q).1 c q.ctx q.cmd.pd true := by
  have hlc := lossScale_ne_lsCount c q.ctx q.ctx
  have hls := lossScale_ne_clearStatus c q.ctx
  have hcs := lsCount_ne_clearStatus c q.ctx
  unfold runLsdecide
  dsimp only
  rw [← decidesOverflow, hovf, if_pos rfl]
  generalize hv : (if signed 8 (bits (s.reg .lossScale c q.ctx) 7 0) = signed 8 (bits (s.reg .lossScale c q.ctx) 15 8)
    then s.cmdEvent c q 0x010A 1 stStepSkipped else s) = v
  have hev : s.eventsOnly v := by
    rw [← hv]
    split
    · exact s.cmdEvent_eventsOnly ..
    · exact .refl s
  dsimp only [State.setRf]
  refine ⟨?_, ?_, ?_, ?_, ?_⟩
  · rw [State.setReg_cores, State.setReg_cores, State.setReg_cores, State.modContext_cores hev.cores, Bool.not_true]
  · rw [State.setReg_mem, State.setReg_mem, State.setReg_mem, State.modContext_mem, hev.mem]
  · rw [State.reg_setReg_ne _ _ hls, State.reg_setReg_ne _ _ hlc, State.reg_setReg, nextScale, if_pos rfl]
  · rw [State.reg_setReg_ne _ _ hcs, State.reg_setReg, nextCount, if_pos rfl]
  · rw [State.reg_setReg, State.reg_setReg_ne _ _ hcs.symm, State.reg_setReg_ne _ _ hls.symm, State.reg_modContext,
      hev.coreReg rfl, b2n, if_pos rfl]

theorem runLsdecide_clean (hovf : decidesOverflow s c q = false) : s.Decided (runLsdecide s c q).1 c q.ctx q.cmd.pd false := by
  have hlc := lossScale_ne_lsCount c q.ctx q.ctx
  have hls := lossScale_ne_clearStatus c q.ctx
  have hcs := lsCount_ne_clearStatus c q.ctx
  unfold runLsdecide
  dsimp only
  rw [← decidesOverflow, hovf, if_neg Bool.false_ne_true]
  by_cases hdouble : bits (s.reg .lsCount c q.ctx) 31 16 ≤ bits (s.reg .lsCount c q.ctx) 15 0 + 1
  · rw [if_pos hdouble]
    dsimp only [State.setRf]
    refine ⟨?_, ?_, ?_, ?_, ?_⟩
    · rw [State.setReg_cores, State.setReg_cores, State.setReg_cores, Bool.not_false]
    · rw [State.setReg_mem, State.setReg_mem, State.setReg_mem, State.modContext_mem]
    · rw [State.reg_setReg_ne _ _ hlc, State.reg_setReg, nextScale, if_neg Bool.false_ne_true, if_pos hdouble]
    · rw [State.reg_setReg, nextCount, if_neg Bool.false_ne_true, if_pos hdouble]
    · rw [State.reg_setReg_ne _ _ hcs.symm, State.reg_setReg_ne _ _ hls.symm, State.reg_setReg, State.reg_modContext, b2n,
        if_neg Bool.false_ne_true]
  · rw [if_neg hdouble]
    dsimp only [State.setRf]
    refine ⟨?_, ?_, ?_, ?_, ?_⟩
    · rw [State.setReg_cores, State.setReg_cores, Bool.not_false]
    · rw [State.setReg_mem, State.setReg_mem, State.modContext_mem]
    · rw [State.reg_setReg_ne _ _ hlc, State.reg_setReg_ne _ _ hls, State.reg_modContext, nextScale_keep _ hdouble]
    · rw [State.reg_setReg, nextCount, if_neg Bool.false_ne_true, if_neg hdouble]
    · rw [State.reg_setReg_ne _ _ hcs.symm, State.reg_setReg, State.reg_modContext, b2n, if_neg Bool.false_ne_true]

theorem runLsdecide_decided (s : State) (c : Nat) (q : QCmd) :
    s.Decided (runLsdecide s c q).1 c q.ctx q.cmd.pd (decidesOverflow s c q) := by
  cases hovf : decidesOverflow s c q with
  | true => exact runLsdecide_overflow hovf
  | false => exact runLsdecide_clean hovf

/-- LSDECIDE samples its flag at issue and clears it (07 R154). -/
theorem State.begun_lsdecide (s : State) (c x : Nat) (f : CmdFields) :
    (s.begun c x .lsdecide f).reg .clearStatus c = putBits (s.reg .clearStatus c) x x (b2n false)
    ∧ (s.begun c x .lsdecide f).reg .lossScale c x = s.reg .lossScale c x
    ∧ (s.begun c x .lsdecide f).reg .lsCount c x = s.reg .lsCount c x
    ∧ ∀ a, (s.begun c x .lsdecide f).readByte a = s.readByte a := by
  have hk := State.issued_kept (s := s) (c := c) (x := x) (op := .lsdecide) (f := f) (by decide)
  have hreg : ∀ (r : RegName) (i : Nat), (s.begun c x .lsdecide f).reg r c i
      = ((s.issued c x .lsdecide f).setRf .clearStatus c 0 x x 0).reg r c i := fun _ _ => rfl
  refine ⟨?_, ?_, ?_, fun a => hk.mem a⟩
  · rw [hreg, State.setRf, State.reg_setReg, hk.coreReg rfl]
    rfl
  · rw [hreg, State.setRf, State.reg_setReg_ne _ _ (lossScale_ne_clearStatus c x), hk.coreReg rfl]
  · rw [hreg, State.setRf, State.reg_setReg_ne _ _ (lsCount_ne_clearStatus c x), hk.coreReg rfl]

theorem State.decidesOverflow_begun (s : State) (c x : Nat) (f : CmdFields) :
    decidesOverflow (s.begun c x .lsdecide f) c (s.startedEntry c x .lsdecide f) = s.overflowed c x f := by
  have hctx : (s.startedEntry c x .lsdecide f).ctx = x := rfl
  have hovf : (s.startedEntry c x .lsdecide f).lat.ovf = bitOf (s.reg .clearStatus c) x := rfl
  rw [decidesOverflow, hctx, hovf, State.startedEntry_cmd, encodeCmd_ra, State.begun_context (by decide) (by decide), if_pos rfl]
  rfl

/-- A quiet core after LSDECIDE's effect at its commit, not yet completed. -/
def State.decidedStep (s : State) (c x : Nat) (f : CmdFields) : State :=
  (runLsdecide (s.begun c x .lsdecide f) c (s.startedEntry c x .lsdecide f)).1

theorem State.passes_lsdecide (s : State) (c x : Nat) (f : CmdFields) : s.Passes c x .lsdecide f := ⟨nofun, rfl⟩

theorem State.decidedStep_decided (s : State) (c x : Nat) (f : CmdFields) :
    (s.begun c x .lsdecide f).Decided (s.decidedStep c x f) c x f.pd (s.overflowed c x f) := by
  have h := runLsdecide_decided (s.begun c x .lsdecide f) c (s.startedEntry c x .lsdecide f)
  rwa [State.decidesOverflow_begun, State.startedEntry_cmd, encodeCmd_pd] at h

theorem State.decidedStep_context (s : State) (c x : Nat) (f : CmdFields) : (s.decidedStep c x f).context c x
    = Ctx.setPred { (s.context c x) with pc := (s.context c x).pc + 32 } f.pd (!s.overflowed c x f) := by
  rw [State.context, State.core_congr (s.decidedStep_decided c x f).cores, ← State.context, State.context_modContext,
    State.begun_context (by decide) (by decide), if_pos rfl]

theorem State.decidedStep_sameStore (s : State) (c x : Nat) (f : CmdFields) : (s.core c).sameStore ((s.decidedStep c x f).core c) := by
  refine (State.begun_sameStore (x := x) (op := .lsdecide) (f := f) (by decide) (by decide)).trans ?_
  rw [State.core_congr (s.decidedStep_decided c x f).cores, State.modContext, State.core_modCore]
  exact Core.sameStore_setContext _ _ _

theorem State.decidedStep_regs (s : State) (c x : Nat) (f : CmdFields) :
    (s.decidedStep c x f).reg .lossScale c x = nextScale (s.overflowed c x f) (s.reg .lossScale c x) (s.reg .lsCount c x)
    ∧ (s.decidedStep c x f).reg .lsCount c x = nextCount (s.overflowed c x f) (s.reg .lsCount c x)
    ∧ (s.decidedStep c x f).reg .clearStatus c
      = putBits (putBits (s.reg .clearStatus c) x x (b2n false)) (16 + x) (16 + x) (b2n (s.overflowed c x f)) := by
  obtain ⟨hstatus, hscale, hcount, -⟩ := s.begun_lsdecide c x f
  have h := s.decidedStep_decided c x f
  refine ⟨?_, ?_, ?_⟩
  · rw [h.scale, hscale, hcount]
  · rw [h.count, hcount]
  · rw [h.status, hstatus]

theorem State.decidedStep_readByte (s : State) (c x : Nat) (f : CmdFields) (a : Nat) : (s.decidedStep c x f).readByte a = s.readByte a := by
  obtain ⟨-, -, -, hmem⟩ := s.begun_lsdecide c x f
  rw [State.readByte, (s.decidedStep_decided c x f).mem]
  exact hmem a

/-- LSDECIDE on a quiet core: its effect at its commit, completed with ST_OK or ST_STEP_SKIPPED. -/
theorem State.Quiet.lsdecide_row (hq : s.Quiet c x) (ht : s.Takes c x .lsdecide f) :
    ∃ t, exec (.lsdecide c x f) s = .next t ∧ (s.decidedStep c x f).KeepsWork t c ∧ (t.core c).q = [] := by
  have hst := runControl_status (op := .lsdecide) (c := c) (s.begun c x .lsdecide f) (s.startedEntry c x .lsdecide f)
  have hh : halting (runControl .lsdecide (s.begun c x .lsdecide f) c (s.startedEntry c x .lsdecide f)).2 = false := by
    rcases hst with h | ⟨-, h⟩ <;> rw [h] <;> decide
  have ha : (runControl .lsdecide (s.begun c x .lsdecide f) c (s.startedEntry c x .lsdecide f)).2 ≠ stAborted := by
    rcases hst with h | ⟨-, h⟩ <;> rw [h] <;> decide
  refine ⟨s.runWord c x (encodeCmd .lsdecide f), hq.runRow_eq, ?_⟩
  rw [hq.control ht (s.passes_lsdecide c x f) rfl (by decide) (by decide) (by decide) (by decide)
    (by simp [controlReady, State.issuedEntry])]
  refine ⟨State.complete_keepsWork hh ha rfl, State.complete_q _ _ _ _ hh ha ?_⟩
  rw [runControl_q, State.begun_q (by decide) (by decide)]

/-! ### LRPICK -/

theorem State.regsOnly.cores {as : List Nat} (h : s.regsOnly t as) : t.cores = s.cores := by
  have hcores := congrArg State.cores h.1
  exact hcores
theorem State.regsOnly.mem {as : List Nat} (h : s.regsOnly t as) : t.mem = s.mem := by
  have hmem := congrArg State.mem h.1
  exact hmem

/-- The first `n` bins of a histogram slot made zero. -/
def State.clearBins (s : State) (c h n : Nat) : State := (List.range n).foldl (fun s i => s.setReg .histBin c (64 * h + i) 0) s

theorem State.clearBins_succ (s : State) (c h n : Nat) : s.clearBins c h (n + 1) = (s.clearBins c h n).setReg .histBin c (64 * h + n) 0 := by
  rw [State.clearBins, List.range_succ, List.foldl_append]
  rfl

theorem State.clearBins_regsOnly (s : State) (c h n : Nat) :
    s.regsOnly (s.clearBins c h n) ((List.range n).map (fun i => adr .histBin c (64 * h + i))) := by
  induction n with
  | zero => exact ⟨rfl, fun _ _ => rfl⟩
  | succ n ih =>
    rw [State.clearBins_succ, List.range_succ, List.map_append]
    exact ih.trans (State.setReg_regsOnly ..)

theorem State.clearBins_bin (s : State) (c h : Nat) {n i : Nat} (hi : i < n) : (s.clearBins c h n).reg .histBin c (64 * h + i) = 0 := by
  induction n with
  | zero => omega
  | succ n ih =>
    rw [State.clearBins_succ]
    by_cases hn : i = n
    · rw [hn, State.reg_setReg]
    · rw [State.reg_setReg_ne, ih (by omega)]
      rw [RegKey.addr_eq .histBin c (64 * h + i) 4194304 8192 4 rfl rfl rfl, RegKey.addr_eq .histBin c (64 * h + n) 4194304 8192 4 rfl rfl rfl]
      omega

theorem State.clearBins_layer (s : State) (c h n : Nat) {l : Nat} (hl : l < 256) : (s.clearBins c h n).reg .layer c l = s.reg .layer c l := by
  refine State.regK_congr ((s.clearBins_regsOnly c h n).2 _ fun hmem => ?_)
  obtain ⟨i, -, hi⟩ := List.mem_map.1 hmem
  exact layer_ne_histBin c hl _ hi.symm

/-- The word of LAYER[n] after LRPICK: SHIFT as its histogram slot has it (07 R157). -/
def State.pickedLayer (s : State) (c n : Nat) (hbase : Int) : W32 :=
  putBits (s.reg .layer c n) 7 0 (toBits 8
    (lrShift hbase (bits (s.reg .layer c n) 15 12) (bits (s.reg .layer c n) 11 8) (signed 8 (bits (s.reg .layer c n) 7 0))
      (fun i => (s.reg .histBin c (64 * bits (s.reg .layer c n) 19 16 + i)).toNat)))

theorem runLrpick_eq (s : State) (c : Nat) (q : QCmd) : runLrpick s c q
    = (s.setReg .layer c q.cmd.num (s.pickedLayer c q.cmd.num q.lat.hbase)).clearBins c (bits (s.reg .layer c q.cmd.num) 19 16) 64 := rfl

theorem State.pickedLayer_congr (h : ∀ r i n, RegName.block r = .core → t.reg r i n = s.reg r i n) (c n : Nat) (hbase : Int) :
    t.pickedLayer c n hbase = s.pickedLayer c n hbase := by
  have hbin : ∀ i, t.reg .histBin c i = s.reg .histBin c i := fun i => h _ _ _ rfl
  unfold State.pickedLayer
  simp only [h .layer c n rfl, hbin]

/-- An LRPICK that passes its checks latches HBASE at issue (07 R157). -/
theorem State.startedEntry_hbase (hp : s.Passes c x .lrpick f) :
    (s.startedEntry c x .lrpick f).lat.hbase = signed 8 (bits (s.reg .clearCfg c) 15 8) ∧ (s.startedEntry c x .lrpick f).peer = none := by
  have hplan := (Plan.checks_ok hp.2).2
  have hlat : (s.plan c x .lrpick f).lat = { clearCfg := s.reg .clearCfg c } := congrArg Plan.lat hplan
  have hpeer : (s.plan c x .lrpick f).peer = none := congrArg Plan.peer hplan
  have hcfg : (s.startedEntry c x .lrpick f).lat.clearCfg = (s.plan c x .lrpick f).lat.clearCfg := rfl
  refine ⟨?_, hpeer⟩
  rw [Latch.hbase, hcfg, hlat]

/-- A command whose effect changed no core completes with its own claims, signal and program counter, and no more. -/
theorem State.begun_done {u : State} (ht : s.Takes c x op f) (he : op.engine < 4) (hr : op ≠ .rsig) (hq : s.Quiet c x)
    (hu : u.cores = (s.begun c x op f).cores) (hp : (s.startedEntry c x op f).peer = none) :
    s.Done (u.complete c (s.startedEntry c x op f) stOk) c x f ((s.context c x).pc + 32) .running (s.core c).counter := by
  obtain ⟨cs, hcore, hcs⟩ := State.begun_core (s := s) (c := c) (x := x) (f := f) he hr
  have hctx : ∀ y, u.context c y = (s.begun c x op f).context c y := fun y => by rw [State.context, State.core_congr hu, ← State.context]
  refine State.complete_done u _ _ _ ?_ hp (by simp) (by simp) ?_ ?_ (fun d hd => ?_) (fun y hy => ?_) (by simp) ht.mode _ fun n => ?_
  · rw [State.core_congr hu, State.begun_q he hr]
  · rw [hctx, State.begun_context he hr, if_pos rfl]
  · rw [hctx, State.begun_context he hr, if_pos rfl, hq.running]
  · rw [State.core_congr hu, State.begun_other he hr hd]
  · rw [hctx, State.begun_context he hr, if_neg hy]
  · rw [State.core_congr hu, hcore]
    exact hcs n

/-- A quiet core after LRPICK's effect at its commit, not yet completed. -/
def State.picked (s : State) (c x : Nat) (f : CmdFields) : State :=
  runLrpick (s.begun c x .lrpick f) c (s.startedEntry c x .lrpick f)

theorem State.picked_regsOnly (s : State) (c x : Nat) (f : CmdFields) : ∃ as, (s.begun c x .lrpick f).regsOnly (s.picked c x f) as := by
  rw [State.picked, runLrpick_eq]
  exact ⟨_, (State.setReg_regsOnly ..).trans (State.clearBins_regsOnly ..)⟩

theorem State.picked_regs (hp : s.Passes c x .lrpick f) :
    (s.picked c x f).reg .layer c f.num = s.pickedLayer c f.num (signed 8 (bits (s.reg .clearCfg c) 15 8))
    ∧ ∀ i, i < 64 → (s.picked c x f).reg .histBin c (64 * bits (s.reg .layer c f.num) 19 16 + i) = 0 := by
  have hk := State.begun_kept (s := s) (c := c) (x := x) (op := .lrpick) (f := f) (by decide) (by decide) (by decide)
  rw [State.picked, runLrpick_eq, State.startedEntry_cmd, encodeCmd_num, (State.startedEntry_hbase hp).1, hk.coreReg rfl]
  refine ⟨?_, fun i hi => State.clearBins_bin _ _ _ hi⟩
  rw [State.clearBins_layer _ _ _ _ (CmdFields.num_lt f), State.reg_setReg]
  exact State.pickedLayer_congr (fun _ i n h => hk.coreReg h i n) _ _ _

/-- LRPICK on a quiet core: its effect at its commit, completed with ST_OK. -/
theorem State.Quiet.lrpick_row (hq : s.Quiet c x) (ht : s.Takes c x .lrpick f) (hp : s.Passes c x .lrpick f) :
    exec (.lrpick c x f) s = .next ((s.picked c x f).complete c (s.startedEntry c x .lrpick f) stOk) := by
  have hrow : exec (.lrpick c x f) s = .next (s.runWord c x (encodeCmd .lrpick f)) := hq.runRow_eq
  rw [hrow, hq.control ht hp rfl (by decide) (by decide) (by decide) (by decide)
    (by simp [controlReady, State.issuedEntry])]
  rfl

/-! ### The obligation -/

/-- Settles O5: each command's row is its effect, completed; the effect is read register by register, and completing keeps it. -/
theorem lossScaleAndLearningRate : Obligations.LossScaleAndLearningRate := by
  unfold Obligations.LossScaleAndLearningRate
  refine ⟨fun s c x f hq ht _ => ?_, fun s c x f hq ht hp => ?_⟩
  · obtain ⟨t, hexec, hk, hempty⟩ := hq.lsdecide_row ht
    obtain ⟨hscale, hcount, hstatus⟩ := s.decidedStep_regs c x f
    rw [← hk.reg rfl] at hscale hcount hstatus
    have hx := hq.ctx
    have hctx := (hk.context x).trans (s.decidedStep_context c x f)
    refine ⟨t, hexec, ?_, ⟨fun n => ?_, fun n hn => ?_⟩, ?_, ?_, fun hovf => ?_, fun hovf hdouble => ?_, fun hovf hkeep => ?_,
      fun a => (hk.mem a).trans (s.decidedStep_readByte c x f a), (s.decidedStep_sameStore c x f).trans hk.store, hempty⟩
    · rw [hctx, Ctx.pred_setPred _ _ (CmdFields.pd_lt f)]
    · rw [hctx, Ctx.reg_setPred]
      rfl
    · rw [hctx, Ctx.pred_setPred_ne _ _ hn]
      rfl
    · rw [hstatus, bitOf_putBits_ne _ _ (by omega) (by omega), bitOf_putBits_self _ _ (by omega)]
    · rw [hstatus, bitOf_putBits_self _ _ (by omega)]
    · rw [hscale, hcount, hovf]
      exact ⟨nextScale_overflow _ _, nextCount_overflow _⟩
    · rw [hscale, hcount, hovf]
      exact ⟨nextScale_double _ hdouble, nextCount_double hdouble⟩
    · rw [hscale, hcount, hovf]
      exact ⟨nextScale_keep _ hkeep, nextCount_keep hkeep⟩
  · obtain ⟨as, hregs⟩ := s.picked_regsOnly c x f
    obtain ⟨hlayer, hbins⟩ := State.picked_regs hp
    obtain ⟨-, hpeer⟩ := State.startedEntry_hbase hp
    have hk := State.complete_keepsWork (t := s.picked c x f) (c := c) (st := stOk) (by decide) (by decide) hpeer
    have hcore := State.core_congr hregs.cores c
    refine ⟨_, hq.lrpick_row ht hp, (hk.reg rfl ..).trans hlayer, fun i hi => (hk.reg rfl ..).trans (hbins i hi), fun a => ?_, ?_, ?_,
      State.begun_done ht (by decide) (by decide) hq hregs.cores hpeer⟩
    · rw [hk.mem, State.readByte, hregs.mem]
      exact (State.begun_kept (by decide) (by decide) (by decide)).mem a
    · rw [hk.context, State.context, hcore, ← State.context, State.begun_context (by decide) (by decide), if_pos rfl]
    · refine (State.begun_sameStore (x := x) (op := .lrpick) (f := f) (by decide) (by decide)).trans ?_
      rw [← hcore]
      exact hk.store

end Sys2Proof.Machine
end

section
/-!
The object commands of the drawbench (08 R177): what their issue checks leave once they pass, what their runs leave of memory, their
rows, and the obligation about them.
-/
namespace Sys2Proof.Machine

variable {s : State} {c x : Nat} {op : Opcode} {f : CmdFields} {o : ObjOp}

/-! ### Runs of drawers with no drawer in common -/

theorem mem_objDrawers {e d k log2n : Nat} : e ∈ objDrawers d k log2n ↔ d ≤ e ∧ e < d + k * limbDrawers log2n := by
  simp only [objDrawers, drawerRun, List.mem_map, List.mem_range]
  exact ⟨fun ⟨i, hi, he⟩ => by omega, fun he => ⟨e - d, by omega, by omega⟩⟩

/-- The drawers of a limb are drawers of its run. -/
theorem objDrawers_limb {d k log2n i j : Nat} (hi : i < k) (hj : j < limbDrawers log2n) :
    d + i * limbDrawers log2n + j ∈ objDrawers d k log2n := by
  have := Nat.mul_le_mul_right (limbDrawers log2n) (show i + 1 ≤ k from hi)
  rw [Nat.succ_mul] at this
  exact mem_objDrawers.2 ⟨by omega, by omega⟩

/-- Limbs of runs that share no drawer lie apart. -/
theorem limb_apart_of_disjoint {src dst k n log2n : Nat} (h : ∀ e ∈ objDrawers dst n log2n, ¬ e ∈ objDrawers src k log2n) (c : Nat)
    {i j : Nat} (hi : i < k) (hj : j < n) :
    limbAddr c src log2n i + 6 * 2 ^ log2n ≤ limbAddr c dst log2n j
      ∨ limbAddr c dst log2n j + 6 * 2 ^ log2n ≤ limbAddr c src log2n i := by
  have hpos := limbDrawers_pos log2n
  have hsrc := objDrawers_limb (d := src) (log2n := log2n) (j := dst + j * limbDrawers log2n - (src + i * limbDrawers log2n)) hi
  have hdst := objDrawers_limb (d := dst) (log2n := log2n) (j := src + i * limbDrawers log2n - (dst + j * limbDrawers log2n)) hj
  by_cases hle : src + (i + 1) * limbDrawers log2n ≤ dst + j * limbDrawers log2n
  · exact .inl (limb_before hle)
  · refine .inr (limb_before ?_)
    by_contra hge
    rw [Nat.succ_mul] at hle hge
    rcases Nat.le_total (src + i * limbDrawers log2n) (dst + j * limbDrawers log2n) with hc | hc
    · have hs := hsrc (by omega)
      rw [Nat.add_sub_cancel' hc] at hs
      exact h _ (objDrawers_limb (j := 0) hj hpos) hs
    · have hd := hdst (by omega)
      rw [Nat.add_sub_cancel' hc] at hd
      exact h _ hd (objDrawers_limb (j := 0) hi hpos)

/-! ### Limbs made from limbs that are not written -/

/-- Residue `k` of limb `i` of a run, modulo `q`. -/
def State.residueAt (s : State) (c d log2n q k i : Nat) : Nat := s.readLE (limbAddr c d log2n i + 6 * k) 6 % q

theorem State.residueAt_congr {t : State} {d log2n k i : Nat} (q : Nat) (hk : k < 2 ^ log2n)
    (h : ∀ a, limbAddr c d log2n i ≤ a → a < limbAddr c d log2n i + 6 * 2 ^ log2n → t.readByte a = s.readByte a) :
    t.residueAt c d log2n q k i = s.residueAt c d log2n q k i := by
  have hbytes : t.readBytes (limbAddr c d log2n i + 6 * k) 6 = s.readBytes (limbAddr c d log2n i + 6 * k) 6 :=
    State.readBytes_congr fun j hj => h _ (by omega) (by omega)
  unfold State.residueAt State.readLE
  rw [hbytes]

/-- Limbs stored in order, each made by `g` of the state it is made in. -/
def State.makeLimbs (s : State) (c d log2n n : Nat) (g : State → Nat → List Nat) : State :=
  (List.range n).foldl (fun u i => u.storeLimb c d log2n i (g u i)) s

theorem State.makeLimbs_storesOnly (s : State) (c d log2n n : Nat) (g : State → Nat → List Nat) :
    s.storesOnly (s.makeLimbs c d log2n n g) :=
  foldl_storesOnly _ (fun _ _ => State.store_storesOnly _ _ _) _ s

/-- `t` has every byte that is not of limbs `i < n` of a run as `s` has it. -/
def State.sameOutside (s t : State) (c d log2n n : Nat) : Prop :=
  ∀ a, (∀ i, i < n → ¬ (limbAddr c d log2n i ≤ a ∧ a < limbAddr c d log2n i + 6 * 2 ^ log2n)) → t.readByte a = s.readByte a

/-- When what makes the limbs does not look at them, each is made as from the state before all of them. -/
theorem State.makeLimbs_written (s : State) (c : Nat) {d log2n n : Nat} {g : State → Nat → List Nat}
    (hlen : ∀ u i, (g u i).length = 2 ^ log2n) (hg : ∀ u i, i < n → s.sameOutside u c d log2n n → g u i = g s i) :
    s.limbsWritten (s.makeLimbs c d log2n n g) c d log2n n (g s) := by
  have hwritten : ∀ m, s.limbsWritten (s.mapLimbs c d d log2n m (fun i _ => g s i)) c d log2n m (g s) :=
    fun m => s.mapLimbs_written c (g := fun i _ => g s i) (fun i _ => hlen s i) (.inl rfl)
  have hfold : ∀ m, m ≤ n → s.makeLimbs c d log2n m g = s.mapLimbs c d d log2n m (fun i _ => g s i) := by
    intro m hm
    induction m with
    | zero => simp only [State.makeLimbs, State.mapLimbs, List.range_zero, List.foldl_nil]
    | succ m ih =>
      have hsame : s.sameOutside (s.makeLimbs c d log2n m g) c d log2n n := by
        intro a ha
        rw [ih (by omega)]
        exact (hwritten m).2 a fun i hi => ha i (by omega)
      have hstep : s.makeLimbs c d log2n (m + 1) g
          = (s.makeLimbs c d log2n m g).storeLimb c d log2n m (g (s.makeLimbs c d log2n m g) m) := by
        unfold State.makeLimbs
        rw [List.range_succ, List.foldl_append, List.foldl_cons, List.foldl_nil]
      rw [hstep, hg _ m hm hsame, State.mapLimbs_succ, ih (by omega)]
  rw [hfold n le_rfl]
  exact hwritten n

/-! ### Result headers -/

theorem Header.seal_w0 (h : Header) : h.seal.w0 = h.w0 := by rw [Header.seal]
theorem Header.withBudget_w0 (h : Header) (x : Nat) : (h.withBudget x).w0 = h.w0 := by rw [Header.withBudget]
theorem Header.withScale_w0 (h : Header) (x : Nat) : (h.withScale x).w0 = h.w0 := by rw [Header.withScale]
theorem Header.withPolys_w0 (h : Header) (n : Nat) : (h.withPolys n).w0 = putBits h.w0 41 40 n := by rw [Header.withPolys]

theorem objHeader_w0 (o : ObjOp) (p : Profile) (b : Bank) (h1 h2 : Header) (k : Nat) :
    (objHeader o p b h1 h2 k).w0 = if o.ctct then putBits h1.w0 41 40 3 else h1.w0 := by
  rw [objHeader, Header.seal_w0, Header.withBudget_w0, apply_ite Header.w0, Header.withScale_w0, ite_self, apply_ite Header.w0,
    Header.withPolys_w0]

/-- A result is of the ring and the limbs of the first input, and has three polynomials or as many as it (08 R177). -/
theorem objHeader_size (o : ObjOp) (p : Profile) (b : Bank) (h1 h2 : Header) (k : Nat) :
    (objHeader o p b h1 h2 k).log2n = h1.log2n ∧ (objHeader o p b h1 h2 k).limbs = h1.limbs
      ∧ (objHeader o p b h1 h2 k).polys = objPolysOut o h1 := by
  have hw := objHeader_w0 o p b h1 h2 k
  unfold Header.log2n Header.limbs Header.polys objPolysOut
  rw [hw]
  cases o.ctct with
  | false => exact ⟨rfl, rfl, rfl⟩
  | true =>
    exact ⟨bits_putBits_below h1.w0 24 3 (by decide) (by decide) (by decide),
      bits_putBits_below h1.w0 32 3 (by decide) (by decide) (by decide), bits_putBits_self h1.w0 3 (by decide) (by decide)⟩

/-! ### Issue checks -/

/-- The polynomials of the inputs X and Y of an object command whose result has the header `h` (08 R177). -/
def objXPolys (o : ObjOp) (h : Header) : Nat := if o.ctct then 2 else h.polys
def objYPolys (o : ObjOp) (h : Header) : Nat :=
  match o.arg with
  | .imm => h.polys
  | .pt => 1
  | .ct => if o.ctct then 2 else h.polys

/-- A header that passes the checks passes check 5 (02 R41). -/
theorem Header.check5_of_check {h : Header} {pr : Option Profile} {b : Bank} (hc : h.check pr b = none) : h.check5 pr b = true := by
  unfold Header.check at hc
  split at hc
  case isTrue => cases hc
  split at hc
  case isTrue => cases hc
  rename_i h5
  simpa using h5

/-- A header whose checks pass names an object of its profile's ring (02 R41). -/
theorem Plan.header_log2n {h : Header} {p : Plan} {pr : Profile} (hv : (Plan.header s h p).v = .ok) (hp : s.profOf h = some pr) :
    h.log2n = pr.log2n := by
  unfold Plan.header at hv
  rw [hp] at hv
  dsimp only at hv
  split at hv
  case isTrue => cases hv
  split at hv
  case isTrue => cases hv
  split at hv
  case h_1 => cases hv
  rename_i hcheck
  have h5 := Header.check5_of_check hcheck
  simp only [Header.check5, Bool.and_eq_true, beq_iff_eq] at h5
  obtain ⟨⟨⟨⟨-, hlog⟩, -⟩, -⟩, -⟩ := h5
  exact hlog

/-- The checks of a second input, where there is one (08 R177). -/
theorem Plan.second_ok {b : Bool} {h : Header} {cs : List (Bool × Nat)} {p : Plan}
    (hv : (if b then Plan.header s h (Plan.checks cs p) else p).v = .ok) :
    (b = true → (∀ pr, s.profOf h = some pr → h.log2n = pr.log2n) ∧ ∀ e ∈ cs, e.1 = true)
      ∧ (if b then Plan.header s h (Plan.checks cs p) else p) = p := by
  cases b with
  | false => exact ⟨fun h => (nomatch h), rfl⟩
  | true =>
    simp only [if_true] at hv ⊢
    have hlog := fun pr => Plan.header_log2n (pr := pr) hv
    obtain ⟨-, he1⟩ := Plan.header_ok hv
    rw [he1] at hv ⊢
    obtain ⟨hcs, he2⟩ := Plan.checks_ok hv
    exact ⟨fun _ => ⟨hlog, hcs⟩, he2⟩

/-- What the checks of an object command leave of its inputs: X has the polynomials that its place takes, and Y, where there is one,
is of the ring of X, has as many limbs, and has the polynomials that its place takes (08 R177; 02 R52). -/
structure ObjInputs (o : ObjOp) (h1 h2 : Header) : Prop where
  xPolys : o.ctct = true → h1.polys = 2
  log2n : o.arg ≠ .imm → h2.log2n = h1.log2n
  limbs : o.arg ≠ .imm → h2.limbs = h1.limbs
  yPolys : o.arg ≠ .imm → h2.polys = objYPolys o h1

/-- The drawers of the second operand of an object command. -/
def objYRun (o : ObjOp) (h : Header) (d : Nat) : List Nat := if o.arg != .imm then h.run d else []

/-- The drawers of the result of an object command on `h1`. -/
def objZRun (o : ObjOp) (h1 : Header) (d : Nat) : List Nat :=
  if h1.sized then objDrawers d (objPolysOut o h1 * h1.limbs) h1.log2n else [d]

theorem encodeCmd_oX (op : Opcode) : (encodeCmd op f).oX = bits f.w2 63 56 := by rw [Cmd.oX, encodeCmd_w2]
theorem encodeCmd_oY (op : Opcode) : (encodeCmd op f).oY = bits f.w2 55 48 := by rw [Cmd.oY, encodeCmd_w2]
theorem encodeCmd_oZ (op : Opcode) : (encodeCmd op f).oZ = bits f.w2 47 40 := by rw [Cmd.oZ, encodeCmd_w2]
theorem encodeCmd_oNeg (op : Opcode) : (encodeCmd op f).oNeg = bitOf f.w3 6 := by rw [Cmd.oNeg, encodeCmd_w3]
theorem encodeCmd_oK (op : Opcode) : (encodeCmd op f).oK = bits f.w3 5 0 := by rw [Cmd.oK, encodeCmd_w3]

/-- The headers of the inputs. -/
def State.objX (s : State) (c : Nat) (f : CmdFields) : Header := (s.core c).hdr (bits f.w2 63 56)
def State.objY (s : State) (c : Nat) (f : CmdFields) : Header := (s.core c).hdr (bits f.w2 55 48)

/-- The header of the result. -/
def State.objZ (s : State) (c : Nat) (f : CmdFields) (o : ObjOp) (p : Profile) : Header :=
  objHeader o p (s.table p.slot).bank (s.objX c f) (s.objY c f) (if o.arg = .imm then bits f.w3 5 0 else 0)

/-- The plan of an object command that passes its checks (08 R177, R178). -/
def objPlan (o : ObjOp) (s : State) (c : Nat) (op : Opcode) (f : CmdFields) (p : Profile) : Plan :=
  { srcs := (s.objX c f).run (bits f.w2 63 56) ++ objYRun o (s.objY c f) (bits f.w2 55 48)
    dsts := objZRun o (s.objX c f) (bits f.w2 47 40)
    cons := (if (encodeCmd op f).consume1 then (s.objX c f).run (bits f.w2 63 56) else [])
      ++ (if o.arg != .imm && (encodeCmd op f).consume2 then objYRun o (s.objY c f) (bits f.w2 55 48) else [])
    lat := { prof := some p, bank := (s.table p.slot).bank, outs := [(c, bits f.w2 47 40, s.objZ c f o p)] } }

/-- An object command consumes only what it reads. -/
theorem objPlan_cons {p : Profile} {d : Nat} (hd : d ∈ (objPlan o s c op f p).cons) : d ∈ (objPlan o s c op f p).srcs := by
  rcases List.mem_append.1 hd with hd | hd
  · exact List.mem_append_left _ (List.mem_ite_nil_right.1 hd).2
  · exact List.mem_append_right _ (List.mem_ite_nil_right.1 hd).2

/-- The level checks of two inputs (02 R52). -/
theorem objTarnish_level {p : Profile} {b : Bank} {h1 h2 : Header} {k : Nat} (h : objTarnish o p b h1 h2 k = none) (hi : o.arg ≠ .imm) :
    h1.limbs = h2.limbs ∧ (o.arg = .ct → o.ctct = false → h1.polys = h2.polys) := by
  obtain ⟨hlimbs, hpolys⟩ : h1.limbs = h2.limbs ∧ ((o.arg = .ct → o.ctct = true) ∨ h1.polys = h2.polys) := by
    have hlevel := firstFail_eq_none h _ (List.mem_cons_of_mem _ (List.mem_cons_of_mem _ (List.mem_cons_self ..)))
    simpa [hi, imp_iff_not_or] using hlevel
  exact ⟨hlimbs, fun hct hno => by simpa [hct, hno] using hpolys⟩

/-- A second input that its place takes and that passes the level checks has the polynomials that the place takes. -/
theorem objYPolys_of {h1 h2 : Header} (hi : o.arg ≠ .imm) (hin : objInputOk o true h2 = true)
    (hlevel : o.arg = .ct → o.ctct = false → h1.polys = h2.polys) : h2.polys = objYPolys o h1 := by
  unfold objYPolys
  cases harg : o.arg with
  | imm => exact absurd harg hi
  | pt =>
    have hin : h2.isPt = true ∧ h2.polys = 1 := by simpa [objInputOk, harg] using hin
    exact hin.2
  | ct =>
    cases hct : o.ctct with
    | false => exact (hlevel harg hct).symm
    | true =>
      have hin : h2.isCt = true ∧ h2.polys = 2 := by simpa [objInputOk, harg, hct] using hin
      exact hin.2

/-- What an object command that passes its checks does (08 R177, R178). -/
theorem planObject_ok {q : QCmd} (hq : q.cmd = encodeCmd op f) (hv : (planObject o s c q).v = .ok) :
    ∃ p, s.profOf (s.objX c f) = some p ∧ ObjInputs o (s.objX c f) (s.objY c f) ∧ planObject o s c q = objPlan o s c op f p := by
  unfold planObject at hv ⊢
  simp only [hq, encodeCmd_oX, encodeCmd_oY, encodeCmd_oZ, encodeCmd_oK] at hv ⊢
  obtain ⟨-, he1⟩ := Plan.checks_ok hv
  rw [he1] at hv ⊢
  obtain ⟨⟨p, hprof⟩, he2⟩ := Plan.header_ok hv
  have hlog1 := Plan.header_log2n hv hprof
  rw [he2] at hv ⊢
  obtain ⟨hin1, he3⟩ := Plan.checks_ok hv
  rw [he3] at hv ⊢
  obtain ⟨hsecond, he4⟩ := Plan.second_ok hv
  rw [he4] at hv ⊢
  obtain ⟨-, he5⟩ := Plan.checks_ok hv
  rw [he5, hprof] at hv ⊢
  dsimp only at hv ⊢
  split at hv
  case h_1 => cases hv
  rename_i htarnish
  refine ⟨p, hprof, ⟨fun hct => ?_, fun hi => ?_, fun hi => ?_, fun hi => ?_⟩, ?_⟩
  · have hx : ((s.core c).hdr (bits f.w2 63 56)).isCt = true ∧ ((s.core c).hdr (bits f.w2 63 56)).polys = 2 := by
      simpa [objInputOk, hct] using hin1 _ (List.mem_cons_self ..)
    exact hx.2
  · obtain ⟨hlog2, hcs⟩ := hsecond (bne_iff_ne.2 hi)
    have hsame := beq_iff_eq.1 (hcs _ (List.mem_cons_of_mem _ (List.mem_cons_self ..)))
    refine (hlog2 p ?_).trans hlog1.symm
    rw [State.profOf, ← hsame]
    exact hprof
  · exact (objTarnish_level htarnish hi).1.symm
  · obtain ⟨-, hcs⟩ := hsecond (bne_iff_ne.2 hi)
    exact objYPolys_of hi (hcs _ (List.mem_cons_self ..)) (objTarnish_level htarnish hi).2
  · unfold Plan.latched
    rw [hprof]
    rfl

/-- The plan of an object command on a quiet core. -/
theorem State.plan_object (hop : ∀ s c q, planOf op s c q = planObject o s c q) (hv : (s.plan c x op f).v = .ok) :
    ∃ p, s.profOf (s.objX c f) = some p ∧ ObjInputs o (s.objX c f) (s.objY c f) ∧ s.plan c x op f = objPlan o s c op f p := by
  rw [State.plan, hop] at hv ⊢
  obtain ⟨p, hprof, hin, hplan⟩ := planObject_ok rfl hv
  have hx : (s.claimed c x (encodeCmd op f)).objX c f = s.objX c f := State.hdr_claimed _ _
  have hy : (s.claimed c x (encodeCmd op f)).objY c f = s.objY c f := State.hdr_claimed _ _
  rw [hx, State.profOf_claimed] at hprof
  rw [hx, hy] at hin
  refine ⟨p, hprof, hin, hplan.trans ?_⟩
  simp only [objPlan, State.objZ, hx, hy, State.table_claimed]

/-! ### Runs -/

/-- Limb `m` of a result with the header `h`: at each position, `val` of the prime, the polynomial, and the residues of the inputs
there, each input a run of limbs of its own number of polynomials. -/
def State.objLimb (s : State) (c dx dy xp yp : Nat) (b : Bank) (p : Profile) (h : Header)
    (val : Nat → Nat → (Nat → Nat) → (Nat → Nat) → Nat) (m : Nat) : List Nat :=
  (List.range (2 ^ h.log2n)).map (fun k =>
    val (b.q (p.qFirst + m / h.polys)) (m % h.polys)
      (fun a => s.residueAt c dx h.log2n (b.q (p.qFirst + m / h.polys)) k (m / h.polys * xp + a))
      (fun a => s.residueAt c dy h.log2n (b.q (p.qFirst + m / h.polys)) k (m / h.polys * yp + a)))

theorem runObject_eq {yp : Header → Nat} {q : QCmd} {d e : Nat} {h : Header} {p : Profile} (hout : q.lat.outs = [(e, d, h)])
    (hprof : q.lat.prof = some p) :
    runObject op yp s c q = s.makeLimbs c q.cmd.oZ h.log2n (h.limbs * h.polys) (fun u =>
      u.objLimb c q.cmd.oX q.cmd.oY (if op = .hmulc then 2 else h.polys) (yp h) q.lat.bank p h
        (fun pr j => objResidue op q.cmd pr h.polys j)) := by
  unfold runObject
  rw [hout, hprof]
  rfl

theorem runObject_storesOnly (yp : Header → Nat) (q : QCmd) : s.storesOnly (runObject op yp s c q) := by
  unfold runObject
  split
  · exact foldl_storesOnly _ (fun _ _ => State.store_storesOnly _ _ _) _ s
  · exact State.storesOnly.refl s

/-- A residue of a result is made of the residues of the polynomials that the inputs have. -/
def objLocal (o : ObjOp) (val : Nat → Nat → (Nat → Nat) → (Nat → Nat) → Nat) : Prop :=
  ∀ (h : Header) (q j : Nat) (x x' y y' : Nat → Nat), j < h.polys → (∀ a, a < objXPolys o h → x a = x' a) →
    (o.arg ≠ .imm → ∀ a, a < objYPolys o h → y a = y' a) → val q j x y = val q j x' y'

/-- Where two states agree on limbs `i < n` of a run. -/
def State.sameLimbs (s t : State) (c d log2n n : Nat) : Prop :=
  ∀ i, i < n → ∀ a, limbAddr c d log2n i ≤ a → a < limbAddr c d log2n i + 6 * 2 ^ log2n → t.readByte a = s.readByte a

theorem State.objLimb_congr {t : State} {dx dy m : Nat} {b : Bank} {p : Profile} {h : Header}
    {val : Nat → Nat → (Nat → Nat) → (Nat → Nat) → Nat} (hval : objLocal o val) (hm : m < h.limbs * h.polys)
    (hx : s.sameLimbs t c dx h.log2n (h.limbs * objXPolys o h))
    (hy : o.arg ≠ .imm → s.sameLimbs t c dy h.log2n (h.limbs * objYPolys o h)) :
    t.objLimb c dx dy (objXPolys o h) (objYPolys o h) b p h val m = s.objLimb c dx dy (objXPolys o h) (objYPolys o h) b p h val m := by
  have hpos : 0 < h.polys := Nat.pos_of_ne_zero fun h0 => by simp [h0] at hm
  have hlimb : m / h.polys < h.limbs := (Nat.div_lt_iff_lt_mul hpos).2 hm
  have hin : ∀ {n a : Nat}, a < n → m / h.polys * n + a < h.limbs * n := by
    intro n a ha
    have := Nat.mul_le_mul_right n hlimb
    rw [Nat.succ_mul] at this
    omega
  refine List.map_congr_left fun k hk => ?_
  have hk := List.mem_range.1 hk
  exact hval h _ _ _ _ _ _ (Nat.mod_lt _ hpos) (fun a ha => State.residueAt_congr _ hk (hx _ (hin ha)))
    fun hi a ha => State.residueAt_congr _ hk (hy hi _ (hin ha))

/-- Limbs that share no drawer with the limbs written stand. -/
theorem State.sameOutside.sameLimbs {t : State} {src dst k n log2n : Nat} (h : s.sameOutside t c dst log2n n)
    (hd : ∀ e ∈ objDrawers dst n log2n, ¬ e ∈ objDrawers src k log2n) : s.sameLimbs t c src log2n k := by
  intro i hi a h1 h2
  refine h a fun j hj => ?_
  have := limb_apart_of_disjoint hd c hi hj
  omega

/-! ### Rows -/

theorem State.storeRow_object (heng : op.engine = 2) (hop : ∀ s c q, planOf op s c q = planObject o s c q)
    (hrun : ∀ s c q, engineRun op s c q = runObject op (objYPolys o) s c q) (hp : s.Passes c x op f) (hs : s.Starts c x op f) :
    s.StoreRow c x op f := by
  obtain ⟨p, -, -, hplan⟩ := State.plan_object hop hp.2
  refine ⟨.inr (.inl heng), ?_, ?_, fun d hd hc => absurd ?_ (hs.dst_not_src hd), ?_⟩
  · rw [hplan]
    rfl
  · rw [hplan]
    exact fun o ho => by rw [List.mem_singleton.1 ho]
  · rw [hplan] at hc ⊢
    exact objPlan_cons hc
  · rw [hrun]
    exact runObject_storesOnly _ _

theorem ObjInputs.xPolys_result {h1 h2 : Header} (h : ObjInputs o h1 h2) (p : Profile) (b : Bank) (k : Nat) :
    objXPolys o (objHeader o p b h1 h2 k) = h1.polys := by
  have hpolys := (objHeader_size o p b h1 h2 k).2.2
  unfold objPolysOut at hpolys
  unfold objXPolys
  cases hct : o.ctct with
  | true => simp [h.xPolys hct]
  | false => simpa [hct] using hpolys

theorem ObjInputs.yPolys_result {h1 h2 : Header} (h : ObjInputs o h1 h2) (p : Profile) (b : Bank) (k : Nat) (hi : o.arg ≠ .imm) :
    objYPolys o (objHeader o p b h1 h2 k) = h2.polys := by
  have hpolys := (objHeader_size o p b h1 h2 k).2.2
  rw [h.yPolys hi]
  unfold objPolysOut at hpolys
  unfold objYPolys
  cases harg : o.arg with
  | imm => exact absurd harg hi
  | pt => rfl
  | ct =>
    cases hct : o.ctct with
    | true => rfl
    | false => simpa [hct] using hpolys

/-- A second input of the ring and the limbs of a first whose size is legal is of a legal size (02 R52). -/
theorem ObjInputs.sized {h1 h2 : Header} (h : ObjInputs o h1 h2) (hi : o.arg ≠ .imm) (h1s : h1.sized = true) : h2.sized = true := by
  have hpolys := h.yPolys hi
  unfold Header.sized at h1s ⊢
  obtain ⟨hp, hrest⟩ := of_decide_eq_true h1s
  rw [h.log2n hi, h.limbs hi]
  refine decide_eq_true ⟨?_, hrest⟩
  rw [hpolys]
  unfold objYPolys
  cases o.arg <;> cases o.ctct <;> simp [hp]

/-- The runs of an object command, by the header of its result. -/
theorem ObjInputs.runs {h1 h2 : Header} (h : ObjInputs o h1 h2) (hsized : h1.sized = true) (p : Profile) (b : Bank) (k dx dy dz : Nat) :
    let z := objHeader o p b h1 h2 k
    h1.run dx = objDrawers dx (z.limbs * objXPolys o z) z.log2n
      ∧ (o.arg ≠ .imm → objYRun o h2 dy = objDrawers dy (z.limbs * objYPolys o z) z.log2n)
      ∧ objZRun o h1 dz = objDrawers dz (z.limbs * z.polys) z.log2n := by
  obtain ⟨hlog, hlimbs, hpolys⟩ := objHeader_size o p b h1 h2 k
  intro z
  refine ⟨?_, fun hi => ?_, ?_⟩
  · rw [h.xPolys_result p b k, hlog, hlimbs, Header.run, if_pos hsized, Nat.mul_comm]
  · rw [h.yPolys_result p b k hi, hlog, hlimbs, objYRun, if_pos (bne_iff_ne.2 hi), Header.run, if_pos (h.sized hi hsized), h.log2n hi,
      h.limbs hi, Nat.mul_comm]
  · rw [hlog, hlimbs, hpolys, objZRun, if_pos hsized, Nat.mul_comm]

/-- A row whose run makes limbs without looking at them leaves them made from the state it found. -/
theorem State.StoreRow.finished_made (h : s.StoreRow c x op f) (hq : s.Quiet c x) {d log2n n : Nat} {g : State → Nat → List Nat}
    (hrun : engineRun op (s.claimedDests c x op f) c (s.startedEntry c x op f) = (s.claimedDests c x op f).makeLimbs c d log2n n g)
    (hlen : ∀ u i, (g u i).length = 2 ^ log2n) (hg : ∀ t u i, i < n → State.sameOutside t u c d log2n n → g u i = g t i) :
    s.limbsWritten (s.finished c x op f) c d log2n n (g s) := by
  have hkept := (State.claimedDests_kept (s := s) (c := c) (x := x) (f := f) h.plain).mem
  obtain ⟨hin, hout⟩ := (State.makeLimbs_written (s.claimedDests c x op f) c hlen (hg _)).congr (fun a => (hkept a).symm)
    (fun a => (h.finished_readByte hq a).trans (by rw [hrun])) fun _ => rfl
  refine ⟨fun i hi => ?_, hout⟩
  rw [hin i hi, hg s _ i hi fun a _ => hkept a]

/-- An object command: each limb of the result from the limbs of its inputs, and the header of the result (08 R177). -/
theorem object_row {mk : Nat → Nat → CmdFields → Instr} {val : CmdFields → Nat → Nat → (Nat → Nat) → (Nat → Nat) → Nat}
    (heng : op.engine = 2 := by rfl) (hmk : ∀ c x f s, exec (mk c x f) s = runRow op c x f s := by intros; rfl)
    (hop : ∀ s c q, planOf op s c q = planObject o s c q := by intros; rfl)
    (hrun : ∀ s c q, engineRun op s c q = runObject op (objYPolys o) s c q := by intros; rfl)
    (hctct : o.ctct = decide (op = .hmulc) := by rfl)
    (hres : ∀ f n, (fun pr j => objResidue op (encodeCmd op f) pr n j) = val f := by intros; rfl) (hval : ∀ f, objLocal o (val f)) :
    ObjectRow mk op o (objXPolys o) (objYPolys o) val := by
  refine engineRow_of_starts (engineRow_of_storeRow hmk (fun s c x f hp hpre => State.storeRow_object heng hop hrun hp hpre.1)
    fun s c x f hq hp hpre => ?_)
  obtain ⟨hs, hsized⟩ := hpre
  have h := State.storeRow_object heng hop hrun hp hs
  obtain ⟨p, hprof, hin, hplan⟩ := State.plan_object hop hp.2
  obtain ⟨hout, hlprof, hbank⟩ := State.startedEntry_lat (s := s) (c := c) (x := x) (f := f) op
  obtain ⟨hhdrs, hctx, -, htiles, haccs⟩ := h.finished_core hq
  obtain ⟨hrx, hry, hrz⟩ := hin.runs hsized p (s.table p.slot).bank (if o.arg = .imm then bits f.w3 5 0 else 0) (bits f.w2 63 56)
    (bits f.w2 55 48) (bits f.w2 47 40)
  have hapart : ∀ d ∈ objZRun o (s.objX c f) (bits f.w2 47 40),
      ¬ d ∈ (s.objX c f).run (bits f.w2 63 56) ++ objYRun o (s.objY c f) (bits f.w2 55 48) := by
    have hnot := fun d => hs.dst_not_src (d := d)
    rwa [hplan] at hnot
  rw [hplan] at hout hlprof hbank hhdrs
  have hnew : ∀ e, ((s.finished c x op f).core c).hdr e = ((s.core c).setHdr (bits f.w2 47 40) (s.objZ c f o p)).hdr e :=
    Core.hdr_congr hhdrs
  refine ⟨p, s.objZ c f o p, hprof, rfl, ⟨?_, fun e he => ?_, hctx, htiles, haccs⟩, ?_⟩
  · rw [hnew, Core.hdr_setHdr]
  · rw [hnew, Core.hdr_setHdr_ne _ _ he]
  · refine h.finished_made hq (g := fun u => u.objLimb c (bits f.w2 63 56) (bits f.w2 55 48) (objXPolys o (s.objZ c f o p))
      (objYPolys o (s.objZ c f o p)) (s.table p.slot).bank p (s.objZ c f o p) (val f)) ?_ (fun u i => by simp [State.objLimb])
      fun t u i hi hsame => ?_
    · have hxp : (if op = .hmulc then 2 else (s.objZ c f o p).polys) = objXPolys o (s.objZ c f o p) := by simp [objXPolys, hctct]
      rw [hrun, runObject_eq hout hlprof, State.startedEntry_cmd, encodeCmd_oX, encodeCmd_oY, encodeCmd_oZ, hres, hxp, hbank]
      rfl
    · refine State.objLimb_congr (hval f) hi (hsame.sameLimbs fun e he hx => ?_) fun hi => hsame.sameLimbs fun e he hy => ?_
      · exact hapart e (hrz ▸ he) (List.mem_append_left _ (hrx ▸ hx))
      · exact hapart e (hrz ▸ he) (List.mem_append_right _ (hry hi ▸ hy))

/-! ### The obligation -/

/-- A sum or difference of two ciphertexts, polynomial by polynomial. -/
theorem objLocal_each (g : Nat → Nat → Nat → Nat) : objLocal objHadd (fun q j x y => g q (x j) (y j)) := by
  intro h q j x x' y y' hj hx hy
  dsimp only
  rw [hx j hj, hy (by decide) j hj]

/-- A plaintext added to, or taken from, polynomial 0 of a ciphertext. -/
theorem objLocal_first (g : Nat → Nat → Nat → Nat) : objLocal objHaddp (fun q j x y => if j = 0 then g q (x 0) (y 0) else x j % q) := by
  intro h q j x x' y y' hj hx hy
  dsimp only
  rw [hx j hj, hx 0 (Nat.zero_lt_of_lt hj), hy (by decide) 0 Nat.one_pos]

/-- Settles O9: each command is an object command whose residues are made of the residues of the polynomials that its inputs have. -/
theorem objectCommandsCombineResidues : Obligations.ObjectCommandsCombineResidues := by
  unfold Obligations.ObjectCommandsCombineResidues
  refine ⟨?hadd, ?hsub, ?haddp, ?hsubp, ?hmulp, ?hmulc, ?hmuli⟩
  case hadd => exact object_row (o := objHadd) (hval := fun f => objLocal_each addMod)
  case hsub => exact object_row (o := objHadd) (hval := fun f => objLocal_each subMod)
  case haddp => exact object_row (o := objHaddp) (hval := fun f => objLocal_first addMod)
  case hsubp => exact object_row (o := objHaddp) (hval := fun f => objLocal_first subMod)
  case hmulp =>
    refine object_row (o := objHmulp) (hval := fun f h q j x x' y y' hj hx hy => ?_)
    rw [hx j hj, hy (by decide) 0 Nat.one_pos]
  case hmulc =>
    refine object_row (o := objHmulc) (hval := fun f h q j x x' y y' hj hx hy => ?_)
    rw [hx 0 Nat.two_pos, hx 1 Nat.one_lt_two, hy (by decide) 0 Nat.two_pos, hy (by decide) 1 Nat.one_lt_two]
  case hmuli =>
    refine object_row (o := objHmuli) (hres := fun f n => ?_) (hval := fun f h q j x x' y y' hj hx hy => ?_)
    · funext q j x y
      simp only [objResidue, encodeCmd_oNeg, encodeCmd_oK]
    · rw [hx j hj]

end Sys2Proof.Machine
end

section
/-!
The passes of the drawbench (08 R161 to R176): what their issue checks leave, what their runs leave of memory and of a scalar register,
their rows, and the obligation about them.
-/
namespace Sys2Proof.Machine

variable {s t : State} {c x : Nat} {op : Opcode} {f : CmdFields} {q : QCmd}

/-! ### Plans -/

theorem mem_foldl_foldl_addOnce {α β : Type} [DecidableEq β] (g : α → List β) {b : β} (ts : List α) (acc : List β) :
    b ∈ ts.foldl (fun acc t => (g t).foldl (fun a d => addOnce d a) acc) acc ↔ b ∈ acc ∨ ∃ t ∈ ts, b ∈ g t := by
  induction ts generalizing acc with
  | nil => simp
  | cons t ts ih => simp only [List.foldl_cons, ih, mem_foldl_addOnce, List.mem_cons, exists_eq_or_imp, or_assoc]

/-- A stream of a pass is a destination exactly where it goes through OUT, and a reduction has none (08 R161, R176). -/
theorem passStreams_dest {l : Latch} {w : Cmd} {n : Nat} {reduce : Bool} {st : Strm} (h : st ∈ passStreams l w n reduce) :
    st.dest = (st.port == 4) ∧ (reduce = true → st.dest = false) := by
  unfold passStreams at h
  simp only [List.mem_append, List.mem_ite_nil_right, List.mem_ite_nil_left, List.mem_singleton] at h
  rcases h with ((rfl | ⟨-, rfl⟩) | ⟨-, rfl | ⟨-, rfl⟩⟩) | ⟨hr, rfl | ⟨-, rfl⟩⟩
  · exact ⟨rfl, fun _ => rfl⟩
  · exact ⟨rfl, fun _ => rfl⟩
  · exact ⟨rfl, fun _ => rfl⟩
  · exact ⟨rfl, fun _ => rfl⟩
  · exact ⟨rfl, fun h => absurd h hr⟩
  · exact ⟨rfl, fun h => absurd h hr⟩

/-- The plan of a pass: it reads no peer, makes no result header, consumes only what it reads, and, as a reduction, writes no drawer
(08 R161, R176). -/
structure Plan.ofPass (p : Plan) (reduce : Bool) : Prop where
  peer : p.peer = none
  outs : p.lat.outs = []
  cons : ∀ d ∈ p.cons, d ∈ p.srcs
  dsts : reduce = true → p.dsts = []

/-- What a pass that passes its checks does (08 R178). -/
theorem planPass_ok {reduce : Bool} (hv : (planPass reduce s c q).v = .ok) : (planPass reduce s c q).ofPass reduce := by
  unfold planPass at hv ⊢
  extract_lets w l x n ts tb cn srcs dsts xs ys
  change (Plan.checks _ _).v = _ at hv
  obtain ⟨-, he1⟩ := Plan.checks_ok hv
  rw [he1] at hv ⊢
  split at hv
  case isTrue => cases hv
  rename_i hactive
  rw [if_neg hactive, (Plan.checks_ok hv).2]
  refine ⟨rfl, rfl, fun d hd => ?consumed, fun hr => ?written⟩
  case consumed =>
    have hport : ∀ n, n ≠ 4 → d ∈ (ts.filter (fun st => st.port == n)).flatMap (fun st => (q.desc st.dn).drawers c st.unit) →
        d ∈ srcs := by
      intro n hn hd
      obtain ⟨st, hst, hd⟩ := List.mem_flatMap.1 hd
      obtain ⟨hst, hport⟩ := List.mem_filter.1 hst
      refine (mem_foldl_foldl_addOnce (fun st : Strm => (q.desc st.dn).drawers c st.unit) _ _).2 (.inr ⟨st, ?_, hd⟩)
      have hdest := (passStreams_dest hst).1
      simp [hst, hdest, beq_iff_eq.1 hport, hn]
    rcases List.mem_append.1 hd with hd | hd
    · exact hport 2 (by decide) (List.mem_ite_nil_right.1 hd).2
    · exact hport 3 (by decide) (List.mem_ite_nil_right.1 hd).2
  case written =>
    have hnone : ts.filter (fun st => st.dest) = [] := by
      refine List.filter_eq_nil_iff.2 fun st hst => ?_
      simp [(passStreams_dest hst).2 hr]
    change (if l.keepMode then [] else dsts) = []
    simp only [dsts, hnone, List.foldl_nil, ite_self]

/-- The plan of a pass on a quiet core. -/
theorem State.plan_pass {reduce : Bool} (hop : ∀ s c q, planOf op s c q = planPass reduce s c q) (hp : s.Passes c x op f) :
    (s.plan c x op f).ofPass reduce := by
  have hv := hp.2
  rw [State.plan, hop] at hv ⊢
  exact planPass_ok hv

theorem State.plan_dbchain (hp : s.Passes c x .dbchain f) : (s.plan c x .dbchain f).ofPass false := State.plan_pass (fun _ _ _ => rfl) hp

theorem State.plan_dbreduce (hp : s.Passes c x .dbreduce f) : (s.plan c x .dbreduce f).ofPass true := State.plan_pass (fun _ _ _ => rfl) hp

/-! ### Runs -/

/-- Addresses zipped with what is made of elements and their numbers. -/
theorem zip_map_zipIdx {α β γ : Type} (as : List α) (xs : List β) (k : Nat) (g : β × Nat → γ) :
    as.zip ((xs.zipIdx k).map g) = ((as.zip xs).zipIdx k).map (fun z => (z.1.1, g (z.1.2, z.2))) := by
  induction as generalizing xs k with
  | nil => simp
  | cons a as ih => cases xs with
    | nil => simp
    | cons x xs => simp [ih]

/-- The modular results of a pass, element by element (08 R162 to R170). -/
def modResults (s : State) (q : QCmd) : List Nat :=
  (s.readUnits (q.desc q.cmd.dXd).addrs 6).zipIdx.map (fun z =>
    modElem q.lat (q.lat.bank.q (q.cmd.dFirst + z.2 / q.cmd.dLen)) z.1
      (((if q.lat.ysrc = 1 then s.readUnits (q.desc q.cmd.dYd).addrs 6 else [])[z.2]?).getD 0)
      (q.lat.constOf (z.2 / q.cmd.dLen)))

/-- The converted results of a clear pass (08 R171 to R175). -/
def clearResults (s : State) (q : QCmd) : List Nat :=
  (convertAll q.lat.ofmt q.lat.ovfInf q.lat.strict q.lat.oblk
    ((passLanes s q).map (fun a => if a.masked && q.lat.maskzero then 0 else a.t))).elems

/-- A modular pass without masked lanes stores what its stations make of each element (08 R162 to R170). -/
theorem runModPass_eq (s : State) (c : Nat) (q : QCmd) (h : ∀ e, q.lat.laneMasked e = false) :
    runModPass s c q = s.storeUnits (q.desc q.cmd.dZd).addrs 6 (modResults s q) := by
  unfold runModPass State.storeUnits modResults
  extract_lets l w xs ys zs
  rw [zip_map_zipIdx, List.foldl_map]
  refine List.foldl_ext _ _ _ fun u z _ => ?_
  dsimp only
  rw [if_neg (by simp [h, l])]

/-- A clear pass that keeps no masked element and stores unscaled elements of whole bytes: the converted results stored, and registers
changed (08 R171 to R175). -/
theorem runClearPass_unscaled (s : State) (c : Nat) (q : QCmd) (hkeep : q.lat.keepMode = false) (hbits : 8 ≤ fmtBits q.lat.ofmt)
    (hfmt : fmtScaled q.lat.ofmt = false) :
    State.regFileOnly (s.storeUnits (q.desc q.cmd.dZd).addrs (fmtUnit q.lat.ofmt) (clearResults s q)) (runClearPass s c q) := by
  unfold runClearPass
  extract_lets l w ls vals cv za s1 s2 counted bad
  have hs2 : s2 = s1 := by
    simp [s2, l, hfmt]
  have hs1 : s1 = s.storeUnits za (fmtUnit l.ofmt) cv.elems := by
    have : ¬ fmtBits l.ofmt < 8 := by
      have : 8 ≤ fmtBits l.ofmt := hbits
      omega
    simp only [s1, this, if_false]
    simp [l, hkeep]
  rw [hs2, hs1]
  exact State.writeEffects_regFileOnly _ _ _ _ _ _ _ _

/-- The lanes of a pass are what its streams hold. -/
theorem passLanes_congr (h : ∀ a, t.readByte a = s.readByte a) (q : QCmd) : passLanes t q = passLanes s q := by
  have hread : t.readUnits = s.readUnits := State.readUnits_congr h
  have hclear : t.readClear = s.readClear := by
    funext d fmt scales blk n
    rw [State.readClear, hread, State.readClear]
  rw [passLanes, hread, hclear, passLanes]

/-! ### DBCHAIN -/

/-- A pass that starts computes by stores: it writes no drawer that it reads, and so none that it consumes. -/
theorem State.storeRow_dbchain
    (hrun : (s.claimedDests c x .dbchain f).storesOnly (runDbchain (s.claimedDests c x .dbchain f) c (s.startedEntry c x .dbchain f)))
    (hp : s.Passes c x .dbchain f) (hs : s.Starts c x .dbchain f) : s.StoreRow c x .dbchain f := by
  have hplan := State.plan_dbchain hp
  refine ⟨.inr (.inl rfl), hplan.peer, ?_, fun d hd hc => absurd (hplan.cons d hc) (hs.dst_not_src hd), hrun⟩
  rw [hplan.outs]
  exact fun o ho => absurd ho List.not_mem_nil

/-- A pass that stores `vals` of what it reads, and changes registers beside. -/
theorem dbchain_row {pre : Latch → Prop} (unit : Latch → Nat) (vals : State → QCmd → List Nat)
    (hslots : ∀ l v, pre l → pre { l with slots := v })
    (hvals : ∀ s t q, (∀ a, t.readByte a = s.readByte a) → vals t q = vals s q)
    (hrun : ∀ (s : State) (c : Nat) (q : QCmd), pre q.lat →
      (s.storeUnits (q.desc q.cmd.dZd).addrs (unit q.lat) (vals s q)).regFileOnly (runDbchain s c q)) :
    EngineRow .dbchain .dbchain (fun s c x f => pre (s.plan c x .dbchain f).lat) (fun s c x f t =>
      let q := s.startedEntry c x .dbchain f
      s.storesLeft t (q.desc q.cmd.dZd).addrs (unit q.lat) (vals s q)
      ∧ (t.core c).hdrs = (s.core c).hdrs ∧ t.context c x = { (s.context c x) with pc := (s.context c x).pc + 32 }) := by
  have hleft : ∀ (s : State) (c x : Nat) (f : CmdFields), pre (s.plan c x .dbchain f).lat → ∀ u : State,
      State.regFileOnly (u.storeUnits ((s.startedEntry c x .dbchain f).desc (s.startedEntry c x .dbchain f).cmd.dZd).addrs
        (unit (s.startedEntry c x .dbchain f).lat) (vals u (s.startedEntry c x .dbchain f)))
        (runDbchain u c (s.startedEntry c x .dbchain f)) :=
    fun s c x f hpre u => hrun u c _ (hslots (s.plan c x .dbchain f).lat _ hpre)
  have hrow : ∀ (s : State) (c x : Nat) (f : CmdFields), s.Passes c x .dbchain f → s.Starts c x .dbchain f →
      pre (s.plan c x .dbchain f).lat → s.StoreRow c x .dbchain f :=
    fun s c x f hp hs hpre => State.storeRow_dbchain ((State.storeUnits_storesOnly _ _ _ _).trans (hleft s c x f hpre _).storesOnly) hp hs
  refine engineRow_of_starts (engineRow_of_storeRow (fun _ _ _ _ => rfl) (fun s c x f hp hpre => hrow s c x f hp hpre.1 hpre.2)
    fun s c x f hq hp hpre => ?_)
  have h := hrow s c x f hp hpre.1 hpre.2
  obtain ⟨hhdrs, hctx, -, -, -⟩ := h.finished_core hq
  have hmem := (State.claimedDests_kept (s := s) (c := c) (x := x) (f := f) h.plain).mem
  refine ⟨fun a => ?_, ?_, hctx⟩
  · rw [h.finished_readByte hq]
    refine ((hleft s c x f hpre.2 _).readByte a).trans ?_
    rw [hvals s _ _ hmem]
    exact State.readByte_storeUnits_congr hmem _ _ _ a
  · rw [hhdrs, (State.plan_dbchain hp).outs]
    rfl

/-! ### DBREDUCE -/

theorem encodeCmd_dRd (op : Opcode) : (encodeCmd op f).dRd = bits f.opa 37 33 := encodeCmd_opa op f 37 33 (by decide)
theorem encodeCmd_dRedop (op : Opcode) : (encodeCmd op f).dRedop = bits f.opa 32 30 := encodeCmd_opa op f 32 30 (by decide)

/-- The scalar that a DBREDUCE makes (08 R176). -/
def State.reduced (s : State) (c x : Nat) (f : CmdFields) : W64 :=
  BitVec.ofNat 64 (reduceLanes (bits f.opa 32 30) (passLanes s (s.startedEntry c x .dbreduce f)))

/-- A DBREDUCE at its commit: its scalar in its register, and the drawers that it consumes closing. -/
theorem State.ran_dbreduce (hp : s.Passes c x .dbreduce f) : s.ran c x .dbreduce f =
    (s.claimedDests c x .dbreduce f).modCore c (fun k =>
      (k.setContext x ((k.context x).setReg (bits f.opa 37 33) (s.reduced c x f))).commitDrawers (s.startedEntry c x .dbreduce f)) := by
  have hmem := (State.claimedDests_kept (s := s) (c := c) (x := x) (op := .dbreduce) (f := f) (by decide)).mem
  have hw : ∀ u : State, u.writeOuts (s.startedEntry c x .dbreduce f) = u := by
    intro u
    have houts : (s.startedEntry c x .dbreduce f).lat.outs = [] := (State.plan_dbreduce hp).outs
    rw [State.writeOuts, houts]
    rfl
  have hrun : engineRun .dbreduce (s.claimedDests c x .dbreduce f) c (s.startedEntry c x .dbreduce f)
      = (s.claimedDests c x .dbreduce f).modContext c x (fun y => y.setReg (bits f.opa 37 33) (s.reduced c x f)) := by
    change runDbreduce _ _ _ = _
    unfold runDbreduce
    rw [passLanes_congr hmem, State.startedEntry_cmd, encodeCmd_dRd, encodeCmd_dRedop]
    rfl
  rw [State.ran, hrun, hw, State.modContext, State.modCore_modCore]

/-- The core at the commit of a DBREDUCE, its drawers apart. -/
theorem State.ran_dbreduce_front (hp : s.Passes c x .dbreduce f) : ∃ cs sv,
    ((s.ran c x .dbreduce f).core c).butDrawers (Core.setContext { (s.frontCore c x .dbreduce f cs) with served := sv } x
        (Ctx.setReg { (s.context c x) with pc := (s.context c x).pc + 32 } (bits f.opa 37 33) (s.reduced c x f)))
      ∧ ∀ n, Tab.get 0 cs n = (s.core c).counter n - f.claims n + CmdFields.early f n := by
  obtain ⟨cs, sv, h1, h2⟩ := State.claimedDests_core (s := s) (c := c) (x := x) (op := .dbreduce) (f := f) (by decide)
  have hctx : ((s.claimedDests c x .dbreduce f).core c).context x = { (s.context c x) with pc := (s.context c x).pc + 32 } := by
    rw [h1.context]
    exact (s.frontCore_context (op := .dbreduce) (f := f) cs x).trans (if_pos rfl)
  refine ⟨cs, sv, ?_, h2⟩
  rw [State.ran_dbreduce hp, State.core_modCore, hctx]
  exact (Core.commitDrawers_butDrawers _ _).trans (congrArg (fun k : Core => k.setContext x _) h1)

theorem State.ran_dbreduce_context (hp : s.Passes c x .dbreduce f) (y : Nat) : (s.ran c x .dbreduce f).context c y =
    if y = x then Ctx.setReg { (s.context c x) with pc := (s.context c x).pc + 32 } (bits f.opa 37 33) (s.reduced c x f)
    else s.context c y := by
  obtain ⟨cs, sv, h1, -⟩ := State.ran_dbreduce_front hp
  rw [State.context, h1.context]
  by_cases hy : y = x
  · rw [hy, Core.context_setContext, if_pos rfl]
  · rw [Core.context_setContext_ne _ _ hy, if_neg hy]
    exact (s.frontCore_context (op := .dbreduce) (f := f) cs y).trans (if_neg hy)

/-- A drawer at the commit of a DBREDUCE: it writes none. -/
theorem State.ran_dbreduce_drawer (hp : s.Passes c x .dbreduce f) (d : Nat) : ((s.ran c x .dbreduce f).core c).drawer d =
    if d ∈ (s.plan c x .dbreduce f).cons ∧ ¬ d ∈ (s.plan c x .dbreduce f).held then { ((s.core c).drawer d) with closing := true }
    else (s.core c).drawer d := by
  have hdsts := (State.plan_dbreduce hp).dsts rfl
  have hclaimed := State.claimedDests_drawer (s := s) (c := c) (x := x) (op := .dbreduce) (f := f) (by decide) d
  have hnone : (s.startedEntry c x .dbreduce f).dsts = [] := hdsts
  rw [hdsts, if_neg List.not_mem_nil] at hclaimed
  rw [State.ran_dbreduce hp, State.core_modCore, Core.drawer_commitDrawers, hnone, if_neg List.not_mem_nil]
  exact congrArg (fun v : Drawer => if d ∈ (s.plan c x .dbreduce f).cons ∧ ¬ d ∈ (s.plan c x .dbreduce f).held
    then { v with closing := true } else v) hclaimed

theorem State.finished_dbreduce_tags (hp : s.Passes c x .dbreduce f) :
    s.tagsLeft (s.finished c x .dbreduce f) c (s.plan c x .dbreduce f) := by
  have hpeer := (State.plan_dbreduce hp).peer
  refine ⟨fun d hd => ?_, fun d hc hh => ?_, fun d _ hc hcl => ?_⟩
  · rw [(State.plan_dbreduce hp).dsts rfl] at hd
    exact absurd hd List.not_mem_nil
  · have hr := State.ran_dbreduce_drawer hp d
    rw [if_pos ⟨hc, hh⟩] at hr
    rcases State.finished_drawer hpeer d with he | ⟨-, he⟩
    · exact .inr (by rw [he, hr])
    · exact .inl (by rw [he]; rfl)
  · have hr := State.ran_dbreduce_drawer hp d
    rw [if_neg fun h => hc h.1] at hr
    rw [(State.finished_drawer hpeer d).resolve_right (by simp [hr, hcl]), hr]

theorem State.finished_dbreduce_done (hq : s.Quiet c x) (ht : s.Takes c x .dbreduce f) (hp : s.Passes c x .dbreduce f) :
    s.Done (s.finished c x .dbreduce f) c x f ((s.context c x).pc + 32) .running (s.core c).counter := by
  have hpeer := (State.plan_dbreduce hp).peer
  obtain ⟨cs, sv, h1, h2⟩ := State.ran_dbreduce_front hp
  have hctx := State.ran_dbreduce_context hp
  have hother : ∀ d, d ≠ c → (s.ran c x .dbreduce f).core d = s.core d := by
    intro d hd
    rw [State.ran_dbreduce hp, State.core_modCore_ne _ _ hd, State.claimedDests_other (by decide) hd]
  refine State.complete_done _ _ _ _ (State.ran_q (by decide)) hpeer (by simp) (by simp) ?_ ?_ hother (fun y hy => ?_) (by simp) ht.mode _
    fun n => ?_
  · rw [hctx, if_pos rfl]
    rfl
  · rw [hctx, if_pos rfl]
    exact hq.running
  · rw [hctx, if_neg hy]
  · rw [h1.counter]
    exact h2 n

/-- DBREDUCE: its scalar in its register, and nothing stored (08 R176). -/
theorem dbreduce_row : EngineRow .dbreduce .dbreduce (fun _ _ _ _ => True) (fun s c x f t =>
    (t.context c x).reg (bits f.opa 37 33) = s.reduced c x f ∧ (s.context c x).onlyReg (t.context c x) (bits f.opa 37 33)
    ∧ (∀ a, t.readByte a = s.readByte a) ∧ (t.core c).hdrs = (s.core c).hdrs) := by
  intro s c x f hq ht ⟨hp, hs, _⟩
  have hpeer := (State.plan_dbreduce hp).peer
  obtain ⟨cs, sv, hfront, -⟩ := State.ran_dbreduce_front hp
  have hkept := State.claimedDests_kept (s := s) (c := c) (x := x) (op := .dbreduce) (f := f) (by decide)
  have hran := State.ran_dbreduce hp
  have hwork : (s.ran c x .dbreduce f).KeepsWork (s.finished c x .dbreduce f) c := State.complete_keepsWork (by decide) (by decide) hpeer
  have hctx : (s.finished c x .dbreduce f).context c x
      = Ctx.setReg { (s.context c x) with pc := (s.context c x).pc + 32 } (bits f.opa 37 33) (s.reduced c x f) := by
    rw [hwork.context, State.ran_dbreduce_context hp, if_pos rfl]
  obtain ⟨hhdrs, hdescs, -, -, -⟩ : (s.core c).sameStore ((s.finished c x .dbreduce f).core c) :=
    Core.sameStore.trans (l := (s.ran c x .dbreduce f).core c)
      (Core.sameStore.trans ⟨rfl, rfl, rfl, rfl, rfl⟩ hfront.sameStore) hwork.store
  obtain ⟨hbars, hctrs, hsigs, hout⟩ : s.sameTraffic (s.finished c x .dbreduce f) := by
    refine (hkept.traffic.trans ?_).trans (State.complete_kept _ c _ hpeer).traffic
    rw [hran]
    exact ⟨rfl, rfl, rfl, rfl⟩
  refine ⟨s.finished c x .dbreduce f, ?_, ⟨?_, ⟨fun n hn => ?_, ?_⟩, fun a => ?_, hhdrs.symm⟩, State.finished_dbreduce_tags hp,
    State.finished_dbreduce_done hq ht hp, hdescs.symm, hbars, hctrs, hsigs, hout⟩
  · have hrow : exec (.dbreduce c x f) s = .next (s.runWord c x (encodeCmd .dbreduce f)) := hq.runRow_eq
    rw [hrow, hq.engine ht hp (.inr (.inl rfl)) hs]
    rfl
  · rw [hctx, Ctx.reg_setReg]
  · rw [hctx, Ctx.reg_setReg_ne _ _ hn]
    rfl
  · rw [hctx]
    rfl
  · rw [hwork.mem, hran]
    exact hkept.mem a

/-! ### The obligation -/

/-- Settles O10: a DBCHAIN stores the results of its mode, by what its run stores; a DBREDUCE writes one register. -/
theorem drawbenchPasses : Obligations.DrawbenchPasses := by
  unfold Obligations.DrawbenchPasses
  refine ⟨?modular, ?clear, dbreduce_row⟩
  case modular =>
    refine dbchain_row (pre := fun l => l.mode = 0 ∧ ∀ e, l.laneMasked e = false) (fun _ => 6) modResults (fun _ _ h => h)
      (fun s t q h => by rw [modResults, State.readUnits_congr h, modResults]) fun s c q ⟨hmode, hmask⟩ => ?_
    rw [runDbchain, if_pos hmode, runModPass_eq s c q hmask]
    exact .refl _
  case clear =>
    refine dbchain_row (pre := fun l => l.mode ≠ 0 ∧ l.keepMode = false ∧ 8 ≤ fmtBits l.ofmt ∧ fmtScaled l.ofmt = false)
      (fun l => fmtUnit l.ofmt) clearResults (fun _ _ h => h)
      (fun s t q h => by rw [clearResults, passLanes_congr h, clearResults]) fun s c q ⟨hmode, hkeep, hbits, hfmt⟩ => ?_
    rw [runDbchain, if_neg hmode]
    exact runClearPass_unscaled s c q hkeep hbits hfmt

end Sys2Proof.Machine
end

section
/-!
Windows of a core: how they open and close, what becomes of the writes that reach them, the arming of SP_INJECT and the clearing of a
histogram slot (09 R192 to R196, R203; 07 R151).
-/
namespace Sys2Proof.Machine

variable {s t u : State} {c w : Nat}

/-! ### Registers and nothing else -/

theorem State.setRf_regsOnly (s : State) (r : RegName) (i x hi lo v : Nat) : s.regsOnly (s.setRf r i x hi lo v) [adr r i x] :=
  s.setReg_regsOnly ..

theorem State.regsOnly.onlyRegs {as : List Nat} (h : s.regsOnly t as) : s.onlyRegs t as :=
  ⟨congrArg (fun v : State => { v with router := s.router }) h.1, fun a ha _ => h.2 a ha⟩

theorem State.eventsOnly.onlyRegs (h : s.eventsOnly t) (as : List Nat) : s.onlyRegs t as := ⟨h.1, fun a _ he => h.2 a he⟩

theorem State.onlyRegs.trans {as : List Nat} (h : s.onlyRegs t as) (g : t.onlyRegs u as) : s.onlyRegs u as := by
  refine ⟨?_, fun a ha he => (g.2 a ha he).trans (h.2 a ha he)⟩
  have hrest := h.1
  rw [← g.1] at hrest
  exact hrest

/-! ### The registers of a window -/

/-- The registers that say what a window is (09 R192). -/
def winRegs : List RegName := [.winCfg, .winBound, .winWdev, .winWcore0, .winWcore1, .winWcore2]

theorem State.win_isOpen (s : State) (c w : Nat) : (s.win c w).isOpen = bitOf (s.reg .winCfg c w) 31 := by
  rw [State.win]

theorem State.win_congr (h : ∀ r ∈ winRegs, t.reg r c w = s.reg r c w) : t.win c w = s.win c w := by
  simp only [winRegs, List.forall_mem_cons] at h
  obtain ⟨hcfg, hbound, hdev, hcore0, hcore1, hcore2, -⟩ := h
  simp only [State.win, State.rf, hcfg, hbound, hdev, hcore0, hcore1, hcore2]

/-- A window's registers lie in a place of their own of its core's block (22 R476). -/
theorem winReg_place {r : RegName} (hr : r ∈ .winStat :: winRegs) :
    r.block = .core ∧ r.stride = 32 ∧ 0x3400 ≤ r.offset ∧ r.offset < 0x3420 := by
  revert r
  decide

theorem winReg_addr {r : RegName} (hr : r ∈ .winStat :: winRegs) (c w : Nat) :
    RegKey.addr ⟨r, c, w⟩ = controlBase + 4194304 + c * 0x10000 + r.offset + 32 * w := by
  obtain ⟨hblock, hstride, -⟩ := winReg_place hr
  rw [RegKey.addr_core hblock, hstride]

theorem winReg_ne {r r' : RegName} (hr : r ∈ .winStat :: winRegs) (hr' : r' ∈ .winStat :: winRegs) (hne : r ≠ r') (c w : Nat) :
    RegKey.addr ⟨r, c, w⟩ ≠ RegKey.addr ⟨r', c, w⟩ := by
  have hall : ∀ r ∈ RegName.winStat :: winRegs, ∀ r' ∈ RegName.winStat :: winRegs, r ≠ r' → r.offset ≠ r'.offset := by decide
  have hoff := hall r hr r' hr' hne
  rw [winReg_addr hr, winReg_addr hr']
  omega

theorem winReg_ne_spInject {r : RegName} (hr : r ∈ .winStat :: winRegs) (c : Nat) (hw : w < 16) (e : Nat) :
    RegKey.addr ⟨r, c, w⟩ ≠ RegKey.addr ⟨.spInject, e, 0⟩ := by
  obtain ⟨-, -, hlo, hhi⟩ := winReg_place hr
  rw [winReg_addr hr, RegKey.addr_eq .spInject e 0 4194304 280 0 rfl rfl rfl]
  omega

/-- The count of refused writes is no part of what a window is. -/
theorem State.win_setReg_winStat (s : State) (c w : Nat) (v : W32) : (s.setReg .winStat c w v).win c w = s.win c w := by
  refine State.win_congr fun r hr => s.reg_setReg_ne v (winReg_ne (List.mem_cons_of_mem _ hr) (List.mem_cons_self ..) ?_ c w)
  revert r
  decide

/-- WIN_CFG holds the OPEN bit, the context and the drawers of a window (09 R203). -/
theorem State.win_setReg_winCfg (s : State) (c w : Nat) (v : W32) : (s.setReg .winCfg c w v).win c w
    = { (s.win c w) with isOpen := bitOf v 31, ctx := bits v 30 29, first := bits v 23 16, count := bits v 5 0 } := by
  have hkept : ∀ r ∈ winRegs, r ≠ .winCfg → (s.setReg .winCfg c w v).reg r c w = s.reg r c w := fun r hr hne =>
    s.reg_setReg_ne v (winReg_ne (List.mem_cons_of_mem _ hr) (by decide) hne c w)
  simp only [State.win, State.rf, State.reg_setReg, hkept .winBound (by decide) (by decide), hkept .winWdev (by decide) (by decide),
    hkept .winWcore0 (by decide) (by decide), hkept .winWcore1 (by decide) (by decide), hkept .winWcore2 (by decide) (by decide)]

/-! ### Fields of a word that opens a window -/

theorem bitOf_putBits_31_zero (v : W32) : bitOf (putBits v 31 31 0) 31 = false := bitOf_putBits_self v false (by decide)

theorem bits_ofNat_of_lt {n v : Nat} (h : v < 2 ^ n) (hi lo : Nat) : bits (BitVec.ofNat n v) hi lo = v / 2 ^ lo % 2 ^ (hi + 1 - lo) := by
  rw [bits, natBits, BitVec.toNat_ofNat, Nat.mod_eq_of_lt h]

section
variable {x first count : Nat} (hx : x < 4) (hf : first < 256) (hc : count < 64)
include hx hf hc

theorem winOpenValue_fields : bitOf (winOpenValue x first count) 31 = true ∧ bits (winOpenValue x first count) 30 29 = x
    ∧ bits (winOpenValue x first count) 23 16 = first ∧ bits (winOpenValue x first count) 5 0 = count := by
  have hlt : 2 ^ 31 + x * 2 ^ 29 + first * 2 ^ 16 + count < 2 ^ 32 := by omega
  refine ⟨?_, ?_, ?_, ?_⟩
  · rw [winOpenValue, bitOf, BitVec.getLsbD_ofNat, Nat.testBit_eq_decide_div_mod_eq]
    simp only [show (31 : Nat) < 32 by decide, decide_true, Bool.true_and, decide_eq_true_eq]
    omega
  all_goals
    rw [winOpenValue, bits_ofNat_of_lt hlt]
    omega

/-- The window that the write opens: its fields, and the bound and the writers that its other registers hold. -/
theorem State.win_setReg_winOpenValue (s : State) (c w : Nat) : (s.setReg .winCfg c w (winOpenValue x first count)).win c w
    = { (s.win c w) with isOpen := true, ctx := x, first := first, count := count } := by
  obtain ⟨hopen, hctx, hfirst, hcount⟩ := winOpenValue_fields hx hf hc
  rw [State.win_setReg_winCfg, hopen, hctx, hfirst, hcount]

end

/-! ### Opening a window -/

/-- A write with OPEN 1 opens a closed window, or is refused (09 R192). -/
theorem State.winCfgWrite_of_closed (hclosed : bitOf (s.reg .winCfg c w) 31 = false) {v : W32} (hv : bitOf v 31 = true) (req : Nat) :
    s.winCfgWrite c w v req =
      if (s.setReg .winCfg c w v).mayOpen c w ((s.setReg .winCfg c w v).win c w) = true
      then (s.setReg .winCfg c w v).setRf .winStat c w 31 16 0 else s.refuseState .winCfg c w req := by
  rw [State.winCfgWrite, if_neg (by rw [hclosed]; decide), if_pos hv]

section
variable {x first count : Nat} (hc : c < 96) (hw : w < 16) (hx : x < 4) (hf : first < 256) (hn : count < 64) (req : Nat)
include hc hw hx hf hn

theorem windowOpen_eq (s : State) :
    exec (.windowOpen c w x first count req) s = .next (s.winCfgWrite c w (winOpenValue x first count) req) := by
  have hrow : exec (.windowOpen c w x first count req) s = execWindowOpen c w x first count req s := rfl
  rw [hrow, execWindowOpen, onWin, if_pos ⟨hc, hw⟩, Nat.mod_eq_of_lt hx, Nat.mod_eq_of_lt hf, Nat.mod_eq_of_lt hn]
  rfl

/-- A closed window whose fields are legal opens, and counts no refused write yet (09 R192). -/
theorem windowOpen_opens (hclosed : (s.win c w).isOpen = false)
    (hmay : let v := s.setReg .winCfg c w (winOpenValue x first count); v.mayOpen c w (v.win c w) = true) :
    ∃ t, exec (.windowOpen c w x first count req) s = .next t
      ∧ t.win c w = { (s.win c w) with isOpen := true, ctx := x, first := first, count := count }
      ∧ t.rf .winStat c w 31 16 = 0 ∧ s.onlyRegs t [adr .winCfg c w, adr .winStat c w] := by
  have hopen := (winOpenValue_fields hx hf hn).1
  rw [State.win_isOpen] at hclosed
  refine ⟨(s.setReg .winCfg c w (winOpenValue x first count)).setRf .winStat c w 31 16 0, ?_, ?_, ?_, ?_⟩
  · dsimp only at hmay
    rw [windowOpen_eq hc hw hx hf hn, State.winCfgWrite_of_closed hclosed hopen, if_pos hmay]
  · rw [State.setRf, State.win_setReg_winStat, State.win_setReg_winOpenValue hx hf hn]
  · rw [State.rf, State.setRf, State.reg_setReg, bits_putBits_self _ _ (by decide) (by decide), Nat.zero_mod]
  · exact ((s.setReg_regsOnly .winCfg c w _).trans (State.setRf_regsOnly _ .winStat c w 31 16 0)).onlyRegs

/-- The write is refused while the window is open, and where its drawers or its core do not permit a window (09 R192, R196). -/
theorem windowOpen_refused
    (h : (s.win c w).isOpen = true ∨ count = 0 ∨ 32 < count ∨ 256 < first + count ∨ (s.core c).pewter = true) :
    ∃ t, exec (.windowOpen c w x first count req) s = .next t ∧ s.refusedOnly t := by
  refine ⟨s.refuseState .winCfg c w req, ?_, s.refuseState_refusedOnly _ _ _ _ _⟩
  have hopen := (winOpenValue_fields hx hf hn).1
  rw [State.win_isOpen] at h
  rw [windowOpen_eq hc hw hx hf hn]
  by_cases hbit : bitOf (s.reg .winCfg c w) 31 = true
  case pos =>
    have hne : winOpenValue x first count ≠ putBits (s.reg .winCfg c w) 31 31 0 := by
      intro heq
      rw [heq, bitOf_putBits_31_zero] at hopen
      exact Bool.noConfusion hopen
    rw [State.winCfgWrite, if_pos hbit, if_neg hne]
  case neg =>
    have hbad : (!(s.core c).pewter && decide (1 ≤ count ∧ count ≤ 32 ∧ first + count ≤ 256)) = false := by
      rcases h with h | h | h | h | h
      · exact absurd h hbit
      · simp [h]
      · simp [Nat.not_le.2 h]
      · simp [Nat.not_le.2 h]
      · simp [h]
    have hcore : (s.setReg .winCfg c w (winOpenValue x first count)).core c = s.core c := State.core_congr (State.setReg_cores ..) c
    have hmay : (s.setReg .winCfg c w (winOpenValue x first count)).mayOpen c w
        ((s.setReg .winCfg c w (winOpenValue x first count)).win c w) = false := by
      rw [State.mayOpen, State.win_setReg_winOpenValue hx hf hn, hcore, hbad]
      simp only [Bool.false_and]
    rw [State.winCfgWrite_of_closed (Bool.eq_false_iff.2 hbit) hopen, hmay, if_neg Bool.false_ne_true]

end

/-! ### Drawers changed in turn -/

theorem State.coresOnly.trans (h : s.coresOnly t) (g : t.coresOnly u) : s.coresOnly u := by
  unfold State.coresOnly at *
  rw [← h, ← g]

/-- Drawers of one core changed one after another. -/
def State.modDrawers (s : State) (c : Nat) (g : Nat → Drawer → Drawer) (l : List Nat) : State :=
  l.foldl (fun s d => s.modCore c (fun k => k.modDrawer d (g d))) s

theorem State.modDrawers_spec (s : State) (c : Nat) (g : Nat → Drawer → Drawer) (l : List Nat) :
    s.coresOnly (s.modDrawers c g l) ∧ (s.modDrawers c g l).core c = l.foldl (fun k d => k.modDrawer d (g d)) (s.core c)
      ∧ ∀ d, d ≠ c → (s.modDrawers c g l).core d = s.core d := by
  induction l generalizing s with
  | nil => exact ⟨rfl, rfl, fun _ _ => rfl⟩
  | cons e l ih =>
    obtain ⟨hrest, hcore, hother⟩ := ih (s.modCore c fun k => k.modDrawer e (g e))
    rw [State.core_modCore] at hcore
    refine ⟨State.coresOnly.trans (t := s.modCore c fun k => k.modDrawer e (g e)) rfl hrest, hcore, fun d hd => ?_⟩
    rw [State.modDrawers, List.foldl_cons, ← State.modDrawers, hother d hd, State.core_modCore_ne _ _ hd]

theorem State.modDrawers_butDrawers (s : State) (c : Nat) (g : Nat → Drawer → Drawer) (l : List Nat) :
    ((s.modDrawers c g l).core c).butDrawers (s.core c) := by
  rw [(s.modDrawers_spec c g l).2.1]
  exact foldl_butDrawers _ (fun k d => k.butDrawers_modDrawer d _) l _

/-- Each drawer of a list without repeats changes once. -/
theorem Core.drawer_foldl_modDrawer_of_nodup (g : Nat → Drawer → Drawer) {l : List Nat} (hl : l.Nodup) (k : Core) (d : Nat) :
    (l.foldl (fun k d => k.modDrawer d (g d)) k).drawer d = if d ∈ l then g d (k.drawer d) else k.drawer d := by
  induction l generalizing k with
  | nil => simp
  | cons e l ih =>
    obtain ⟨he, hl⟩ := List.nodup_cons.1 hl
    rw [List.foldl_cons, ih hl]
    by_cases hd : d = e
    · subst hd
      simp [he, Core.modDrawer]
    · simp [hd, Core.modDrawer, Core.drawer_setDrawer_ne _ _ hd]

theorem State.modDrawers_drawer (s : State) (c : Nat) (g : Nat → Drawer → Drawer) {l : List Nat} (hl : l.Nodup) (d : Nat) :
    ((s.modDrawers c g l).core c).drawer d = if d ∈ l then g d ((s.core c).drawer d) else (s.core c).drawer d := by
  rw [(s.modDrawers_spec c g l).2.1, Core.drawer_foldl_modDrawer_of_nodup g hl]

theorem drawerRun_nodup (d n : Nat) : (drawerRun d n).Nodup :=
  List.nodup_range.map fun _ _ h => Nat.add_right_cancel h

theorem touched_nodup (off n : Nat) : (touched off n).Nodup := drawerRun_nodup ..

/-! ### Closing a window -/

/-- A drawer TORN, its granules kept. -/
def Drawer.torn (v : Drawer) : Drawer := { v with tag := .torn }

/-- Drawers of a window that are partly written (09 R196). -/
def State.partWritten (s : State) (c w : Nat) : List Nat :=
  (s.win c w).drawers.filter fun d => ((s.core c).drawer d).gran != 0 && ((s.core c).drawer d).tag != .full

theorem State.mem_partWritten {d : Nat} : d ∈ s.partWritten c w
    ↔ d ∈ (s.win c w).drawers ∧ ((s.core c).drawer d).gran ≠ 0 ∧ ((s.core c).drawer d).tag ≠ .full := by
  simp [State.partWritten, List.mem_filter]

theorem State.partWritten_nodup (s : State) (c w : Nat) : (s.partWritten c w).Nodup := (drawerRun_nodup ..).filter _

/-- A window closed, before the event of its torn drawers is raised. -/
def State.shutWin (s : State) (c w : Nat) : State :=
  (s.setRf .winCfg c w 31 31 0).modDrawers c (fun _ => Drawer.torn) (s.partWritten c w)

theorem State.core_setRf (s : State) (r : RegName) (i n hi lo v d : Nat) : (s.setRf r i n hi lo v).core d = s.core d :=
  State.core_congr (State.setReg_cores ..) d

theorem State.shutWin_drawer (s : State) (c w d : Nat) : ((s.shutWin c w).core c).drawer d =
    if d ∈ (s.win c w).drawers ∧ ((s.core c).drawer d).gran ≠ 0 ∧ ((s.core c).drawer d).tag ≠ .full
    then ((s.core c).drawer d).torn else (s.core c).drawer d := by
  rw [State.shutWin, State.modDrawers_drawer _ _ _ (s.partWritten_nodup c w), State.core_setRf]
  simp only [State.mem_partWritten]

theorem State.shutWin_butDrawers (s : State) (c w : Nat) : ((s.shutWin c w).core c).butDrawers (s.core c) := by
  have hbut := (s.setRf .winCfg c w 31 31 0).modDrawers_butDrawers c (fun _ => Drawer.torn) (s.partWritten c w)
  rw [State.core_setRf] at hbut
  exact hbut

theorem State.shutWin_other (s : State) (c w : Nat) {d : Nat} (hd : d ≠ c) : (s.shutWin c w).core d = s.core d := by
  rw [State.shutWin, (State.modDrawers_spec ..).2.2 d hd, State.core_setRf]

theorem State.shutWin_onlyRegs (s : State) (c w : Nat) :
    { s with cores := (s.shutWin c w).cores }.onlyRegs (s.shutWin c w) [adr .winCfg c w] := by
  have hrest : (s.setRf .winCfg c w 31 31 0).coresOnly (s.shutWin c w) := (State.modDrawers_spec ..).1
  obtain ⟨hregs, hfind⟩ := s.setRf_regsOnly .winCfg c w 31 31 0
  refine ⟨?_, fun a ha _ => ?_⟩
  · have hcores := hrest.get (fun v => { v with router := s.router, regs := s.regs, cores := (s.shutWin c w).cores }) fun _ _ => rfl
    exact hcores.trans (congrArg (fun v : State => { v with router := s.router, cores := (s.shutWin c w).cores }) hregs)
  · rw [hrest.get State.regs fun _ _ => rfl]
    exact hfind a ha

theorem State.closeWin_eq (s : State) (c w : Nat) : s.closeWin c w =
    if (s.partWritten c w).isEmpty then s.shutWin c w else (s.shutWin c w).ctxEvent c (s.win c w).ctx 0x0108 1 0 := by
  unfold State.closeWin State.shutWin State.partWritten State.modDrawers Drawer.torn
  simp only [State.core_setRf]

theorem State.closeWin_eventsOnly (s : State) (c w : Nat) : (s.shutWin c w).eventsOnly (s.closeWin c w) := by
  rw [State.closeWin_eq]
  split
  · exact .refl _
  · exact State.raise_eventsOnly _ _

/-- A write that clears OPEN of an open window and keeps its other fields closes it (09 R196). -/
theorem State.winCfgWrite_of_open (hopen : bitOf (s.reg .winCfg c w) 31 = true) {v : W32} (hv : v = putBits (s.reg .winCfg c w) 31 31 0)
    (req : Nat) : s.winCfgWrite c w v req = (s.closeWin c w).setReg .winCfg c w v := by
  rw [State.winCfgWrite, if_pos hopen, if_pos hv]

theorem execWindowClose_eq (s : State) (hc : c < 96) (hw : w < 16) (req : Nat) :
    execWindowClose c w req s = .next (s.winCfgWrite c w (putBits (s.reg .winCfg c w) 31 31 0) req) := by
  rw [execWindowClose, onWin, if_pos ⟨hc, hw⟩]

/-- The state a close leaves. -/
def State.closedWin (s : State) (c w : Nat) : State := (s.closeWin c w).setReg .winCfg c w (putBits (s.reg .winCfg c w) 31 31 0)

theorem State.closedWin_cores (s : State) (c w : Nat) : (s.closedWin c w).cores = (s.shutWin c w).cores := by
  rw [State.closedWin, State.setReg_cores, (s.closeWin_eventsOnly c w).cores]

theorem State.closedWin_onlyRegs (s : State) (c w : Nat) :
    { s with cores := (s.closedWin c w).cores }.onlyRegs (s.closedWin c w) [adr .winCfg c w] := by
  rw [State.closedWin_cores]
  exact ((s.shutWin_onlyRegs c w).trans ((s.closeWin_eventsOnly c w).onlyRegs _)).trans (State.setReg_regsOnly ..).onlyRegs

theorem windowClose_eq (hc : c < 96) (hw : w < 16) (hopen : (s.win c w).isOpen = true) (req : Nat) :
    exec (.windowClose c w req) s = .next (s.closedWin c w) := by
  have hrow : exec (.windowClose c w req) s = execWindowClose c w req s := rfl
  rw [State.win_isOpen] at hopen
  rw [hrow, execWindowClose_eq s hc hw, State.winCfgWrite_of_open hopen rfl, State.closedWin]

/-- A closed window's partly written drawers are TORN, and its other registers stand (09 R196). -/
theorem windowClose_closes (hc : c < 96) (hw : w < 16) (hopen : (s.win c w).isOpen = true) (req : Nat) :
    ∃ t, exec (.windowClose c w req) s = .next t ∧ (t.win c w).isOpen = false
      ∧ (∀ d, (t.core c).drawer d = (if d ∈ (s.win c w).drawers ∧ ((s.core c).drawer d).gran ≠ 0 ∧ ((s.core c).drawer d).tag ≠ .full
          then { ((s.core c).drawer d) with tag := .torn } else (s.core c).drawer d))
      ∧ { (t.core c) with drawers := (s.core c).drawers } = s.core c ∧ (∀ d, d ≠ c → t.core d = s.core d)
      ∧ { s with cores := t.cores }.onlyRegs t [adr .winCfg c w] := by
  have hcore := State.core_congr (s.closedWin_cores c w)
  refine ⟨_, windowClose_eq hc hw hopen req, ?_, fun d => ?_, ?_, fun d hd => ?_, s.closedWin_onlyRegs c w⟩
  · rw [State.win_isOpen, State.closedWin, State.reg_setReg, bitOf_putBits_31_zero]
  · rw [hcore, State.shutWin_drawer]
    rfl
  · rw [hcore]
    exact congrArg (fun k : Core => { k with drawers := (s.core c).drawers }) (s.shutWin_butDrawers c w)
  · rw [hcore, s.shutWin_other c w hd]

end Sys2Proof.Machine
end

section
/-!
The writes that reach a window: what landing, refusing and answering change, and the outcome of an arrival and of a write that waited
(09 R193, R194, R196).
-/
namespace Sys2Proof.Machine

variable {s t u : State} {c w off dev src : Nat} {bs : List Byte} {v : WaitWrite}

/-! ### This device's number -/

theorem fabId_ne_coreReg {r : RegName} (hr : r.block = .core) (i n : Nat) : RegKey.addr ⟨.fabId, 0, 0⟩ ≠ RegKey.addr ⟨r, i, n⟩ := by
  rw [RegKey.addr_core hr, RegKey.addr_eq .fabId 0 0 3145728 32768 0 rfl rfl rfl]
  omega

theorem fabId_not_peen : ¬ appliedAddr (RegKey.addr ⟨.fabId, 0, 0⟩) := by
  rintro ⟨k, hk, h⟩
  rw [RegKey.addr_eq .fabId 0 0 3145728 32768 0 rfl rfl rfl, RegKey.addr_eq .pnApplied 0 k 983040 512 4 rfl rfl rfl] at h
  omega

theorem fabId_not_eventCounter : ¬ eventCounter (RegKey.addr ⟨.fabId, 0, 0⟩) := by
  rintro ⟨r, hr, h⟩
  fin_cases hr <;> exact absurd h (by decide)

theorem State.myDev_congr (h : Tab.find? t.regs (RegKey.addr ⟨.fabId, 0, 0⟩) = Tab.find? s.regs (RegKey.addr ⟨.fabId, 0, 0⟩)) :
    t.myDev = s.myDev := by
  rw [State.myDev, State.rf, State.reg, State.regK_congr h]
  rfl

/-! ### What stands of a window write's surroundings -/

/-- Cores, memory and the window writes that wait stand. -/
structure State.sameWrites (s t : State) : Prop where
  cores : t.cores = s.cores
  mem : t.mem = s.mem
  waitw : t.waitw = s.waitw

theorem State.sameWrites.refl (s : State) : s.sameWrites s := ⟨rfl, rfl, rfl⟩

theorem State.sameWrites.trans (h : s.sameWrites t) (g : t.sameWrites u) : s.sameWrites u :=
  ⟨g.cores.trans h.cores, g.mem.trans h.mem, g.waitw.trans h.waitw⟩

theorem State.sameWrites.core (h : s.sameWrites t) (d : Nat) : t.core d = s.core d := State.core_congr h.cores d

theorem State.sameWrites.readByte (h : s.sameWrites t) (a : Nat) : t.readByte a = s.readByte a := by
  rw [State.readByte, h.mem]
  rfl

/-- A part of the state that events and registers are no part of. -/
theorem State.onlyRegs.get {α : Type} {as : List Nat} (h : s.onlyRegs t as) (g : State → α)
    (hg : ∀ u r v, g { u with router := r, regs := v } = g u) : g t = g s := by
  rw [← hg t s.router s.regs]
  exact congrArg g h.1

theorem State.onlyRegs.sameWrites {as : List Nat} (h : s.onlyRegs t as) : s.sameWrites t :=
  ⟨h.get State.cores fun _ _ _ => rfl, h.get State.mem fun _ _ _ => rfl, h.get State.waitw fun _ _ _ => rfl⟩

/-! ### A perturbed owner -/

theorem State.perturb_sameWrites (s : State) (kind target : Nat) : s.sameWrites (s.perturb kind target) :=
  ⟨s.perturb_cores kind target, s.perturb_mem kind target, (s.perturb_rest kind target).waitw⟩

theorem State.perturb_myDev (s : State) (kind target : Nat) : (s.perturb kind target).myDev = s.myDev :=
  State.myDev_congr (s.perturb_regs kind target _ fabId_not_peen)

theorem State.perturb_win (s : State) (kind target c w : Nat) : (s.perturb kind target).win c w = s.win c w := by
  refine State.win_congr fun r hr => State.regK_congr (s.perturb_regs kind target _ (coreReg_not_peen ?_ c w))
  exact (winReg_place (List.mem_cons_of_mem _ hr)).1

theorem State.perturb_portsHeld (s : State) (kind target c : Nat) : (s.perturb kind target).portsHeld c = s.portsHeld c := by
  rw [State.portsHeld, (s.perturb_rest kind target).assay, State.portsHeld]

/-! ### The tests of a window write -/

theorem State.winAt_lt {d : Nat} (h : s.winAt c d = some w) : w < 16 := List.mem_range.1 (List.mem_of_find?_eq_some h)

theorem State.winAt_congr (h : ∀ w, w < 16 → t.win c w = s.win c w) (d : Nat) : t.winAt c d = s.winAt c d :=
  List.find?_congr fun w hw => by rw [h w (List.mem_range.1 hw)]

/-- The tests of R193 look at the owner's drawers and windows and at this device's number. -/
theorem State.winTest_congr (hcore : t.core c = s.core c) (hwin : ∀ w, w < 16 → t.win c w = s.win c w) (hdev : t.myDev = s.myDev)
    (dev core off n : Nat) : t.winTest c dev core off n = s.winTest c dev core off n := by
  unfold State.winTest
  rw [hcore, State.winAt_congr hwin]
  cases hat : s.winAt c (off / drawerBytes) with
  | none => rfl
  | some w =>
    have htakes (x : Win) : x.takes t dev core = x.takes s dev core := by rw [Win.takes, Win.device, hdev, Win.takes, Win.device]
    dsimp only
    rw [hwin w (State.winAt_lt hat), htakes]

theorem State.perturb_winTest (s : State) (kind target c dev core off n : Nat) :
    (s.perturb kind target).winTest c dev core off n = s.winTest c dev core off n :=
  State.winTest_congr ((s.perturb_sameWrites kind target).core c) (fun w _ => s.perturb_win kind target c w) (s.perturb_myDev kind target) ..

/-! ### A write that lands -/

theorem State.find?_store (s : State) (a : Nat) (bs : List Byte) {b : Nat} (hb : ∀ e, b ≠ RegKey.addr ⟨.spInject, e, 0⟩) :
    Tab.find? (s.store a bs).regs b = Tab.find? s.regs b := by
  unfold State.store
  dsimp only
  split
  · split
    · split
      · exact State.find?_setReg_ne _ _ _ _ _ (hb _)
      · rfl
    · rfl
  · rfl

theorem State.store_win (s : State) (a : Nat) (bs : List Byte) (c : Nat) (hw : w < 16) : (s.store a bs).win c w = s.win c w :=
  State.win_congr fun _ hr => State.regK_congr (s.find?_store a bs (winReg_ne_spInject (List.mem_cons_of_mem _ hr) c hw))

theorem State.store_myDev (s : State) (a : Nat) (bs : List Byte) : (s.store a bs).myDev = s.myDev :=
  State.myDev_congr (s.find?_store a bs fun e => fabId_ne_coreReg rfl e 0)

theorem State.core_store (s : State) (a : Nat) (bs : List Byte) (d : Nat) : (s.store a bs).core d = s.core d :=
  State.core_congr (s.store_cores a bs) d

/-- A drawer of a window with the granules recorded that `n` bytes from an offset write of it (09 R194). -/
def Win.recorded (v : Win) (off n d : Nat) (x : Drawer) : Drawer :=
  x.record (v.need d) ((max off (d * drawerBytes) - d * drawerBytes) / 64) ((min (off + n) ((d + 1) * drawerBytes) - d * drawerBytes) / 64)

theorem Drawer.record_gran (x : Drawer) (need lo hi : Nat) : (x.record need lo hi).gran = x.gran.lor (granMask lo hi) := by
  unfold Drawer.record
  dsimp only
  split <;> rfl

theorem Drawer.record_tag (x : Drawer) (need lo hi : Nat) : (x.record need lo hi).tag =
    if (x.gran.lor (granMask lo hi)).land (granMask 0 need) = granMask 0 need then .full else x.tag := by
  unfold Drawer.record
  dsimp only
  split <;> rfl

/-- The granules of a landed write recorded in the owner's drawers (09 R194). -/
def State.recordLanded (s : State) (c off n : Nat) : State :=
  match s.winAt c (off / drawerBytes) with
  | none => s
  | some w => s.modDrawers c ((s.win c w).recorded off n) (touched off n)

/-- Landing is a store, then the record. The definition and the stored state are named before they are unfolded: the kernel would
otherwise evaluate the store's address to decide the match. -/
theorem State.winLand_eq (s : State) (c off : Nat) (bs : List Byte) :
    s.winLand c off bs = (s.store (spBase c + off) bs).recordLanded c off bs.length := by
  obtain ⟨f, hf⟩ : ∃ f, f = @State.winLand := ⟨_, rfl⟩
  rw [← hf]
  delta State.winLand at hf
  rw [hf]
  beta_reduce
  obtain ⟨m, hm⟩ : ∃ m, m = s.store (spBase c + off) bs := ⟨_, rfl⟩
  rw [← hm]
  dsimp only
  unfold State.recordLanded
  cases m.winAt c (off / drawerBytes) with
  | none => rfl
  | some w => rfl

theorem State.recordLanded_eq_modDrawers (s : State) (c off n : Nat) : ∃ g l, s.recordLanded c off n = s.modDrawers c g l := by
  unfold State.recordLanded
  split
  · exact ⟨fun _ => id, [], rfl⟩
  · exact ⟨_, _, rfl⟩

theorem State.winLand_of_winAt (hat : s.winAt c (off / drawerBytes) = some w) (bs : List Byte) : s.winLand c off bs =
    (s.store (spBase c + off) bs).modDrawers c ((s.win c w).recorded off bs.length) (touched off bs.length) := by
  have hat' : (s.store (spBase c + off) bs).winAt c (off / drawerBytes) = some w := by
    rw [State.winAt_congr fun w hw => s.store_win _ _ c hw, hat]
  rw [State.winLand_eq, State.recordLanded, hat']
  dsimp only
  rw [State.store_win _ _ _ c (State.winAt_lt hat)]

/-- What landing leaves: the bytes written, and of the state the drawers of the owner changed. -/
structure State.Landed (s t : State) (c off : Nat) (bs : List Byte) : Prop where
  byte : ∀ a, t.readByte a = (s.store (spBase c + off) bs).readByte a
  queue : ∀ d, (t.core d).q = (s.core d).q
  others : ∀ d, d ≠ c → t.core d = s.core d
  myDev : t.myDev = s.myDev
  waitw : t.waitw = s.waitw

theorem State.winLand_landed (s : State) (c off : Nat) (bs : List Byte) : s.Landed (s.winLand c off bs) c off bs := by
  obtain ⟨g, l, heq⟩ := (s.store (spBase c + off) bs).recordLanded_eq_modDrawers c off bs.length
  rw [← State.winLand_eq] at heq
  obtain ⟨hrest, -, hother⟩ := (s.store (spBase c + off) bs).modDrawers_spec c g l
  have hbut := (s.store (spBase c + off) bs).modDrawers_butDrawers c g l
  have hothers : ∀ d, d ≠ c → (s.winLand c off bs).core d = s.core d := fun d hd => by
    rw [heq, hother d hd, State.core_store]
  rw [← heq] at hrest hbut
  refine ⟨fun a => ?_, fun d => ?_, hothers, ?_, ?_⟩
  · rw [State.readByte, hrest.get State.mem fun _ _ => rfl]
    rfl
  · by_cases hd : d = c
    · rw [hd, hbut.q, State.core_store]
    · rw [hothers d hd]
  · have hregs := hrest.get State.regs fun _ _ => rfl
    exact (State.myDev_congr (by rw [hregs])).trans (State.store_myDev ..)
  · rw [hrest.get State.waitw fun _ _ => rfl]
    exact (State.store_storesOnly ..).get State.waitw fun _ _ _ _ => rfl

theorem State.Landed.readBytes (h : s.Landed t c off bs) : t.readBytes (spBase c + off) bs.length = bs := by
  rw [State.readBytes_congr fun i _ => h.byte _, State.readBytes_store_self]

theorem State.Landed.readByte_out (h : s.Landed t c off bs) {a : Nat} (ha : ¬ (spBase c + off ≤ a ∧ a < spBase c + off + bs.length)) :
    t.readByte a = s.readByte a := by
  rw [h.byte, State.readByte_store, if_neg ha]

/-! ### A write that is refused, and the answer to a writer -/

/-- A refused write is counted by the window of its first byte and raises an event (09 R193). -/
theorem State.winRefused_onlyRegs (s : State) (c off st : Nat) : ∃ w, s.onlyRegs (s.winRefused c off st) [adr .winStat c w] := by
  unfold State.winRefused
  split
  case h_1 => exact ⟨0, (State.raise_eventsOnly ..).onlyRegs _⟩
  case h_2 w _ => exact ⟨w, (State.setRf_regsOnly ..).onlyRegs.trans ((State.raise_eventsOnly ..).onlyRegs _)⟩

theorem State.winRefused_sameWrites (s : State) (c off st : Nat) : s.sameWrites (s.winRefused c off st) := by
  obtain ⟨w, h⟩ := s.winRefused_onlyRegs c off st
  exact h.sameWrites

theorem State.winRefused_myDev (s : State) (c off st : Nat) : (s.winRefused c off st).myDev = s.myDev := by
  obtain ⟨w, h⟩ := s.winRefused_onlyRegs c off st
  refine State.myDev_congr (h.2 _ (fun hmem => ?_) fabId_not_eventCounter)
  exact fabId_ne_coreReg rfl c w (List.mem_singleton.1 hmem)

/-- No command of this device waits for the outcome of the write. -/
def State.writerGone (s : State) (v : WaitWrite) : Prop := v.dev ≠ s.myDev ∨ (s.core v.core).cmd? v.cmdId = none

theorem State.writerGone.congr (h : s.writerGone v) (hdev : t.myDev = s.myDev) (hq : ∀ d, (t.core d).q = (s.core d).q) :
    t.writerGone v := by
  unfold State.writerGone Core.cmd? at *
  rwa [hdev, hq]

theorem State.fabEvent_eventsOnly (s : State) (code cls port dev st : Nat) : s.eventsOnly (s.fabEvent code cls port dev st) :=
  s.raise_eventsOnly _

theorem State.ackTo_sameWrites (s : State) (owner dev opid core st : Nat) : s.sameWrites (s.ackTo owner dev opid core st) := by
  unfold State.ackTo State.sendPacket State.sendLen
  split
  · dsimp only
    exact ((s.fabEvent_eventsOnly ..).onlyRegs []).sameWrites
  · exact ⟨rfl, rfl, rfl⟩

/-- The answer to a writer that this device's commands do not wait for leaves this device but for what it sends. -/
theorem State.winAnswer_sameWrites (h : s.writerGone v) (st : Nat) : s.sameWrites (s.winAnswer v st) := by
  unfold State.winAnswer
  split
  case isTrue hdev =>
    have hnone := h.resolve_left (not_not.2 hdev)
    split
    · rw [State.flightDone, hnone]
      exact .refl s
    · rw [hnone]
      exact .refl s
  case isFalse => exact s.ackTo_sameWrites ..

/-! ### The outcome of a window write -/

theorem State.winWrite_landed (hheld : s.portsHeld c = false) (h : s.winTest c dev src off bs.length = .landed) :
    s.winWrite c dev src off bs = (s.winLand c off bs, .landed) := by
  simp [State.winWrite, hheld, h]

theorem State.winWrite_refused {st : Nat} (hheld : s.portsHeld c = false) (h : s.winTest c dev src off bs.length = .refused st) (bad : Bool) :
    s.winWrite c dev src off bs bad = (if st = stOrphan then s else s.winRefused c off st, .refused st) := by
  simp [State.winWrite, hheld, h]

theorem State.winWrite_held (hheld : s.portsHeld c = true) (bad accepted : Bool) :
    s.winWrite c dev src off bs bad accepted = (s, .waits) := by
  simp [State.winWrite, hheld]

theorem State.winWrite_waits (h : s.winTest c dev src off bs.length = .waits) (bad : Bool) :
    s.winWrite c dev src off bs bad = (s, .waits) := by
  cases hheld : s.portsHeld c with
  | true => exact State.winWrite_held hheld bad false
  | false => simp [State.winWrite, hheld, h]

/-! ### The arrival of a write -/

/-- A write waits behind earlier ones of its stream, and behind earlier loads of its core (09 R194; 14 R304, R306). -/
def State.behind (s : State) (v : WaitWrite) : Bool := s.waitw.any (fun u => u.sameStream v) || s.behindLoad v

theorem State.behind_of_first (hstore : v.store = false) (h : ∀ u ∈ s.waitw, ¬ (u.dev = v.dev ∧ u.core = v.core ∧ u.owner = v.owner)) :
    s.behind v = false := by
  have hstream : s.waitw.any (fun u => u.sameStream v) = false := by
    rw [List.any_eq_false]
    intro u hu
    have := h u hu
    simpa [WaitWrite.sameStream, hstore] using this
  rw [State.behind, hstream, State.behindLoad, hstore]
  rfl

theorem State.winArrive_behind {bad : Bool} (h : s.behind { v with ord := s.nextOrd } = true) :
    s.winArrive v bad = s.addWait { v with ord := s.nextOrd, bad := bad } := if_pos h

theorem State.winArrive_first {bad : Bool} {r : WinRes} (h : s.behind { v with ord := s.nextOrd } = false)
    (hr : (s.perturb 7 v.owner).winWrite v.owner v.dev v.core v.off v.data bad = (u, r)) :
    (r = .landed → s.winArrive v bad = u.winAnswer { v with ord := s.nextOrd } stOk)
    ∧ (r = .waits → s.winArrive v bad = u.addWait { v with ord := s.nextOrd, accepted := !s.portsHeld v.owner, bad := bad })
    ∧ ∀ st, r = .refused st → s.winArrive v bad = u.winAnswer { v with ord := s.nextOrd } st := by
  have harrive := State.winArrive.eq_def s v bad
  dsimp only at harrive
  rw [State.behind] at h
  rw [if_neg (by rw [h]; decide), hr] at harrive
  refine ⟨?_, ?_, ?_⟩
  · rintro rfl
    exact harrive
  · rintro rfl
    exact harrive
  · rintro st rfl
    exact harrive

theorem State.addWait_core (s : State) (v : WaitWrite) :
    (s.addWait v).core v.owner = { (s.core v.owner) with arrivals := (s.core v.owner).arrivals + 1 } := by
  rw [State.addWait, State.core_modCore]
  rfl

theorem State.addWait_other (s : State) (v : WaitWrite) {d : Nat} (hd : d ≠ v.owner) : (s.addWait v).core d = s.core d := by
  rw [State.addWait, State.core_modCore_ne _ _ hd]
  rfl

theorem State.addWait_mem (s : State) (v : WaitWrite) : (s.addWait v).mem = s.mem := rfl

theorem State.addWait_waitw (s : State) (v : WaitWrite) :
    (s.addWait v).waitw = s.waitw ++ [{ v with arr := (s.core v.owner).arrivals + 1 }] := rfl

/-- Two records of one write, whatever their places among those that wait. -/
def WaitWrite.sameWrite (a b : WaitWrite) : Prop :=
  (a.dev, a.core, a.cmdId, a.owner, a.off, a.data) = (b.dev, b.core, b.cmdId, b.owner, b.off, b.data)

/-- A write that may not land waits with its bytes, behind those that wait (09 R193). -/
theorem State.winArrive_waits (h : s.winTest v.owner v.dev v.core v.off v.data.length = .waits) (bad : Bool) :
    ∃ u x, s.sameWrites u ∧ x.sameWrite v ∧ s.winArrive v bad = u.addWait x := by
  cases hb : s.behind { v with ord := s.nextOrd } with
  | true => exact ⟨s, { v with ord := s.nextOrd, bad := bad }, .refl s, rfl, State.winArrive_behind hb⟩
  | false =>
    have hr := State.winWrite_waits (bs := v.data) ((s.perturb_winTest 7 v.owner ..).trans h) bad
    exact ⟨_, { v with ord := s.nextOrd, accepted := !s.portsHeld v.owner, bad := bad }, s.perturb_sameWrites 7 v.owner, rfl,
      (State.winArrive_first hb hr).2.1 rfl⟩

/-! ### The rows of window writes -/

/-- The write that a row of WINDOW_WRITE brings. -/
abbrev windowWriteOf (c off dev src id : Nat) (bs : List Byte) : WaitWrite :=
  { dev := dev, core := src, cmdId := id, owner := c, off := off, data := bs }

theorem windowWrite_eq (s : State) (hc : c < 96) (off dev src id : Nat) (bs : List Byte) (bad : Bool) :
    exec (.windowWrite c off dev src id bs bad) s = .next (s.winArrive (windowWriteOf c off dev src id bs) bad) := by
  have hrow : exec (.windowWrite c off dev src id bs bad) s = execWindowWrite c off dev src id bs bad s := rfl
  rw [hrow, execWindowWrite, onCore, if_pos hc, windowWriteOf]

/-- A perturbed owner finds the writer as it was. -/
theorem State.writerGone.perturb (h : s.writerGone v) (kind target : Nat) : (s.perturb kind target).writerGone v :=
  h.congr (s.perturb_myDev kind target) fun d => by rw [(s.perturb_sameWrites kind target).core d]

/-- A write that is first of its stream and passes the tests lands (09 R193, R194). -/
theorem State.winArrive_lands (hb : s.behind { v with ord := s.nextOrd } = false) (hgone : s.writerGone v)
    (hheld : s.portsHeld v.owner = false) (htest : s.winTest v.owner v.dev v.core v.off v.data.length = .landed) :
    ((s.perturb 7 v.owner).winLand v.owner v.off v.data).sameWrites (s.winArrive v false) := by
  have hr := State.winWrite_landed (bs := v.data) ((s.perturb_portsHeld 7 v.owner v.owner).trans hheld)
    ((s.perturb_winTest 7 v.owner ..).trans htest)
  have hland := (s.perturb 7 v.owner).winLand_landed v.owner v.off v.data
  rw [(State.winArrive_first hb hr).1 rfl]
  exact State.winAnswer_sameWrites ((hgone.perturb 7 v.owner).congr hland.myDev hland.queue) stOk

theorem State.winArrive_isRefused {st : Nat} (hb : s.behind { v with ord := s.nextOrd } = false) (hgone : s.writerGone v)
    (hheld : s.portsHeld v.owner = false) (htest : s.winTest v.owner v.dev v.core v.off v.data.length = .refused st) (bad : Bool) :
    s.sameWrites (s.winArrive v bad) := by
  have hr := State.winWrite_refused (bs := v.data) ((s.perturb_portsHeld 7 v.owner v.owner).trans hheld)
    ((s.perturb_winTest 7 v.owner ..).trans htest) bad
  have hp := s.perturb_sameWrites 7 v.owner
  have hgone' := hgone.perturb 7 v.owner
  rw [(State.winArrive_first hb hr).2.2 st rfl]
  split
  · exact hp.trans (State.winAnswer_sameWrites hgone' st)
  · have hrefused := (s.perturb 7 v.owner).winRefused_sameWrites v.owner v.off st
    exact (hp.trans hrefused).trans (State.winAnswer_sameWrites (hgone'.congr (State.winRefused_myDev ..) fun d => by rw [hrefused.core d]) st)

section
variable {id : Nat} (hc : c < 96)
include hc

theorem windowWrite_waits (bad : Bool) (htest : s.winTest c dev src off bs.length = .waits) :
    ∃ t, exec (.windowWrite c off dev src id bs bad) s = .next t ∧ t.mem = s.mem
      ∧ t.core c = { (s.core c) with arrivals := (s.core c).arrivals + 1 } ∧ (∀ d, d ≠ c → t.core d = s.core d)
      ∧ ∃ v : WaitWrite, t.waitw = s.waitw ++ [v] ∧ (v.dev, v.core, v.cmdId, v.owner, v.off, v.data) = (dev, src, id, c, off, bs) := by
  obtain ⟨u, x, hu, hsame, harrive⟩ := State.winArrive_waits (v := windowWriteOf c off dev src id bs) htest bad
  have howner : x.owner = c := congrArg (fun p => p.2.2.2.1) hsame
  refine ⟨_, windowWrite_eq s hc off dev src id bs bad, ?_⟩
  rw [harrive]
  refine ⟨(u.addWait_mem x).trans hu.mem, ?_, fun d hd => ?_, { x with arr := (u.core x.owner).arrivals + 1 }, ?_, hsame⟩
  · rw [← howner, State.addWait_core, hu.core]
  · rw [State.addWait_other u x (howner ▸ hd), hu.core]
  · rw [State.addWait_waitw, hu.waitw]

variable (hgone : dev ≠ s.myDev ∨ (s.core src).cmd? id = none)
  (hfirst : ∀ v ∈ s.waitw, ¬ (v.dev = dev ∧ v.core = src ∧ v.owner = c)) (hheld : s.portsHeld c = false)
include hgone hfirst hheld

theorem windowWrite_refused (bad : Bool) {st : Nat} (htest : s.winTest c dev src off bs.length = .refused st) :
    ∃ t, exec (.windowWrite c off dev src id bs bad) s = .next t ∧ t.cores = s.cores ∧ t.mem = s.mem ∧ t.waitw = s.waitw := by
  obtain ⟨hcores, hmem, hwaitw⟩ := State.winArrive_isRefused (v := windowWriteOf c off dev src id bs)
    (State.behind_of_first rfl hfirst) hgone hheld htest bad
  exact ⟨_, windowWrite_eq s hc off dev src id bs bad, hcores, hmem, hwaitw⟩

/-- A write that passes its window's tests lands: its bytes, and the granules of the drawers it touches (09 R193, R194). -/
theorem windowWrite_lands (htest : s.winTest c dev src off bs.length = .landed) (hat : s.winAt c (off / drawerBytes) = some w) :
    ∃ t, exec (.windowWrite c off dev src id bs false) s = .next t
      ∧ t.readBytes (spBase c + off) bs.length = bs
      ∧ (∀ a, ¬ (spBase c + off ≤ a ∧ a < spBase c + off + bs.length) → t.readByte a = s.readByte a)
      ∧ (∀ d, (t.core c).drawer d = if d ∈ touched off bs.length then (s.win c w).recorded off bs.length d ((s.core c).drawer d)
          else (s.core c).drawer d)
      ∧ (∀ d, d ≠ c → t.core d = s.core d) ∧ t.waitw = s.waitw := by
  have hsame : ((s.perturb 7 c).winLand c off bs).sameWrites (s.winArrive (windowWriteOf c off dev src id bs) false) :=
    State.winArrive_lands (v := windowWriteOf c off dev src id bs) (State.behind_of_first rfl hfirst) hgone hheld htest
  have hp := s.perturb_sameWrites 7 c
  have hland := (s.perturb 7 c).winLand_landed c off bs
  have hat' : (s.perturb 7 c).winAt c (off / drawerBytes) = some w := by
    rw [State.winAt_congr fun w _ => s.perturb_win 7 c c w, hat]
  refine ⟨_, windowWrite_eq s hc off dev src id bs false, ?_, fun a ha => ?_, fun d => ?_, fun d hd => ?_, ?_⟩
  · rw [State.readBytes_congr fun i _ => hsame.readByte _]
    exact hland.readBytes
  · rw [hsame.readByte, hland.readByte_out ha, hp.readByte]
  · rw [hsame.core, State.winLand_of_winAt hat', State.modDrawers_drawer _ _ _ (touched_nodup ..), State.core_store,
      State.perturb_win, hp.core]
  · rw [hsame.core, hland.others d hd, hp.core]
  · rw [hsame.waitw, hland.waitw, hp.waitw]

end

/-! ### A write that has waited -/

/-- A waiting write stands behind earlier ones of its stream, earlier loads of its core, and earlier engine writers of its drawers
(09 R190). -/
def State.resumeBehind (s : State) (i : Nat) (v : WaitWrite) : Bool :=
  (s.waitw.take i).any (fun u => u.sameStream v) || s.behindLoad v || s.engineAhead v

theorem State.winResume_behind {i : Nat} (hi : s.waitw[i]? = some v) (h : s.resumeBehind i v = true) : s.winResume i = s := by
  rw [State.resumeBehind] at h
  simp only [State.winResume, hi, h, if_true]

theorem State.winResume_first {i : Nat} {r : WinRes} (hi : s.waitw[i]? = some v) (h : s.resumeBehind i v = false)
    (hr : s.winWrite v.owner v.dev v.core v.off v.data v.bad v.accepted = (u, r)) :
    (r = .landed → s.winResume i = State.winAnswer { u with waitw := u.waitw.eraseIdx i } v stOk)
    ∧ (r = .waits → s.portsHeld v.owner = true → s.winResume i = s) := by
  rw [State.resumeBehind] at h
  have hresume := State.winResume.eq_def s i
  rw [hi] at hresume
  dsimp only at hresume
  rw [if_neg (by rw [h]; decide), hr] at hresume
  refine ⟨?_, ?_⟩
  · rintro rfl
    exact hresume
  · rintro rfl hheld
    exact hresume.trans (if_pos hheld)

/-- A waiting write whose turn it is and that passes the tests lands and waits no longer. -/
theorem windowWriteResume_lands {i : Nat} (hi : s.waitw[i]? = some v) (hgone : s.writerGone v)
    (hstream : ∀ u ∈ s.waitw.take i, u.sameStream v = false) (hload : s.behindLoad v = false) (hengine : s.engineAhead v = false)
    (hheld : s.portsHeld v.owner = false) (hbad : v.bad = false) (hacc : v.accepted = false)
    (htest : s.winTest v.owner v.dev v.core v.off v.data.length = .landed) :
    ∃ t, exec (.windowWriteResume i) s = .next t ∧ t.waitw = s.waitw.eraseIdx i
      ∧ t.readBytes (spBase v.owner + v.off) v.data.length = v.data
      ∧ ∀ a, ¬ (spBase v.owner + v.off ≤ a ∧ a < spBase v.owner + v.off + v.data.length) → t.readByte a = s.readByte a := by
  have hfirst : s.resumeBehind i v = false := by
    rw [State.resumeBehind, hload, hengine, Bool.or_false, Bool.or_false, List.any_eq_false]
    exact fun u hu => by rw [hstream u hu]; decide
  have hr : s.winWrite v.owner v.dev v.core v.off v.data v.bad v.accepted = (s.winLand v.owner v.off v.data, .landed) := by
    rw [hbad, hacc]
    exact State.winWrite_landed hheld htest
  have hland := s.winLand_landed v.owner v.off v.data
  obtain ⟨u, hu⟩ : ∃ u, u = s.winLand v.owner v.off v.data := ⟨_, rfl⟩
  rw [← hu] at hr hland
  have hgone' : State.writerGone { u with waitw := u.waitw.eraseIdx i } v := (hgone.congr hland.myDev hland.queue :)
  have hsame := State.winAnswer_sameWrites hgone' stOk
  have hbyte : ∀ a, (State.winAnswer { u with waitw := u.waitw.eraseIdx i } v stOk).readByte a = u.readByte a := hsame.readByte
  refine ⟨_, congrArg Host.Outcome.next ((State.winResume_first hi hfirst hr).1 rfl), ?_, ?_, fun a ha => ?_⟩
  · rw [hsame.waitw, hland.waitw]
  · rw [State.readBytes_congr fun i _ => hbyte _]
    exact hland.readBytes
  · rw [hbyte, hland.readByte_out ha]

/-- A waiting write whose turn it is not goes on waiting. -/
theorem windowWriteResume_stays {i : Nat} (hi : s.waitw[i]? = some v)
    (h : (∃ u ∈ s.waitw.take i, u.sameStream v = true) ∨ s.behindLoad v = true ∨ s.engineAhead v = true ∨ s.portsHeld v.owner = true) :
    exec (.windowWriteResume i) s = .next s := by
  refine congrArg Host.Outcome.next (?_ : s.winResume i = s)
  cases hb : s.resumeBehind i v with
  | true => exact State.winResume_behind hi hb
  | false =>
    have hnot := hb
    simp only [State.resumeBehind, Bool.or_eq_false_iff, List.any_eq_false] at hnot
    obtain ⟨⟨hstream, hload⟩, hengine⟩ := hnot
    rcases h with ⟨u, hu, hsame⟩ | h | h | hheld
    · exact absurd hsame (hstream u hu)
    · exact absurd (h.symm.trans hload) (by decide)
    · exact absurd (h.symm.trans hengine) (by decide)
    · exact (State.winResume_first hi hb (State.winWrite_held hheld v.bad v.accepted)).2 rfl hheld

end Sys2Proof.Machine
end

section
/-!
SP_INJECT armed, a histogram slot cleared (09 R203; 07 R151), and the obligation about windows.
-/
namespace Sys2Proof.Machine

variable {s : State} {c : Nat}

/-! ### SP_INJECT -/

theorem spInjectArm_eq (s : State) (hc : c < 96) {d : Nat} (hd : d < 256) (req : Nat) :
    exec (.spInjectArm c d req) s = .next (s.spInjectWrite c (BitVec.ofNat 32 (256 + d)) req) := by
  have hrow : exec (.spInjectArm c d req) s = execSpInjectArm c d req s := rfl
  rw [hrow, execSpInjectArm, onCore, if_pos hc, Nat.mod_eq_of_lt hd]

/-- SP_INJECT is armed where the debug level permits it, and the write is refused elsewhere (09 R203; 21 R449). -/
theorem spInjectArm_row (s : State) (hc : c < 96) {d : Nat} (hd : d < 256) (req : Nat) :
    ∃ t, exec (.spInjectArm c d req) s = .next t
      ∧ (s.repairLevel = true → t.reg .spInject c = BitVec.ofNat 32 (256 + d) ∧ s.onlyRegs t [adr .spInject c 0])
      ∧ (s.repairLevel = false → s.refusedOnly t) := by
  refine ⟨_, spInjectArm_eq s hc hd req, ?_⟩
  unfold State.spInjectWrite
  cases s.repairLevel with
  | true =>
    rw [if_pos rfl]
    exact ⟨fun _ => ⟨State.reg_setReg .., (State.setReg_regsOnly ..).onlyRegs⟩, fun h => Bool.noConfusion h⟩
  | false =>
    rw [if_neg Bool.false_ne_true]
    exact ⟨fun h => Bool.noConfusion h, fun _ => State.refuseState_refusedOnly ..⟩

/-! ### Histograms -/

/-- A field written twice holds what was written last. -/
theorem putBits_putBits {n : Nat} (v : BitVec n) {hi lo : Nat} (x y : Nat) (hl : lo ≤ hi + 1) :
    putBits (putBits v hi lo x) hi lo y = putBits v hi lo y := by
  refine BitVec.eq_of_getLsbD_eq fun i hi' => ?_
  have hbits := bitOf_putBits (putBits v hi lo x) y hl hi'
  rw [bitOf_putBits v x hl hi'] at hbits
  refine hbits.trans ?_
  rw [← bitOf, bitOf_putBits v y hl hi']
  split <;> rfl

theorem histCfg_ne_histBin (c : Nat) {h : Nat} (hh : h < 16) (n : Nat) : RegKey.addr ⟨.histCfg, c, h⟩ ≠ RegKey.addr ⟨.histBin, c, n⟩ := by
  rw [RegKey.addr_eq .histCfg c h 4194304 1920 4 rfl rfl rfl, RegKey.addr_eq .histBin c n 4194304 8192 4 rfl rfl rfl]
  omega

theorem histBin_inj {c m n : Nat} (h : RegKey.addr ⟨.histBin, c, m⟩ = RegKey.addr ⟨.histBin, c, n⟩) : m = n := by
  rw [RegKey.addr_eq .histBin c m 4194304 8192 4 rfl rfl rfl, RegKey.addr_eq .histBin c n 4194304 8192 4 rfl rfl rfl] at h
  omega

/-- The state that a clear of a histogram slot leaves: CLEAR reads 0, WATCH is kept, the bins are zero. -/
def State.histCleared (s : State) (c h : Nat) : State :=
  (s.setReg .histCfg c h (putBits (s.reg .histCfg c h) 1 1 0)).clearBins c h 64

theorem histClear_eq (s : State) (hc : c < 96) {h : Nat} (hh : h < 16) : exec (.histClear c h) s = .next (s.histCleared c h) := by
  have hrow : exec (.histClear c h) s = execHistClear c h s := rfl
  have hclear : bitOf (putBits (s.reg .histCfg c h) 1 1 1) 1 = true := bitOf_putBits_self _ true (by decide)
  rw [hrow, execHistClear, if_pos ⟨hc, hh⟩, State.histCfgWrite, if_pos hclear, putBits_putBits _ _ _ (by decide)]
  rfl

/-- Clearing a histogram slot zeroes its bins and no other's, and keeps WATCH (07 R151). -/
theorem histClear_row (s : State) (hc : c < 96) {h : Nat} (hh : h < 16) :
    ∃ t, exec (.histClear c h) s = .next t ∧ (∀ i, i < 64 → t.reg .histBin c (64 * h + i) = 0)
      ∧ (∀ n, n < 1024 → ¬ (64 * h ≤ n ∧ n < 64 * h + 64) → t.reg .histBin c n = s.reg .histBin c n)
      ∧ t.reg .histCfg c h = putBits (s.reg .histCfg c h) 1 1 0 ∧ { t with regs := s.regs } = s := by
  have hregs := State.clearBins_regsOnly (s.setReg .histCfg c h (putBits (s.reg .histCfg c h) 1 1 0)) c h 64
  have hbins : ∀ {k : RegKey}, (∀ i, i < 64 → k.addr ≠ RegKey.addr ⟨.histBin, c, 64 * h + i⟩) →
      (s.histCleared c h).regK k = (s.setReg .histCfg c h (putBits (s.reg .histCfg c h) 1 1 0)).regK k := fun hk => by
    refine State.regK_congr (hregs.2 _ fun hmem => ?_)
    obtain ⟨i, hi, heq⟩ := List.mem_map.1 hmem
    exact hk i (List.mem_range.1 hi) heq.symm
  refine ⟨_, histClear_eq s hc hh, fun i hi => State.clearBins_bin _ c h hi, fun n _ hn => ?_, ?_, ?_⟩
  · have hout : ∀ i, i < 64 → RegKey.addr ⟨.histBin, c, n⟩ ≠ RegKey.addr ⟨.histBin, c, 64 * h + i⟩ := fun i hi heq => by
      have := histBin_inj heq
      omega
    exact (hbins hout).trans (s.reg_setReg_ne _ (histCfg_ne_histBin c hh n).symm)
  · exact (hbins fun i _ => histCfg_ne_histBin c hh _).trans (s.reg_setReg ..)
  · exact ((s.setReg_regsOnly .histCfg c h _).trans hregs).1

/-! ### The obligation -/

/-- Settles O21: opening, closing, the writes and the two registers row by row; a landed write's drawers are read from their records. -/
theorem windowsOpenCloseAndTakeWrites : Obligations.WindowsOpenCloseAndTakeWrites := by
  unfold Obligations.WindowsOpenCloseAndTakeWrites
  refine ⟨fun s c w x first count req hc hw hx hf hn hclosed hmay => windowOpen_opens hc hw hx hf hn req hclosed hmay,
    fun s c w x first count req hc hw hx hf hn h => windowOpen_refused hc hw hx hf hn req h,
    fun s c w req hc hw hopen => windowClose_closes hc hw hopen req, ?landed,
    fun s c off dev src id bs bad st hc hgone hfirst hheld htest => windowWrite_refused hc hgone hfirst hheld bad htest,
    fun s c off dev src id bs bad hc htest => windowWrite_waits hc bad htest,
    fun s i v hi hgone hstream hload hengine hheld hbad hacc htest =>
      windowWriteResume_lands hi hgone hstream hload hengine hheld hbad hacc htest,
    fun s i v hi h => windowWriteResume_stays hi h,
    fun s c d req hc hd => spInjectArm_row s hc hd req,
    fun s c h hc hh => histClear_row s hc hh⟩
  case landed =>
    intro s c off dev src id bs w hc hgone hfirst hheld htest hat
    obtain ⟨t, hexec, hbytes, hout, hdrawer, hothers, hwaitw⟩ := windowWrite_lands hc hgone hfirst hheld htest hat
    refine ⟨t, hexec, hbytes, hout, fun d hd => ?_, fun d hd => ?_, hothers, hwaitw⟩
    · rw [hdrawer, if_pos hd]
      exact ⟨Drawer.record_gran .., Drawer.record_tag ..⟩
    · rw [hdrawer, if_neg hd]

end Sys2Proof.Machine
end

section
/-!
The command format (10 R209, R210): a command and its 32 bytes, its fields and its words, and the commands that no decode accepts.
-/
namespace Sys2Proof.Machine

/-! ### A command and its bytes -/

theorem Cmd.bytes_length (c : Cmd) : c.bytes.length = 32 := by
  simp [Cmd.bytes, natLE_length]

/-- A word reads back from its eight bytes. -/
theorem leNat_natLE_word (v : W64) : BitVec.ofNat 64 (leNat (natLE 8 v.toNat)) = v := by
  have hv : v.toNat < 256 ^ 8 := v.isLt
  rw [leNat_natLE, Nat.mod_eq_of_lt hv, BitVec.ofNat_toNat, BitVec.setWidth_eq]

theorem Cmd.ofBytes_bytes (c : Cmd) : Cmd.ofBytes c.bytes = c := by
  have hpast : ∀ (v : W64) (n : Nat), 8 ≤ n → (natLE 8 v.toNat).drop n = [] := fun v n hn =>
    List.drop_eq_nil_of_le (by rw [natLE_length]; exact hn)
  have hall : ∀ v : W64, (natLE 8 v.toNat).take 8 = natLE 8 v.toNat := fun v => List.take_of_length_le (natLE_length 8 _).le
  simp [Cmd.ofBytes, Cmd.bytes, List.drop_append, natLE_length, hpast, hall, leNat_natLE_word]

/-! ### The fields of an encoded command -/

theorem encodeCmd_fields (op : Opcode) (f : CmdFields) : (encodeCmd op f).fields = f := by
  have hsense : (encodeCmd op f).w0.getLsbD 46 = f.psense := encodeCmd_psense op f
  unfold Cmd.fields
  rw [hsense]
  unfold encodeCmd
  dsimp only
  repeat first | rw [extract_append_high _ _ _ _ (by decide)] | rw [extract_append_low _ _ _ _ (by decide)]
  simp

/-- Fields side by side are the words they were cut from, where the operation has the code and the engine that the command names. -/
theorem Cmd.encodeCmd_fields_of (c : Cmd) {op : Opcode} (hcode : c.opcode = op.code) (heng : c.engine = op.engine)
    (hbit : bitOf c.w0 45 = false) : encodeCmd op c.fields = c := by
  have hop : BitVec.ofNat 10 op.code = c.w0.extractLsb' 54 10 := by
    rw [← hcode, Cmd.opcode, bits_eq_extract, BitVec.ofNat_toNat, BitVec.setWidth_eq]
  have hen : BitVec.ofNat 4 op.engine = c.w0.extractLsb' 50 4 := by
    rw [← heng, Cmd.engine, bits_eq_extract, BitVec.ofNat_toNat, BitVec.setWidth_eq]
  have hbits : ∀ i, BitVec.ofBool (c.w0.getLsbD i) = c.w0.extractLsb' i 1 := fun i => by
    apply BitVec.eq_of_getLsbD_eq
    intro j hj
    simp [show j = 0 by omega]
  have hzero : 0#1 = c.w0.extractLsb' 45 1 := by
    rw [← hbits, ← bitOf, hbit]
    rfl
  obtain ⟨w0, w1, w2, w3⟩ := c
  unfold encodeCmd Cmd.fields
  simp (disch := decide) only [hop, hen, hbits, hzero, BitVec.extractLsb'_append_extractLsb'_eq_extractLsb']
  simp

/-! ### What decodes -/

/-- The decode checks as one condition on the fields (10 R210). -/
theorem decodeChecks_eq_some_iff (c : Cmd) (op : Opcode) : decodeChecks c = some op ↔
    c.op? = some op ∧ op.engine = c.engine ∧ bitOf c.w0 45 = false ∧ c.sigMode < 4 ∧ (c.sigMode = 0 ∨ c.sigDelta ≠ 0)
      ∧ ¬ (c.waitA.cond = 3 ∧ c.waitB.cond = 3 ∧ c.waitA.ctr = c.waitB.ctr) := by
  unfold decodeChecks
  cases hop : c.op? with
  | none => simp
  | some o =>
    dsimp only
    grind

theorem Opcode.code_of_ofCode {n : Nat} {op : Opcode} (h : Opcode.ofCode n = some op) : op.code = n := by
  have hfound := List.find?_some h
  exact beq_iff_eq.1 hfound

/-- What decodes is the encoding of what it decodes to. -/
theorem encodeCmd_of_decodeCmd {c : Cmd} {op : Opcode} {f : CmdFields} (h : decodeCmd c = some (op, f)) : encodeCmd op f = c := by
  obtain ⟨o, hchecks, heq⟩ := Option.map_eq_some_iff.1 h
  obtain ⟨rfl, rfl⟩ := Prod.mk.inj heq
  obtain ⟨hop, heng, hbit, -⟩ := (decodeChecks_eq_some_iff c o).1 hchecks
  exact c.encodeCmd_fields_of (Opcode.code_of_ofCode hop).symm heng.symm hbit

/-- Illegal fields: SIG_MODE above 3, a signal that adds nothing, two CLAIMs of one counter (10 R210). -/
def CmdFields.illegal (f : CmdFields) : Prop :=
  4 ≤ f.sigMode.toNat ∨ (f.sigMode ≠ 0 ∧ f.sigDelta = 0) ∨ (f.waitA.cond = 3 ∧ f.waitB.cond = 3 ∧ f.waitA.ctr = f.waitB.ctr)

theorem decodeChecks_illegal (op : Opcode) {f : CmdFields} (h : CmdFields.illegal f) : decodeChecks (encodeCmd op f) = none := by
  rw [Option.eq_none_iff_forall_ne_some]
  intro o ho
  obtain ⟨-, -, -, hmode, hdelta, hclaims⟩ := (decodeChecks_eq_some_iff _ o).1 ho
  rw [encodeCmd_sigMode] at hmode hdelta
  rw [encodeCmd_sigDelta] at hdelta
  rw [encodeCmd_waitA, encodeCmd_waitB] at hclaims
  rcases h with h | ⟨hm, hd⟩ | ⟨ha, hb, hc⟩
  · omega
  · rcases hdelta with h0 | h0
    · exact hm (BitVec.eq_of_toNat_eq h0)
    · exact h0 (by rw [hd]; rfl)
  · exact hclaims ⟨by rw [ha]; rfl, by rw [hb]; rfl, by rw [hc]⟩

/-! ### The obligation -/

/-- Settles O58: fields and words determine each other, and the decode checks are one condition on the fields. -/
theorem streamCommandsDecodeAndEncode : Obligations.StreamCommandsDecodeAndEncode := by
  unfold Obligations.StreamCommandsDecodeAndEncode
  refine ⟨fun op f hmode hdelta hclaims => ⟨Cmd.bytes_length _, ?_⟩, fun c op f h => ⟨encodeCmd_of_decodeCmd h, Cmd.ofBytes_bytes c⟩,
    fun op f h => ?_⟩
  · rw [Cmd.ofBytes_bytes, decodeCmd, encodeCmd_checks op f hmode hdelta hclaims, Option.map_some, encodeCmd_fields]
  · rw [decodeCmd, decodeChecks_illegal op h, Option.map_none]

/-- Settles O55: a step takes the queue's front, and on an empty queue the time that passes is one cycle and its trim. -/
theorem stepRunsTheFrontOfTheQueue : Obligations.StepRunsTheFrontOfTheQueue := by
  unfold Obligations.StepRunsTheFrontOfTheQueue
  refine ⟨fun s c cs h => ?_, fun _ _ => rfl, fun s h => ?_⟩
  · rw [step, h]
  · have hstep : step s = .next s.tick := by rw [step, h]
    exact hstep

end Sys2Proof.Machine
end

section
/-!
Control-core commands that change one context or one table of their core (11, control-core opcodes): the fields they read, the checks
they pass, what a quiet core is once one has completed, and the obligations about predicates, branches, counters, descriptors and tags.
-/
namespace Sys2Proof.Machine

variable {s t : State} {c x : Nat} {op : Opcode} {f : CmdFields}

/-! ### Fields of OPA -/

@[simp] theorem encodeCmd_rd (op : Opcode) (f : CmdFields) : (encodeCmd op f).rd = f.rd := encodeCmd_opa op f 34 30 (by decide)
@[simp] theorem encodeCmd_rb (op : Opcode) (f : CmdFields) : (encodeCmd op f).rb = f.rb := encodeCmd_opa op f 24 20 (by decide)
@[simp] theorem encodeCmd_ib (op : Opcode) (f : CmdFields) : (encodeCmd op f).ib = f.ib :=
  congrArg (· == 1) (encodeCmd_opa op f 19 19 (by decide))
@[simp] theorem encodeCmd_fn (op : Opcode) (f : CmdFields) : (encodeCmd op f).fn = f.fn := encodeCmd_opa op f 18 15 (by decide)
@[simp] theorem encodeCmd_cnt (op : Opcode) (f : CmdFields) : (encodeCmd op f).cnt = f.cnt := encodeCmd_opa op f 6 0 (by decide)

theorem Ctx.opB_encodeCmd (y : Ctx) (op : Opcode) (f : CmdFields) : y.opB (encodeCmd op f) = f.operandB y := by
  simp [Ctx.opB, CmdFields.operandB]

/-! ### Checks -/

theorem firstFail_of_all {cs : List (Bool × Nat)} (h : ∀ e ∈ cs, e.1 = true) : firstFail cs = none := by
  induction cs with
  | nil => rfl
  | cons e cs ih =>
    obtain ⟨he, hcs⟩ := List.forall_mem_cons.1 h
    rw [firstFail, he]
    exact ih hcs

theorem Plan.checks_of_all {cs : List (Bool × Nat)} (p : Plan) (h : ∀ e ∈ cs, e.1 = true) : Plan.checks cs p = p := by
  rw [Plan.checks, firstFail_of_all h]

theorem State.arrived_context (w : Cmd) :
    (s.arrived c x w).context c x = { (s.context c x) with pc := (s.context c x).pc + 32 } := by
  simp [State.arrived, State.context, Core.context, Core.setContext]

theorem State.claimed_context (w : Cmd) :
    (s.claimed c x w).context c x = { (s.context c x) with pc := (s.context c x).pc + 32 } := by
  simp [State.claimed, State.arrived, State.context, Core.context, Core.setContext]

/-- The two states in which the issue checks of a command run: as it has arrived, and once its claims are taken (10 R214). -/
def State.checkedIn (s : State) (c x : Nat) (w : Cmd) (u : State) : Prop := u = s.arrived c x w ∨ u = s.claimed c x w

theorem State.checkedIn.context {w : Cmd} {u : State} (h : s.checkedIn c x w u) :
    u.context c x = { (s.context c x) with pc := (s.context c x).pc + 32 } := by
  rcases h with rfl | rfl
  · exact State.arrived_context w
  · exact State.claimed_context w

theorem State.checkedIn.modeM {w : Cmd} {u : State} (h : s.checkedIn c x w u) (d : Nat) : u.modeM d = s.modeM d := by
  rcases h with rfl | rfl <;> rfl

/-- A command whose plan asks for nothing passes its checks. -/
theorem State.passes_of_empty (h : ∀ u, s.checkedIn c x (encodeCmd op f) u → planOf op u c (s.entry c x (encodeCmd op f)) = {}) :
    s.Passes c x op f ∧ (s.plan c x op f).peer = none := by
  have harrived := h _ (Or.inl rfl)
  have hclaimed : s.plan c x op f = {} := h _ (Or.inr rfl)
  refine ⟨⟨?_, ?_⟩, ?_⟩
  · rw [harrived]
    decide
  · rw [hclaimed]
  · rw [hclaimed]

/-! ### The row of a plain control-core command -/

/-- A control-core command that does all it does at its completion, on its own core, and writes no header it planned. -/
def Opcode.plainControl (op : Opcode) : Prop :=
  op.engine = 0 ∧ op ≠ .barrier ∧ op ≠ .endStream ∧ op ≠ .rsig ∧ op ≠ .hdrop ∧ op ≠ .lsdecide

/-- A control-core command that changes its context alone: the row completes, and the rest of the core and of the state stands. -/
theorem State.Quiet.context_effect (hq : s.Quiet c x) (ht : s.Takes c x op f) (hpass : s.Passes c x op f ∧ (s.plan c x op f).peer = none)
    (hop : op.plainControl) (hready : controlReady (s.posted c x op f) c (s.issuedEntry c x op f) = true) (h : Ctx → Ctx) {pc : Nat}
    (hrun : runControl op (s.begun c x op f) c (s.startedEntry c x op f) = ((s.begun c x op f).modContext c x h, stOk))
    (hpc : (h { (s.context c x) with pc := (s.context c x).pc + 32 }).pc = pc)
    (hst : (h { (s.context c x) with pc := (s.context c x).pc + 32 }).st = .running) :
    (s.runWord c x (encodeCmd op f)).context c x = h { (s.context c x) with pc := (s.context c x).pc + 32 }
    ∧ (s.core c).sameStore ((s.runWord c x (encodeCmd op f)).core c)
    ∧ s.Done (s.runWord c x (encodeCmd op f)) c x f pc .running (s.core c).counter ∧ s.Kept (s.runWord c x (encodeCmd op f)) := by
  obtain ⟨he, hb, hn, hr, hd, hl⟩ := hop
  have hown : ∀ cs, (s.frontCore c x op f cs).context x = { (s.context c x) with pc := (s.context c x).pc + 32 } := fun cs => by
    rw [State.frontCore_context, if_pos rfl]
  obtain ⟨t, cs, rfl, hcore, hdone, hkept⟩ := hq.control_on ht hpass.1 he hb hn hr hd hl hready hpass.2
    (fun k => k.setContext x (h (k.context x))) pc hrun (fun cs => rfl)
    (fun cs => by rw [Core.context_setContext, hown, hpc]) (fun cs => by rw [Core.context_setContext, hown, hst])
    (fun cs y hy => by rw [Core.context_setContext_ne _ _ hy, State.frontCore_context, if_neg hy])
    (s.core c).counter (fun cs hcs n => hcs n)
  refine ⟨?_, ?_, hdone, hkept⟩
  · rw [State.context, hcore.context]
    refine (Core.context_setContext (s.frontCore c x op f cs) x _).trans ?_
    rw [hown]
  · refine Core.sameStore.trans ?_ hcore.sameStore
    exact ⟨rfl, rfl, rfl, rfl, rfl⟩

/-- A control-core command other than END, DRTAG and BARRIER takes effect as soon as it has issued. -/
theorem controlReady_of_plain (hn : op ≠ .endStream) (hd : op ≠ .drtag) (hb : op ≠ .barrier) (u : State) :
    controlReady u c (s.issuedEntry c x op f) = true := by
  have hcmd : (s.issuedEntry c x op f).cmd = encodeCmd op f := rfl
  unfold controlReady
  rw [hcmd, encodeCmd_op?]
  cases op <;> first | rfl | contradiction

/-! ### Functions of PSET and PLOG -/

theorem psetFn_isSome {fn : Nat} (h : fn ≤ 8) (a b : W64) : (psetFn fn a b).isSome = true := by
  interval_cases fn <;> rfl

theorem plogFn_isSome {fn : Nat} (h : fn ≤ 3) (a b : Bool) : (plogFn fn a b).isSome = true := by
  interval_cases fn <;> rfl

/-- PSET's function is the comparison FN names. -/
theorem psetValue_psetFn {fn : Nat} (h : fn ≤ 8) (a b : W64) : psetValue fn a b ((psetFn fn a b).getD false) := by
  unfold psetValue
  interval_cases fn <;> simp [psetFn, BitVec.ult, BitVec.slt] <;> grind

theorem plogValue_plogFn {fn : Nat} (h : fn ≤ 3) (a b : Bool) : plogValue fn a b ((plogFn fn a b).getD false) := by
  unfold plogValue
  interval_cases fn <;> simp [plogFn]

/-! ### PSET, PLOG, BRA and BRR -/

/-- A command that writes one predicate and passes its checks (10 R211). -/
theorem State.Quiet.predicate_row (hq : s.Quiet c x) (ht : s.Takes c x op f) (hop : op = .pset ∨ op = .plog)
    (hpass : s.Passes c x op f ∧ (s.plan c x op f).peer = none) (v : Ctx → Bool)
    (hrun : runControl op (s.begun c x op f) c (s.startedEntry c x op f)
      = ((s.begun c x op f).modContext c x (fun y => y.setPred f.pd (v y)), stOk)) :
    ((s.runWord c x (encodeCmd op f)).context c x).pred f.pd
      = (f.pd == 0 || v { (s.context c x) with pc := (s.context c x).pc + 32 })
    ∧ (s.context c x).onlyPred ((s.runWord c x (encodeCmd op f)).context c x) f.pd
    ∧ s.scalarFrame (s.runWord c x (encodeCmd op f)) c x f := by
  have hplain : op.plainControl ∧ op ≠ .endStream ∧ op ≠ .drtag ∧ op ≠ .barrier := by
    rcases hop with rfl | rfl <;> exact ⟨by unfold Opcode.plainControl; decide, by decide, by decide, by decide⟩
  obtain ⟨hplain, hn, hd, hb⟩ := hplain
  have hst : ∀ (y : Ctx) (b : Bool), (y.setPred f.pd b).st = y.st ∧ (y.setPred f.pd b).pc = y.pc := by
    intro y b
    unfold Ctx.setPred
    split <;> exact ⟨rfl, rfl⟩
  obtain ⟨hctx, hstore, hdone, hkept⟩ := hq.context_effect ht hpass hplain (controlReady_of_plain hn hd hb _) _ hrun (hst _ _).2
    ((hst _ _).1.trans hq.running)
  rw [hctx]
  refine ⟨Ctx.pred_setPred _ _ (CmdFields.pd_lt f), ⟨fun n => ?_, fun n hne => ?_⟩, hstore, hdone, hkept⟩
  · rw [Ctx.reg_setPred]
    rfl
  · rw [Ctx.pred_setPred_ne _ _ hne]
    rfl

/-- A branch to a legal target (10 R219). -/
theorem State.Quiet.branch_row (hq : s.Quiet c x) (ht : s.Takes c x op f) (hop : op = .bra ∨ op = .brr) {target : Nat}
    (htarget : ∀ y : Ctx, y.s = (s.context c x).s → branchTarget op y (encodeCmd op f) = target)
    (halign : target % 32 = 0) (hhbm : inHbm target = true) :
    s.branched (s.runWord c x (encodeCmd op f)) c x f target := by
  have hplain : op.plainControl ∧ op ≠ .endStream ∧ op ≠ .drtag ∧ op ≠ .barrier := by
    rcases hop with rfl | rfl <;> exact ⟨by unfold Opcode.plainControl; decide, by decide, by decide, by decide⟩
  obtain ⟨hplain, hn, hd, hb⟩ := hplain
  have hpass : s.Passes c x op f ∧ (s.plan c x op f).peer = none := by
    refine State.passes_of_empty fun u hu => ?_
    have hplan : planOf op u c (s.entry c x (encodeCmd op f))
        = .checks [(branchOk (branchTarget op (u.context c x) (encodeCmd op f)), stAlign)] {} := by
      rcases hop with rfl | rfl <;> rfl
    rw [hplan]
    refine Plan.checks_of_all _ ?_
    have hu' : branchTarget op (u.context c x) (encodeCmd op f) = target := htarget _ (by rw [hu.context])
    simp [hu', branchOk, halign, hhbm]
  have hbegun : branchTarget op ((s.begun c x op f).context c x) (encodeCmd op f) = target :=
    htarget _ (by rw [State.begun_context (by rw [hplain.1]; decide) hplain.2.2.2.1, if_pos rfl])
  have hrun : runControl op (s.begun c x op f) c (s.startedEntry c x op f)
      = ((s.begun c x op f).modContext c x (fun y => { y with pc := target }), stOk) := by
    rw [← hbegun]
    rcases hop with rfl | rfl <;> rfl
  obtain ⟨hctx, hstore, hdone, hkept⟩ := hq.context_effect ht hpass hplain (controlReady_of_plain hn hd hb _) _ hrun rfl hq.running
  exact ⟨hctx, hstore, hdone, hkept⟩

/-- Settles O2: each command changes its context alone, and what it makes of the context is read off. -/
theorem predicatesAndBranches : Obligations.PredicatesAndBranches := by
  unfold Obligations.PredicatesAndBranches
  refine ⟨fun s c x f hq ht hfn => ⟨_, hq.runRow_eq, ?_⟩, fun s c x f hq ht hfn => ⟨_, hq.runRow_eq, ?_⟩,
    fun s c x f hq ht hpre => ⟨_, hq.runRow_eq, ?_⟩, fun s c x f hq ht hpre => ⟨_, hq.runRow_eq, ?_⟩⟩
  · have hpass := State.passes_of_empty (s := s) (c := c) (x := x) (op := .pset) (f := f) fun u _ => Plan.checks_of_all _ (by
      simp [State.entry, psetFn_isSome hfn])
    have hrun := hq.predicate_row ht (Or.inl rfl) hpass
      (fun y => (psetFn f.fn (y.reg f.ra) (f.operandB y)).getD false) (by
        simp only [runControl, State.startedEntry_cmd, encodeCmd_pd, encodeCmd_ra, encodeCmd_fn, Ctx.opB_encodeCmd]
        rfl)
    exact ⟨⟨_, psetValue_psetFn hfn _ _, hrun.1⟩, hrun.2⟩
  · have hpass := State.passes_of_empty (s := s) (c := c) (x := x) (op := .plog) (f := f) fun u _ => Plan.checks_of_all _ (by
      simp [State.entry, plogFn_isSome hfn])
    have hrun := hq.predicate_row ht (Or.inr rfl) hpass
      (fun y => (plogFn f.fn (y.pred (f.ra % 8)) (y.pred (f.rb % 8))).getD false) (by
        simp only [runControl, State.startedEntry_cmd, encodeCmd_pd, encodeCmd_ra, encodeCmd_rb, encodeCmd_fn]
        rfl)
    exact ⟨⟨_, plogValue_plogFn hfn _ _, hrun.1⟩, hrun.2⟩
  · exact hq.branch_row ht (Or.inl rfl) (fun y _ => rfl) hpre.1 hpre.2
  · refine hq.branch_row ht (Or.inr rfl) (fun y hy => ?_) hpre.1 hpre.2
    simp only [branchTarget, encodeCmd_ra, Ctx.reg, hy]

end Sys2Proof.Machine
end

section
/-!
NOP, END, CADD, CRD, DESCWR and DRTAG (10 R208, R231; 12 R249; 09 R191): what each one's effect is, and the obligation about them.
-/
namespace Sys2Proof.Machine

variable {s t : State} {c x : Nat} {op : Opcode} {f : CmdFields}

/-- The row of a plain control-core command on a quiet core: its effect, completed. -/
theorem State.Quiet.plain_row (hq : s.Quiet c x) (ht : s.Takes c x op f) (hp : s.Passes c x op f) (hop : op.plainControl)
    (hready : controlReady (s.posted c x op f) c (s.issuedEntry c x op f) = true) {u : State}
    (hrun : runControl op (s.begun c x op f) c (s.startedEntry c x op f) = (u, stOk)) :
    s.runWord c x (encodeCmd op f) = u.complete c (s.startedEntry c x op f) stOk := by
  obtain ⟨he, hb, hn, hr, hd, -⟩ := hop
  rw [hq.control ht hp he hb hn hr hd hready, hrun]

/-- A completed effect that touches no context leaves the context with its program counter moved on. -/
theorem State.Quiet.completed_context (he : op.engine < 4) (hr : op ≠ .rsig) {u : State} (hpeer : (s.plan c x op f).peer = none)
    (hu : u.context c x = (s.begun c x op f).context c x) :
    (u.complete c (s.startedEntry c x op f) stOk).context c x = { (s.context c x) with pc := (s.context c x).pc + 32 } := by
  rw [(State.complete_keepsWork (by decide) (by decide) hpeer).context, hu, State.begun_context he hr, if_pos rfl]

/-- A completion on a core where no drawer closes leaves the drawers as the effect left them. -/
theorem State.complete_ok_drawers {q : QCmd} {t : State} (hp : q.peer = none) (h : ∀ d, ((t.core c).drawer d).closing = false) (d : Nat) :
    ((t.complete c q stOk).core c).drawer d = (t.core c).drawer d := by
  have hdropped : ∀ d, ((t.dropped c q stOk).core c).drawer d = (t.core c).drawer d := fun d => by
    rw [State.dropped_core]
    split <;> rfl
  rw [State.complete_ok t c q hp, State.settleClosing_none _ _ fun d => by rw [hdropped, h], hdropped]

/-! ### NOP -/

theorem State.Quiet.nop_row (hq : s.Quiet c x) (ht : s.Takes c x .nop f) :
    (s.runWord c x (encodeCmd .nop f)).context c x = { (s.context c x) with pc := (s.context c x).pc + 32 }
    ∧ s.scalarFrame (s.runWord c x (encodeCmd .nop f)) c x f := by
  obtain ⟨hp, hpeer⟩ := State.passes_of_empty (s := s) (c := c) (x := x) (op := .nop) (f := f) fun _ _ => rfl
  have hwork := State.complete_keepsWork (t := s.begun c x .nop f) (c := c) (q := s.startedEntry c x .nop f) (st := stOk)
    (by decide) (by decide) hpeer
  rw [hq.plain_row ht hp (by unfold Opcode.plainControl; decide)
    (controlReady_of_plain (by decide) (by decide) (by decide) _) rfl]
  refine ⟨State.Quiet.completed_context (by decide) (by decide) hpeer rfl, ?_, ?_, ?_⟩
  · exact (State.begun_sameStore (by decide) (by decide)).trans hwork.store
  · exact State.begun_done ht (by decide) (by decide) hq rfl hpeer
  · exact (State.begun_kept (by decide) (by decide) (by decide)).trans (State.complete_kept _ c _ hpeer)

/-! ### END -/

/-- A stream that ends on a context where no job runs first ends no job (10 R231; 16 R355). -/
theorem State.streamEnded_none (h : ∀ p ∈ s.placed, p.ctxs.head? ≠ some (4 * c + x)) : s.streamEnded c x = s := by
  have hnone : s.placed.find? (fun p => p.ctxs.head? == some (4 * c + x)) = none :=
    List.find?_eq_none.2 fun p hp => by simpa using h p hp
  rw [State.streamEnded, hnone]

theorem State.butCores.placed {s t : State} (h : s.butCores t) : s.placed = t.placed := by
  have : ({ s with cores := [], regs := [], peen := [] } : State).placed = ({ t with cores := [], regs := [], peen := [] } : State).placed := by
    rw [h]
  exact this

/-- A quiet core with END at its start, its context IDLE. -/
def State.ended (s : State) (c x : Nat) (f : CmdFields) : State :=
  (s.begun c x .endStream f).modContext c x (fun y => { y with st := if y.st = .running then .idle else y.st })

theorem State.ended_context (hq : s.Quiet c x) (y : Nat) : (s.ended c x f).context c y
    = if y = x then { (s.context c x) with pc := (s.context c x).pc + 32, st := .idle } else s.context c y := by
  unfold State.ended State.modContext State.context
  rw [State.core_modCore]
  by_cases hy : y = x
  · subst hy
    rw [Core.context_setContext, if_pos rfl, ← State.context, State.begun_context (by decide) (by decide), if_pos rfl]
    dsimp only
    rw [if_pos hq.running]
    rfl
  · rw [Core.context_setContext_ne _ _ hy, ← State.context, State.begun_context (by decide) (by decide), if_neg hy, if_neg hy]
    rfl

theorem State.complete_rest {q : QCmd} (t : State) (c : Nat) (hp : q.peer = none) : (t.complete c q stOk).butCores t := by
  rw [State.complete_ok t c q hp]
  exact (State.butCores.of_settle _ c).trans (State.dropped_rest t c q stOk)

/-- The row of END on a quiet core: the context stands IDLE, and the command completes. -/
theorem State.Quiet.end_row (hq : s.Quiet c x) (ht : s.Takes c x .endStream f) (hpl : ∀ p ∈ s.placed, p.ctxs.head? ≠ some (4 * c + x)) :
    s.runWord c x (encodeCmd .endStream f) = (s.ended c x f).complete c (s.startedEntry c x .endStream f) stOk := by
  obtain ⟨hp, hpeer⟩ := State.passes_of_empty (s := s) (c := c) (x := x) (op := .endStream) (f := f) fun _ _ => rfl
  have hready : controlReady (s.posted c x .endStream f) c (s.issuedEntry c x .endStream f) = true := by
    have hposted : ((s.posted c x .endStream f).core c).q = [s.issuedEntry c x .endStream f] := State.issued_q (by decide)
    have hcmd : (s.issuedEntry c x .endStream f).cmd.op? = some .endStream := encodeCmd_op? _ _
    simp [controlReady, hcmd, hposted]
  have hq1 : ((s.ended c x f).core c).q = [s.startedEntry c x .endStream f] :=
    (congrArg Core.q (State.core_modCore ..)).trans (State.begun_q (by decide) (by decide))
  have hrest : (s.ended c x f).butCores s := (State.modCore_rest _ c _).trans ((State.modCore_rest _ c _).trans (State.issued_rest (by decide)))
  have hplaced : ((s.ended c x f).complete c (s.startedEntry c x .endStream f) stOk).placed = s.placed :=
    ((State.complete_rest _ c hpeer).trans hrest).placed
  have hcommit : (s.begun c x .endStream f).tryCommit c ((s.core c).serial + 1)
      = (s.ended c x f).complete c (s.startedEntry c x .endStream f) stOk := by
    have hfind : ((s.begun c x .endStream f).core c).cmd? ((s.core c).serial + 1) = some (s.startedEntry c x .endStream f) := by
      rw [Core.cmd?, State.begun_q (by decide) (by decide)]
      simp
    have hlive : (s.begun c x .endStream f).coreLive c = true := by rw [State.begun_coreLive (by decide) (by decide), hq.live]
    have hstage : (s.startedEntry c x .endStream f).stage = .started := rfl
    have heng : (s.startedEntry c x .endStream f).eng = 0 := State.issuedEntry_eng (s := s) (c := c) (x := x)
    have hbehind : tmulBehind (s.begun c x .endStream f) c (s.startedEntry c x .endStream f) = false := by
      have hq0 := State.begun_q (s := s) (c := c) (x := x) (op := .endStream) (f := f) (by decide) (by decide)
      simp [tmulBehind, hq0]
    unfold State.tryCommit
    rw [hfind]
    simp only [State.entry_op, hstage, hlive, hbehind, Bool.not_false, and_self, if_true]
    unfold State.commitCmd State.endOfStream
    simp only [heng, if_true]
    exact State.streamEnded_none (s := (s.ended c x f).complete c (s.startedEntry c x .endStream f) stOk) (by rw [hplaced]; exact hpl)
  rw [hq.runWord_eq ht hp (by decide), if_pos (by decide)]
  have hstart := hq.tryStart_control (f := f) (op := .endStream) (by decide) (by decide) hready
  unfold State.posted at hstart
  rw [hstart, State.commitAll_succ, hcommit]
  apply State.commitAll_gone
  rw [Core.cmd?, State.complete_q _ _ _ _ (by decide) (by decide) hq1]
  rfl

theorem State.ended_done (hq : s.Quiet c x) (ht : s.Takes c x .endStream f) :
    s.Done ((s.ended c x f).complete c (s.startedEntry c x .endStream f) stOk) c x f ((s.context c x).pc + 32) .idle (s.core c).counter := by
  obtain ⟨cs, hcore, hcs⟩ := State.begun_core (s := s) (c := c) (x := x) (op := .endStream) (f := f) (by decide) (by decide)
  refine State.complete_done _ _ _ _ ?_ rfl (by simp) (by simp) ?_ ?_ (fun d hd => ?_) (fun y hy => ?_) (by simp) ht.mode _ fun n => ?_
  · exact (congrArg Core.q (State.core_modCore ..)).trans (State.begun_q (by decide) (by decide))
  · rw [State.ended_context hq, if_pos rfl]
  · rw [State.ended_context hq, if_pos rfl]
  · rw [State.ended, State.modContext, State.core_modCore_ne _ _ hd, State.begun_other (by decide) (by decide) hd]
  · rw [State.ended_context hq, if_neg hy]
  · rw [State.ended, State.modContext, State.core_modCore, hcore]
    exact hcs n

/-! ### CADD, CRD and DESCWR -/

/-- A core with one descriptor written (12 R249). -/
def Core.withDesc (k : Core) (n : Nat) (v : BitVec 320) : Core := { k with descs := Tab.set 0 k.descs n v }

theorem Core.withDesc_context (k : Core) (n : Nat) (v : BitVec 320) (y : Nat) : (k.withDesc n v).context y = k.context y := rfl

/-- A control-core command that changes tables of its core and no context: the row completes, the program counter moved on. -/
theorem State.Quiet.core_effect (hq : s.Quiet c x) (ht : s.Takes c x op f) (hpass : s.Passes c x op f ∧ (s.plan c x op f).peer = none)
    (hop : op.plainControl) (hready : controlReady (s.posted c x op f) c (s.issuedEntry c x op f) = true) (g : Core → Core) {k : Nat → W16}
    (hrun : runControl op (s.begun c x op f) c (s.startedEntry c x op f) = ((s.begun c x op f).modCore c g, stOk))
    (hgq : ∀ l, (g l).q = l.q) (hgx : ∀ l y, (g l).context y = l.context y)
    (hgn : ∀ cs, (∀ n, Tab.get 0 cs n = (s.core c).counter n - f.claims n + CmdFields.early f n) →
      ∀ n, (g (s.frontCore c x op f cs)).counter n = k n - f.claims n + CmdFields.early f n) :
    ∃ cs, ((s.runWord c x (encodeCmd op f)).core c).butDrawers
        { (g (s.frontCore c x op f cs)) with q := [], counters := ((s.runWord c x (encodeCmd op f)).core c).counters }
      ∧ (s.runWord c x (encodeCmd op f)).context c x = { (s.context c x) with pc := (s.context c x).pc + 32 }
      ∧ s.Done (s.runWord c x (encodeCmd op f)) c x f ((s.context c x).pc + 32) .running k ∧ s.Kept (s.runWord c x (encodeCmd op f)) := by
  obtain ⟨he, hb, hn, hr, hd, hl⟩ := hop
  have hown : ∀ cs, (g (s.frontCore c x op f cs)).context x = { (s.context c x) with pc := (s.context c x).pc + 32 } := fun cs => by
    rw [hgx, State.frontCore_context, if_pos rfl]
  obtain ⟨t, cs, rfl, hcore, hdone, hkept⟩ := hq.control_on ht hpass.1 he hb hn hr hd hl hready hpass.2 g ((s.context c x).pc + 32) hrun
    (fun cs => hgq _) (fun cs => by rw [hown]) (fun cs => by rw [hown, hq.running])
    (fun cs y hy => by rw [hgx, State.frontCore_context, if_neg hy]) k hgn
  refine ⟨cs, hcore, ?_, hdone, hkept⟩
  rw [State.context, hcore.context]
  exact hown cs

theorem State.Quiet.cadd_row (hq : s.Quiet c x) (ht : s.Takes c x .cadd f) (hshare : s.ctrInShare c x f.num = true) :
    (s.runWord c x (encodeCmd .cadd f)).context c x = { (s.context c x) with pc := (s.context c x).pc + 32 }
    ∧ (s.core c).sameStore ((s.runWord c x (encodeCmd .cadd f)).core c)
    ∧ s.Done (s.runWord c x (encodeCmd .cadd f)) c x f ((s.context c x).pc + 32) .running
        (fun n => (s.core c).counter n + (if n = f.num then BitVec.ofNat 16 (bits f.w2 15 0) else 0))
    ∧ s.Kept (s.runWord c x (encodeCmd .cadd f)) := by
  have hpass := State.passes_of_empty (s := s) (c := c) (x := x) (op := .cadd) (f := f) fun u hu => Plan.checks_of_all _ (by
    have : u.ctrInShare c x f.num = true := by rw [State.ctrInShare, hu.modeM]; exact hshare
    simp [State.entry, encodeCmd_num, this])
  obtain ⟨cs, hcore, hctx, hdone, hkept⟩ := hq.core_effect ht hpass (by unfold Opcode.plainControl; decide)
    (controlReady_of_plain (by decide) (by decide) (by decide) _)
    (fun l => l.setCounter f.num (l.counter f.num + BitVec.ofNat 16 (bits f.w2 15 0)))
    (k := fun n => (s.core c).counter n + (if n = f.num then BitVec.ofNat 16 (bits f.w2 15 0) else 0))
    (by simp only [runControl, State.startedEntry_cmd, encodeCmd_num, encodeCmd_w2]; rfl) (fun _ => rfl) (fun _ _ => rfl)
    (fun cs hcs n => by
      by_cases hn : n = f.num
      · subst hn
        have hfound : (s.frontCore c x .cadd f cs).counter f.num = _ := hcs f.num
        rw [Core.counter_setCounter, if_pos rfl, hfound]
        generalize (s.core c).counter f.num = v
        generalize f.claims f.num = a
        bv_omega
      · rw [Core.counter_setCounter_ne _ _ hn, if_neg hn, add_zero]
        exact hcs n)
  exact ⟨hctx, Core.sameStore.trans ⟨rfl, rfl, rfl, rfl, rfl⟩ hcore.sameStore, hdone, hkept⟩

/-- The counter that an issue leaves: its claims taken, its signal of mode 2 given (10 R214, R216). -/
theorem CmdFields.found_eq (f : CmdFields) (k : Core) (n : Nat) : f.found k n = k.counter n - f.claims n + CmdFields.early f n := by
  have hearly : CmdFields.early f n = if f.sigMode = 2 then f.signals n else 0 := by
    by_cases h2 : f.sigMode = 2
    · rw [if_pos h2]
      simp [CmdFields.early, CmdFields.signals, h2]
    · have : f.sigMode.toNat ≠ 2 := fun he => h2 (BitVec.eq_of_toNat_eq he)
      rw [if_neg h2, CmdFields.early, if_neg fun h => this h.1]
  rw [hearly]
  rfl

/-- The counter a control-core command's effect finds (10 R214, R216). -/
theorem State.begun_counter (h : op.engine < 4) (hr : op ≠ .rsig) (n : Nat) :
    ((s.begun c x op f).core c).counter n = f.found (s.core c) n := by
  obtain ⟨cs, hcore, hcs⟩ := State.begun_core (s := s) (c := c) (x := x) (f := f) h hr
  rw [hcore, CmdFields.found_eq]
  exact hcs n

theorem State.Quiet.crd_row (hq : s.Quiet c x) (ht : s.Takes c x .crd f) (hshare : s.ctrInShare c x f.num = true) :
    ((s.runWord c x (encodeCmd .crd f)).context c x).reg f.rd = (f.found (s.core c) f.num).setWidth 64
    ∧ (s.context c x).onlyReg ((s.runWord c x (encodeCmd .crd f)).context c x) f.rd
    ∧ s.scalarFrame (s.runWord c x (encodeCmd .crd f)) c x f := by
  have hpass := State.passes_of_empty (s := s) (c := c) (x := x) (op := .crd) (f := f) fun u hu => Plan.checks_of_all _ (by
    have : u.ctrInShare c x f.num = true := by rw [State.ctrInShare, hu.modeM]; exact hshare
    simp [State.entry, encodeCmd_num, this])
  obtain ⟨hctx, hstore, hdone, hkept⟩ := hq.context_effect ht hpass (by unfold Opcode.plainControl; decide)
    (controlReady_of_plain (by decide) (by decide) (by decide) _)
    (fun y => y.setReg f.rd ((f.found (s.core c) f.num).setWidth 64))
    (by
      simp only [runControl, State.startedEntry_cmd, encodeCmd_num, encodeCmd_rd, BitVec.ofNat_toNat]
      rw [State.begun_counter (by decide) (by decide)]
      rfl)
    rfl hq.running
  rw [hctx]
  refine ⟨Ctx.reg_setReg _ _ _, ⟨fun n hn => Ctx.reg_setReg_ne _ _ hn, rfl⟩, hstore, hdone, hkept⟩

/-- A descriptor written from five scalars holds the scalars as its words (12 R249). -/
theorem bits_descValue (y : Ctx) (ra : Nat) {i : Nat} (hi : i < 5) :
    bits (descValue y ra) (64 * i + 63) (64 * i) = (y.reg (ra + i)).toNat := by
  have hlt : ∀ j, (y.reg (ra + j)).toNat < 2 ^ 64 := fun j => (y.reg (ra + j)).isLt
  generalize hw : (fun j => (y.reg (ra + j)).toNat) = w
  have hw' : ∀ j, (y.reg (ra + j)).toNat = w j := fun j => congrFun hw j
  have hval : (descValue y ra).toNat = (w 0 + 2 ^ 64 * (w 1 + 2 ^ 64 * (w 2 + 2 ^ 64 * (w 3 + 2 ^ 64 * w 4)))) % 2 ^ 320 := by
    rw [descValue, BitVec.toNat_ofNat, show List.range 5 = [0, 1, 2, 3, 4] from rfl]
    simp only [List.foldr_cons, List.foldr_nil, hw', Nat.mul_zero, Nat.add_zero]
  simp only [hw'] at hlt ⊢
  have h0 := hlt 0
  have h1 := hlt 1
  have h2 := hlt 2
  have h3 := hlt 3
  have h4 := hlt 4
  rw [bits, natBits, show 64 * i + 63 + 1 - 64 * i = 64 by omega, hval]
  interval_cases i <;> omega

theorem State.Quiet.descwr_row (hq : s.Quiet c x) (ht : s.Takes c x .descwr f) (hshare : s.descInShare c x f.num = true) (hra : f.ra ≤ 27)
    {v : BitVec 320} (hv : descValue (s.context c x) f.ra = v) :
    ((s.runWord c x (encodeCmd .descwr f)).core c).descs = Tab.set 0 (s.core c).descs f.num v
      ∧ ((s.runWord c x (encodeCmd .descwr f)).core c).hdrs = (s.core c).hdrs
      ∧ (s.runWord c x (encodeCmd .descwr f)).context c x = { (s.context c x) with pc := (s.context c x).pc + 32 }
      ∧ s.Done (s.runWord c x (encodeCmd .descwr f)) c x f ((s.context c x).pc + 32) .running (s.core c).counter
      ∧ s.Kept (s.runWord c x (encodeCmd .descwr f)) := by
  have hpass := State.passes_of_empty (s := s) (c := c) (x := x) (op := .descwr) (f := f) fun u hu => Plan.checks_of_all _ (by
    have : u.descInShare c x f.num = true := by rw [State.descInShare, hu.modeM]; exact hshare
    simp [State.entry, encodeCmd_num, encodeCmd_ra, this, hra])
  have hval : descValue ((s.begun c x .descwr f).context c x) f.ra = v := by
    rw [← hv, State.begun_context (by decide) (by decide), if_pos rfl]
    rfl
  obtain ⟨cs, hcore, hctx, hdone, hkept⟩ := hq.core_effect ht hpass (by unfold Opcode.plainControl; decide)
    (controlReady_of_plain (by decide) (by decide) (by decide) _)
    (fun l => l.withDesc f.num v) (k := (s.core c).counter)
    (by
      simp only [runControl, State.startedEntry_cmd, encodeCmd_num, encodeCmd_ra]
      rw [show (s.startedEntry c x .descwr f).ctx = x from rfl, hval]
      rfl)
    (fun _ => rfl) (fun l y => l.withDesc_context f.num _ y) (fun cs hcs n => hcs n)
  exact ⟨hcore.descs, hcore.sameStore.1.symm, hctx, hdone, hkept⟩

/-! ### DRTAG -/

/-- What DRTAG makes of a drawer (09 R191, R195). -/
def Drawer.drtagged (fn : Nat) (v : Drawer) : Drawer := if fn = 0 then v.emptied else { v with tag := .full }

theorem Drawer.drtagged_twice (fn : Nat) (v : Drawer) : (v.drtagged fn).drtagged fn = v.drtagged fn := by
  unfold Drawer.drtagged
  split <;> rfl

theorem mem_drawerRun {d n e : Nat} : e ∈ drawerRun d n ↔ d ≤ e ∧ e < d + n := by
  simp only [drawerRun, List.mem_map, List.mem_range]
  exact ⟨fun ⟨i, hi, he⟩ => by omega, fun h => ⟨e - d, by omega, by omega⟩⟩

theorem Core.drtag_drawer (k : Core) (w : Cmd) (d : Nat) :
    (k.drtag w).drawer d = if d ∈ drtagRun w then (k.drawer d).drtagged w.fn else k.drawer d :=
  Core.drawer_foldl_modDrawer (Drawer.drtagged w.fn) (Drawer.drtagged_twice w.fn) _ _ _

theorem Core.drtag_butDrawers (k : Core) (w : Cmd) : (k.drtag w).butDrawers k := foldl_butDrawers _ (fun l d => Core.butDrawers_modDrawer l d _) _ k

theorem State.Quiet.drtag_row (hq : s.Quiet c x) (ht : s.Takes c x .drtag f) (hcnt : 1 ≤ f.cnt ∧ f.cnt ≤ 64 ∧ f.fn ≤ 1)
    (hshare : ∀ d ∈ drtagRun (encodeCmd .drtag f), s.drawerInShare c x d = true)
    (hfree : ∀ d, ((s.core c).drawer d).claim = false ∧ ((s.core c).drawer d).closing = false) :
    (∀ d, ((s.runWord c x (encodeCmd .drtag f)).core c).drawer d
      = if d ∈ drtagRun (encodeCmd .drtag f) then ((s.core c).drawer d).drtagged f.fn else (s.core c).drawer d)
    ∧ (s.runWord c x (encodeCmd .drtag f)).context c x = { (s.context c x) with pc := (s.context c x).pc + 32 }
    ∧ s.scalarFrame (s.runWord c x (encodeCmd .drtag f)) c x f := by
  obtain ⟨hp, hpeer⟩ := State.passes_of_empty (s := s) (c := c) (x := x) (op := .drtag) (f := f) fun u hu => Plan.checks_of_all _ (by
    have : ∀ d, u.drawerInShare c x d = s.drawerInShare c x d := fun d => by
      rw [State.drawerInShare, State.drawerOwner, hu.modeM]; rfl
    simp only [State.entry, encodeCmd_cnt, encodeCmd_fn, List.mem_cons, List.not_mem_nil, or_false, forall_eq_or_imp, forall_eq]
    simp only [List.all_eq_true, decide_eq_true_eq, this]
    exact ⟨hshare, hcnt⟩)
  obtain ⟨csi, hissued, -⟩ := State.issued_core (s := s) (c := c) (x := x) (op := .drtag) (f := f) (by decide)
  obtain ⟨cs, hbegun, hcs⟩ := State.begun_core (s := s) (c := c) (x := x) (op := .drtag) (f := f) (by decide) (by decide)
  have hready : controlReady (s.posted c x .drtag f) c (s.issuedEntry c x .drtag f) = true := by
    have hcmd : (s.issuedEntry c x .drtag f).cmd.op? = some .drtag := encodeCmd_op? _ _
    have hdr : ∀ d, ((s.posted c x .drtag f).core c).drawer d = (s.core c).drawer d := fun d =>
      (congrArg (Core.drawer · d) hissued).trans rfl
    simp [controlReady, hcmd, hdr, hfree]
  have hdr : ∀ d, (((s.begun c x .drtag f).core c).drtag (encodeCmd .drtag f)).drawer d
      = if d ∈ drtagRun (encodeCmd .drtag f) then ((s.core c).drawer d).drtagged f.fn else (s.core c).drawer d := by
    intro d
    rw [Core.drtag_drawer, hbegun, encodeCmd_fn]
    rfl
  have hbut := ((s.begun c x .drtag f).core c).drtag_butDrawers (encodeCmd .drtag f)
  have hclosing : ∀ d, ((((s.begun c x .drtag f).modCore c (fun k => k.drtag (encodeCmd .drtag f))).core c).drawer d).closing = false := by
    intro d
    rw [State.core_modCore, hdr]
    split
    · unfold Drawer.drtagged
      split
      · rfl
      · exact (hfree d).2
    · exact (hfree d).2
  rw [hq.plain_row ht hp (by unfold Opcode.plainControl; decide) hready
    (u := (s.begun c x .drtag f).modCore c (fun k => k.drtag (encodeCmd .drtag f))) rfl]
  generalize hu : (s.begun c x .drtag f).modCore c (fun k => k.drtag (encodeCmd .drtag f)) = u at hclosing ⊢
  have hucore : u.core c = ((s.begun c x .drtag f).core c).drtag (encodeCmd .drtag f) := by rw [← hu, State.core_modCore]
  have hwork := State.complete_keepsWork (t := u) (c := c) (q := s.startedEntry c x .drtag f) (st := stOk) (by decide) (by decide) hpeer
  have huctx : ∀ y, u.context c y = (s.begun c x .drtag f).context c y := fun y => by rw [State.context, hucore, hbut.context]; rfl
  refine ⟨fun d => ?_, ?_, ?_, ?_, ?_⟩
  · rw [State.complete_ok_drawers hpeer hclosing, hucore, hdr]
  · exact State.Quiet.completed_context (by decide) (by decide) hpeer (huctx x)
  · rw [← hucore] at hbut
    exact ((State.begun_sameStore (by decide) (by decide)).trans hbut.sameStore).trans hwork.store
  · refine State.complete_done u _ _ _ ?_ hpeer (by simp) (by simp) ?_ ?_ (fun d hd => ?_) (fun y hy => ?_) (by simp) ht.mode _ fun n => ?_
    · rw [hucore, hbut.q, State.begun_q (by decide) (by decide)]
    · rw [huctx, State.begun_context (by decide) (by decide), if_pos rfl]
    · rw [huctx, State.begun_context (by decide) (by decide), if_pos rfl, hq.running]
    · rw [← hu, State.core_modCore_ne _ _ hd, State.begun_other (by decide) (by decide) hd]
    · rw [huctx, State.begun_context (by decide) (by decide), if_neg hy]
    · rw [hucore, hbut.counter, hbegun]
      exact hcs n
  · have hkept : s.Kept u := hu ▸ (State.begun_kept (c := c) (x := x) (f := f) (by decide) (by decide) (by decide)).trans
      (State.kept_of (State.modCore_rest _ c _) (fun _ _ => rfl))
    exact hkept.trans (State.complete_kept _ c _ hpeer)

/-- Settles O4: each command's row is its effect, completed; the effect is one update of its core or of its context. -/
theorem countersDescriptorsAndTags : Obligations.CountersDescriptorsAndTags := by
  unfold Obligations.CountersDescriptorsAndTags
  refine ⟨fun s c x f hq ht _ => ⟨_, hq.runRow_eq, hq.nop_row ht⟩, fun s c x f hq ht hpl => ⟨_, hq.runRow_eq, ?_⟩,
    fun s c x f hq ht hshare => ⟨_, hq.runRow_eq, hq.cadd_row ht hshare⟩, fun s c x f hq ht hshare => ⟨_, hq.runRow_eq, hq.crd_row ht hshare⟩,
    fun s c x f hq ht hpre => ⟨_, hq.runRow_eq, ?_⟩, fun s c x f hq ht hpre => ⟨_, hq.runRow_eq, ?_⟩⟩
  · have hwork := State.complete_keepsWork (t := s.ended c x f) (c := c) (q := s.startedEntry c x .endStream f) (st := stOk)
      (by decide) (by decide) rfl
    rw [hq.end_row ht hpl]
    refine ⟨?_, ?_, State.ended_done hq ht, ?_⟩
    · rw [hwork.context, State.ended_context hq, if_pos rfl]
    · refine Core.sameStore.trans ?_ hwork.store
      rw [State.ended, State.modContext, State.core_modCore]
      exact (State.begun_sameStore (by decide) (by decide)).trans (Core.sameStore_setContext _ _ _)
    · refine (State.begun_kept (c := c) (x := x) (op := .endStream) (f := f) (by decide) (by decide) (by decide)).trans ?_
      have hended : (s.begun c x .endStream f).Kept (s.ended c x f) := State.kept_of (State.modCore_rest _ c _) (fun _ _ => rfl)
      exact hended.trans (State.complete_kept _ c _ rfl)
  · obtain ⟨hshare, hra⟩ := hpre
    obtain ⟨hdescs, hhdrs, hctx, hdone, hkept⟩ := hq.descwr_row ht hshare hra rfl
    refine ⟨fun i hi => ?_, fun n hn => ?_, hhdrs, hctx, hdone, hkept⟩
    · rw [Core.desc, hdescs, Tab.get_set, if_pos rfl, bits_descValue _ _ hi]
    · rw [Core.desc, hdescs, Tab.get_set, if_neg hn]
      rfl
  · obtain ⟨h1, h64, hfn, hshare, hfree⟩ := hpre
    have hrun : ∀ d, d ∈ drtagRun (encodeCmd .drtag f) ↔ f.num ≤ d ∧ d < f.num + f.cnt := fun d => by
      rw [drtagRun, encodeCmd_num, encodeCmd_cnt, mem_drawerRun]
    obtain ⟨hdr, hctx, hframe⟩ := hq.drtag_row ht ⟨h1, h64, hfn⟩ (fun d hd => hshare d ((hrun d).1 hd).1 ((hrun d).1 hd).2) hfree
    refine ⟨fun d hlo hhi => ?_, fun d hout => ?_, hctx, hframe⟩
    · rw [hdr, if_pos ((hrun d).2 ⟨hlo, hhi⟩), Drawer.drtagged]
      split
      · rw [Drawer.emptied, ← (hfree d).2]
      · rfl
    · rw [hdr, if_neg fun h => hout ((hrun d).1 h)]

end Sys2Proof.Machine
end

section
/-!
From the dispatch of a command on a quiet core to its arrival and its issue, whatever its fields and its predicate are (10 R206 to R216), and
the obligation about commands that are skipped.
-/
namespace Sys2Proof.Machine

variable {s t : State} {c x : Nat} {op : Opcode} {f : CmdFields}

/-- The row of each operation runs its command (11 R236). -/
theorem exec_ofOp (op : Opcode) (c x : Nat) (f : CmdFields) (s : State) : exec (Instr.ofOp op c x f) s = runRow op c x f s := by
  cases op <;> rfl

/-! ### Dispatch and arrival -/

/-- A command that finds room in its engine's queue is dispatched, and goes on from there. -/
theorem State.Quiet.runWord_sent (hq : s.Quiet c x) (hroom : op.engine = 0 ∨ 0 < s.narrowed c op.engine (s.queueShare c)) :
    s.runWord c x (encodeCmd op f) = (((((s.sent c x (encodeCmd op f)).arriveHeads c).resolve c).tryStart c
      ((s.core c).serial + 1)).commitAll c ((s.core c).serial + 1) 17) := by
  have hmay : s.mayDispatch c x (encodeCmd op f).engine = true := by
    simp only [State.mayDispatch, hq.running, hq.dispatch, hq.live, Core.queueOf, hq.empty, encodeCmd_engine]
    rcases hroom with h | h <;> simp [h]
  unfold State.runWord
  rw [if_pos (by rw [hmay, hq.turn]; rfl), hq.dispatch_eq]

/-- The queue entry of a command that has been dispatched and has not arrived. -/
def State.queuedEntry (s : State) (c x : Nat) (w : Cmd) : QCmd := { s.entry c x w with stage := .queued, arr := 0 }

/-- The head of the one queue that holds a command arrives, or completes with the status of the check it fails (10 R210). -/
theorem State.Quiet.arriveHead_sent (hq : s.Quiet c x) : (s.sent c x (encodeCmd op f)).arriveHead c x op.engine
    = if (decodeChecks (encodeCmd op f)).isNone then
        (s.sent c x (encodeCmd op f)).complete c (s.queuedEntry c x (encodeCmd op f)) stOpcode
      else if (s.entry c x (encodeCmd op f)).counters.all (fun n => s.ctrInShare c x n) then s.arrived c x (encodeCmd op f)
      else (s.sent c x (encodeCmd op f)).complete c (s.queuedEntry c x (encodeCmd op f)) stBounds := by
  have hrun : ((s.sent c x (encodeCmd op f)).context c x).st = .running := by
    simp only [State.sent, State.context, State.core_modCore, Core.context, Core.setContext, Tab.get_set]
    exact hq.running
  have hlive : (s.sent c x (encodeCmd op f)).coreLive c = true := hq.live
  have hhead : ((s.sent c x (encodeCmd op f)).core c).nextHead x op.engine = some (s.queuedEntry c x (encodeCmd op f)) := by
    simp [State.sent, Core.nextHead, Core.queueOf, State.entry, State.queuedEntry]
  have hcmd : (s.queuedEntry c x (encodeCmd op f)).cmd = encodeCmd op f := rfl
  have hctrs : (s.queuedEntry c x (encodeCmd op f)).counters = (s.entry c x (encodeCmd op f)).counters := rfl
  have hshare : ∀ n, (s.sent c x (encodeCmd op f)).ctrInShare c x n = s.ctrInShare c x n := fun _ => rfl
  have harrive : (s.sent c x (encodeCmd op f)).modCore c (fun k =>
      { (k.modCmd (s.queuedEntry c x (encodeCmd op f)).id (fun q => { q with stage := .arrived, arr := k.arrivals + 1 }))
        with arrivals := k.arrivals + 1 }) = s.arrived c x (encodeCmd op f) := by
    simp only [State.sent, State.modCore_modCore, State.arrived]
    unfold State.modCore
    congr 1
    simp [Core.modCmd, modFirst, State.entry, State.queuedEntry, Core.setContext]
  unfold State.arriveHead
  rw [if_neg (by simp [hrun, hlive]), hhead]
  simp only [hcmd, hctrs, hshare, harrive]
  split
  · rfl
  · by_cases h : (s.entry c x (encodeCmd op f)).counters.all (fun n => s.ctrInShare c x n) = true
    · simp [h]
    · simp [h]

/-- The heads of a core with one command in its queues: the arrival of that one. -/
theorem State.Quiet.arriveHeads_sent (hq : s.Quiet c x) {u : State} (hown : (s.sent c x (encodeCmd op f)).arriveHead c x op.engine = u)
    (hafter : ∀ y e, u.arriveHead c y e = u) : (s.sent c x (encodeCmd op f)).arriveHeads c = u := by
  have hx : x ∈ [0, 1, 2, 3] := by
    have := hq.ctx
    simp
    omega
  have he : op.engine ∈ [0, 1, 2, 3, 4, 5] := by
    have := Opcode.engine_lt op
    simp
    omega
  have hother : ∀ y e, ¬(y = x ∧ e = op.engine) → (s.sent c x (encodeCmd op f)).arriveHead c y e = s.sent c x (encodeCmd op f) :=
    fun y e h => State.Quiet.arriveHead_other y e _ (by rwa [encodeCmd_engine])
  unfold State.arriveHeads
  refine foldl_reach _ _ _ op.engine _ (fun e hne => ?_) ?_ (fun e => ?_) he
  · exact foldl_fixed _ _ _ fun y _ => hother y e fun h => hne h.2
  · exact foldl_reach _ _ _ x _ (fun y hne => hother y _ fun h => hne h.1) hown (fun y => hafter y _) hx
  · exact foldl_fixed _ _ _ fun y _ => hafter y e

theorem State.arriveHead_empty (h : (s.core c).q = []) (y e : Nat) : s.arriveHead c y e = s := by
  apply State.arriveHead_none
  simp [Core.nextHead, Core.queueOf, h]

/-- The resolution of a core without commands changes nothing. -/
theorem State.resolve_of_empty (h : (s.core c).q = []) : s.resolve c = s := by simp [State.resolve, Core.waiting, h]

/-- Where the queues of a core are empty, no command issues, starts or commits. -/
theorem State.settled_of_empty (h : (s.core c).q = []) (id n : Nat) : ((s.resolve c).tryStart c id).commitAll c id n = s := by
  have hfind : (s.core c).cmd? id = none := by rw [Core.cmd?, h]; rfl
  have hstart : s.tryStart c id = s := by
    unfold State.tryStart
    rw [hfind]
  rw [State.resolve_of_empty h, hstart, State.commitAll_gone _ _ _ _ hfind]

/-- A command that passes the decode checks, with its counters in the context's share, arrives (10 R210). -/
theorem State.Quiet.arriveHeads_arrived (hq : s.Quiet c x) (hmode : f.sigMode.toNat < 4) (hdelta : f.sigMode = 0 ∨ f.sigDelta ≠ 0)
    (hclaims : ¬(f.waitA.cond = 3 ∧ f.waitB.cond = 3 ∧ f.waitA.ctr = f.waitB.ctr))
    (hshares : (s.entry c x (encodeCmd op f)).counters.all (fun n => s.ctrInShare c x n) = true) :
    (s.sent c x (encodeCmd op f)).arriveHeads c = s.arrived c x (encodeCmd op f) := by
  refine hq.arriveHeads_sent ?_ fun y e => State.arriveHead_arrived y e _
  have hdecode : ¬ (decodeChecks (encodeCmd op f)).isNone = true := by simp [encodeCmd_checks op f hmode hdelta hclaims]
  rw [hq.arriveHead_sent, if_neg hdecode, if_pos hshares]

/-! ### Issue -/

/-- A command alone in its core's queues that waits for no table, or is skipped, may issue (10 R214; 03 R63). -/
theorem State.Quiet.mayIssue_arrived (hq : s.Quiet c x) (hb : op ≠ .barrier)
    (hgo : (s.entry c x (encodeCmd op f)).skipped = true
      ∨ (planOf op (s.arrived c x (encodeCmd op f)) c (s.entry c x (encodeCmd op f))).v ≠ .wait) :
    (s.arrived c x (encodeCmd op f)).mayIssue op c (s.entry c x (encodeCmd op f)) = true := by
  have hrun : ((s.arrived c x (encodeCmd op f)).context c x).st = .running := by rw [State.arrived_context]; exact hq.running
  have hlive : (s.arrived c x (encodeCmd op f)).coreLive c = true := hq.live
  have hheld : controlHeld (s.arrived c x (encodeCmd op f)) c (s.entry c x (encodeCmd op f)) = false := by
    simp [controlHeld, State.entry_op?, State.core_arrived]
  have hpass : passHeld (s.arrived c x (encodeCmd op f)) c (s.entry c x (encodeCmd op f)) = false := by
    have hahead : tcfgAhead (s.arrived c x (encodeCmd op f)) c (s.entry c x (encodeCmd op f)) = false := by
      simp [tcfgAhead, State.core_arrived]
    rw [passHeld, hahead, Bool.false_or]
    split <;> simp [State.core_arrived]
  have hctx : (s.entry c x (encodeCmd op f)).ctx = x := rfl
  have hstage : (s.entry c x (encodeCmd op f)).stage = .arrived := rfl
  rw [State.mayIssue, hctx, hstage, hrun, hlive, hheld, hpass]
  rcases hgo with h | h
  · simp [h, hb]
  · simp [h, hb]

/-- On a quiet core the resolution issues the one command that has arrived (10 R214). -/
theorem State.Quiet.resolve_arrived (hq : s.Quiet c x) (hb : op ≠ .barrier)
    (hwaits : (encodeCmd op f).waits.all (waitOk (s.core c) (s.core c).counters (s.core c).counters) = true)
    (hgo : (s.entry c x (encodeCmd op f)).skipped = true
      ∨ (planOf op (s.arrived c x (encodeCmd op f)) c (s.entry c x (encodeCmd op f))).v ≠ .wait) :
    (s.arrived c x (encodeCmd op f)).resolve c = (s.claimed c x (encodeCmd op f)).issueOne op c (s.entry c x (encodeCmd op f)) := by
  have hwaiting : ((s.arrived c x (encodeCmd op f)).core c).waiting = [s.entry c x (encodeCmd op f)] := by
    simp [Core.waiting, State.core_arrived, State.entry, insertArr]
  have hfind : ((s.arrived c x (encodeCmd op f)).core c).cmd? (s.entry c x (encodeCmd op f)).id = some (s.entry c x (encodeCmd op f)) := by
    simp [Core.cmd?, State.core_arrived]
  have hok : ∀ a b, waitOk ((s.arrived c x (encodeCmd op f)).core c) a b = waitOk (s.core c) a b := fun a b => by
    funext w
    simp [waitOk, State.badCtr_arrived]
  have hcmd : (s.entry c x (encodeCmd op f)).cmd = encodeCmd op f := rfl
  unfold State.resolve
  rw [hwaiting]
  simp only [List.foldl_cons, List.foldl_nil]
  unfold State.resolveOne
  rw [hfind]
  simp only [hcmd, encodeCmd_op?, hq.mayIssue_arrived hb hgo, hok, State.counters_arrived, hwaits, Bool.and_self, if_true]
  rfl

/-! ### Skipped commands -/

/-- A completion as skipped is one with ST_OK: the same signal, no event and no halt (10 R211, R216). -/
theorem State.complete_skipped (t : State) (c : Nat) (q : QCmd) : t.complete c q stSkipped = t.complete c q stOk := by
  have hsig : ∀ mode, signalsAt mode stSkipped = signalsAt mode stOk := by
    intro mode
    unfold signalsAt
    rw [show halting stSkipped = false by decide, show halting stOk = false by decide]
    split <;> rfl
  have hev : ∀ u : State, u.statusEvent c q stSkipped = u := fun u => by
    simp [State.statusEvent, halting, tarnishing, stSkipped, stOrphan, stStepSkipped]
  have hh : halting stSkipped = false := by decide
  have ha : stSkipped ≠ stAborted := by decide
  have hh' : halting stOk = false := by decide
  have ha' : stOk ≠ stAborted := by decide
  unfold State.complete
  simp only [hsig, hev, State.statusEvent_ok, hh, ha, hh', ha', Bool.false_eq_true, if_false]

/-- A quiet core with a command that is skipped: its claims taken, and its signal given where it is to be given at issue. -/
def State.skippedOver (s : State) (c x : Nat) (op : Opcode) (f : CmdFields) : State :=
  (s.claimed c x (encodeCmd op f)).signalIssue c (s.entry c x (encodeCmd op f))

/-- The core of a command that is skipped, with its counters. -/
theorem State.skippedOver_core : ∃ cs,
    (s.skippedOver c x op f).core c =
      { ((s.core c).setContext x { (s.context c x) with pc := (s.context c x).pc + 32 }) with
        serial := (s.core c).serial + 1, arrivals := (s.core c).arrivals + 1, lastDisp := x, q := [s.entry c x (encodeCmd op f)], counters := cs }
    ∧ ∀ n, Tab.get 0 cs n = (s.core c).counter n - f.claims n + CmdFields.early f n := by
  have hbase : (s.claimed c x (encodeCmd op f)).core c =
      { ((s.core c).setContext x { (s.context c x) with pc := (s.context c x).pc + 32 }) with
        serial := (s.core c).serial + 1, arrivals := (s.core c).arrivals + 1, lastDisp := x, q := [s.entry c x (encodeCmd op f)],
        counters := takeClaims (encodeCmd op f).waits (s.core c).counters } := by
    simp [State.claimed, State.arrived, Core.setContext]
  have hclaims : ∀ n, Tab.get 0 (takeClaims (encodeCmd op f).waits (s.core c).counters) n = (s.core c).counter n - f.claims n := fun n => by
    rw [takeClaims_get, claimSum_encode]
    rfl
  have hcmd : (s.entry c x (encodeCmd op f)).cmd = encodeCmd op f := rfl
  rw [State.skippedOver, QCmd.signalIssue_core, hcmd, encodeCmd_sigMode, encodeCmd_sigCtr, encodeCmd_sigDelta, hbase]
  by_cases hm : f.sigMode.toNat = 2
  · rw [if_pos ⟨rfl, hm⟩]
    refine ⟨_, rfl, fun n => ?_⟩
    rw [Tab.get_set, CmdFields.early]
    by_cases hn : f.sigCtr.toNat = n
    · rw [if_pos hn.symm, if_pos ⟨hm, hn⟩, ← hn]
      exact congrArg (· + _) (hclaims _)
    · rw [if_neg (Ne.symm hn), if_neg fun h => hn h.2, hclaims, add_zero]
  · rw [if_neg fun h => hm h.2]
    refine ⟨_, rfl, fun n => ?_⟩
    rw [hclaims, CmdFields.early, if_neg fun h => hm h.1, add_zero]

theorem State.skippedOver_kept : s.Kept (s.skippedOver c x op f) := by
  refine State.kept_of ((State.signalIssue_rest _ c _).trans rfl) fun a ha => ?_
  unfold State.skippedOver State.signalIssue
  split
  · exact State.perturb_regs (s.claimed c x (encodeCmd op f)) 3 c a ha
  · rfl

theorem State.skippedOver_other {d : Nat} (hd : d ≠ c) : (s.skippedOver c x op f).core d = s.core d := by
  rw [State.skippedOver, QCmd.signalIssue_core, if_neg fun h => hd h.1, State.claimed, State.arrived, State.core_modCore_ne _ _ hd,
    State.core_modCore_ne _ _ hd]

/-- The row of a command that its predicate tells to be skipped: it claims, signals and completes (10 R216). -/
theorem State.Quiet.skipped_row (hq : s.Quiet c x) (ht : s.TakesSkipped c x op f) (hb : op ≠ .barrier) :
    s.runWord c x (encodeCmd op f) = (s.skippedOver c x op f).complete c (s.entry c x (encodeCmd op f)) stOk := by
  have hskip : (s.entry c x (encodeCmd op f)).skipped = true := by
    simp only [State.entry, encodeCmd_pred, encodeCmd_psense, ht.pred, beq_self_eq_true]
  have hq1 : ((s.skippedOver c x op f).core c).q = [s.entry c x (encodeCmd op f)] := by
    obtain ⟨cs, hcore, -⟩ := State.skippedOver_core (s := s) (c := c) (x := x) (op := op) (f := f)
    rw [hcore]
  have hissue : (s.arrived c x (encodeCmd op f)).resolve c
      = (s.skippedOver c x op f).complete c (s.entry c x (encodeCmd op f)) stOk := by
    rw [hq.resolve_arrived hb ht.waits (Or.inl hskip), State.issueOne, if_pos hskip, if_neg hb, State.complete_skipped]
    rfl
  have hempty : (((s.skippedOver c x op f).complete c (s.entry c x (encodeCmd op f)) stOk).core c).q = [] :=
    State.complete_q _ _ _ _ (by decide) (by decide) hq1
  have hnone : (((s.skippedOver c x op f).complete c (s.entry c x (encodeCmd op f)) stOk).core c).cmd? ((s.core c).serial + 1) = none := by
    rw [Core.cmd?, hempty]
    rfl
  rw [hq.runWord_sent ht.room, hq.arriveHeads_arrived ht.mode ht.delta ht.claims ht.shares, hissue, State.tryStart, hnone,
    State.commitAll_gone _ _ _ _ hnone]

/-- Settles O7: the predicate is read off; a command that is skipped gives its claims and its signal and completes. -/
theorem skippedCommandsDoNothing : Obligations.SkippedCommandsDoNothing := by
  unfold Obligations.SkippedCommandsDoNothing
  refine ⟨fun y b => ⟨rfl, rfl⟩, fun op s c x f hp => ⟨fun ht => ?_, fun ht => ?_⟩, fun op s c x f hb hq ht hclosing => ?_⟩
  · have hpred : (s.context c x).pred f.pred.toNat = true := by rw [hp]; rfl
    have := ht.pred
    rw [hpred] at this
    simpa using this.symm
  · have hpred : (s.context c x).pred f.pred.toNat = true := by rw [hp]; rfl
    rw [← ht.pred, hpred]
  · obtain ⟨cs, hcore, hcs⟩ := State.skippedOver_core (s := s) (c := c) (x := x) (op := op) (f := f)
    have hpeer : (s.entry c x (encodeCmd op f)).peer = none := rfl
    have hcmd : (s.entry c x (encodeCmd op f)).cmd = encodeCmd op f := rfl
    have hctx : ∀ y, (s.skippedOver c x op f).context c y
        = if y = x then { (s.context c x) with pc := (s.context c x).pc + 32 } else s.context c y := fun y => by
      rw [State.context, hcore]
      by_cases hy : y = x
      · subst hy
        rw [if_pos rfl]
        exact Core.context_setContext _ _ _
      · rw [if_neg hy]
        exact Core.context_setContext_ne _ _ hy
    have hwork := State.complete_keepsWork (t := s.skippedOver c x op f) (c := c) (q := s.entry c x (encodeCmd op f)) (st := stOk)
      (by decide) (by decide) hpeer
    have hdrawers : ((s.skippedOver c x op f).core c).drawers = (s.core c).drawers := by rw [hcore]; rfl
    refine ⟨_, (exec_ofOp op c x f s).trans hq.runRow_eq, ?_⟩
    rw [hq.skipped_row ht hb]
    refine ⟨?_, ?_, ?_, ?_, ?_⟩
    · rw [hwork.context, hctx, if_pos rfl]
    · have hdropped : (((s.skippedOver c x op f).dropped c (s.entry c x (encodeCmd op f)) stOk).core c).drawers = (s.core c).drawers := by
        rw [State.dropped_core]
        split <;> exact hdrawers
      rw [State.complete_ok _ c _ hpeer, State.settleClosing_none, hdropped]
      intro d
      rw [Core.drawer, hdropped]
      exact hclosing d
    · refine Core.sameStore.trans ?_ hwork.store
      rw [hcore]
      exact ⟨rfl, rfl, rfl, rfl, rfl⟩
    · refine State.complete_done _ _ _ _ ?_ hpeer (by rw [hcmd, encodeCmd_sigMode]) (by rw [hcmd, encodeCmd_sigCtr]) ?_ ?_ (fun d hd => ?_)
        (fun y hy => ?_) (by rw [hcmd, encodeCmd_sigDelta]) ht.mode _ fun n => ?_
      · rw [hcore]
      · rw [hctx, if_pos rfl]
      · rw [hctx, if_pos rfl, hq.running]
      · rw [State.skippedOver_other hd]
      · rw [hctx, if_neg hy]
      · rw [hcore]
        exact hcs n
    · exact State.skippedOver_kept.trans (State.complete_kept _ c _ hpeer)

end Sys2Proof.Machine
end

section
/-!
Commands that halt their context (10 R210, R222; 02 R52): what a completion with a halting status leaves, what the reads of an issue keep, and
the obligation about commands that fail their checks.
-/
namespace Sys2Proof.Machine

variable {s t : State} {c x : Nat} {op : Opcode} {f : CmdFields} {q : QCmd}

/-! ### A completion that halts -/

/-- A completion with a halting status, on a core where no drawer closes and in a context that runs no job: the command leaves its queue, an
event is raised, and the context halts at the command. -/
theorem State.complete_halting {st : Nat} (hh : halting st = true) (hp : q.peer = none) (hjob : t.jobOf c q.ctx = {})
    (hclosing : ∀ d, ((t.core c).drawer d).closing = false) :
    t.complete c q st = ((t.modCore c (fun k => k.dropCmd q.id)).statusEvent c q st).modContext c q.ctx
      (fun y => y.haltAt q.addr q.cmd.opcode st) := by
  have hev := (t.modCore c (fun k => k.dropCmd q.id)).statusEvent_eventsOnly c q st
  generalize hu : (t.modCore c (fun k => k.dropCmd q.id)).statusEvent c q st = u at hev
  have hsig : signalsAt q.cmd.sigMode st = false := if_pos hh
  have hassign : u.assign = t.assign := hev.get State.assign fun _ _ _ => rfl
  have hhold : ∀ g, (u.modContext c q.ctx g).holdJob c q.ctx st = u.modContext c q.ctx g := fun g => by
    have : (u.modContext c q.ctx g).jobOf c q.ctx = {} := by
      rw [← hjob, State.jobOf, State.jobOf, ← hassign]
      rfl
    rw [State.holdJob, if_pos this]
  have hsettle : (u.modContext c q.ctx (fun y => y.haltAt q.addr q.cmd.opcode st)).settleClosing c
      = u.modContext c q.ctx (fun y => y.haltAt q.addr q.cmd.opcode st) := by
    refine State.settleClosing_none _ _ fun d => ?_
    rw [State.modContext, State.core_modCore, State.core_congr hev.cores, State.core_modCore]
    exact hclosing d
  unfold State.complete
  simp only [hsig, hh, hp, Bool.false_eq_true, if_false, if_true, hu]
  rw [State.haltCmd, hhold, hsettle]

/-- A RUNNING context that has moved on past a command halts at the command. -/
theorem Ctx.haltAt_moved {y : Ctx} (h : y.st = .running) (pc code st : Nat) :
    ({ y with pc := pc } : Ctx).haltAt y.pc code st = { y with st := .halted, lastOp := code, lastStatus := st } := by
  unfold Ctx.haltAt
  simp only [h]

/-- A state `u` in which the core holds one command `q` of context `x` and differs from `s` by the program counter and what the claims took: its
completion with a halting status is the halt of the context at the command. -/
structure State.ReadyToHalt (s u : State) (c x : Nat) (q : QCmd) (k : Nat → W16) : Prop where
  peer : q.peer = none
  ctx : q.ctx = x
  addr : q.addr = (s.context c x).pc
  running : (s.context c x).st = .running
  job : u.jobOf c x = {}
  open_ : ∀ d, ((s.core c).drawer d).closing = false
  queue : ((u.core c).dropCmd q.id).q = []
  context : u.context c x = { (s.context c x) with pc := (s.context c x).pc + 32 }
  others : ∀ y, y ≠ x → u.context c y = s.context c y
  drawers : (u.core c).drawers = (s.core c).drawers
  store : (s.core c).sameStore (u.core c)
  mem : u.mem = s.mem
  counters : ∀ n, (u.core c).counter n = k n

theorem State.ReadyToHalt.haltedBy {u : State} {st : Nat} {k : Nat → W16} (h : s.ReadyToHalt u c x q k) (hh : halting st = true)
    (hop : q.cmd.opcode = op.code) : s.haltedBy (u.complete c q st) c x st op k := by
  have hclosing : ∀ d, ((u.core c).drawer d).closing = false := fun d => by
    rw [Core.drawer, h.drawers]
    exact h.open_ d
  have hev := (u.modCore c (fun l => l.dropCmd q.id)).statusEvent_eventsOnly c q st
  rw [State.complete_halting hh h.peer (by rw [h.ctx]; exact h.job) hclosing, h.ctx]
  generalize hv : (u.modCore c (fun l => l.dropCmd q.id)).statusEvent c q st = v at hev ⊢
  have hcore : v.core c = (u.core c).dropCmd q.id := by rw [State.core_congr hev.cores, State.core_modCore]
  have hctx : ∀ y, v.context c y = u.context c y := fun y => by
    rw [State.context, hcore]
    rfl
  have hdone : ∀ g, (v.modContext c x g).core c = ((u.core c).dropCmd q.id).setContext x (g (u.context c x)) := fun g => by
    rw [State.modContext, State.core_modCore, hcore]
    rfl
  refine ⟨?_, ?_, ?_, ?_, fun a => ?_, fun y hy => ?_, fun n => ?_⟩
  · rw [State.context, hdone, Core.context_setContext, h.context, h.addr, Ctx.haltAt_moved h.running, hop]
  · rw [hdone]
    exact h.queue
  · rw [hdone]
    exact h.drawers
  · rw [hdone]
    exact h.store.trans ⟨rfl, rfl, rfl, rfl, rfl⟩
  · rw [State.readByte, State.readByte, ← h.mem]
    exact congrArg (fun m => (Mem.get? m a).getD (Config.freeByte a)) hev.mem
  · rw [State.context, hdone, Core.context_setContext_ne _ _ hy, ← h.others y hy]
    rfl
  · rw [hdone, ← h.counters]
    rfl

/-! ### What the reads of an issue keep -/

/-- What a read of stacked memory keeps: memory, cores and the assignment of contexts to jobs. -/
structure State.ReadKeeps (s t : State) : Prop where
  cores : t.cores = s.cores
  mem : t.mem = s.mem
  assign : t.assign = s.assign
  noDispatch : t.noDispatch = s.noDispatch

theorem State.ReadKeeps.refl (s : State) : s.ReadKeeps s := ⟨rfl, rfl, rfl, rfl⟩

theorem State.ReadKeeps.trans {s t u : State} (h : s.ReadKeeps t) (g : t.ReadKeeps u) : s.ReadKeeps u :=
  ⟨g.cores.trans h.cores, g.mem.trans h.mem, g.assign.trans h.assign, g.noDispatch.trans h.noDispatch⟩

theorem State.eventsOnly.readKeeps (h : s.eventsOnly t) : s.ReadKeeps t :=
  ⟨h.cores, h.mem, h.get State.assign fun _ _ _ => rfl, h.get State.noDispatch fun _ _ _ => rfl⟩

theorem State.setReg_readKeeps (s : State) (r : RegName) (i x : Nat) (v : W32) : s.ReadKeeps (s.setReg r i x v) := ⟨rfl, rfl, rfl, rfl⟩

theorem State.count64_readKeeps (s : State) (lo hi : RegName) (i : Nat) : s.ReadKeeps (s.count64 lo hi i) :=
  (s.setReg_readKeeps ..).trans (State.setReg_readKeeps ..)

theorem State.makeKeep_readKeeps (s : State) (g : Nat) : s.ReadKeeps (s.makeKeep g) := by
  unfold State.makeKeep
  split
  · exact .refl s
  split <;> exact ⟨rfl, rfl, rfl, rfl⟩

theorem State.lastRead_readKeeps (s : State) (g : Nat) (m : Option (Nat × Nat × Nat)) : s.ReadKeeps (s.lastRead g m) := by
  unfold State.lastRead
  split
  · exact .refl s
  · split <;> exact ⟨rfl, rfl, rfl, rfl⟩
  · exact ⟨rfl, rfl, rfl, rfl⟩
  · dsimp only
    split <;> exact ⟨rfl, rfl, rfl, rfl⟩

theorem State.cacheRead_readKeeps (s : State) (g hint : Nat) (m : Option (Nat × Nat × Nat)) : s.ReadKeeps (s.cacheRead g hint m) := by
  unfold State.cacheRead
  dsimp only
  generalize hu : (if (decide (g ∈ s.keep) || (s.groupLine g).isSome) = true then s.count64 .hitLo .hitHi (s.stackOf (64 * g))
    else s.count64 .missLo .missHi (s.stackOf (64 * g))) = u
  have hcount : s.ReadKeeps u := by
    rw [← hu]
    split <;> exact s.count64_readKeeps ..
  split
  · exact hcount
  · generalize hv : (if hint = 1 then u.makeKeep g else u) = v
    have hkeep : u.ReadKeeps v := by
      rw [← hv]
      split
      · exact u.makeKeep_readKeeps g
      · exact .refl u
    split
    · exact hcount.trans hkeep
    · exact (hcount.trans hkeep).trans (v.lastRead_readKeeps g m)

theorem State.recordHbmFault_readKeeps (s : State) (kind a : Nat) : s.ReadKeeps (s.recordHbmFault kind a) := by
  unfold State.recordHbmFault
  dsimp only
  split
  · exact .refl s
  · exact ((s.setReg_readKeeps ..).trans (State.setReg_readKeeps ..)).trans (State.setReg_readKeeps ..)

theorem State.readOutcome_readKeeps (s : State) (a sev kind : Nat) : s.ReadKeeps (s.readOutcome a sev kind) := by
  unfold State.readOutcome
  dsimp only
  split
  · exact .refl s
  · exact (s.setReg_readKeeps ..).trans (State.raise_eventsOnly _ _).readKeeps
  · exact ((s.recordHbmFault_readKeeps kind a).trans (State.setReg_readKeeps ..)).trans (State.raise_eventsOnly _ _).readKeeps

theorem State.hbmRead_readKeeps (s : State) (a hint : Nat) (m : Option (Nat × Nat × Nat)) : s.ReadKeeps (s.hbmRead a hint m).1 := by
  have h := (s.cacheRead_readKeeps (a / 64) hint m).trans (State.readOutcome_readKeeps _ a (s.severity a) 1)
  exact ⟨h.cores, h.mem, h.assign, h.noDispatch⟩

theorem State.readGranules_readKeeps (s : State) (hint : Nat) (m : Option (Nat × Nat × Nat)) (gs : List Nat) :
    s.ReadKeeps (s.readGranules hint m gs).1 := by
  have hfold : ∀ (l : List Nat) (r : State × Bool), s.ReadKeeps r.1 →
      s.ReadKeeps (l.foldl (fun r g => if r.2 then r else r.1.hbmRead (64 * g) hint m) r).1 := by
    intro l
    induction l with
    | nil => exact fun r h => h
    | cons g l ih =>
      intro r h
      refine ih _ ?_
      dsimp only
      split
      · exact h
      · exact h.trans (State.hbmRead_readKeeps ..)
  exact hfold gs _ (.refl s)

theorem State.issueReads_readKeeps (s : State) (op : Opcode) (c : Nat) (q : QCmd) : s.ReadKeeps (s.issueReads op c q) := by
  unfold State.issueReads
  split
  · exact s.readGranules_readKeeps ..
  split
  · exact s.hbmRead_readKeeps ..
  · exact .refl s

/-! ### Statuses of a command of engine 5 that halts at its issue -/

theorem halting_lt {st : Nat} (h : halting st = true) : st < 256 := by
  simp only [halting, decide_eq_true_eq, List.mem_cons, List.not_mem_nil, or_false] at h
  omega

theorem halting_ne_aborted {st : Nat} (h : halting st = true) : st ≠ stAborted := by
  rintro rfl
  exact absurd h (by decide)

/-- One status for each of `n` outputs, a byte each (11 R248). -/
theorem statusBytes_replicate {st : Nat} (h : st < 256) (n : Nat) :
    ((List.replicate n st).zipIdx).foldl (fun acc e => acc + e.1 % 256 * 2 ^ (8 * e.2)) 0
      = ((List.range n).map (fun j => st * 2 ^ (8 * j))).foldl (· + ·) 0 := by
  have hzip : (List.replicate n st).zipIdx = (List.range n).map (fun j => (st, j)) := by
    apply List.ext_getElem
    · simp
    · intro i _ _
      simp
  rw [hzip, List.foldl_map, List.foldl_map]
  simp only [Nat.mod_eq_of_lt h]

/-- The state with the statuses of a command of engine 5 that halts at its issue, or as it is where the command is none or names no register pair. -/
def State.haltStatuses (s : State) (c x : Nat) (op : Opcode) (f : CmdFields) (st : Nat) : State :=
  if op.engine = 5 ∧ (encodeCmd op f).re % 2 = 0 then s.macroStatusesWritten c x op f st else s

theorem State.macroEnds_halting {st : Nat} (hh : halting st = true) (hcmd : q.cmd = encodeCmd op f) (heng : q.eng = op.engine)
    (hskip : q.skipped = false) (hctx : q.ctx = x) (houts : q.lat.outs = []) : t.macroEnds c q st = t.haltStatuses c x op f st := by
  have hst := halting_ne_aborted hh
  unfold State.macroEnds State.haltStatuses
  rw [hcmd, encodeCmd_op?]
  dsimp only
  by_cases hmacro : op.engine = 5 ∧ (encodeCmd op f).re % 2 = 0
  · have hends : ¬ (q.eng ≠ 5 ∨ q.skipped = true ∨ st = stAborted ∨ (encodeCmd op f).re % 2 ≠ 0) := by
      simp [heng, hmacro.1, hmacro.2, hskip, hst]
    rw [if_pos hmacro, if_neg hends, houts, if_pos (by rfl), State.putStatuses, statusBytes_replicate (halting_lt hh), hctx, hcmd]
    rfl
  · have hnone : q.eng ≠ 5 ∨ q.skipped = true ∨ st = stAborted ∨ (encodeCmd op f).re % 2 ≠ 0 := by
      rw [heng]
      by_cases h5 : op.engine = 5
      · exact Or.inr (Or.inr (Or.inr fun hre => hmacro ⟨h5, hre⟩))
      · exact Or.inl h5
    rw [if_neg hmacro, if_pos hnone]

/-- Statuses written before the halt are in the context that halts. -/
theorem State.ReadyToHalt.haltStatuses {u : State} {k : Nat → W16} (h : s.ReadyToHalt u c x q k) (st : Nat) :
    (s.haltStatuses c x op f st).ReadyToHalt (u.haltStatuses c x op f st) c x q k := by
  unfold State.haltStatuses
  split
  · have hown : ∀ v : State, (v.macroStatusesWritten c x op f st).core c = (v.core c).setContext x _ := fun v => State.core_modCore v c _
    have hown' : ∀ v : State, (v.macroStatusesWritten c x op f st).context c x = _ := fun v =>
      (congrArg (Core.context · x) (hown v)).trans (Core.context_setContext _ _ _)
    have hother : ∀ (v : State) y, y ≠ x → (v.macroStatusesWritten c x op f st).context c y = v.context c y := fun v y hy =>
      (congrArg (Core.context · y) (hown v)).trans (Core.context_setContext_ne _ _ hy)
    refine ⟨h.peer, h.ctx, ?_, ?_, h.job, fun d => ?_, ?_, ?_, fun y hy => ?_, ?_, ?_, h.mem, fun n => ?_⟩
    · rw [h.addr, hown']
      rfl
    · rw [hown']
      exact h.running
    · rw [hown]
      exact h.open_ d
    · rw [hown]
      exact h.queue
    · have hu : (u.core c).context x = { (s.context c x) with pc := (s.context c x).pc + 32 } := h.context
      rw [hown', hown', hu]
      rfl
    · rw [hother u y hy, hother s y hy, h.others y hy]
    · rw [hown, hown]
      exact h.drawers
    · rw [hown, hown]
      exact h.store
    · rw [hown]
      exact h.counters n
  · exact h

/-! ### The obligation -/

/-- A command that has been dispatched and fails a check at its arrival is ready to halt. -/
theorem State.Quiet.sent_readyToHalt (hq : s.Quiet c x) (hplain : s.plainCore c x) :
    s.ReadyToHalt (s.sent c x (encodeCmd op f)) c x (s.queuedEntry c x (encodeCmd op f)) (s.core c).counter := by
  have hcore := State.core_modCore s c (fun k =>
    { (k.setContext x { (s.context c x) with pc := (s.context c x).pc + 32 }) with
      serial := k.serial + 1, lastDisp := x, q := [{ s.entry c x (encodeCmd op f) with stage := .queued, arr := 0 }] })
  refine ⟨rfl, rfl, rfl, hq.running, hplain.1, hplain.2, ?_, ?_, fun y hy => ?_, ?_, ?_, rfl, fun n => ?_⟩
  · rw [State.sent, hcore]
    simp [Core.dropCmd, State.queuedEntry]
  · rw [State.sent, State.context, hcore]
    exact Core.context_setContext _ _ _
  · rw [State.sent, State.context, hcore]
    exact Core.context_setContext_ne _ _ hy
  · rw [State.sent, hcore]
    rfl
  · rw [State.sent, hcore]
    exact ⟨rfl, rfl, rfl, rfl, rfl⟩
  · rw [State.sent, hcore]
    rfl

/-- The row of a command that fails a check at its arrival: it completes with the status of the check. -/
theorem State.Quiet.refused_row (hq : s.Quiet c x) (hplain : s.plainCore c x)
    (hroom : op.engine = 0 ∨ 0 < s.narrowed c op.engine (s.queueShare c)) {st : Nat} (hh : halting st = true)
    (hown : (s.sent c x (encodeCmd op f)).arriveHead c x op.engine
      = (s.sent c x (encodeCmd op f)).complete c (s.queuedEntry c x (encodeCmd op f)) st) :
    ∃ t, exec (Instr.ofOp op c x f) s = .next t ∧ s.haltedBy t c x st op (s.core c).counter := by
  have hhalted := (hq.sent_readyToHalt (op := op) (f := f) hplain).haltedBy (op := op) hh (encodeCmd_opcode op f)
  have hempty := hhalted.2.1
  have hrow : s.runWord c x (encodeCmd op f)
      = (s.sent c x (encodeCmd op f)).complete c (s.queuedEntry c x (encodeCmd op f)) st := by
    rw [hq.runWord_sent hroom, hq.arriveHeads_sent hown (State.arriveHead_empty hempty), State.settled_of_empty hempty]
  exact ⟨_, (exec_ofOp op c x f s).trans (hq.runRow_eq.trans (congrArg _ hrow)), hhalted⟩

/-- A command whose issue finds a halting status is ready to halt, its claims taken. -/
theorem State.Quiet.planned_readyToHalt (hq : s.Quiet c x) (hplain : s.plainCore c x) (hpeer : (s.plan c x op f).peer = none) :
    s.ReadyToHalt (s.headerRead c x op f) c x (s.plannedEntry c x op f) (fun n => (s.core c).counter n - f.claims n) := by
  have hread : (s.claimed c x (encodeCmd op f)).ReadKeeps (s.headerRead c x op f) := State.issueReads_readKeeps ..
  have hcore : (s.headerRead c x op f).core c =
      { ((s.core c).setContext x { (s.context c x) with pc := (s.context c x).pc + 32 }) with
        serial := (s.core c).serial + 1, arrivals := (s.core c).arrivals + 1, lastDisp := x, q := [s.entry c x (encodeCmd op f)],
        counters := takeClaims (encodeCmd op f).waits (s.core c).counters } := by
    rw [State.core_congr hread.cores]
    simp [State.claimed, State.arrived, Core.setContext]
  have hjob : (s.headerRead c x op f).jobOf c x = {} := by
    rw [← hplain.1, State.jobOf, State.jobOf]
    exact congrArg (fun l => Tab.get {} l (4 * c + x)) hread.assign
  refine ⟨hpeer, rfl, rfl, hq.running, hjob, hplain.2, ?_, ?_, fun y hy => ?_, ?_, ?_, hread.mem, fun n => ?_⟩
  · rw [hcore]
    simp [Core.dropCmd, State.plannedEntry, State.latchSlots, QCmd.withPlan]
  · rw [State.context, hcore]
    exact Core.context_setContext _ _ _
  · rw [State.context, hcore]
    exact Core.context_setContext_ne _ _ hy
  · rw [hcore]
    rfl
  · rw [hcore]
    exact ⟨rfl, rfl, rfl, rfl, rfl⟩
  · rw [hcore, Core.counter, takeClaims_get, claimSum_encode]
    rfl

/-- The issue of a command whose checks find a halting status and name no tarnished output. -/
theorem State.Quiet.issueOne_halting (ht : s.Takes c x op f) {st : Nat} (hh : halting st = true) (hv : (s.plan c x op f).v = .halt st)
    (htarnish : (s.plan c x op f).lat.tarnish = []) (houts : (s.plan c x op f).lat.outs = []) :
    (s.claimed c x (encodeCmd op f)).issueOne op c (s.entry c x (encodeCmd op f))
      = ((s.headerRead c x op f).haltStatuses c x op f st).complete c (s.plannedEntry c x op f) st := by
  have hskip : (s.entry c x (encodeCmd op f)).skipped = false := by
    simp only [State.entry, encodeCmd_pred, encodeCmd_psense, beq_eq_false_iff_ne]
    exact ht.pred
  have hv' : (planOf op (s.claimed c x (encodeCmd op f)) c (s.entry c x (encodeCmd op f))).v = .halt st := hv
  have hempty : (planOf op (s.claimed c x (encodeCmd op f)) c (s.entry c x (encodeCmd op f))).lat.tarnish.isEmpty = true :=
    List.isEmpty_iff.2 htarnish
  unfold State.issueOne
  rw [hskip]
  simp only [Bool.false_eq_true, if_false, hv', hempty, if_true]
  exact congrArg (fun u : State => u.complete c (s.plannedEntry c x op f) st)
    (State.macroEnds_halting (q := s.plannedEntry c x op f) hh rfl (encodeCmd_engine op f) hskip rfl houts)

/-- Settles O16: a command that fails a check completes with a halting status, and such a completion is the halt of its context. -/
theorem badCommandsHaltTheirContext : Obligations.BadCommandsHaltTheirContext := by
  unfold Obligations.BadCommandsHaltTheirContext
  refine ⟨fun op s c x f hq hplain hroom hbad => ?_, fun op s c x f hq hplain hroom hmode hdelta hclaims hshares => ?_,
    fun op s c x st f hb hq hplain ht hwait hv hh htarnish houts hpeer => ?_⟩
  · refine hq.refused_row hplain hroom (by decide) ?_
    have hillegal : CmdFields.illegal f := hbad
    rw [hq.arriveHead_sent, if_pos (by rw [decodeChecks_illegal op hillegal]; rfl)]
  · refine hq.refused_row hplain hroom (by decide) ?_
    have hdecode : ¬ (decodeChecks (encodeCmd op f)).isNone = true := by simp [encodeCmd_checks op f hmode hdelta hclaims]
    rw [hq.arriveHead_sent, if_neg hdecode, if_neg (by rw [hshares]; decide)]
  · have hhalted := ((hq.planned_readyToHalt hplain hpeer).haltStatuses (op := op) (f := f) st).haltedBy (op := op) hh (encodeCmd_opcode op f)
    have hempty := hhalted.2.1
    have hnone : (((((s.headerRead c x op f).haltStatuses c x op f st).complete c (s.plannedEntry c x op f) st)).core c).cmd?
        ((s.core c).serial + 1) = none := by
      rw [Core.cmd?, hempty]
      rfl
    have hrow : s.runWord c x (encodeCmd op f)
        = ((s.headerRead c x op f).haltStatuses c x op f st).complete c (s.plannedEntry c x op f) st := by
      rw [hq.runWord_sent ht.room, hq.arriveHeads_arrived ht.mode ht.delta ht.claims ht.shares,
        hq.resolve_arrived hb ht.waits (Or.inr hwait), State.Quiet.issueOne_halting ht hh hv htarnish houts, State.tryStart, hnone,
        State.commitAll_gone _ _ _ _ hnone]
    exact ⟨_, (exec_ofOp op c x f s).trans (hq.runRow_eq.trans (congrArg _ hrow)), hhalted⟩

end Sys2Proof.Machine
end

section
/-!
The actions of CTX_CTRL, the end of a save and the end of an abort (10 R224 to R231, R235): a context changed alone, what a restore makes of the
anvil's storage, how the commands of an aborted context leave their queues, and the obligation about them.
-/
namespace Sys2Proof.Machine

variable {s t : State} {c x : Nat} {q : QCmd}

/-! ### One context changed -/

theorem onCtx_eq (hc : c < 96) (hx : x < 4) (u : State) : onCtx c x u = .next u := by simp [onCtx, ctxExists, hc, hx]

theorem State.modContext_contextNow {u : State} (h : u.cores = s.cores) (g : Ctx → Ctx) :
    s.contextNow (u.modContext c x g) c x (g (s.context c x)) := by
  have hcore : (u.modContext c x g).core c = (s.core c).setContext x (g (s.context c x)) := by
    rw [State.modContext, State.core_modCore, State.core_congr h]
    rfl
  refine ⟨?_, fun z hz => ?_, fun d hd => ?_, ?_⟩
  · rw [State.context, hcore, Core.context_setContext]
  · rw [State.context, hcore, Core.context_setContext_ne _ _ hz]
    rfl
  · rw [State.modContext, State.core_modCore_ne _ _ hd, State.core_congr h]
  · rw [hcore]
    rfl

theorem State.modContext_onlyContext (s : State) (c x : Nat) (g : Ctx → Ctx) :
    s.onlyContext (s.modContext c x g) c x (g (s.context c x)) := ⟨State.modContext_contextNow rfl g, rfl⟩

/-- Events raised, then a core changed. -/
theorem State.eventsOnly.modCore {u : State} (h : s.eventsOnly u) (g : Core → Core) :
    { s with cores := (u.modCore c g).cores }.eventsOnly (u.modCore c g) :=
  ⟨congrArg (fun v : State => { v with cores := (u.modCore c g).cores }) h.1, h.2⟩

/-- A core changed, then events raised. -/
theorem State.eventsOnly.ofModCore {u : State} {g : Core → Core} (h : (s.modCore c g).eventsOnly u) : { s with cores := u.cores }.eventsOnly u := by
  rw [h.cores]
  exact h

theorem State.ctxEvent_eventsOnly (s : State) (c x code cls st : Nat) : s.eventsOnly (s.ctxEvent c x code cls st) := s.raise_eventsOnly _

/-! ### The end of a save (R227, R228) -/

theorem Tab.find?_filter {α : Type} (t : Tab α) (p : Nat × α → Bool) {k : Nat} (h : ∀ v, p (k, v) = true) :
    Tab.find? (t.filter p) k = Tab.find? t k := by
  induction t with
  | nil => rfl
  | cons e t ih =>
    obtain ⟨j, v⟩ := e
    by_cases hj : j = k
    · subst hj
      rw [List.filter_cons_of_pos (h v)]
      simp [Tab.find?]
    · by_cases hp : p (j, v) = true
      · rw [List.filter_cons_of_pos hp]
        simpa [Tab.find?, hj] using ih
      · rw [List.filter_cons_of_neg hp]
        simpa [Tab.find?, hj] using ih

/-- Contents outside a range that is no longer defined stand. -/
theorem State.readByte_forget_out {lo hi a : Nat} (h : ¬ (lo ≤ a ∧ a < hi)) : (s.forget lo hi).readByte a = s.readByte a := by
  have hfind : Tab.find? (s.forget lo hi).mem a = Tab.find? s.mem a :=
    Tab.find?_filter _ _ fun v => by
      have : (decide (lo ≤ a) && decide (a < hi)) = false := by simpa [Bool.and_eq_false_iff] using Nat.not_lt.1 ∘ fun h1 h2 => h ⟨h1, h2⟩
      simp [this]
  rw [State.readByte, State.readByte, Mem.get?, Mem.get?, hfind]

theorem foldl_add_eq_sum (l : List Nat) : l.foldl (· + ·) 0 = l.sum := (List.sum_eq_foldl).symm

theorem sum_map_const {α : Type} (l : List α) (g : α → Nat) (m : Nat) (h : ∀ a ∈ l, g a = m) : (l.map g).sum = l.length * m := by
  rw [List.map_congr_left h, List.map_const', List.sum_replicate, smul_eq_mul]

/-- A save record fits its area: eight tiles, four accumulators and one latch at most (10 R227, R235; 06 R132). -/
theorem State.saveBytes_anvilRecs_le (s : State) (c x : Nat) : saveBytes (s.anvilRecs c x) ≤ saveRecordMax := by
  have htiles : (s.tilesOf c x).length ≤ 8 := by
    unfold State.tilesOf
    split <;> simp
  have haccs : (s.accsOf c x).length ≤ 4 := by
    unfold State.accsOf
    split <;> simp
  have ht := List.length_filter_le (fun n => ((s.core c).tile n).inuse) (s.tilesOf c x)
  have ha := List.length_filter_le (fun n => ((s.core c).acc n).inuse) (s.accsOf c x)
  have hlatch : ((if ((s.core c).latch (s.latchNo c x)).valid then
      [AnvilRec.latch (s.latchNo c x) ((s.core c).latch (s.latchNo c x))] else []).map AnvilRec.bytes).sum ≤ 4672 := by
    split <;> simp [AnvilRec.bytes]
  unfold saveBytes
  rw [foldl_add_eq_sum]
  unfold State.anvilRecs saveRecordMax
  simp only [List.map_append, List.sum_append, List.map_map]
  have htiles' := sum_map_const ((s.tilesOf c x).filter fun n => ((s.core c).tile n).inuse)
    (AnvilRec.bytes ∘ fun n => AnvilRec.tile n ((s.core c).tile n)) 4672 fun _ _ => rfl
  have haccs' := sum_map_const ((s.accsOf c x).filter fun n => ((s.core c).acc n).inuse)
    (AnvilRec.bytes ∘ fun n => AnvilRec.acc n ((s.core c).acc n)) 65600 fun _ _ => rfl
  omega

/-- What the end of a save makes of its context: PREEMPTED with its records, or the action held behind the save (R227, R228). -/
def Ctx.afterSave (rs : List AnvilRec) (y : Ctx) : Ctx :=
  match y.heldAct with
  | .none => { y with st := .preempted, saved := rs }
  | h => { y with st := .aborting, resetting := h = .reset, heldAct := .none }

/-- A save whose started commands have completed ends. -/
theorem State.saveDone_eq (hst : (s.context c x).st = .preempting)
    (hq : ∀ q ∈ (s.core c).q, q.ctx = x → q.stage ≠ .started ∧ q.stage ≠ .committed) :
    s.saveDone c x = ((s.forget (s.saveBase c x) (s.saveBase c x + saveBytes (s.anvilRecs c x))).ctxEvent c x 0x0106 3 0).modContext c x
      (Ctx.afterSave (s.anvilRecs c x)) := by
  have hnone : ((s.core c).cmdsOf x).any (fun q => q.stage == .started || q.stage == .committed) = false := by
    refine List.any_eq_false.2 fun q hq' => ?_
    obtain ⟨hmem, hctx⟩ := List.mem_filter.1 hq'
    obtain ⟨hs, hc⟩ := hq q hmem (by simpa using hctx)
    simp [hs, hc]
  unfold State.saveDone
  simp only [hst, hnone, ne_eq, not_true_eq_false, if_false, Bool.false_eq_true]
  rfl

/-! ### Restoring the anvil's storage (06 R132) -/

/-- A run of updates, one per key, that do nothing twice: the keys updated, and the others as they were. -/
theorem get_foldl_update {α β : Type} (get : α → Nat → β) (set : α → Nat → β → α) (g : β → β)
    (hset : ∀ k n v m, get (set k n v) m = if m = n then v else get k m) (hg : ∀ v, g (g v) = g v) (l : List Nat) (k : α) (n : Nat) :
    get (l.foldl (fun k e => set k e (g (get k e))) k) n = if n ∈ l then g (get k n) else get k n := by
  induction l generalizing k with
  | nil => rfl
  | cons e l ih =>
    rw [List.foldl_cons, ih, hset]
    by_cases hne : n = e
    · simp [hne, hg]
    · simp [hne]

/-- A fold whose steps keep a part of the state keeps it. -/
theorem foldl_keeps {α β γ : Type} (part : β → γ) (step : β → α → β) (h : ∀ b a, part (step b a) = part b) (l : List α) (b : β) :
    part (l.foldl step b) = part b := by
  induction l generalizing b with
  | nil => rfl
  | cons a l ih => exact (ih _).trans (h b a)

/-- One record of a save put back. -/
def Core.restoreRec (k : Core) : AnvilRec → Core
  | .tile n v => k.setTile n v
  | .latch n v => k.setLatch n v
  | .acc n v => k.setAcc n v

/-- Records put back in turn: what the last record for an entry says, or what was there. -/
theorem Core.foldl_restoreRec {β : Type} (get : Core → β) (own : AnvilRec → Option β) (h : ∀ k r, get (k.restoreRec r) = (own r).getD (get k))
    (rs : List AnvilRec) (k : Core) : get (rs.foldl Core.restoreRec k) = (rs.reverse.findSome? own).getD (get k) := by
  induction rs generalizing k with
  | nil => rfl
  | cons r rs ih =>
    rw [List.foldl_cons, ih, h, List.reverse_cons, List.findSome?_append]
    cases rs.reverse.findSome? own with
    | some v => rfl
    | none => cases hr : own r <;> simp [hr]

theorem Core.tile_restoreRec (n : Nat) (k : Core) (r : AnvilRec) : (k.restoreRec r).tile n = (r.asTile n).getD (k.tile n) := by
  cases r with
  | tile m v =>
    rw [Core.restoreRec, Core.tile_setTile]
    unfold AnvilRec.asTile
    by_cases h : m = n
    · simp [h]
    · simp [h, Ne.symm h]
  | acc m v => rfl
  | latch m v => rfl

theorem Core.acc_restoreRec (n : Nat) (k : Core) (r : AnvilRec) : (k.restoreRec r).acc n = (r.asAcc n).getD (k.acc n) := by
  cases r with
  | tile m v => rfl
  | acc m v =>
    rw [Core.restoreRec, Core.acc_setAcc]
    unfold AnvilRec.asAcc
    by_cases h : m = n
    · simp [h]
    · simp [h, Ne.symm h]
  | latch m v => rfl

theorem Core.latch_restoreRec (n : Nat) (k : Core) (r : AnvilRec) : (k.restoreRec r).latch n = (r.asLatch n).getD (k.latch n) := by
  cases r with
  | tile m v => rfl
  | acc m v => rfl
  | latch m v =>
    rw [Core.restoreRec, Core.latch_setLatch]
    unfold AnvilRec.asLatch
    by_cases h : m = n
    · simp [h]
    · simp [h, Ne.symm h]

/-- What neither a tile nor an accumulator is part of stands when they are written in turn. -/
theorem Core.foldl_setTile_keeps {γ : Type} (part : Core → γ) (h : ∀ k n v, part (k.setTile n v) = part k) (g : Core → Nat → Tile)
    (l : List Nat) (k : Core) : part (l.foldl (fun k n => k.setTile n (g k n)) k) = part k :=
  foldl_keeps part _ (fun _ _ => h _ _ _) l k

theorem Core.foldl_setAcc_keeps {γ : Type} (part : Core → γ) (h : ∀ k n v, part (k.setAcc n v) = part k) (g : Core → Nat → Acc)
    (l : List Nat) (k : Core) : part (l.foldl (fun k n => k.setAcc n (g k n)) k) = part k :=
  foldl_keeps part _ (fun _ _ => h _ _ _) l k

/-- A core whose tiles and accumulators of a context hold no contents. -/
def Core.anvilEmptied (ts as : List Nat) (k : Core) : Core :=
  as.foldl (fun k a => k.setAcc a { k.acc a with vals := [], bad := false })
    (ts.foldl (fun k t => k.setTile t { k.tile t with bytes := [], side := [], bad := false }) k)

theorem Core.anvilEmptied_keeps {γ : Type} (part : Core → γ) (ht : ∀ k n v, part (k.setTile n v) = part k)
    (ha : ∀ k n v, part (k.setAcc n v) = part k) (ts as : List Nat) (k : Core) : part (k.anvilEmptied ts as) = part k :=
  (Core.foldl_setAcc_keeps part ha _ as _).trans (Core.foldl_setTile_keeps part ht _ ts k)

theorem Core.anvilEmptied_tile (ts as : List Nat) (k : Core) (n : Nat) : (k.anvilEmptied ts as).tile n
    = if n ∈ ts then { k.tile n with bytes := [], side := [], bad := false } else k.tile n :=
  (Core.foldl_setAcc_keeps (Core.tile · n) (fun _ _ _ => rfl) _ as _).trans
    (get_foldl_update Core.tile Core.setTile (fun v => { v with bytes := [], side := [], bad := false })
      (fun k n v m => k.tile_setTile n m v) (fun _ => rfl) ts k n)

theorem Core.anvilEmptied_acc (ts as : List Nat) (k : Core) (n : Nat) : (k.anvilEmptied ts as).acc n
    = if n ∈ as then { k.acc n with vals := [], bad := false } else k.acc n := by
  have htiles := Core.foldl_setTile_keeps (Core.acc · n) (fun _ _ _ => rfl)
    (fun k t => { k.tile t with bytes := [], side := [], bad := false }) ts k
  refine (get_foldl_update Core.acc Core.setAcc (fun v => { v with vals := [], bad := false })
    (fun k n v m => k.acc_setAcc n m v) (fun _ => rfl) as _ n).trans ?_
  dsimp only at htiles
  rw [htiles]

/-- A core with the anvil's storage of a context as its records say (06 R132). -/
def Core.restored (rs : List AnvilRec) (ts as : List Nat) (k : Core) : Core := rs.foldl Core.restoreRec (k.anvilEmptied ts as)

/-- What no part of the anvil's storage is part of stands. -/
theorem Core.restored_keeps {γ : Type} (part : Core → γ) (ht : ∀ k n v, part (k.setTile n v) = part k)
    (ha : ∀ k n v, part (k.setAcc n v) = part k) (hl : ∀ k n v, part (k.setLatch n v) = part k) (rs : List AnvilRec) (ts as : List Nat)
    (k : Core) : part (k.restored rs ts as) = part k := by
  refine (foldl_keeps part _ (fun k r => ?_) rs _).trans (Core.anvilEmptied_keeps part ht ha ts as k)
  cases r with
  | tile n v => exact ht ..
  | acc n v => exact ha ..
  | latch n v => exact hl ..

theorem State.restoreAnvil_eq (s : State) (c x : Nat) (rs : List AnvilRec) :
    s.restoreAnvil c x rs = s.modCore c (Core.restored rs (s.tilesOf c x) (s.accsOf c x)) := by
  unfold State.restoreAnvil
  refine congrArg (s.modCore c) (funext fun k => ?_)
  unfold Core.restored Core.anvilEmptied
  congr 1

/-- A core as the resume of a context leaves it (R228). -/
def Core.resumed (x : Nat) (rs : List AnvilRec) (ts as : List Nat) (k : Core) : Core :=
  (k.restored rs ts as).setContext x { ((k.restored rs ts as).context x) with st := .running, saved := [] }

theorem Core.resumed_context (k : Core) (x : Nat) (rs : List AnvilRec) (ts as : List Nat) (y : Nat) : (k.resumed x rs ts as).context y
    = if y = x then { (k.context x) with st := .running, saved := [] } else k.context y := by
  have hctx : ∀ z, (k.restored rs ts as).context z = k.context z := fun z =>
    Core.restored_keeps (Core.context · z) (fun _ _ _ => rfl) (fun _ _ _ => rfl) (fun _ _ _ => rfl) rs ts as k
  unfold Core.resumed
  by_cases hy : y = x
  · subst hy
    rw [Core.context_setContext, if_pos rfl, hctx]
  · rw [Core.context_setContext_ne _ _ hy, if_neg hy, hctx]

/-- A resume of a context none of whose barriers was released meanwhile (R228, R264). -/
theorem State.ctxResume_eq (hbar : ∀ q ∈ (s.core c).q, q.ctx = x → ∀ st, q.bar ≠ .released st) :
    s.ctxResume c x
      = (s.modCore c (Core.resumed x (s.context c x).saved (s.tilesOf c x) (s.accsOf c x))).ctxEvent c x 0x0106 3 0 := by
  have hmid : ((s.restoreAnvil c x (s.context c x).saved).modContext c x (fun y => { y with st := .running, saved := [] }))
      = s.modCore c (Core.resumed x (s.context c x).saved (s.tilesOf c x) (s.accsOf c x)) := by
    rw [State.restoreAnvil_eq, State.modContext, State.modCore_modCore]
    rfl
  have hqueue : (((s.modCore c (Core.resumed x (s.context c x).saved (s.tilesOf c x) (s.accsOf c x))).ctxEvent c x 0x0106 3 0).core c).q
      = (s.core c).q := by
    rw [State.core_congr (State.ctxEvent_eventsOnly _ _ _ _ _ _).cores, State.core_modCore]
    exact Core.restored_keeps Core.q (fun _ _ _ => rfl) (fun _ _ _ => rfl) (fun _ _ _ => rfl) _ _ _ _
  unfold State.ctxResume
  dsimp only
  rw [hmid]
  refine foldl_fixed _ _ _ fun q hq => ?_
  obtain ⟨hmem, hctx⟩ := List.mem_filter.1 hq
  rw [hqueue] at hmem
  have hnot := hbar q hmem (by simpa using hctx)
  split
  · exact absurd ‹_› (hnot _)
  · rfl

/-! ### The end of an abort (R224, R226) -/

/-- A command that an abort finds before its start and outside a barrier, that signals no abort and reads no other core. -/
structure QCmd.Unstarted (q : QCmd) (x : Nat) : Prop where
  ctx : q.ctx = x
  stage : q.stage = .queued ∨ q.stage = .arrived
  bar : q.bar = .no
  quiet : q.cmd.sigMode ≠ 3
  peer : q.peer = none

theorem signalsAt_aborted {mode : Nat} (h : mode ≠ 3) : signalsAt mode stAborted = false := by
  unfold signalsAt
  rw [if_neg (by decide)]
  split
  · decide
  · exact absurd rfl h
  · rfl

/-- An abort takes such a command out of its queue, and the context records it (R224). -/
theorem State.abortOne_unstarted (h : q.Unstarted x) (hclosing : ∀ d, ((t.core c).drawer d).closing = false) :
    t.abortOne c q = (t.modCore c (fun k => k.dropCmd q.id)).modContext c x
      (fun y => { y with lastOp := q.cmd.opcode, lastStatus := stAborted }) := by
  have hcomplete : t.abortOne c q = t.complete c q stAborted := by
    unfold State.abortOne
    rw [h.bar]
    rcases h.stage with hs | hs <;> simp [hs]
  have hev : ∀ u : State, u.statusEvent c q stAborted = u := fun u => by
    simp [State.statusEvent, halting, tarnishing, stAborted, stOrphan, stStepSkipped]
  have hh : halting stAborted = false := by decide
  rw [hcomplete]
  unfold State.complete
  simp only [signalsAt_aborted h.quiet, hev, hh, h.peer, h.ctx, Bool.false_eq_true, if_false, if_true]
  refine State.settleClosing_none _ _ fun d => ?_
  rw [State.modContext, State.core_modCore, State.core_modCore]
  exact hclosing d

/-- What an abort of commands of context `x` keeps, the queue apart: counters, drawers, the other cores, memory, and the context but for the last
command it records. -/
structure State.AbortKeeps (s t : State) (c x : Nat) : Prop where
  context : { (t.context c x) with lastOp := (s.context c x).lastOp, lastStatus := (s.context c x).lastStatus } = s.context c x
  counters : (t.core c).counters = (s.core c).counters
  drawers : (t.core c).drawers = (s.core c).drawers
  others : ∀ d, d ≠ c → t.core d = s.core d
  mem : t.mem = s.mem

theorem State.AbortKeeps.refl (s : State) (c x : Nat) : s.AbortKeeps s c x := ⟨rfl, rfl, rfl, fun _ _ => rfl, rfl⟩

theorem State.AbortKeeps.trans {s t u : State} (h : s.AbortKeeps t c x) (g : t.AbortKeeps u c x) : s.AbortKeeps u c x := by
  refine ⟨?_, g.counters.trans h.counters, g.drawers.trans h.drawers, fun d hd => (g.others d hd).trans (h.others d hd), g.mem.trans h.mem⟩
  have hg := g.context
  have hh := h.context
  rw [← hg] at hh
  exact hh

theorem State.abortOne_keeps (h : q.Unstarted x) (hclosing : ∀ d, ((t.core c).drawer d).closing = false) :
    t.AbortKeeps (t.abortOne c q) c x ∧ ((t.abortOne c q).core c).q = (t.core c).q.filter (fun p => p.id != q.id) := by
  rw [State.abortOne_unstarted h hclosing]
  have hcore : ((t.modCore c (fun k => k.dropCmd q.id)).modContext c x
      (fun y => { y with lastOp := q.cmd.opcode, lastStatus := stAborted })).core c
      = ((t.core c).dropCmd q.id).setContext x { (t.context c x) with lastOp := q.cmd.opcode, lastStatus := stAborted } := by
    rw [State.modContext, State.core_modCore, State.core_modCore]
    rfl
  refine ⟨⟨?_, ?_, ?_, fun d hd => ?_, rfl⟩, ?_⟩
  · rw [State.context, hcore, Core.context_setContext]
  · rw [hcore]
    rfl
  · rw [hcore]
    rfl
  · rw [State.modContext, State.core_modCore_ne _ _ hd, State.core_modCore_ne _ _ hd]
  · rw [hcore]
    rfl

theorem Core.cmd?_of_mem {k : Core} (hnodup : (k.q.map (·.id)).Nodup) (hq : q ∈ k.q) : k.cmd? q.id = some q := by
  have hsome : (k.q.find? (fun p => p.id == q.id)).isSome = true := List.find?_isSome.2 ⟨q, hq, by simp⟩
  obtain ⟨p, hp⟩ := Option.isSome_iff_exists.1 hsome
  have hid : p.id = q.id := by simpa using List.find?_some hp
  have hpq : p = q := List.inj_on_of_nodup_map hnodup (List.mem_of_find?_eq_some hp) hq hid
  rw [Core.cmd?, hp, hpq]

/-- The commands of an aborted context, decided one after the other: each leaves its queue, and nothing else moves. -/
theorem State.abortIds_keeps (todo : List QCmd) (t : State) (hun : ∀ q ∈ todo, q.Unstarted x) (hmem : ∀ q ∈ todo, q ∈ (t.core c).q)
    (hnodup : ((t.core c).q.map (·.id)).Nodup) (hids : (todo.map (·.id)).Nodup) (hclosing : ∀ d, ((t.core c).drawer d).closing = false) :
    t.AbortKeeps (todo.foldl (fun s q => s.abortId c q.id) t) c x
    ∧ ((todo.foldl (fun s q => s.abortId c q.id) t).core c).q = (t.core c).q.filter (fun p => !(p.id ∈ todo.map (·.id))) := by
  induction todo generalizing t with
  | nil => exact ⟨.refl t c x, by simp⟩
  | cons q todo ih =>
    obtain ⟨hq, hrest⟩ := List.forall_mem_cons.1 hun
    obtain ⟨hqmem, hmem⟩ := List.forall_mem_cons.1 hmem
    obtain ⟨hqid, hids⟩ := List.nodup_cons.1 hids
    have hfind : (t.core c).cmd? q.id = some q := Core.cmd?_of_mem hnodup hqmem
    have habort : t.abortId c q.id = t.abortOne c q := by
      unfold State.abortId
      rw [hfind]
    obtain ⟨hkeep, hqueue⟩ := State.abortOne_keeps (c := c) hq hclosing
    rw [List.foldl_cons, habort]
    obtain ⟨hkeeps, hfinal⟩ := ih (t.abortOne c q) hrest
      (fun p hp => by
        rw [hqueue]
        refine List.mem_filter.2 ⟨hmem p hp, ?_⟩
        have : p.id ≠ q.id := fun he => hqid (List.mem_map.2 ⟨p, hp, he⟩)
        simpa using this)
      (by
        rw [hqueue]
        exact hnodup.sublist ((List.filter_sublist (p := fun p : QCmd => p.id != q.id)).map _))
      hids
      (fun d => by
        rw [Core.drawer, hkeep.drawers]
        exact hclosing d)
    refine ⟨hkeep.trans hkeeps, ?_⟩
    rw [hfinal, hqueue, List.filter_filter]
    congr 1
    funext p
    by_cases hp : p.id = q.id <;> simp [hp]

/-- Where a context stands once its commands are decided: IDLE, at the first that had not completed (R226). -/
def Ctx.decided (qs : List QCmd) (y : Ctx) : Ctx :=
  { y with st := .idle, pc := match qs with
      | q :: _ => q.addr
      | [] => y.pc }

/-- A core whose commands of a context are decided, the context IDLE and its event raised (R226). -/
def State.abortEnded (s : State) (c x : Nat) : State :=
  (s.abortAll c x).modContext c x (fun y => { y with heldAct := .none, resetting := false })

theorem State.abortAll_eq (s : State) (c x : Nat) :
    s.abortAll c x = ((((s.core c).cmdsOf x).foldl (fun s q => s.abortId c q.id) s).modContext c x
      (Ctx.decided ((s.core c).cmdsOf x))).ctxEvent c x 0x0105 2 stAborted := rfl

theorem State.abortEnded_spec {u : State} (hu : ((s.core c).cmdsOf x).foldl (fun s q => s.abortId c q.id) s = u) :
    (s.abortEnded c x).context c x = { ((u.context c x).decided ((s.core c).cmdsOf x)) with heldAct := .none, resetting := false }
    ∧ { ((s.abortEnded c x).core c) with ctx := (u.core c).ctx } = u.core c
    ∧ (∀ d, d ≠ c → (s.abortEnded c x).core d = u.core d) ∧ (s.abortEnded c x).mem = u.mem := by
  rw [State.abortEnded, State.abortAll_eq, hu]
  obtain ⟨hctx, -, hothers, hrest⟩ := State.modContext_contextNow (s := u) (c := c) (x := x) rfl (Ctx.decided ((s.core c).cmdsOf x))
  generalize hv : u.modContext c x (Ctx.decided ((s.core c).cmdsOf x)) = v at *
  have hev := v.ctxEvent_eventsOnly c x 0x0105 2 stAborted
  obtain ⟨hctx', -, hothers', hrest'⟩ := State.modContext_contextNow (s := v) (c := c) (x := x) hev.cores
    (fun y => { y with heldAct := .none, resetting := false })
  refine ⟨?_, ?_, fun d hd => (hothers' d hd).trans (hothers d hd), ?_⟩
  · rw [hctx', hctx]
  · rw [← hrest, ← hrest']
  · refine hev.mem.trans ?_
    rw [← hv]
    rfl

theorem State.abortDone_eq (hst : (s.context c x).st = .aborting) (hres : (s.context c x).resetting = false)
    (hheld : (s.context c x).heldAct ≠ .reset) : s.abortDone c x = s.abortEnded c x := by
  unfold State.abortDone
  simp only [hst, hres, hheld, ne_eq, not_true_eq_false, if_false, Bool.false_eq_true, or_self]
  rfl

/-- Settles O18: each action is one change of one context, and a save, a resume and an abort are what their commands leave of the core. -/
theorem contextActions : Obligations.ContextActions := by
  unfold Obligations.ContextActions
  refine ⟨fun s c x req hc hx hok hst hpw => ?_, fun s c x req hc hx hbad => ?_, fun s c x req hc hx hok hst => ?_,
    fun s c x hc hx hst hq => ?_, fun s c x req hc hx hok hst hbar => ?_, fun s c x req hc hx hok => ?_,
    fun s c x hc hx hst hres hheld hnodup hclosing hq => ?_⟩
  · have hexec : exec (.ctxStart c x req) s = .next (s.ctxStart c x) := by
      refine (onCtx_eq hc hx _).trans ?_
      simp [hok, hst, hpw]
    exact ⟨_, hexec, s.modContext_onlyContext c x _⟩
  · have hexec : exec (.ctxStart c x req) s = .next (s.refuseState .ctxCtrl c x req) := by
      refine (onCtx_eq hc hx _).trans ?_
      rw [if_pos]
      rcases hbad with h | h | ⟨h, h0⟩ <;> simp [State.ctlRefused, h]
      simp [h0]
    exact ⟨_, hexec, s.refuseState_refusedOnly ..⟩
  · have hexec : exec (.ctxPreempt c x req) s = .next (s.ctxPreempt c x) := by
      refine (onCtx_eq hc hx _).trans ?_
      simp [hok, hst]
    exact ⟨_, hexec, s.modContext_onlyContext c x _⟩
  · have hev := (s.forget (s.saveBase c x) (s.saveBase c x + saveBytes (s.anvilRecs c x))).ctxEvent_eventsOnly c x 0x0106 3 0
    refine ⟨_, onCtx_eq hc hx _, ?_⟩
    rw [State.saveDone_eq hst hq]
    refine ⟨?_, ?_, fun a ha => ?_⟩
    · have hnow := State.modContext_contextNow (s := s) (c := c) (x := x) hev.cores (Ctx.afterSave (s.anvilRecs c x))
      unfold Ctx.afterSave at hnow ⊢
      exact hnow
    · have hmem : (((s.forget (s.saveBase c x) (s.saveBase c x + saveBytes (s.anvilRecs c x))).ctxEvent c x 0x0106 3 0).modContext c x
          (Ctx.afterSave (s.anvilRecs c x))).mem = (s.forget (s.saveBase c x) (s.saveBase c x + saveBytes (s.anvilRecs c x))).mem := hev.mem
      rw [hmem]
      exact hev.modCore (c := c) (fun k => k.setContext x (Ctx.afterSave (s.anvilRecs c x) (k.context x)))
    · have hfit := s.saveBytes_anvilRecs_le c x
      have hout : ¬ (s.saveBase c x ≤ a ∧ a < s.saveBase c x + saveBytes (s.anvilRecs c x)) := fun h => ha ⟨h.1, by
        unfold saveRecordMax at hfit
        omega⟩
      refine Eq.trans ?_ (State.readByte_forget_out hout)
      exact congrArg (fun m => (Mem.get? m a).getD (Config.freeByte a)) hev.mem
  · have hexec : exec (.ctxResume c x req) s = .next (s.ctxResume c x) := by
      refine (onCtx_eq hc hx _).trans ?_
      simp [hok, hst]
    refine ⟨_, hexec, ?_⟩
    rw [State.ctxResume_eq hbar]
    generalize hu : s.modCore c (Core.resumed x (s.context c x).saved (s.tilesOf c x) (s.accsOf c x)) = u
    have hev := u.ctxEvent_eventsOnly c x 0x0106 3 0
    have hcore : (u.ctxEvent c x 0x0106 3 0).core c
        = (s.core c).resumed x (s.context c x).saved (s.tilesOf c x) (s.accsOf c x) := by
      rw [State.core_congr hev.cores, ← hu, State.core_modCore]
    refine ⟨?_, fun y hy => ?_, fun d hd => ?_, ?_, ?_, fun n => ?_, fun n => ?_, fun n => ?_⟩
    · rw [State.context, hcore, Core.resumed_context, if_pos rfl]
      rfl
    · rw [State.context, hcore, Core.resumed_context, if_neg hy]
      rfl
    · rw [State.core_congr hev.cores, ← hu, State.core_modCore_ne _ _ hd]
    · rw [← hu] at hev ⊢
      exact hev.ofModCore
    · rw [hcore]
      exact Core.restored_keeps (fun k : Core =>
        { k with ctx := (s.core c).ctx, tiles := (s.core c).tiles, accs := (s.core c).accs, latches := (s.core c).latches })
        (fun _ _ _ => rfl) (fun _ _ _ => rfl) (fun _ _ _ => rfl) _ _ _ _
    · rw [hcore]
      refine (Core.foldl_restoreRec (Core.tile · n) _ (Core.tile_restoreRec n) _ _).trans ?_
      rw [Core.anvilEmptied_tile]
    · rw [hcore]
      refine (Core.foldl_restoreRec (Core.acc · n) _ (Core.acc_restoreRec n) _ _).trans ?_
      rw [Core.anvilEmptied_acc]
    · rw [hcore]
      refine (Core.foldl_restoreRec (Core.latch · n) _ (Core.latch_restoreRec n) _ _).trans ?_
      exact congrArg _ (Core.anvilEmptied_keeps (Core.latch · n) (fun _ _ _ => rfl) (fun _ _ _ => rfl) _ _ _)
  · have hexec : exec (.ctxAbort c x req) s = .next (s.ctxAbort c x) := by
      refine (onCtx_eq hc hx _).trans ?_
      simp [hok]
    exact ⟨_, hexec, s.modContext_onlyContext c x _⟩
  · have hqs : ∀ q ∈ (s.core c).cmdsOf x, q.Unstarted x := fun q hmem => by
      obtain ⟨hin, hctx⟩ := List.mem_filter.1 hmem
      have hctx : q.ctx = x := by simpa using hctx
      obtain ⟨hstage, hbar, hsig, hpeer⟩ := hq q hin hctx
      exact ⟨hctx, hstage, hbar, hsig, hpeer⟩
    have hsub : List.Sublist (((s.core c).cmdsOf x).map (·.id)) ((s.core c).q.map (·.id)) := (List.filter_sublist ..).map _
    obtain ⟨hkeep, hqueue⟩ := State.abortIds_keeps (c := c) ((s.core c).cmdsOf x) s hqs
      (fun q hmem => (List.mem_filter.1 hmem).1) hnodup (hnodup.sublist hsub) hclosing
    have hexec : exec (.abortDone c x) s = .next (s.abortEnded c x) :=
      (onCtx_eq hc hx _).trans (congrArg _ (State.abortDone_eq hst hres hheld))
    refine ⟨_, hexec, ?_⟩
    generalize hu : ((s.core c).cmdsOf x).foldl (fun s q => s.abortId c q.id) s = u at hkeep hqueue
    obtain ⟨hctx, hcore, hothers, hmem⟩ := State.abortEnded_spec hu
    refine ⟨?_, ?_, fun n => ?_, ?_, fun q hq' => ?_, fun n => ?_, fun d => ?_, fun d hd => (hothers d hd).trans (hkeep.others d hd), fun a => ?_⟩
    · rw [hctx]
      rfl
    · rw [hctx, ← hkeep.context]
      rfl
    · rw [hctx, ← hkeep.context]
      rfl
    · rw [hctx, ← hkeep.context]
      rfl
    · have hin : q ∈ (u.core c).q := by
        rw [← hcore]
        exact hq'
      rw [hqueue] at hin
      obtain ⟨hin, hnot⟩ := List.mem_filter.1 hin
      intro hx'
      have hown : q ∈ (s.core c).cmdsOf x := List.mem_filter.2 ⟨hin, by simpa using hx'⟩
      simp only [Bool.not_eq_eq_eq_not, Bool.not_true, decide_eq_false_iff_not] at hnot
      exact hnot (List.mem_map.2 ⟨q, hown, rfl⟩)
    · rw [Core.counter, Core.counter, ← hkeep.counters, ← hcore]
    · rw [Core.drawer, Core.drawer, ← hkeep.drawers, ← hcore]
    · rw [State.readByte, State.readByte, hmem, hkeep.mem]

end Sys2Proof.Machine
end

section
/-!
No well-formed command faults, and none is refused (10 R207; 22 R476): what gates a command is in range, and every other command answers a next
state at once.
-/
namespace Sys2Proof.Machine

variable {s : State} {c x : Nat} {op : Opcode} {f : CmdFields}

theorem wf_left {a b : Bool} (h : (a && b) = true) : a = true := (Bool.and_eq_true_iff.1 h).1
theorem wf_right {a b : Bool} (h : (a && b) = true) : b = true := (Bool.and_eq_true_iff.1 h).2

/-! ### The gates -/

/-- Run where a part exists. -/
theorem ite_runs {p : Prop} [Decidable p] (h : p) {u : State} {e : Fault} : Runs (if p then .next u else .fault e) := ⟨u, if_pos h⟩

theorem ite_runs_not {p : Prop} [Decidable p] (h : ¬ p) {u : State} {e : Fault} : Runs (if p then .fault e else .next u) := ⟨u, if_neg h⟩

theorem ctxExists_of_wf (h : (wfCore c && wfCtx x) = true) : ctxExists c x = true :=
  decide_eq_true ⟨of_decide_eq_true (wf_left h), of_decide_eq_true (wf_right h)⟩

theorem onCtx_runs (h : (wfCore c && wfCtx x) = true) {u : State} : Runs (onCtx c x u) := ite_runs (ctxExists_of_wf h)

theorem runRow_runs (h : (wfCore c && wfCtx x) = true) : Runs (runRow op c x f s) := ite_runs (ctxExists_of_wf h)

theorem SvcFrame.withTyp_port (g : SvcFrame) (n : Nat) : (g.withTyp n).port = g.port := by
  unfold SvcFrame.withTyp
  split <;> rfl

/-- A frame of a service port, with the type its row gives it. -/
theorem onFrame_runs {g : SvcFrame} (h : wfSvcPort g.port = true) {n : Nat} {u : State} : Runs (onSvc (g.withTyp n).port u) :=
  ite_runs (by
    rw [SvcFrame.withTyp_port]
    exact of_decide_eq_true h)

theorem execBarCfgWrite_runs {counter : Bool} {key : Nat} {v : W32} {req : Nat}
    (h : (if counter then wfCtr key else wfBarKey key) = true) : Runs (execBarCfgWrite counter key v req s) := by
  unfold execBarCfgWrite
  cases counter with
  | true => exact ite_runs (of_decide_eq_true h)
  | false => exact ite_runs (of_decide_eq_true h)

/-! ### The obligation -/

/-- Settles O60: by the part of the device a command names; the rest name none that can be missing. -/
theorem wellFormedCommandsAreCarriedOut : Obligations.WellFormedCommandsAreCarriedOut := by
  unfold Obligations.WellFormedCommandsAreCarriedOut
  intro i s h
  cases i with
  | nop | endStream | movi | mov | add | sub | mul | andOp | orOp | xor | shl | shr | sar | pset | plog | bra | brr | hrd | hset | hcopy
  | hdrop | cadd | crd | rsig | barrier | descwr | drtag | lsdecide | lrpick | ntto | intto | nttl | inttl | autol | dbchain | dbreduce
  | hadd | hsub | haddp | hsubp | hmulp | hmulc | hmuli | tcfg | tload | tmul | tzero | tdrain | bconv | mmulm | xfer | xobj | qread
  | xput | xget | ksrelin | ksrot | ksconj | kshoist | anneal | hrescale =>
    exact runRow_runs h
  | commandArrival | preemptSaveDone | abortDone =>
    exact onCtx_runs h
  | commandStart | commandCommit | ctxStart | ctxPreempt | ctxResume | ctxAbort | ctxReset =>
    exact onCtx_runs (wf_left h)
  | coreWatchdogExpiry | keyChunkArrival =>
    exact ite_runs (of_decide_eq_true h)
  | commandIssue | coreModeWrite | cvFeed | cvRunWrite | hbmTempRead | offline | online | softPpr | hardPpr | laneRemap | arpRequest
  | tsSlotDataWrite | pwEnter | peenArm =>
    exact ite_runs (of_decide_eq_true (wf_left h))
  | windowWrite | spInjectArm | join =>
    exact ite_runs (of_decide_eq_true (wf_left (wf_left h)))
  | lockWrite | pairComplement | registerWrite =>
    exact ite_runs (of_decide_eq_true (wf_right h))
  | hbmRecalibration | dropKeep | linkFrameReceive | packetForward | store | loadReq | loadData | put | getReq | getData | ack | signal
  | barArrive | barRelease | time | resync | portTraining | trainingRetry | portCtrlWrite | portWidthChange | fabricBarrierWatchdog
  | fabGrantWrite | neighbourSolicitation | echoRequest | serviceLinkUp | serviceLinkDown | cvStart | cvFinish | cvApply
  | supervisorBatchSend | supervisorAck | avsLoopStep | currentRead | pewterEntryDrained | pwExit | pewterJobStart | pewterGate
  | peenTally | dieCounterFire | barrierWatchdog | hubLinkLoss | custodyStackIdle =>
    exact ite_runs (of_decide_eq_true h)
  | hello | finish | keyset | job | resultAck | resultGap | model | rekey | keepalive | close =>
    exact onFrame_runs h
  | windowOpen =>
    exact ite_runs ⟨of_decide_eq_true (wf_left (wf_left (wf_left (wf_left h)))), of_decide_eq_true (wf_right (wf_left (wf_left (wf_left h))))⟩
  | windowClose =>
    exact ite_runs ⟨of_decide_eq_true (wf_left (wf_left h)), of_decide_eq_true (wf_right (wf_left h))⟩
  | histClear =>
    exact ite_runs ⟨of_decide_eq_true (wf_left h), of_decide_eq_true (wf_right h)⟩
  | vrAlert | clockMonitor | clockStop | clockWake =>
    exact ite_runs_not (by have := of_decide_eq_true h; omega)
  | junctionRead =>
    exact ite_runs_not (by have := of_decide_eq_true (wf_left h); omega)
  | barCfgWrite counter key v req =>
    exact execBarCfgWrite_runs (wf_left h)
  | _ => exact ⟨_, rfl⟩

end Sys2Proof.Machine
end

section
/-!
COMMAND_ARRIVAL (10 R206, R207): the fetch at CTX_PC reads stacked memory, which changes registers of the stacks and raises events alone, so the
command that arrives is the one a row of its own would dispatch.
-/
namespace Sys2Proof.Machine

variable {s t u : State} {c x : Nat} {op : Opcode} {f : CmdFields}

/-! ### What a read of a granule changes -/

/-- An address among the registers of the twelve stacks (22 R476). -/
def stackReg (a : Nat) : Prop := controlBase + 0x200000 ≤ a ∧ a < controlBase + 0x300000

/-- `t` differs from `s` by a read of stacked memory: registers of the stacks, links that failed once, and events. -/
def State.fetched (s t : State) : Prop :=
  { t with router := s.router, regs := s.regs, linkBad := s.linkBad } = s
  ∧ ∀ a, ¬ eventCounter a → ¬ stackReg a → Tab.find? t.regs a = Tab.find? s.regs a

theorem State.fetched.refl (s : State) : s.fetched s := ⟨rfl, fun _ _ _ => rfl⟩

theorem State.fetched.trans (h : s.fetched t) (g : t.fetched u) : s.fetched u := by
  refine ⟨?_, fun a he ha => (g.2 a he ha).trans (h.2 a he ha)⟩
  have hrest := h.1
  rw [← g.1] at hrest
  exact hrest

/-- A part of the state that a read of stacked memory does not change. -/
theorem State.fetched.get {α : Type} (h : s.fetched t) (g : State → α)
    (hg : ∀ u r v l, g { u with router := r, regs := v, linkBad := l } = g u) : g t = g s := by
  rw [← hg t s.router s.regs s.linkBad]
  exact congrArg g h.1

theorem State.fetched.reg (h : s.fetched t) {r : RegName} {i n : Nat} (he : ¬ eventCounter (RegKey.addr ⟨r, i, n⟩))
    (hs : ¬ stackReg (RegKey.addr ⟨r, i, n⟩)) : t.reg r i n = s.reg r i n := State.regK_congr (h.2 _ he hs)

theorem State.eventsOnly.fetched (h : s.eventsOnly t) : s.fetched t :=
  ⟨congrArg (fun v : State => { v with linkBad := s.linkBad }) h.1, fun a he _ => h.2 a he⟩

/-- The registers of stacks that a read of stacked memory writes lie where the map puts the stacks. -/
theorem stackReg_addr {r : RegName} {i : Nat} (hr : r.block = .hbm ∧ r.offset < 0x10000) (hi : i < 12) :
    stackReg (RegKey.addr ⟨r, i, 0⟩) := by
  rw [stackReg, RegKey.addr_eq r i 0 _ _ _ (congrArg Block.base hr.1) rfl rfl]
  have := hr.2
  simp only [Block.base]
  omega

theorem State.setReg_fetched (s : State) {r : RegName} {i : Nat} (v : W32) (hr : r.block = .hbm ∧ r.offset < 0x10000) (hi : i < 12) :
    s.fetched (s.setReg r i 0 v) :=
  ⟨rfl, fun _ _ ha => s.find?_setReg_ne r i 0 v fun e => ha (e ▸ stackReg_addr hr hi)⟩

theorem State.count64_fetched (s : State) {lo hi : RegName} {i : Nat} (hlo : lo.block = .hbm ∧ lo.offset < 0x10000)
    (hhi : hi.block = .hbm ∧ hi.offset < 0x10000) (h : i < 12) : s.fetched (s.count64 lo hi i) :=
  (s.setReg_fetched _ hlo h).trans (State.setReg_fetched _ _ hhi h)

/-- A die has three stacks. -/
theorem mapAt_fst_lt (g : Nat) {y : Nat} (hy : y < dieRange) : (mapAt g y).1 < 3 := by
  simp only [dieRange] at hy
  unfold mapAt
  split
  · exact Nat.div_lt_of_lt_mul (by omega)
  · exact Nat.mod_lt _ (by decide)

theorem State.stackOf_lt (s : State) {a : Nat} (h : inHbm a = true) : s.stackOf a < 12 := by
  have ha : a < 0x9000000000 := of_decide_eq_true h
  have hdie : a / dieRange < 4 := Nat.div_lt_of_lt_mul (by simp only [dieRange]; omega)
  have hmap := mapAt_fst_lt (granOf (s.rf .hbmMap (a / dieRange) 0 2 0)) (y := a % dieRange) (Nat.mod_lt _ (by decide))
  simp only [State.stackOf, State.stackAt]
  omega

theorem State.readOutcome_fetched (s : State) {a : Nat} (h : inHbm a = true) (sev kind : Nat) : s.fetched (s.readOutcome a sev kind) := by
  have hst := s.stackOf_lt h
  have hst' : (s.stackAt a).1 < 12 := hst
  unfold State.readOutcome
  split
  · exact .refl s
  · exact (s.setReg_fetched _ (by decide) hst).trans (State.raise_eventsOnly _ _).fetched
  · refine State.fetched.trans ?_ ((State.setReg_fetched _ _ (by decide) hst).trans (State.raise_eventsOnly _ _).fetched)
    unfold State.recordHbmFault
    dsimp only
    split
    · exact .refl s
    · exact ((s.setReg_fetched _ (by decide) hst').trans (State.setReg_fetched _ _ (by decide) hst')).trans
        (State.setReg_fetched _ _ (by decide) hst')

theorem State.hbmRead_fetched (s : State) {a : Nat} (h : inHbm a = true) : s.fetched (s.hbmRead a 0).1 := by
  have hgran : inHbm (64 * (a / 64)) = true := by
    have ha : a < 0x9000000000 := of_decide_eq_true h
    exact decide_eq_true (by omega)
  have hcache : s.fetched (s.cacheRead (a / 64) 0) := by
    unfold State.cacheRead
    rw [if_pos (Or.inr rfl)]
    split
    · exact s.count64_fetched (by decide) (by decide) (s.stackOf_lt hgran)
    · exact s.count64_fetched (by decide) (by decide) (s.stackOf_lt hgran)
  exact (hcache.trans (State.readOutcome_fetched _ h (s.severity a) 1)).trans ⟨rfl, fun _ _ _ => rfl⟩

/-! ### What the control core sees of it -/

theorem State.fetched.cores (h : s.fetched t) : t.cores = s.cores := h.get State.cores fun _ _ _ _ => rfl
theorem State.fetched.core (h : s.fetched t) (d : Nat) : t.core d = s.core d := State.core_congr h.cores d
theorem State.fetched.readByte (h : s.fetched t) (a : Nat) : t.readByte a = s.readByte a := h.get (·.readByte a) fun _ _ _ _ => rfl
theorem State.fetched.context (h : s.fetched t) (d y : Nat) : t.context d y = s.context d y := h.get (·.context d y) fun _ _ _ _ => rfl

theorem State.fetched.coreReg {r : RegName} (h : s.fetched t) (hr : r.block = .core) (i n : Nat) : t.reg r i n = s.reg r i n :=
  h.reg (coreReg_not_eventCounter hr i n) fun ha => by
    obtain ⟨-, ha⟩ := ha
    rw [RegKey.addr_core hr] at ha
    omega

theorem State.fetched.sbStatus (h : s.fetched t) : t.reg .sbStatus = s.reg .sbStatus := by
  refine h.reg ?_ (by unfold stackReg; decide)
  rintro ⟨r, hr, he⟩
  revert r
  decide

/-- A register of the peening block. -/
theorem State.fetched.peenReg (h : s.fetched t) {r : RegName} (hr : r.block = .peen ∧ r.offset < 0x1000 ∧ r.stride ≤ 16) {k : Nat} (hk : k < 8) :
    t.reg r 0 k = s.reg r 0 k := by
  obtain ⟨hb, ho, hs⟩ := hr
  have haddr : RegKey.addr ⟨r, 0, k⟩ = controlBase + 0xF0000 + 0 * 0x10000 + r.offset + r.stride * k :=
    RegKey.addr_eq r 0 k _ _ _ (congrArg Block.base hb) rfl rfl
  have hmul : r.stride * k ≤ 16 * 8 := Nat.mul_le_mul hs hk.le
  refine h.reg ?_ fun ⟨ha, _⟩ => by omega
  rintro ⟨r', hr', he⟩
  have hlow : ∀ v ∈ eventCounters, RegKey.addr ⟨v, 0, 0⟩ < controlBase + 0xF0000 := by decide
  have := hlow r' hr'
  omega

theorem State.fetched.modeM (h : s.fetched t) (d : Nat) : t.modeM d = s.modeM d := congrArg (bitOf · 0) (h.coreReg rfl d 0)

theorem State.fetched.coreLive (h : s.fetched t) (d : Nat) : t.coreLive d = s.coreLive d := by
  rw [State.coreLive, State.coreLive, h.sbStatus]

theorem State.fetched.peenSlots (h : s.fetched t) (kind target : Nat) : t.peenSlots kind target = s.peenSlots kind target := by
  unfold State.peenSlots
  rw [h.peenReg (r := .peenCtrl) (by decide) (by decide)]
  refine congrArg (fun l : List Nat => if bitOf (s.reg .peenCtrl) 0 then l else []) (List.filter_congr fun k hk => ?_)
  have hcfg := h.peenReg (r := .pnCfg) (by decide) (List.mem_range.1 hk)
  simp only [State.rf, hcfg]

theorem State.mem_peenSlots_lt {kind target k : Nat} (h : k ∈ s.peenSlots kind target) : k < 8 := by
  unfold State.peenSlots at h
  split at h
  · exact List.mem_range.1 (List.mem_filter.1 h).1
  · exact absurd h List.not_mem_nil

theorem State.fetched.narrowed (h : s.fetched t) (d eng share : Nat) : t.narrowed d eng share = s.narrowed d eng share := by
  unfold State.narrowed
  rw [h.peenSlots]
  refine List.foldl_ext _ _ share fun b k hk => ?_
  rw [State.rf, State.rf, h.peenReg (by decide) (State.mem_peenSlots_lt hk)]

theorem State.fetched.mayDispatch (h : s.fetched t) (d y eng : Nat) : t.mayDispatch d y eng = s.mayDispatch d y eng := by
  have hno : t.noDispatch = s.noDispatch := h.get State.noDispatch fun _ _ _ _ => rfl
  have hshare : t.queueShare d = s.queueShare d := by rw [State.queueShare, State.queueShare, h.modeM]
  simp only [State.mayDispatch, hshare, h.context, h.core, h.coreLive, h.narrowed, hno]

theorem State.fetched.dispatchTurn (h : s.fetched t) (d y : Nat) : t.dispatchTurn d y = s.dispatchTurn d y := by
  have hbytes : ∀ a n, t.readBytes a n = s.readBytes a n := fun a n => State.readBytes_congr fun i _ => h.readByte _
  simp only [State.dispatchTurn, State.canDispatch, h.modeM, h.core, h.context, h.mayDispatch, hbytes]

theorem State.fetched.quiet (h : s.fetched t) (hq : s.Quiet c x) : t.Quiet c x where
  core := hq.core
  ctx := hq.ctx
  running := by rw [h.context]; exact hq.running
  empty := by rw [h.core]; exact hq.empty
  dispatch := (h.get State.noDispatch fun _ _ _ _ => rfl).trans hq.dispatch
  live := by rw [h.coreLive]; exact hq.live
  turn := by rw [h.dispatchTurn]; exact hq.turn
  fetch := by rw [h.context]; exact hq.fetch

theorem State.fetched.entry (h : s.fetched t) (w : Cmd) : t.entry c x w = s.entry c x w := by
  simp only [State.entry, State.descCopies, State.descInShare, h.core, h.context, h.modeM]

/-! ### The arrival -/

/-- What decodes is an encoded command whose fields the decode checks find legal. -/
theorem Cmd.encoded_of_decodeChecks {w : Cmd} (h : decodeChecks w = some op) : encodeCmd op w.fields = w := by
  obtain ⟨hop, heng, hbit, -⟩ := (decodeChecks_eq_some_iff w op).1 h
  exact w.encodeCmd_fields_of (Opcode.code_of_ofCode hop).symm heng.symm hbit

/-- On a quiet core a command that decodes, and whose counters lie in the context's share, arrives once it has been dispatched. -/
theorem State.Quiet.arriveHeads_dispatch (hq : s.Quiet c x) {w : Cmd} (hdec : decodeChecks w = some op)
    (hshares : (s.entry c x w).counters.all (fun n => s.ctrInShare c x n) = true) :
    ((s.dispatch c x w).1).arriveHeads c = s.arrived c x w := by
  obtain ⟨-, -, -, hmode, hdelta, hclaims⟩ := (decodeChecks_eq_some_iff w op).1 hdec
  have hw := Cmd.encoded_of_decodeChecks hdec
  generalize w.fields = f at hw
  subst hw
  rw [encodeCmd_sigMode] at hmode hdelta
  rw [encodeCmd_sigDelta] at hdelta
  rw [encodeCmd_waitA, encodeCmd_waitB] at hclaims
  rw [hq.dispatch_eq]
  refine hq.arriveHeads_arrived hmode ?_ ?_ hshares
  · rcases hdelta with h | h
    · exact Or.inl (BitVec.eq_of_toNat_eq h)
    · exact Or.inr fun h' => h (by rw [h']; rfl)
  · rintro ⟨ha, hb, hc⟩
    exact hclaims ⟨by simp [ha], by simp [hb], by simp [hc]⟩

/-- A fetch on a quiet core, where the engine's queue has room: the command at CTX_PC is read and dispatched (10 R206). -/
theorem State.Quiet.arrival_eq (hq : s.Quiet c x) {w : Cmd} (hw : Cmd.ofBytes (s.readBytes (s.context c x).pc 32) = w)
    (hdec : decodeChecks w = some op) (honline : s.stackOnline (s.context c x).pc = true) (hread : (s.hbmRead (s.context c x).pc 0).2 = false)
    (hroom : op.engine = 0 ∨ 0 < s.narrowed c op.engine (s.queueShare c)) :
    s.arrival c x = (((s.hbmRead (s.context c x).pc 0).1.dispatch c x w).1).arriveHeads c := by
  have heng : w.engine = op.engine := ((decodeChecks_eq_some_iff w op).1 hdec).2.1.symm
  have hmay : s.mayDispatch c x w.engine = true := by
    simp only [State.mayDispatch, hq.running, hq.dispatch, hq.live, Core.queueOf, hq.empty, heng]
    rcases hroom with h | h <;> simp [h]
  unfold State.arrival
  simp [hq.running, hq.turn, hq.fetch, hw, hmay, honline, hread]

theorem State.Quiet.commandArrival_row (hq : s.Quiet c x) {w : Cmd} (hw : Cmd.ofBytes (s.readBytes (s.context c x).pc 32) = w)
    (hdec : decodeChecks w = some op) (honline : s.stackOnline (s.context c x).pc = true) (hread : (s.hbmRead (s.context c x).pc 0).2 = false)
    (hroom : op.engine = 0 ∨ 0 < s.narrowed c op.engine (s.queueShare c))
    (hshares : (s.entry c x w).counters.all (fun n => s.ctrInShare c x n) = true) :
    ∃ t, exec (.commandArrival c (x, false)) s = .next t ∧ (t.core c).q = [s.entry c x w]
      ∧ t.context c x = { (s.context c x) with pc := (s.context c x).pc + 32 } ∧ (t.core c).counters = (s.core c).counters
      ∧ (t.core c).drawers = (s.core c).drawers ∧ (∀ d, d ≠ c → t.core d = s.core d) ∧ ∀ a, t.readByte a = s.readByte a := by
  have hu := s.hbmRead_fetched hq.fetch
  have harrival := hq.arrival_eq hw hdec honline hread hroom
  generalize (s.hbmRead (s.context c x).pc 0).1 = u at hu harrival
  have hshares' : (u.entry c x w).counters.all (fun n => u.ctrInShare c x n) = true := by
    simpa only [hu.entry, State.ctrInShare, hu.modeM] using hshares
  rw [(hu.quiet hq).arriveHeads_dispatch hdec hshares'] at harrival
  refine ⟨u.arrived c x w, (onCtx_eq hq.core hq.ctx _).trans (congrArg _ harrival), ?_, ?_, ?_, ?_, fun d hd => ?_, fun a => hu.readByte a⟩
  · rw [State.core_arrived, hu.entry]
  · rw [State.arrived_context, hu.context]
  · rw [State.counters_arrived, hu.core]
  · rw [← hu.core, State.arrived, State.core_modCore]
    rfl
  · rw [State.arrived, State.core_modCore_ne _ _ hd, hu.core]

end Sys2Proof.Machine
end

section
/-!
COMMAND_ISSUE, COMMAND_START and COMMAND_COMMIT, one step of a command each (10 R213, R214; 09 R189 to R191): on a core that holds the one command,
what the step makes of its entry, of the counters and of the drawers.
-/
namespace Sys2Proof.Machine

variable {s t u : State} {c x : Nat} {op : Opcode} {f : CmdFields} {q : QCmd}

/-! ### Issue -/

theorem onCore_eq (hc : c < 96) (u : State) : onCore c u = .next u := if_pos hc

/-- The issue of an NTT, drawbench or anvil command, with nothing started. -/
theorem State.Quiet.resolve_issued (hq : s.Quiet c x) (ht : s.Takes c x op f) (hp : s.Passes c x op f)
    (he : op.engine = 1 ∨ op.engine = 2 ∨ op.engine = 3) : (s.arrived c x (encodeCmd op f)).resolve c = s.issued c x op f := by
  obtain ⟨-, hb⟩ := Opcode.plain_engine he
  have hskip : (s.entry c x (encodeCmd op f)).skipped = false := by
    simpa [State.entry] using ht.pred
  have h0 : op.engine ≠ 0 := by omega
  have h5 : op.engine ≠ 5 := by omega
  have hv : (planOf op (s.claimed c x (encodeCmd op f)) c (s.entry c x (encodeCmd op f))).v = .ok := hp.2
  rw [hq.resolve_arrived hb ht.waits (Or.inr hp.1), State.issueOne]
  simp only [hskip, hv, Bool.false_eq_true, if_false, hb, h0, h5]
  rfl

theorem State.Quiet.commandIssue_row (hq : s.Quiet c x) (ht : s.Takes c x op f) (hp : s.Passes c x op f)
    (he : op.engine = 1 ∨ op.engine = 2 ∨ op.engine = 3) :
    ∃ t, exec (.commandIssue (c, [])) (s.arrived c x (encodeCmd op f)) = .next t
      ∧ (t.core c).q = [{ (s.startedEntry c x op f) with stage := .issued }]
      ∧ (∀ n, (t.core c).counter n = f.found (s.core c) n) ∧ (t.core c).drawers = (s.core c).drawers
      ∧ ∀ a, t.readByte a = s.readByte a := by
  have hlt := (Opcode.plain_engine he).1
  have hsame : (s.arrived c x (encodeCmd op f)).modCore c (fun k => { k with badCtr := ([] : List Nat).foldl (fun l n => addOnce n l) k.badCtr })
      = s.arrived c x (encodeCmd op f) := by
    simp only [State.arrived, State.modCore_modCore, List.foldl_nil]
  have hexec : exec (.commandIssue (c, [])) (s.arrived c x (encodeCmd op f)) = .next (s.issued c x op f) := by
    refine (onCore_eq hq.core _).trans (congrArg _ ?_)
    rw [hsame, hq.resolve_issued ht hp he]
  obtain ⟨cs, hcore, hcs⟩ := State.issued_core (s := s) (c := c) (x := x) (f := f) hlt
  refine ⟨_, hexec, ?_, fun n => ?_, ?_, (State.issued_kept hlt).mem⟩
  · rw [State.issued_q hlt, State.issuedEntry, State.plannedEntry_eq hlt]
    rfl
  · rw [hcore, CmdFields.found_eq]
    exact hcs n
  · rw [hcore]
    rfl

theorem State.commandIssue_empty (hc : c < 96) (h : (s.core c).q = []) (bad : List Nat) :
    ∃ t, exec (.commandIssue (c, bad)) s = .next t ∧ (∀ n, n ∈ (t.core c).badCtr ↔ n ∈ bad ∨ n ∈ (s.core c).badCtr)
      ∧ (t.core c).drawers = (s.core c).drawers ∧ (t.core c).counters = (s.core c).counters ∧ (∀ d, d ≠ c → t.core d = s.core d) := by
  have hcore := State.core_modCore (s := s) c (fun k => { k with badCtr := bad.foldl (fun l n => addOnce n l) k.badCtr })
  refine ⟨_, (onCore_eq hc _).trans (congrArg _ (State.resolve_of_empty ?_)), fun n => ?_, ?_, ?_, fun d hd => State.core_modCore_ne _ _ hd⟩
  · rw [hcore]
    exact h
  · rw [hcore]
    exact (mem_foldl_addOnce (a := n)).trans or_comm
  · rw [hcore]
  · rw [hcore]

/-! ### Start -/

/-- One command alone in its core's queues, of an engine that shares no drawer with another core. -/
structure State.Alone (s : State) (c x : Nat) (q : QCmd) : Prop where
  core : c < 96
  ctx : x < 4
  queue : (s.core c).q = [q]
  own : q.ctx = x
  eng : q.eng = 1 ∨ q.eng = 2 ∨ q.eng = 3
  live : s.coreLive c = true
  peer : q.peer = none

theorem State.Alone.cmd? (h : s.Alone c x q) : (s.core c).cmd? q.id = some q := by simp [Core.cmd?, h.queue]

/-- With its tags ready, and no window write before it, a command alone in its core's queues can start (09 R189, R190). -/
theorem State.Alone.canStart (h : s.Alone c x q) (hstage : q.stage = .issued) (hsrcs : ∀ d ∈ q.srcs, ((s.core c).drawer d).ready = true)
    (hdsts : ∀ d ∈ q.dsts, ((s.core c).drawer d).open_ = true)
    (hwin : ∀ w ∈ s.waitw, w.owner = c → ∀ d ∈ q.dsts, ¬ d ∈ touched w.off w.data.length) : s.canStart c q = true := by
  have htags : s.tagsReady c q = true := by
    rw [State.tagsReady, QCmd.sources, h.peer, List.append_nil, List.all_map, Bool.and_eq_true, List.all_eq_true, List.all_eq_true]
    exact ⟨hsrcs, hdsts⟩
  have hanvil : anvilFree s c q = true := by
    unfold anvilFree
    simp [h.queue, hstage]
    split <;> rfl
  have hfree : s.engineFree c q = true := by
    have h4 : q.eng ≠ 4 := by have := h.eng; omega
    simp [State.engineFree, h.queue, hstage, h4, hanvil]
  have hbefore : s.startsBefore c q = [] := by simp [State.startsBefore, h.queue]
  have hwriter : q.dsts.all (fun d => !s.writerAhead c q d) = true := by
    refine List.all_eq_true.2 fun d hd => ?_
    have hnone : s.waitw.any (fun w => w.owner == c && decide (w.arr < q.arr) && decide (d ∈ touched w.off w.data.length)) = false := by
      refine List.any_eq_false.2 fun w hw => ?_
      simp only [Bool.and_eq_true, beq_iff_eq, decide_eq_true_eq]
      exact fun hall => hwin w hw hall.1.1 d hd hall.2
    simp [State.writerAhead, hbefore, hnone]
  simp [State.canStart, htags, hfree, h.peer, hwriter, State.leaseAhead, hbefore]

theorem State.Alone.startTurn (h : s.Alone c x q) : s.startTurn c q = true := by
  rw [State.startTurn, Bool.or_eq_true, List.all_eq_true]
  refine Or.inr fun y hy => ?_
  have hne : q.ctx ≠ y := fun e => rotationBefore_ne hy e.symm
  have hnone : (s.core c).nextStart y q.eng = none := by simp [Core.nextStart, Core.queueOf, h.queue, hne]
  rw [hnone]

theorem State.Alone.tryStart (h : s.Alone c x q) (hstage : q.stage = .issued) (hrun : (s.context c x).st = .running)
    (hsrcs : ∀ d ∈ q.srcs, ((s.core c).drawer d).ready = true) (hdsts : ∀ d ∈ q.dsts, ((s.core c).drawer d).open_ = true)
    (hwin : ∀ w ∈ s.waitw, w.owner = c → ∀ d ∈ q.dsts, ¬ d ∈ touched w.off w.data.length) : s.tryStart c q.id = s.started c q := by
  have h0 : q.eng ≠ 0 := by have := h.eng; omega
  have h5 : q.eng ≠ 5 := by have := h.eng; omega
  have hgo : (s.context c q.ctx).goesOn q = true := by simp [Ctx.goesOn, h.own, hrun]
  have hsources : q.sources c = q.srcs.map (fun d => (c, d)) := by rw [QCmd.sources, h.peer, List.append_nil]
  have hfull : ∀ d ∈ q.srcs, ((s.core c).drawer d).tag = .full := fun d hd => State.ready_not_torn _ (hsrcs d hd)
  have horphan : (q.sources c ++ q.dsts.map (fun d => (c, d))).any (fun e => ((s.core e.1).drawer e.2).tag == .orphan) = false := by
    rw [hsources, List.any_eq_false]
    intro e hmem
    rcases List.mem_append.1 hmem with hmem | hmem
    · obtain ⟨d, hd, rfl⟩ := List.mem_map.1 hmem
      simp [hfull d hd]
    · obtain ⟨d, hd, rfl⟩ := List.mem_map.1 hmem
      rcases State.open_tag _ (hdsts d hd) with h | h <;> simp [h]
  have htorn : (q.sources c).any (fun e => ((s.core e.1).drawer e.2).tag == .torn) = false := by
    rw [hsources, List.any_eq_false]
    intro e hmem
    obtain ⟨d, hd, rfl⟩ := List.mem_map.1 hmem
    simp [hfull d hd]
  unfold State.tryStart
  rw [h.cmd?]
  simp only [hstage, hgo, h.live, h0, h5, ne_eq, not_true_eq_false, Bool.not_true, Bool.false_eq_true, or_self, if_false]
  unfold State.startEngine
  dsimp only
  rw [horphan, htorn, h.canStart hstage hsrcs hdsts hwin, h.startTurn]
  rfl

theorem State.Alone.commandStart_row (h : s.Alone c x q) (hstage : q.stage = .issued) (hrun : (s.context c x).st = .running)
    (hsrcs : ∀ d ∈ q.srcs, ((s.core c).drawer d).ready = true) (hdsts : ∀ d ∈ q.dsts, ((s.core c).drawer d).open_ = true)
    (hwin : ∀ w ∈ s.waitw, w.owner = c → ∀ d ∈ q.dsts, ¬ d ∈ touched w.off w.data.length) :
    ∃ t, exec (.commandStart c x q.eng) s = .next t ∧ (t.core c).q = [{ q with stage := .started }]
      ∧ (∀ d ∈ q.dsts, (t.core c).drawer d = { ((s.core c).drawer d) with claim := true })
      ∧ (∀ d, ¬ d ∈ q.dsts → (t.core c).drawer d = (s.core c).drawer d) ∧ { t with cores := s.cores } = s := by
  have hnext : (s.core c).nextStart x q.eng = some q := by simp [Core.nextStart, Core.queueOf, h.queue, h.own, hstage]
  have hexec : exec (.commandStart c x q.eng) s = .next (s.started c q) := by
    refine (onCtx_eq h.core h.ctx _).trans (congrArg _ ?_)
    rw [hnext]
    exact h.tryStart hstage hrun hsrcs hdsts hwin
  have hdrawer : ∀ d, ((s.started c q).core c).drawer d
      = if d ∈ q.dsts then { ((s.core c).drawer d) with claim := true } else (s.core c).drawer d := fun d => by
    rw [State.started, State.core_modCore]
    exact Core.drawer_foldl_modDrawer (fun v => { v with claim := true }) (fun _ => rfl) q.dsts (s.core c) d
  refine ⟨_, hexec, ?_, fun d hd => ?_, fun d hd => ?_, rfl⟩
  · rw [State.started, State.core_modCore]
    simp [Core.modCmd, foldl_drawers_q, h.queue, modFirst]
  · rw [hdrawer, if_pos hd]
  · rw [hdrawer, if_neg hd]

/-! ### Commit -/

/-- A part of every core that result headers are no part of. -/
theorem State.writeOuts_get {α : Type} (g : Core → α) (hg : ∀ k d h, g (k.setHdr d h) = g k) (s : State) (q : QCmd) (d : Nat) :
    g ((s.writeOuts q).core d) = g (s.core d) := by
  have hput : ∀ (t : State) (o : Nat × Nat × Header), g ((t.putOut (q.cmd.opa 25 24) o).core d) = g (t.core d) := by
    intro t o
    by_cases ho : o.1 < 96
    · rw [State.putOut, if_pos ho]
      by_cases hd : d = o.1
      · rw [hd, State.core_modCore, hg]
      · rw [State.core_modCore_ne _ _ hd]
    · rw [State.putOut, if_neg ho]
      have hcores : (t.hbmStore o.2.1 (q.cmd.opa 25 24) o.2.2.bytes).sameCores t := by
        refine (foldl_cores (fun s g => State.cacheWrite { s with ecc := Tab.set 0 s.ecc g 0 } g _) (fun v g => ?_) _ _).trans ?_
        · exact State.cacheWrite_cores _ g _
        · rfl
      rw [State.core_congr hcores]
  unfold State.writeOuts
  generalize q.lat.outs = os
  induction os generalizing s with
  | nil => rfl
  | cons o os ih => rw [List.foldl_cons, ih, hput]

/-- A command alone in its core's queues commits: its run, its result headers, its drawers' tags, and its completion (09 R191). -/
theorem State.Alone.commandCommit_eq (h : s.Alone c x q) (hstage : q.stage = .started) (hop : q.cmd.op? = some op)
    (hsound : badSource op s c q = none) : exec (.commandCommit c x q.eng (0, false)) s
      = .next ((((engineRun op s c q).writeOuts q).modCore c (fun k => k.commitDrawers q)).complete c q stOk) := by
  have hfirst : (((s.core c).queueOf x q.eng).filter (fun q => q.stage == .started))[0]? = some q := by
    simp [Core.queueOf, h.queue, h.own, hstage]
  have hbehind : tmulBehind s c q = false := by simp [tmulBehind, h.queue]
  have hcommit : s.tryCommit c q.id = s.commitCmd op c q := by
    unfold State.tryCommit
    rw [h.cmd?]
    simp [hop, hstage, h.live, hbehind]
  have hrun : s.commitCmd op c q
      = (((engineRun op s c q).writeOuts q).modCore c (fun k => k.commitDrawers q)).complete c q stOk := by
    unfold State.commitCmd
    rcases h.eng with he | he | he <;> rw [he] <;> simp only [hsound]
  refine (onCtx_eq h.core h.ctx _).trans (congrArg _ ?_)
  simp only [hfirst, Bool.false_and, Bool.false_eq_true, if_false, hcommit, hrun]

theorem State.Alone.commandCommit_row (h : s.Alone c x q) (hstage : q.stage = .started) (hop : q.cmd.op? = some op)
    (hsound : badSource op s c q = none) (hclosing : ∀ d, ((s.core c).drawer d).closing = false) :
    ∃ t, exec (.commandCommit c x q.eng (0, false)) s = .next t ∧ (t.core c).q = []
      ∧ (∀ d ∈ q.dsts, ¬ d ∈ q.cons → ((t.core c).drawer d).tag = .full ∧ ((t.core c).drawer d).claim = false)
      ∧ (∀ d ∈ q.cons, ¬ d ∈ q.held → ((t.core c).drawer d).tag = .empty ∨ ((t.core c).drawer d).closing = true)
      ∧ ∀ d, ¬ d ∈ q.dsts → ¬ d ∈ q.cons → (t.core c).drawer d = (s.core c).drawer d := by
  refine ⟨_, h.commandCommit_eq hstage hop hsound, ?_⟩
  generalize hu : ((engineRun op s c q).writeOuts q).modCore c (fun k => k.commitDrawers q) = u
  obtain ⟨⟨hfrontq, hfrontd, -⟩, -⟩ := engineRun_front op s c q
  have hqueue : (u.core c).q = [q] := by
    rw [← hu, State.core_modCore, Core.commitDrawers_q, State.writeOuts_q, hfrontq, h.queue]
  have hold : ∀ d, (((engineRun op s c q).writeOuts q).core c).drawer d = (s.core c).drawer d := fun d => by
    rw [State.writeOuts_get (Core.drawer · d) (fun _ _ _ => rfl), Core.drawer, hfrontd]
    rfl
  have hdrawer : ∀ d, (u.core c).drawer d = if d ∈ q.cons ∧ ¬ d ∈ q.held then
        { (if d ∈ q.dsts then { ((s.core c).drawer d) with tag := .full, claim := false } else (s.core c).drawer d) with closing := true }
      else if d ∈ q.dsts then { ((s.core c).drawer d) with tag := .full, claim := false } else (s.core c).drawer d := fun d => by
    rw [← hu, State.core_modCore, Core.drawer_commitDrawers, hold]
  have hdropped : ∀ d, ((u.dropped c q stOk).core c).drawer d = (u.core c).drawer d := fun d => by
    rw [State.dropped_core]
    split <;> rfl
  have hsettle : ∀ d, ((u.complete c q stOk).core c).drawer d = (u.core c).drawer d
      ∨ ((u.core c).drawer d).closing = true ∧ ((u.complete c q stOk).core c).drawer d = ((u.core c).drawer d).emptied := fun d => by
    rw [State.complete_ok u c q h.peer, ← hdropped d]
    exact State.settleClosing_drawer _ c d
  have hstands : ∀ d, ((u.core c).drawer d).closing = false → ((u.complete c q stOk).core c).drawer d = (u.core c).drawer d := fun d hd =>
    (hsettle d).resolve_right fun hcl => by simp [hd] at hcl
  refine ⟨State.complete_q u c q stOk (by decide) (by decide) hqueue, fun d hd hcons => ?_, fun d hcons hheld => ?_, fun d hd hcons => ?_⟩
  · have hcommitted := hdrawer d
    rw [if_neg fun h => hcons h.1, if_pos hd] at hcommitted
    rw [hstands d (by rw [hcommitted]; exact hclosing d), hcommitted]
    exact ⟨rfl, rfl⟩
  · rcases hsettle d with hd | ⟨-, hd⟩
    · refine Or.inr ?_
      rw [hd, hdrawer, if_pos ⟨hcons, hheld⟩]
    · refine Or.inl ?_
      rw [hd]
      rfl
  · have hcommitted := hdrawer d
    rw [if_neg fun h => hcons h.1, if_neg hd] at hcommitted
    rw [hstands d (by rw [hcommitted]; exact hclosing d), hcommitted]

end Sys2Proof.Machine
end

section
/-!
The life of a command where it goes wrong or waits too long (10 R222, R232; 19 R404; 04 R92, R97), and the obligation about that life step by step.
-/
namespace Sys2Proof.Machine

variable {s t u : State} {c x : Nat} {op : Opcode} {f : CmdFields} {q : QCmd}

/-! ### A halt -/

theorem State.setRec_cores (s : State) (n : Nat) (r : JRec) : (s.setRec n r).cores = s.cores := by
  rw [State.setRec]
  generalize hu : ({ s with journal := Tab.set {} s.journal n r } : State) = u
  have hcores : u.cores = s.cores := by rw [← hu]
  rw [← hcores]
  by_cases h : u.jrnlSize = 0
  · rw [if_pos h]
  · rw [if_neg h]
    exact (u.hubStore_spec _ _).1.cores

/-- Holding the job of a context that halts touches no core (16 R356). -/
theorem State.holdJob_cores (s : State) (c x st : Nat) : (s.holdJob c x st).cores = s.cores := by
  unfold State.holdJob
  dsimp only
  split
  · rfl
  split
  case h_1 p _ =>
    unfold State.holdSlot
    dsimp only
    split
    · exact (State.raise_cores _ _).trans (s.setRec_cores _ _)
    · rfl
  case h_2 => rfl

theorem Ctx.haltAt_running {y : Ctx} (h : y.st = .running) (addr code st : Nat) :
    (y.haltAt addr code st).st = .halted ∧ (y.haltAt addr code st).lastStatus = st := by
  unfold Ctx.haltAt
  simp only [h, and_self]

/-- The cores after a completion with a halting status, on a core where no drawer closes: the command has left its queue and its context has
halted. -/
theorem State.complete_halting_core {st : Nat} (hh : halting st = true) (hp : q.peer = none)
    (hclosing : ∀ d, ((t.core c).drawer d).closing = false) :
    (t.complete c q st).core c = ((t.core c).dropCmd q.id).setContext q.ctx ((t.context c q.ctx).haltAt q.addr q.cmd.opcode st)
    ∧ ∀ d, d ≠ c → (t.complete c q st).core d = t.core d := by
  have hsig : signalsAt q.cmd.sigMode st = false := if_pos hh
  generalize hu : ((t.modCore c (fun k => k.dropCmd q.id)).statusEvent c q st).haltCmd c q st = u
  have hcores : u.cores = (((t.modCore c (fun k => k.dropCmd q.id)).statusEvent c q st).modContext c q.ctx
      (fun y => y.haltAt q.addr q.cmd.opcode st)).cores := by
    rw [← hu]
    exact State.holdJob_cores _ _ _ _
  have hcore : u.core c = ((t.core c).dropCmd q.id).setContext q.ctx ((t.context c q.ctx).haltAt q.addr q.cmd.opcode st) := by
    rw [State.core_congr hcores, State.modContext, State.core_modCore, State.core_congr (State.statusEvent_cores _ _ _ _),
      State.core_modCore]
    rfl
  have hother : ∀ d, d ≠ c → u.core d = t.core d := fun d hd => by
    rw [State.core_congr hcores, State.modContext, State.core_modCore_ne _ _ hd, State.core_congr (State.statusEvent_cores _ _ _ _),
      State.core_modCore_ne _ _ hd]
  have hcomplete : t.complete c q st = u := by
    unfold State.complete
    simp only [hsig, hh, hp, Bool.false_eq_true, if_false, if_true, hu]
    exact State.settleClosing_none _ _ fun d => by
      rw [hcore]
      exact hclosing d
  rw [hcomplete]
  exact ⟨hcore, hother⟩

/-- Storage of the control core with wrong parity halts its context where it runs (19 R404). -/
theorem State.storageBad_row (hc : c < 96) (hx : x < 4) (hrun : (s.context c x).st = .running) (hlive : s.coreLive c = true) :
    ∃ t, exec (.commandArrival c (x, true)) s = .next t ∧ (t.context c x).st = .halted ∧ (t.context c x).lastStatus = stParity
      ∧ (t.core c).drawers = (s.core c).drawers ∧ (t.core c).counters = (s.core c).counters ∧ (∀ d, d ≠ c → t.core d = s.core d) := by
  have hexec : exec (.commandArrival c (x, true)) s = .next (s.fetchHalt c x stParity) := by
    refine (onCtx_eq hc hx _).trans (congrArg _ ?_)
    rw [if_pos rfl, State.storageBad, if_pos ⟨hrun, hlive⟩]
  have hcores : (s.fetchHalt c x stParity).cores
      = ((s.ctxEvent c x 0x0101 1 stParity).modContext c x (fun y => y.haltAt y.pc 0 stParity)).cores := State.holdJob_cores _ _ _ _
  have hevent : ∀ d, (s.ctxEvent c x 0x0101 1 stParity).core d = s.core d := State.core_congr (State.raise_cores _ _)
  have hcore : (s.fetchHalt c x stParity).core c
      = (s.core c).setContext x ((s.context c x).haltAt (s.context c x).pc 0 stParity) := by
    rw [State.core_congr hcores, State.modContext, State.core_modCore, hevent]
    rfl
  have hctx : (s.fetchHalt c x stParity).context c x = (s.context c x).haltAt (s.context c x).pc 0 stParity := by
    rw [State.context, hcore, Core.context_setContext]
  refine ⟨_, hexec, ?_, ?_, ?_, ?_, fun d hd => ?_⟩
  · rw [hctx]
    exact (Ctx.haltAt_running hrun _ _ _).1
  · rw [hctx]
    exact (Ctx.haltAt_running hrun _ _ _).2
  · rw [hcore]
    rfl
  · rw [hcore]
    rfl
  · rw [State.core_congr hcores, State.modContext, State.core_modCore_ne _ _ hd, hevent]

/-! ### A byte wrong on an internal link -/

/-- Tarnished result headers are result headers of other contents (02 R51). -/
theorem State.tarnishOuts_eq (s : State) (q : QCmd) : s.tarnishOuts q
    = s.writeOuts { q with lat := { q.lat with outs := q.lat.outs.map (fun o => (o.1, o.2.1, o.2.2.tarnished)) } } := by
  rw [State.tarnishOuts, State.writeOuts, List.foldl_map]

theorem State.tarnishOuts_get {α : Type} (g : Core → α) (hg : ∀ k d h, g (k.setHdr d h) = g k) (s : State) (q : QCmd) (d : Nat) :
    g ((s.tarnishOuts q).core d) = g (s.core d) := by
  rw [State.tarnishOuts_eq, State.writeOuts_get g hg]

/-- A part of a core that the anvil's tiles and accumulators are no part of stands where a stopped command tears them (06 R139). -/
theorem anvilTorn_get {α : Type} (g : Core → α) (htile : ∀ k n v, g (k.setTile n v) = g k) (hacc : ∀ k n v, g (k.setAcc n v) = g k)
    (s : State) (c : Nat) (q : QCmd) : g ((anvilTorn s c q).core c) = g (s.core c) := by
  unfold anvilTorn
  dsimp only
  split
  · rw [State.core_modCore, htile]
  · rw [State.core_modCore, hacc]
  · rfl

/-- A stopped command of a core where no drawer closes, that holds no drawer but its destinations: they are TORN, and its context halts
(09 R201; 19 R404). -/
theorem State.stopCmd_halting {st : Nat} (hh : halting st = true) (hp : q.peer = none) (hheld : q.held = []) (hmacro : q.macroDr = [])
    (hqueue : (s.core c).q = [q]) (hclosing : ∀ d, ((s.core c).drawer d).closing = false) (hrun : (s.context c q.ctx).st = .running) :
    ((s.stopCmd c q st).core c).q = [] ∧ ((s.stopCmd c q st).context c q.ctx).st = .halted
    ∧ ((s.stopCmd c q st).context c q.ctx).lastStatus = st
    ∧ ∀ d, ((s.stopCmd c q st).core c).drawer d
        = if d ∈ q.dsts then { ((s.core c).drawer d) with tag := .torn, claim := false } else (s.core c).drawer d := by
  have hstop : s.stopCmd c q st = ((anvilTorn (s.modCore c (fun k => k.tearDrawers q)) c q).tarnishOuts q).complete c q st := by
    rw [State.stopCmd, State.freeMacro, hmacro]
    rfl
  rw [hstop]
  generalize hu : (anvilTorn (s.modCore c (fun k => k.tearDrawers q)) c q).tarnishOuts q = u
  have hget : ∀ {α : Type} (g : Core → α), (∀ k d h, g (k.setHdr d h) = g k) → (∀ k n v, g (k.setTile n v) = g k) →
      (∀ k n v, g (k.setAcc n v) = g k) → g (u.core c) = g ((s.core c).tearDrawers q) := fun g hhdr htile hacc => by
    rw [← hu, State.tarnishOuts_get g hhdr, anvilTorn_get g htile hacc, State.core_modCore]
  have htear : (s.core c).tearDrawers q
      = q.dsts.foldl (fun k d => k.modDrawer d (fun v => { v with tag := .torn, claim := false })) (s.core c) := by
    rw [Core.tearDrawers, hheld]
    rfl
  have hfront : ((s.core c).tearDrawers q).butDrawers (s.core c) := by
    rw [htear]
    exact foldl_butDrawers _ (fun k d => k.butDrawers_modDrawer d _) _ _
  have hdrawer : ∀ d, (u.core c).drawer d
      = if d ∈ q.dsts then { ((s.core c).drawer d) with tag := .torn, claim := false } else (s.core c).drawer d := fun d => by
    rw [hget (Core.drawer · d) (fun _ _ _ => rfl) (fun _ _ _ => rfl) (fun _ _ _ => rfl), htear]
    exact Core.drawer_foldl_modDrawer (fun v => { v with tag := .torn, claim := false }) (fun _ => rfl) _ _ d
  have hopen : ∀ d, ((u.core c).drawer d).closing = false := fun d => by
    rw [hdrawer]
    split <;> exact hclosing d
  have hctx : u.context c q.ctx = s.context c q.ctx :=
    (hget (Core.context · q.ctx) (fun _ _ _ => rfl) (fun _ _ _ => rfl) (fun _ _ _ => rfl)).trans (hfront.context _)
  have hq : (u.core c).q = [q] := by
    rw [hget Core.q (fun _ _ _ => rfl) (fun _ _ _ => rfl) (fun _ _ _ => rfl), hfront.q, hqueue]
  obtain ⟨hcore, -⟩ := State.complete_halting_core hh hp hopen
  have hhalt := Ctx.haltAt_running (y := u.context c q.ctx) (by rw [hctx]; exact hrun) q.addr q.cmd.opcode st
  have hdone : (u.complete c q st).context c q.ctx = (u.context c q.ctx).haltAt q.addr q.cmd.opcode st := by
    rw [State.context, hcore, Core.context_setContext]
  refine ⟨?_, ?_, ?_, fun d => ?_⟩
  · rw [hcore]
    exact Core.dropCmd_single _ q hq
  · rw [hdone]
    exact hhalt.1
  · rw [hdone]
    exact hhalt.2
  · rw [hcore, ← hdrawer]
    rfl

theorem State.Alone.linkStop_row (h : s.Alone c x q) (hstage : q.stage = .started) (hrun : (s.context c x).st = .running)
    (hheld : q.held = []) (hmacro : q.macroDr = []) (hclosing : ∀ d, ((s.core c).drawer d).closing = false) :
    ∃ t, exec (.commandCommit c x q.eng (0, true)) s = .next t ∧ (t.core c).q = [] ∧ (t.context c x).st = .halted
      ∧ (t.context c x).lastStatus = stParity ∧ (∀ d ∈ q.dsts, ((t.core c).drawer d).tag = .torn)
      ∧ ∀ d, ¬ d ∈ q.dsts → (t.core c).drawer d = (s.core c).drawer d := by
  have hfirst : (((s.core c).queueOf x q.eng).filter (fun q => q.stage == .started))[0]? = some q := by
    simp [Core.queueOf, h.queue, h.own, hstage]
  have hstop : s.linkStop c q = s.stopCmd c q stParity := by
    have heng := h.eng
    rw [State.linkStop, if_neg (by omega), if_neg (by omega)]
  have hexec : exec (.commandCommit c x q.eng (0, true)) s = .next (s.stopCmd c q stParity) := by
    refine (onCtx_eq h.core h.ctx _).trans (congrArg _ ?_)
    simp only [hfirst, h.live, Bool.and_self, if_true, hstop]
  obtain ⟨hq, hst, hlast, hdrawer⟩ := State.stopCmd_halting (st := stParity) (by decide) h.peer hheld hmacro h.queue hclosing
    (by rw [h.own]; exact hrun)
  rw [h.own] at hst hlast
  refine ⟨_, hexec, hq, hst, hlast, fun d hd => ?_, fun d hd => ?_⟩
  · rw [hdrawer, if_pos hd]
  · rw [hdrawer, if_neg hd]

/-! ### A count that expires -/

/-- Where no key set is to go, none goes. -/
theorem State.releaseSets_none {gone : KeySet → Bool} (h : ∀ k ∈ s.keysets, gone k = false) : s.releaseSets gone = s := by
  have hgone : s.keysets.filter gone = [] := List.filter_eq_nil_iff.2 fun k hk => by simp [h k hk]
  have hkept : s.keysets.filter (fun k => !gone k) = s.keysets := List.filter_eq_self.2 fun k hk => by simp [h k hk]
  rw [State.releaseSets, hgone]
  dsimp only [List.foldl_nil]
  rw [hkept]

/-- No key set is freed where each is its session's, becomes its session's, or is under upload (04 R87). -/
theorem State.freeKeySets_current (h : s.setsCurrent) : s.freeKeySets = s := by
  refine State.releaseSets_none fun k hk => ?_
  rcases h k hk with h | h | h <;> simp [h]

/-- A time-out that neither signals nor halts, on a core where no drawer closes: the command leaves its queue and nothing else changes. -/
theorem State.complete_timeout (hsig : q.cmd.sigMode ≠ 3) (hp : q.peer = none) (hclosing : ∀ d, ((t.core c).drawer d).closing = false) :
    t.complete c q stTimeout = t.modCore c (fun k => k.dropCmd q.id) := by
  have hsignal : signalsAt q.cmd.sigMode stTimeout = false := by
    unfold signalsAt
    rw [if_neg (by decide)]
    split
    · decide
    · contradiction
    · rfl
  have hev : ∀ u : State, u.statusEvent c q stTimeout = u := fun u => by
    simp [State.statusEvent, halting, tarnishing, stTimeout, stOrphan, stStepSkipped]
  have hh : halting stTimeout = false := by decide
  have ha : stTimeout ≠ stAborted := by decide
  unfold State.complete
  simp only [hsignal, hev, hh, ha, hp, Bool.false_eq_true, if_false]
  exact State.settleClosing_none _ _ fun d => by
    rw [State.core_modCore]
    exact hclosing d

/-- A command that waits, whose wait a time-out ends. -/
theorem State.endWaiting_timeout (hsig : q.cmd.sigMode ≠ 3) (hp : q.peer = none) (hgroup : q.lat.group = none) (heng : q.eng ≠ 5)
    (hsets : t.setsCurrent) (hclosing : ∀ d, ((t.core c).drawer d).closing = false) : t.endWaiting c q stTimeout
      = t.modCore c (fun k => { (k.dropCmd q.id) with inlet := k.inlet.filter (fun e => e.1 != q.id) }) := by
  have hends : t.macroEnds c q stTimeout = t := by
    unfold State.macroEnds
    split
    · rw [if_pos (Or.inl heng)]
    · rfl
  have hleave : (t.modCore c (fun k => k.dropCmd q.id)).leaveGroup q = t.modCore c (fun k => k.dropCmd q.id) := by
    rw [State.leaveGroup, hgroup]
  have hcurrent : (t.modCore c (fun k => k.dropCmd q.id)).setsCurrent := hsets
  rw [State.endWaiting, hends, State.complete_timeout hsig hp hclosing, hleave, State.freeKeySets_current hcurrent, State.modCore_modCore]
  rfl

theorem State.coreWatchdog_row {pos : Nat} (hc : c < 96) (hpos : (s.core c).q[pos]? = some q) (hstage : q.stage = .arrived) (hbar : q.bar = .no)
    (hrun : (s.context c q.ctx).st = .running) (hsig : q.cmd.sigMode ≠ 3) (hp : q.peer = none) (hgroup : q.lat.group = none) (heng : q.eng ≠ 5)
    (hsets : s.setsCurrent) (hclosing : ∀ d, ((s.core c).drawer d).closing = false) :
    ∃ t, exec (.coreWatchdogExpiry c pos) s = .next t ∧ (t.core c).q = (s.core c).q.filter (fun p => p.id != q.id)
      ∧ (∀ y, t.context c y = s.context c y) ∧ (t.core c).counters = (s.core c).counters
      ∧ (t.core c).drawers = (s.core c).drawers ∧ { s with cores := t.cores }.eventsOnly t := by
  have hfrozen : s.countFrozen c q = false := by simp [State.countFrozen, hstage, hrun]
  have hbegun : q.begun = false := by simp [QCmd.begun, hstage]
  have hev := s.cmdEvent_eventsOnly c q 0x0103 1 stTimeout
  have htime : s.timeOut c q = (s.cmdEvent c q 0x0103 1 stTimeout).endWaiting c q stTimeout := by
    unfold State.timeOut
    rw [hfrozen, hbar, hbegun]
    rfl
  generalize s.cmdEvent c q 0x0103 1 stTimeout = u at hev htime
  have hcore : u.core c = s.core c := State.core_congr hev.cores c
  have hcurrent : u.setsCurrent := by
    have : u.setsCurrent = s.setsCurrent := hev.get State.setsCurrent fun _ _ _ => rfl
    rw [this]
    exact hsets
  rw [State.endWaiting_timeout hsig hp hgroup heng hcurrent (by rw [hcore]; exact hclosing)] at htime
  have hexec : exec (.coreWatchdogExpiry c pos) s = .next (u.modCore c (fun k =>
      { (k.dropCmd q.id) with inlet := k.inlet.filter (fun e => e.1 != q.id) })) := by
    refine (onCore_eq hc _).trans (congrArg _ ?_)
    rw [hpos]
    exact htime
  refine ⟨_, hexec, ?_, fun y => ?_, ?_, ?_, hev.modCore _⟩
  · rw [State.core_modCore, hcore]
    rfl
  · rw [State.context, State.core_modCore, hcore]
    rfl
  · rw [State.core_modCore, hcore]
    rfl
  · rw [State.core_modCore, hcore]
    rfl

/-! ### The first chunk of a key -/

/-- The first chunk of a key that matches enters the key inlet of a core with one command in its queues (04 R95, R97). -/
theorem State.keyChunk_row {j n : Nat} {p : Profile} {k : Nat × Nat} (hc : c < 96) (hqueue : (s.core c).q = [q])
    (hstage : q.stage = .issued ∨ q.stage = .started) (heng : q.eng = 5) (hop : q.cmd.op? = some op) (hprof : q.lat.profAt op j = some p)
    (hkey : (macroKeys op q p j)[n]? = some k) (hopen : q.outSt j = 0)
    (hmatch : (s.keyRec (macroDir op q j) k.1 (macroIn op q j) p).isSome) (hsteps : s.stepsOk op (macroDir op q j) [k] = true) :
    ∃ t, exec (.keyChunkArrival c 0 j n) s = .next t ∧ (t.core c).q = [{ q with tagOk := true }]
      ∧ (∃ e, (t.core c).inlet = ((s.core c).inlet ++ [(q.id, e)]).drop ((s.core c).inlet.length - 1)) ∧ (t.core c).drawers = (s.core c).drawers
      ∧ (t.core c).hdrs = (s.core c).hdrs ∧ { t with cores := s.cores } = s := by
  obtain ⟨d, hd⟩ := Option.isSome_iff_exists.1 hmatch
  have hhead : s.inletHead c q = true := by simp [State.inletHead, hqueue]
  have hunder : q.underWay = true := by rcases hstage with h | h <;> simp [QCmd.underWay, h]
  have hchunk : keyChunk s c q j n = (s.modCore c (fun v =>
      { v with inlet := (v.inlet ++ [(q.id, d.addr)]).drop (v.inlet.length - 1) })).modCmd c q.id (fun q => { q with tagOk := true }) := by
    have hmatched : (if s.stepsOk op (macroDir op q j) [k] then s.keyRec (macroDir op q j) k.1 (macroIn op q j) p else none) = some d := by
      rw [if_pos hsteps, hd]
    unfold macroDir macroIn at hmatched
    unfold keyChunk
    simp only [hop, hprof, hkey]
    rw [if_neg (by simp [hopen, hhead]), hmatched]
  have hexec : exec (.keyChunkArrival c 0 j n) s = .next ((s.modCore c (fun v =>
      { v with inlet := (v.inlet ++ [(q.id, d.addr)]).drop (v.inlet.length - 1) })).modCmd c q.id (fun q => { q with tagOk := true })) := by
    refine (onCore_eq hc _).trans (congrArg _ ?_)
    rw [hqueue]
    exact (if_pos ⟨hunder, heng⟩).trans hchunk
  refine ⟨_, hexec, ?_, ⟨d.addr, ?_⟩, ?_, ?_, rfl⟩
  · simp [State.modCmd, Core.modCmd, hqueue, modFirst]
  · simp [State.modCmd, Core.modCmd]
  · simp [State.modCmd, Core.modCmd]
  · simp [State.modCmd, Core.modCmd]

/-! ### The obligation -/

/-- Settles O20: one row per step of a command's life, on a core that holds that command. -/
theorem commandLifeStepByStep : Obligations.CommandLifeStepByStep := by
  unfold Obligations.CommandLifeStepByStep
  refine ⟨?arrives, ?issues, ?starts, ?commits, ?expires, ?chunk, fun s c x => State.storageBad_row, ?counters, ?link, ?line⟩
  case arrives => exact fun s c x op hq honline hread hdec hroom hshares => hq.commandArrival_row rfl hdec honline hread hroom hshares
  case issues => exact fun s c x op f hq ht hp he => hq.commandIssue_row ht hp he
  case starts =>
    intro s c x q hc hx hqueue hstage hown heng hrun hlive hpeer hsrcs hdsts hwin
    exact State.Alone.commandStart_row ⟨hc, hx, hqueue, hown, heng, hlive, hpeer⟩ hstage hrun hsrcs hdsts hwin
  case commits =>
    intro s c x op q hc hx hqueue hstage hown heng hop hlive hpeer hsound hclosing
    exact State.Alone.commandCommit_row ⟨hc, hx, hqueue, hown, heng, hlive, hpeer⟩ hstage hop hsound hclosing
  case expires => exact fun s c pos q hc hpos hstage hbar hrun hsig hp hgroup heng => State.coreWatchdog_row hc hpos hstage hbar hrun hsig hp hgroup heng
  case chunk =>
    rintro s c pos j n q op p k hc hqueue rfl hstage heng hop hprof hkey hopen hmatch hsteps
    exact State.keyChunk_row hc hqueue hstage heng hop hprof hkey hopen hmatch hsteps
  case counters => exact fun s c bad hc _ hqueue => State.commandIssue_empty hc hqueue bad
  case link =>
    intro s c x q hc hx hqueue hstage hown hrun heng hheld hmacro hlive hpeer hclosing
    exact State.Alone.linkStop_row ⟨hc, hx, hqueue, hown, heng, hlive, hpeer⟩ hstage hrun hheld hmacro hclosing
  case line =>
    refine fun s g => ⟨_, rfl, fun l => ?_, rfl⟩
    rw [List.mem_filter, bne_iff_ne]

end Sys2Proof.Machine
end

section
/-!
The reset of an IDLE context (10 R230): its parts in their order, what each part leaves unchanged, and what becomes of a core whose context is
reset while nothing waits for its drawers.
-/
namespace Sys2Proof.Machine

variable {s t u : State} {c x : Nat}

/-! ### The parts of a reset -/

/-- The open windows of a context closed. -/
def State.winsShut (s : State) (c x : Nat) : State :=
  (List.range 16).foldl (fun s w => if (s.win c w).isOpen && (s.win c w).ctx == x then s.setRf .winCfg c w 31 31 0 else s) s

/-- The drawers a reset leaves ORPHAN: others wait for them, or write them through a window (09 R198). -/
def State.orphans (s : State) (c x : Nat) : List Nat := (s.ownDrawers c x).filter (fun d => s.hasWaiter c d || s.inOpenWin c x d)

/-- Drawers with their header slots at reset. -/
def Core.drawersReset (own os : List Nat) (k : Core) : Core :=
  own.foldl (fun k d => (k.setDrawer d (if d ∈ os then { tag := .orphan, gran := (k.drawer d).gran } else {})).setHdr d {}) k

/-- The drawers of a context at reset, their waiters not released yet. -/
def State.drawersReset (s : State) (c x : Nat) : State :=
  (s.winsShut c x).modCore c (Core.drawersReset (s.ownDrawers c x) (s.orphans c x))

/-- Tiles, accumulators and a latch at reset. -/
def Core.anvilReset (ts as : List Nat) (n : Nat) (k : Core) : Core :=
  (as.foldl (fun k a => k.setAcc a {}) (ts.foldl (fun k t => k.setTile t {}) k)).setLatch n {}

/-- CLEAR_STATUS of a context at reset. -/
def State.statusCleared (s : State) (c x : Nat) : State :=
  (s.share c x 1).foldl (fun s n => (s.setRf .clearStatus c 0 n n 0).setRf .clearStatus c 0 (16 + n) (16 + n) 0) s

/-- The descriptors, the counters and the queues of a context at reset. -/
def Core.streamReset (ds ns : List Nat) (x : Nat) (k : Core) : Core :=
  { k with descs := Tab.keep (fun n => !(n ∈ ds)) k.descs, counters := Tab.keep (fun n => !(n ∈ ns)) k.counters
           badCtr := k.badCtr.filter (fun n => !(n ∈ ns)), q := k.q.filter (fun q => q.ctx != x), inlet := [] }

/-- A context as a reset leaves it: IDLE until the next start. -/
def Ctx.wasReset (y : Ctx) : Ctx :=
  { y with st := .idle, s := [], p := 0, heldAct := .none, resetting := false, fresh := true, saved := [] }

/-- The registers of a context at reset (07 R158, 08 R164). -/
def State.regsReset (s : State) (c x : Nat) : State := (s.resetRegs c (s.clearShare c x)).statusCleared c x

/-- What a reset does to its core once the waiters of the drawers are released. -/
def State.coreReset (s : State) (c x : Nat) : State :=
  let u := (s.resetAnvil c x).regsReset c x
  (u.modCore c (Core.streamReset (u.share c x 16) (u.share c x 64) x)).modContext c x Ctx.wasReset

/-- An armed barrier of a context becomes ORPHAN (12 R266). -/
def State.orphanBar (c x : Nat) (s : State) (k : Nat) : State :=
  if barArmed (s.barCfg k) && barOwner (s.barCfg k) == 4 * c + x && !(s.bar k).orphan then
    ((s.setBar k { s.bar k with orphan := true }).barEvent 0x0203 1 k c x).barReleaseAll k stOrphan true
  else s

/-- A counter of the die or the device that a context owns. -/
def State.ctrOwned (c x : Nat) (s : State) (k : Nat) : Bool :=
  ctrArmed (s.ctrCfg k) && 4 * bits (s.ctrCfg k) 28 22 + bits (s.ctrCfg k) 30 29 == 4 * c + x

/-- An armed counter of a context becomes ORPHAN (12 R266). -/
def State.orphanCtr (c x : Nat) (s : State) (k : Nat) : State :=
  if s.ctrOwned c x k && !(s.ctr k).orphan then
    (s.setCtr k { s.ctr k with orphan := true }).dieEvent 0x0204 1 (ctrDie k c) (ctrNum k) (ctrKind k) c x 0
  else s

theorem State.orphanOwned_eq (s : State) (c x : Nat) :
    s.orphanOwned c x = ctrKeys.foldl (State.orphanCtr c x) (barKeys.foldl (State.orphanBar c x) s) := rfl

theorem State.resetNow_eq (s : State) (c x : Nat) : s.resetNow c x
    = ((((s.drawersReset c x).releaseOrphans c x (s.orphans c x)).coreReset c x).orphanOwned c x).ctxEvent c x 0x010B 2 0 := rfl

/-! ### What the parts leave of the state -/

/-- A register of the cores, other than CORE_MODE of core `c`. -/
def sweptReg (c a : Nat) : Prop := controlBase + 0x400000 ≤ a ∧ a ≠ RegKey.addr ⟨.coreMode, c, 0⟩

/-- `t` differs from `s` in its cores and in registers of the cores, the mode of core `c` apart. -/
def State.sweeps (c : Nat) (s t : State) : Prop :=
  { t with cores := s.cores, regs := s.regs } = s ∧ ∀ a, ¬ sweptReg c a → Tab.find? t.regs a = Tab.find? s.regs a

theorem State.sweeps.refl (c : Nat) (s : State) : State.sweeps c s s := ⟨rfl, fun _ _ => rfl⟩

theorem State.sweeps.trans (h : State.sweeps c s t) (g : State.sweeps c t u) : State.sweeps c s u := by
  refine ⟨?_, fun a ha => (g.2 a ha).trans (h.2 a ha)⟩
  have hrest := h.1
  rw [← g.1] at hrest
  exact hrest

theorem State.sweeps.get {α : Type} (h : State.sweeps c s t) (g : State → α) (hg : ∀ u v r, g { u with cores := v, regs := r } = g u) : g t = g s := by
  rw [← hg t s.cores s.regs]
  exact congrArg g h.1

theorem State.sweeps.reg (h : State.sweeps c s t) {r : RegName} {i n : Nat} (hr : ¬ sweptReg c (RegKey.addr ⟨r, i, n⟩)) : t.reg r i n = s.reg r i n :=
  State.regK_congr (h.2 _ hr)

theorem State.sweeps.modeM (h : State.sweeps c s t) : t.modeM c = s.modeM c :=
  congrArg (bitOf · 0) (h.reg (r := .coreMode) (i := c) (n := 0) fun hs => hs.2 rfl)

theorem State.sweeps.share (h : State.sweeps c s t) (per : Nat) : t.share c x per = s.share c x per := by
  rw [State.share, State.share, h.modeM]

theorem State.sweeps.barCfg (h : State.sweeps c s t) {k : Nat} (hk : k < 304) : t.barCfg k = s.barCfg k := by
  have hdie : k < 256 → ¬ sweptReg c (RegKey.addr ⟨.dieBarCfg, k / 64, k % 64⟩) := fun h256 hs => by
    have hlow := hs.1
    rw [RegKey.addr_eq .dieBarCfg _ _ 0x100000 0x1000 16 rfl rfl rfl] at hlow
    omega
  have hdev : ¬ sweptReg c (RegKey.addr ⟨.devBarCfg, 0, k - 256⟩) := fun hs => by
    have hlow := hs.1
    rw [RegKey.addr_eq .devBarCfg _ _ 0xD0000 0x1000 16 rfl rfl rfl] at hlow
    omega
  have hfab : ¬ sweptReg c (RegKey.addr ⟨.fbarCfg, 0, k - 288⟩) := fun hs => by
    have hlow := hs.1
    rw [RegKey.addr_eq .fbarCfg _ _ 0x300000 0x9000 32 rfl rfl rfl] at hlow
    omega
  unfold State.barCfg
  split
  case isTrue h256 => exact h.reg (hdie h256)
  split
  · exact h.reg hdev
  · exact h.reg hfab

/-- The configuration registers of the counters lie in the dies' blocks and in the block of the device's objects (22 R476). -/
theorem ctrCfg_addr {k : Nat} (hk : k < 320) :
    (k < 256 → controlBase + 0xD0000 ≤ RegKey.addr ⟨.dieCtrCfg, k / 64, k % 64⟩ ∧ RegKey.addr ⟨.dieCtrCfg, k / 64, k % 64⟩ < controlBase + 0x400000)
    ∧ controlBase + 0xD0000 ≤ RegKey.addr ⟨.devCtrCfg, 0, k - 256⟩ ∧ RegKey.addr ⟨.devCtrCfg, 0, k - 256⟩ < controlBase + 0x400000 := by
  rw [RegKey.addr_eq .dieCtrCfg _ _ 0x100000 0x2000 32 rfl rfl rfl, RegKey.addr_eq .devCtrCfg _ _ 0xD0000 0x2000 32 rfl rfl rfl]
  omega

theorem State.ctrCfg_congr {k : Nat} (hk : k < 320)
    (h : ∀ a, controlBase + 0xD0000 ≤ a → a < controlBase + 0x400000 → Tab.find? t.regs a = Tab.find? s.regs a) : t.ctrCfg k = s.ctrCfg k := by
  obtain ⟨hdie, hdev⟩ := ctrCfg_addr hk
  unfold State.ctrCfg
  split
  case isTrue h256 => exact State.regK_congr (h _ (hdie h256).1 (hdie h256).2)
  case isFalse => exact State.regK_congr (h _ hdev.1 hdev.2)

theorem State.sweeps.ctrCfg (h : State.sweeps c s t) {k : Nat} (hk : k < 320) : t.ctrCfg k = s.ctrCfg k :=
  State.ctrCfg_congr hk fun a _ ha => h.2 a fun hs => by
    have := hs.1
    omega

theorem State.modCore_sweeps (s : State) (c d : Nat) (g : Core → Core) : State.sweeps c s (s.modCore d g) := ⟨rfl, fun _ _ => rfl⟩

/-- CORE_MODE is the first register of its core's block (22 R476). -/
theorem State.setReg_sweeps (s : State) {r : RegName} (hr : r.block = .core ∧ 0 < r.offset) (c n : Nat) (v : W32) :
    State.sweeps c s (s.setReg r c n v) := by
  have hswept : sweptReg c (RegKey.addr ⟨r, c, n⟩) := by
    have hpos := hr.2
    rw [sweptReg, RegKey.addr_core hr.1, RegKey.addr_core (show RegName.coreMode.block = .core from rfl),
      show RegName.coreMode.offset = 0 from rfl, show RegName.coreMode.stride = 0 from rfl]
    omega
  exact ⟨rfl, fun a ha => s.find?_setReg_ne r c n v fun e => ha (e ▸ hswept)⟩

theorem foldl_sweeps {α : Type} (g : State → α → State) (l : List α) (h : ∀ u, ∀ a ∈ l, State.sweeps c u (g u a)) (s : State) :
    State.sweeps c s (l.foldl g s) := by
  induction l generalizing s with
  | nil => exact .refl c s
  | cons a l ih => exact (h s a (List.mem_cons_self ..)).trans (ih (fun v b hb => h v b (List.mem_cons_of_mem _ hb)) _)

theorem State.winsShut_sweeps (s : State) (c x : Nat) : State.sweeps c s (s.winsShut c x) := by
  refine foldl_sweeps _ _ (fun u w _ => ?_) s
  split
  · exact u.setReg_sweeps (by decide) c w _
  · exact .refl c u

/-- The registers that a reset puts back. -/
theorem State.clearShare_regs {k : RegName × Nat} (h : k ∈ s.clearShare c x) : k.1.block = .core ∧ 0 < k.1.offset := by
  have hmap : ∀ {r : RegName} {l : List Nat}, k ∈ l.map (fun n => (r, n)) → k.1 = r := fun h => by
    obtain ⟨n, -, rfl⟩ := List.mem_map.1 h
    rfl
  simp only [State.clearShare, List.mem_append] at h
  rcases h with ((((((((((h | h) | h) | h) | h) | h) | h) | h) | h) | h) | h) | h <;> rw [hmap h] <;> decide

theorem State.regsReset_sweeps (s : State) (c x : Nat) : State.sweeps c s (s.regsReset c x) := by
  have hregs : State.sweeps c s (s.resetRegs c (s.clearShare c x)) :=
    foldl_sweeps _ _ (fun u k hk => u.setReg_sweeps (State.clearShare_regs hk) c k.2 _) s
  refine hregs.trans ?_
  exact foldl_sweeps _ _ (fun u n _ => (u.setReg_sweeps (by decide) c 0 _).trans (State.setReg_sweeps _ (by decide) c 0 _)) _

theorem State.winsShut_cores (s : State) (c x : Nat) : (s.winsShut c x).cores = s.cores :=
  foldl_cores _ (fun u w => by
    split
    · exact State.setReg_cores _ _ _ _ _
    · rfl) _ s

theorem State.regsReset_cores (s : State) (c x : Nat) : (s.regsReset c x).cores = s.cores := by
  refine State.sameCores.trans (foldl_cores _ (fun u n => ?_) _ _) (foldl_cores _ (fun u k => ?_) _ s)
  · exact (State.setReg_cores _ _ _ _ _).trans (State.setReg_cores _ _ _ _ _)
  · exact State.setReg_cores _ _ _ _ _

/-! ### What they leave of the core -/

theorem Core.drawersReset_drawer (own os : List Nat) (k : Core) (d : Nat) : (k.drawersReset own os).drawer d
    = if d ∈ own then (if d ∈ os then { tag := .orphan, gran := (k.drawer d).gran } else {}) else k.drawer d := by
  have hset : ∀ (k : Core) (e : Nat) (v : Drawer), ((k.setDrawer e v).setHdr e {}).drawer d = if d = e then v else k.drawer d :=
    fun k e v => Tab.get_set ..
  unfold Core.drawersReset
  induction own generalizing k with
  | nil => rfl
  | cons e own ih =>
    rw [List.foldl_cons, ih, hset]
    by_cases hde : d = e
    · subst hde
      by_cases hos : d ∈ os <;> simp [hos]
    · simp [hde]

theorem Core.drawersReset_hdr (own os : List Nat) (k : Core) (d : Nat) : (k.drawersReset own os).hdr d = if d ∈ own then {} else k.hdr d := by
  have hset : ∀ (k : Core) (e : Nat) (v : Drawer), ((k.setDrawer e v).setHdr e {}).hdr d = if d = e then {} else k.hdr d := fun k e v => by
    by_cases hde : d = e
    · rw [if_pos hde, hde, Core.hdr_setHdr]
    · rw [if_neg hde, Core.hdr_setHdr_ne _ _ hde]
      rfl
  unfold Core.drawersReset
  induction own generalizing k with
  | nil => rfl
  | cons e own ih =>
    rw [List.foldl_cons, ih, hset]
    by_cases hde : d = e <;> simp [hde]

/-- A part of a core other than its drawers and header slots. -/
theorem Core.drawersReset_keeps {γ : Type} (part : Core → γ) (h : ∀ k d v w, part ((k.setDrawer d v).setHdr d w) = part k) (own os : List Nat)
    (k : Core) : part (k.drawersReset own os) = part k := foldl_keeps part _ (fun _ _ => h _ _ _ _) own k

/-- A part of a core other than the anvil's storage. -/
theorem Core.anvilReset_keeps {γ : Type} (part : Core → γ) (ht : ∀ k n v, part (k.setTile n v) = part k)
    (ha : ∀ k n v, part (k.setAcc n v) = part k) (hl : ∀ k n v, part (k.setLatch n v) = part k) (ts as : List Nat) (n : Nat) (k : Core) :
    part (k.anvilReset ts as n) = part k :=
  (hl _ _ _).trans ((foldl_keeps part _ (fun _ _ => ha _ _ _) as _).trans (foldl_keeps part _ (fun _ _ => ht _ _ _) ts k))

theorem Core.anvilReset_tile (ts as : List Nat) (n : Nat) (k : Core) {m : Nat} (hm : m ∈ ts) : (k.anvilReset ts as n).tile m = {} := by
  refine (Core.foldl_setAcc_keeps (Core.tile · m) (fun _ _ _ => rfl) (fun _ _ => {}) as _).trans ?_
  exact (get_foldl_update Core.tile Core.setTile (fun _ => {}) (fun k n v m => k.tile_setTile n m v) (fun _ => rfl) ts k m).trans (if_pos hm)

theorem Core.anvilReset_acc (ts as : List Nat) (n : Nat) (k : Core) {m : Nat} (hm : m ∈ as) : (k.anvilReset ts as n).acc m = {} :=
  (get_foldl_update Core.acc Core.setAcc (fun _ => {}) (fun k n v m => k.acc_setAcc n m v) (fun _ => rfl) as _ m).trans (if_pos hm)

theorem Core.anvilReset_latch (ts as : List Nat) (n : Nat) (k : Core) : (k.anvilReset ts as n).latch n = {} :=
  (Core.latch_setLatch _ n n {}).trans (if_pos rfl)

/-- What a table reads as once some of its keys are gone. -/
theorem Tab.get_keep {α : Type} (d : α) (p : Nat → Bool) (t : Tab α) (n : Nat) : Tab.get d (Tab.keep p t) n = if p n then Tab.get d t n else d := by
  have hfind : Tab.find? (Tab.keep p t) n = if p n then Tab.find? t n else none := by
    unfold Tab.keep
    induction t with
    | nil => simp [Tab.find?]
    | cons e t ih =>
      obtain ⟨j, v⟩ := e
      by_cases hj : j = n
      · subst hj
        by_cases hp : p j = true
        · simp [Tab.find?, hp]
        · simpa [List.filter_cons, hp] using ih
      · by_cases hp : p j = true
        · simpa [List.filter_cons, Tab.find?, hp, hj] using ih
        · simpa [List.filter_cons, Tab.find?, hp, hj] using ih
  rw [Tab.get, hfind]
  split <;> rfl

/-- The numbers of its share that a context owns (10 R204). -/
theorem State.mem_share (s : State) {per n : Nat} (hper : 0 < per) (hn : n < 4 * per)
    (h : (if s.modeM c then n / per == x else x == 0) = true) : n ∈ s.share c x per := by
  unfold State.share
  by_cases hm : s.modeM c = true
  · rw [if_pos hm] at h ⊢
    obtain rfl : n / per = x := by simpa using h
    refine List.mem_map.2 ⟨n % per, List.mem_range.2 (Nat.mod_lt _ hper), ?_⟩
    exact Nat.mod_add_div n per
  · rw [if_neg hm] at h ⊢
    rw [if_pos (by simpa using h)]
    exact List.mem_range.2 hn

theorem State.resetAnvil_eq (s : State) (c x : Nat) :
    s.resetAnvil c x = s.modCore c (Core.anvilReset (s.tilesOf c x) (s.accsOf c x) (s.latchNo c x)) := rfl

theorem State.regsReset_anvil_sweeps (s : State) (c x : Nat) : State.sweeps c s ((s.resetAnvil c x).regsReset c x) := by
  rw [State.resetAnvil_eq]
  exact (s.modCore_sweeps c c _).trans (State.regsReset_sweeps _ c x)

theorem State.coreReset_eq (s : State) (c x : Nat) : s.coreReset c x
    = (((s.resetAnvil c x).regsReset c x).modCore c (Core.streamReset (s.share c x 16) (s.share c x 64) x)).modContext c x Ctx.wasReset := by
  have hsweeps := s.regsReset_anvil_sweeps c x
  rw [← hsweeps.share 16, ← hsweeps.share 64]
  rfl

theorem State.coreReset_sweeps (s : State) (c x : Nat) : State.sweeps c s (s.coreReset c x) := by
  have hsweeps := s.regsReset_anvil_sweeps c x
  rw [State.coreReset_eq, State.modContext]
  generalize (s.resetAnvil c x).regsReset c x = u at hsweeps
  exact (hsweeps.trans (u.modCore_sweeps c c _)).trans (State.modCore_sweeps _ c c _)

/-- The core of a context once it is reset. -/
theorem State.coreReset_core (s : State) (c x : Nat) : (s.coreReset c x).core c
    = (((s.core c).anvilReset (s.tilesOf c x) (s.accsOf c x) (s.latchNo c x)).streamReset (s.share c x 16) (s.share c x 64) x).setContext x
        (s.context c x).wasReset := by
  have hanvil : ((s.resetAnvil c x).regsReset c x).core c = (s.core c).anvilReset (s.tilesOf c x) (s.accsOf c x) (s.latchNo c x) := by
    rw [State.core_congr (State.regsReset_cores _ c x), State.resetAnvil_eq, State.core_modCore]
  have hctx : ((s.core c).anvilReset (s.tilesOf c x) (s.accsOf c x) (s.latchNo c x)).context x = s.context c x :=
    Core.anvilReset_keeps (Core.context · x) (fun _ _ _ => rfl) (fun _ _ _ => rfl) (fun _ _ _ => rfl) _ _ _ _
  rw [State.coreReset_eq, State.modContext, State.modCore_modCore, State.core_modCore, hanvil, ← hctx]
  rfl

theorem State.coreReset_other (s : State) {d : Nat} (hd : d ≠ c) (x : Nat) : (s.coreReset c x).core d = s.core d := by
  rw [State.coreReset_eq, State.modContext, State.core_modCore_ne _ _ hd, State.core_modCore_ne _ _ hd,
    State.core_congr (State.regsReset_cores _ c x), State.resetAnvil_eq, State.core_modCore_ne _ _ hd]

end Sys2Proof.Machine
end

section
/-!
The reset of an IDLE context while nothing waits for its drawers (10 R230; 12 R258, R266): what becomes of its core, of the armed objects it
owns, and of the rest of the state.
-/
namespace Sys2Proof.Machine

variable {s t u : State} {c x : Nat}

/-! ### Waiters -/

theorem Tab.mem_of_mem_set {α : Type} [DecidableEq α] {d : α} {t : Tab α} {j : Nat} {v : α} {e : Nat × α} (h : e ∈ Tab.set d t j v) :
    e = (j, v) ∨ e ∈ t ∧ e.1 ≠ j := by
  unfold Tab.set at h
  split at h
  · exact Or.inr (Tab.mem_of_mem_erase h)
  · exact (Tab.mem_insert h).imp_right Tab.mem_of_mem_erase

theorem Tab.mem_of_find? {α : Type} {t : Tab α} {j : Nat} {v : α} (h : Tab.find? t j = some v) : (j, v) ∈ t := by
  induction t with
  | nil => exact absurd h (by simp [Tab.find?])
  | cons e t ih =>
    obtain ⟨k, w⟩ := e
    by_cases hk : k = j
    · subst hk
      have : w = v := by simpa [Tab.find?] using h
      rw [this]
      exact List.mem_cons_self ..
    · exact List.mem_cons_of_mem _ (ih (by simpa [Tab.find?, hk] using h))

/-- A command in a core's queues is in the queues of a core that the state lists. -/
theorem State.queue_listed {q : QCmd} (h : q ∈ (s.core c).q) : (c, s.core c) ∈ s.cores := by
  cases hfind : Tab.find? s.cores c with
  | none =>
    rw [State.core, Tab.get, hfind] at h
    exact absurd h List.not_mem_nil
  | some k =>
    have hcore : s.core c = k := by rw [State.core, Tab.get, hfind]; rfl
    rw [hcore]
    exact Tab.mem_of_find? hfind

theorem State.hasWaiter_eq_false {d : Nat} : s.hasWaiter c d = false ↔
    (∀ w ∈ s.waitw, w.owner = c → ¬ d ∈ touched w.off w.data.length) ∧ (∀ r ∈ s.waitr, r.owner = c → ¬ d ∈ touched r.off r.len)
      ∧ ∀ e ∈ s.cores, ∀ q ∈ e.2.q, q.underWay = true → ¬ (c, d) ∈ q.farDrawers e.1 := by
  simp only [State.hasWaiter, Bool.or_eq_false_iff, List.any_eq_false, Bool.and_eq_true, beq_iff_eq, decide_eq_true_eq, not_and,
    List.any_eq_true, not_exists, and_assoc]

/-- A change of a core that leaves its queues leaves who waits for a drawer. -/
theorem State.hasWaiter_modCore {e d : Nat} {g : Core → Core} (hg : ∀ k, (g k).q = k.q) (h : s.hasWaiter c d = false) :
    (s.modCore e g).hasWaiter c d = false := by
  rw [State.hasWaiter_eq_false] at h ⊢
  obtain ⟨hw, hr, hcores⟩ := h
  refine ⟨hw, hr, fun p hp q hq => ?_⟩
  rcases Tab.mem_of_mem_set hp with rfl | ⟨hp, -⟩
  · rw [hg] at hq
    exact hcores _ (State.queue_listed hq) q hq
  · exact hcores p hp q hq

/-- Where nobody waits for the drawers, nobody is released. -/
theorem State.releaseOrphans_none {os : List Nat} (h : ∀ d ∈ os, s.hasWaiter c d = false) : s.releaseOrphans c x os = s := by
  have hfree := fun d hd => State.hasWaiter_eq_false.1 (h d hd)
  have hw : ∀ w ∈ s.waitw, ¬ (w.owner == c && (touched w.off w.data.length).any (fun d => decide (d ∈ os))) = true := fun w hw hall => by
    simp only [Bool.and_eq_true, beq_iff_eq, List.any_eq_true, decide_eq_true_eq] at hall
    obtain ⟨howner, d, hd, hos⟩ := hall
    exact (hfree d hos).1 w hw howner hd
  have hr : ∀ r ∈ s.waitr, ¬ (r.owner == c && (touched r.off r.len).any (fun d => decide (d ∈ os))) = true := fun r hr hall => by
    simp only [Bool.and_eq_true, beq_iff_eq, List.any_eq_true, decide_eq_true_eq] at hall
    obtain ⟨howner, d, hd, hos⟩ := hall
    exact (hfree d hos).2.1 r hr howner hd
  have hq : ∀ e ∈ s.cores, ∀ q ∈ e.2.q, ¬ (q.underWay && (q.farDrawers e.1).any (fun d => d.1 == c && decide (d.2 ∈ os))) = true := by
    intro e he q hq hall
    simp only [Bool.and_eq_true, beq_iff_eq, List.any_eq_true, decide_eq_true_eq] at hall
    obtain ⟨hunder, ⟨k, d⟩, hd, hk, hos⟩ := hall
    dsimp only at hk hos
    subst hk
    exact (hfree d hos).2.2 e he q hq hunder hd
  have hws : s.waitw.filter (fun w => w.owner == c && (touched w.off w.data.length).any (fun d => decide (d ∈ os))) = [] :=
    List.filter_eq_nil_iff.2 hw
  have hrs : s.waitr.filter (fun r => r.owner == c && (touched r.off r.len).any (fun d => decide (d ∈ os))) = [] :=
    List.filter_eq_nil_iff.2 hr
  have hws' : s.waitw.filter (fun w => !(w.owner == c && (touched w.off w.data.length).any (fun d => decide (d ∈ os)))) = s.waitw :=
    List.filter_eq_self.2 fun w hmem => Bool.not_eq_true _ |>.mp (hw w hmem) ▸ rfl
  have hrs' : s.waitr.filter (fun r => !(r.owner == c && (touched r.off r.len).any (fun d => decide (d ∈ os)))) = s.waitr :=
    List.filter_eq_self.2 fun r hmem => Bool.not_eq_true _ |>.mp (hr r hmem) ▸ rfl
  unfold State.releaseOrphans
  dsimp only
  rw [hws, hrs, hws', hrs']
  refine foldl_fixed _ _ _ fun e he => foldl_fixed _ _ _ fun q hmem => ?_
  rw [if_neg (hq e he q hmem)]

/-! ### Armed objects -/

/-- A context that owns no armed barrier. -/
theorem State.orphanBars_none (h : ∀ k, k < 304 → barArmed (s.barCfg k) = true → barOwner (s.barCfg k) ≠ 4 * c + x) :
    barKeys.foldl (State.orphanBar c x) s = s := by
  refine foldl_fixed _ _ _ fun k hk => if_neg ?_
  have hk := h k (List.mem_range.1 hk)
  simp only [Bool.and_eq_true, beq_iff_eq]
  exact fun hall => hk hall.1.1 hall.1.2

/-- `t` differs from `s` in counters of dies and of the device that have become ORPHAN, and by events. -/
structure State.Orphaned (s t : State) : Prop where
  events : { s with ctrs := t.ctrs }.eventsOnly t
  kept : ∀ k, (s.ctr k).orphan = true → (t.ctr k).orphan = true

theorem State.Orphaned.refl (s : State) : s.Orphaned s := ⟨State.eventsOnly.refl s, fun _ h => h⟩

theorem State.Orphaned.trans (h : s.Orphaned t) (g : t.Orphaned u) : s.Orphaned u := by
  refine ⟨⟨?_, fun a ha => (g.events.2 a ha).trans (h.events.2 a ha)⟩, fun k hk => g.kept k (h.kept k hk)⟩
  have hrest := congrArg (fun v : State => { v with router := s.router, regs := s.regs }) g.events.1
  have hfirst := congrArg (fun v : State => { v with ctrs := u.ctrs }) h.events.1
  exact hrest.trans hfirst

theorem State.Orphaned.cores (h : s.Orphaned t) : t.cores = s.cores := h.events.cores
theorem State.Orphaned.mem (h : s.Orphaned t) : t.mem = s.mem := h.events.mem

/-- No event counter lies where the counters are configured. -/
theorem eventCounter_below {a : Nat} (h : eventCounter a) : a < controlBase + 0xD0000 := by
  obtain ⟨r, hr, rfl⟩ := h
  revert r
  decide

theorem State.Orphaned.ctrCfg (h : s.Orphaned t) {k : Nat} (hk : k < 320) : t.ctrCfg k = s.ctrCfg k :=
  State.ctrCfg_congr hk fun a ha _ => h.events.2 a fun hev => by
    have := eventCounter_below hev
    omega

theorem State.Orphaned.ctrOwned (h : s.Orphaned t) {k : Nat} (hk : k < 320) : State.ctrOwned c x t k = State.ctrOwned c x s k := by
  rw [State.ctrOwned, State.ctrOwned, h.ctrCfg hk]

theorem State.ctr_setCtr_orphan (s : State) (j k : Nat) (v : Ctr) (hv : v.orphan = true) :
    ((s.setCtr j v).ctr k).orphan = (if k = j then true else (s.ctr k).orphan) := by
  rw [State.ctr, State.setCtr, Tab.get_set]
  split
  · exact hv
  · rfl

theorem State.orphanCtr_orphaned (c x : Nat) (s : State) (k : Nat) :
    s.Orphaned (State.orphanCtr c x s k) ∧ (State.ctrOwned c x s k = true → ((State.orphanCtr c x s k).ctr k).orphan = true) := by
  unfold State.orphanCtr
  split
  case isTrue =>
    have hev : (s.setCtr k { s.ctr k with orphan := true }).eventsOnly ((s.setCtr k { s.ctr k with orphan := true }).dieEvent 0x0204 1 (ctrDie k c)
      (ctrNum k) (ctrKind k) c x 0) := State.raise_eventsOnly _ _
    generalize (s.setCtr k { s.ctr k with orphan := true }).dieEvent 0x0204 1 (ctrDie k c) (ctrNum k) (ctrKind k) c x 0 = u at hev
    have hctr : ∀ j, (u.ctr j).orphan = if j = k then true else (s.ctr j).orphan := fun j => by
      rw [← State.ctr_setCtr_orphan s k j { s.ctr k with orphan := true } rfl]
      exact congrArg Ctr.orphan (hev.get (State.ctr · j) fun _ _ _ => rfl)
    have hctrs : u.ctrs = (s.setCtr k { s.ctr k with orphan := true }).ctrs := hev.get State.ctrs fun _ _ _ => rfl
    refine ⟨⟨?_, fun j hj => ?_⟩, fun _ => ?_⟩
    · rw [hctrs]
      exact hev
    · rw [hctr]
      split
      · rfl
      · exact hj
    · rw [hctr, if_pos rfl]
  case isFalse h =>
    refine ⟨.refl s, fun howned => ?_⟩
    simpa [howned] using h

theorem State.orphanCtrs_orphaned (c x : Nat) {l : List Nat} (hl : ∀ k ∈ l, k < 320) (s : State) :
    s.Orphaned (l.foldl (State.orphanCtr c x) s)
    ∧ ∀ k ∈ l, State.ctrOwned c x s k = true → ((l.foldl (State.orphanCtr c x) s).ctr k).orphan = true := by
  induction l generalizing s with
  | nil => exact ⟨.refl s, fun k hk => absurd hk List.not_mem_nil⟩
  | cons j l ih =>
    obtain ⟨hfirst, hown⟩ := State.orphanCtr_orphaned c x s j
    obtain ⟨hrest, hothers⟩ := ih (fun k hk => hl k (List.mem_cons_of_mem _ hk)) (State.orphanCtr c x s j)
    rw [List.foldl_cons]
    refine ⟨hfirst.trans hrest, fun k hk howned => ?_⟩
    rcases List.mem_cons.1 hk with rfl | hk'
    · exact hrest.kept k (hown howned)
    · exact hothers k hk' (by rw [hfirst.ctrOwned (hl k hk)]; exact howned)

/-- What becomes of the armed objects of a context that owns no armed barrier: its counters are ORPHAN (12 R266). -/
theorem State.orphanOwned_spec (h : ∀ k, k < 304 → barArmed (s.barCfg k) = true → barOwner (s.barCfg k) ≠ 4 * c + x) :
    s.Orphaned (s.orphanOwned c x) ∧ ∀ k, k < 320 → State.ctrOwned c x s k = true → ((s.orphanOwned c x).ctr k).orphan = true := by
  rw [State.orphanOwned_eq, State.orphanBars_none h]
  obtain ⟨hor, hown⟩ := State.orphanCtrs_orphaned c x (l := ctrKeys) (fun k hk => List.mem_range.1 hk) s
  exact ⟨hor, fun k hk => hown k (List.mem_range.2 hk)⟩

/-! ### The reset of an IDLE context -/

/-- The core of an IDLE context once it is reset. -/
def State.resetCore (s : State) (c x : Nat) : Core :=
  ((((s.core c).drawersReset (s.ownDrawers c x) (s.orphans c x)).anvilReset (s.tilesOf c x) (s.accsOf c x) (s.latchNo c x)).streamReset
    (s.share c x 16) (s.share c x 64) x).setContext x (s.context c x).wasReset

theorem State.drawersReset_sweeps (s : State) (c x : Nat) : State.sweeps c s (s.drawersReset c x) :=
  (s.winsShut_sweeps c x).trans (State.modCore_sweeps _ c c _)

theorem State.drawersReset_core (s : State) (c x : Nat) :
    (s.drawersReset c x).core c = (s.core c).drawersReset (s.ownDrawers c x) (s.orphans c x) := by
  rw [State.drawersReset, State.core_modCore, State.core_congr (s.winsShut_cores c x)]

/-- A reset while nobody waits for the drawers, before the armed objects of the context are seen to. -/
theorem State.reset_calm (hwait : ∀ d, s.drawerInShare c x d = true → s.hasWaiter c d = false) :
    ∃ u, s.resetNow c x = (u.orphanOwned c x).ctxEvent c x 0x010B 2 0 ∧ State.sweeps c s u ∧ u.core c = s.resetCore c x
      ∧ ∀ d, d ≠ c → u.core d = s.core d := by
  have hnone : (s.drawersReset c x).releaseOrphans c x (s.orphans c x) = s.drawersReset c x := by
    refine State.releaseOrphans_none fun d hd => ?_
    have hown : s.drawerInShare c x d = true := (List.mem_filter.1 (List.mem_filter.1 hd).1).2
    refine State.hasWaiter_modCore (fun k => Core.drawersReset_keeps Core.q (fun _ _ _ _ => rfl) _ _ k) ?_
    have hsweeps := s.winsShut_sweeps c x
    have hsame : (s.winsShut c x).hasWaiter c d = s.hasWaiter c d := by
      rw [State.hasWaiter, State.hasWaiter, s.winsShut_cores, hsweeps.get State.waitw fun _ _ _ => rfl, hsweeps.get State.waitr fun _ _ _ => rfl]
    rw [hsame]
    exact hwait d hown
  have hsweeps := s.drawersReset_sweeps c x
  have hcore := s.drawersReset_core c x
  have hother : ∀ d, d ≠ c → (s.drawersReset c x).core d = s.core d := fun d hd => by
    rw [State.drawersReset, State.core_modCore_ne _ _ hd, State.core_congr (s.winsShut_cores c x)]
  rw [State.resetNow_eq, hnone]
  generalize s.drawersReset c x = v at hsweeps hcore hother
  refine ⟨v.coreReset c x, rfl, hsweeps.trans (v.coreReset_sweeps c x), ?_, fun d hd => (v.coreReset_other hd x).trans (hother d hd)⟩
  have hctx : v.context c x = s.context c x := by
    rw [State.context, hcore]
    exact Core.drawersReset_keeps (Core.context · x) (fun _ _ _ _ => rfl) _ _ _
  rw [State.coreReset_core, hcore, hctx, hsweeps.share, hsweeps.share, State.tilesOf, State.accsOf, State.latchNo, hsweeps.modeM]
  rfl

theorem State.resetCore_context (s : State) (c x y : Nat) :
    (s.resetCore c x).context y = if y = x then (s.context c x).wasReset else s.context c y := by
  unfold State.resetCore
  by_cases hy : y = x
  · rw [if_pos hy, hy, Core.context_setContext]
  · rw [if_neg hy, Core.context_setContext_ne _ _ hy]
    exact (Core.anvilReset_keeps (Core.context · y) (fun _ _ _ => rfl) (fun _ _ _ => rfl) (fun _ _ _ => rfl) _ _ (s.latchNo c x) _).trans
      (Core.drawersReset_keeps (Core.context · y) (fun _ _ _ _ => rfl) _ _ _)

theorem State.resetCore_drawer (s : State) (c x d : Nat) : (s.resetCore c x).drawer d
    = if d ∈ s.ownDrawers c x then (if d ∈ s.orphans c x then { tag := .orphan, gran := ((s.core c).drawer d).gran } else {})
      else (s.core c).drawer d :=
  (Core.anvilReset_keeps (Core.drawer · d) (fun _ _ _ => rfl) (fun _ _ _ => rfl) (fun _ _ _ => rfl) _ _ (s.latchNo c x) _).trans
    (Core.drawersReset_drawer _ _ _ d)

theorem State.resetCore_hdr (s : State) (c x d : Nat) : (s.resetCore c x).hdr d = if d ∈ s.ownDrawers c x then {} else (s.core c).hdr d :=
  (Core.anvilReset_keeps (Core.hdr · d) (fun _ _ _ => rfl) (fun _ _ _ => rfl) (fun _ _ _ => rfl) _ _ (s.latchNo c x) _).trans (Core.drawersReset_hdr _ _ _ d)

theorem State.resetCore_counter (s : State) {n : Nat} (h : s.ctrInShare c x n = true) : (s.resetCore c x).counter n = 0 := by
  obtain ⟨hn, hshare⟩ := Bool.and_eq_true_iff.1 h
  have hmem := s.mem_share (c := c) (x := x) (per := 64) (by decide) (of_decide_eq_true hn) hshare
  refine (Tab.get_keep 0 (fun n => !(n ∈ s.share c x 64)) _ n).trans (if_neg ?_)
  simp [hmem]

theorem State.resetCore_desc (s : State) {n : Nat} (h : s.descInShare c x n = true) : (s.resetCore c x).desc n = 0 := by
  obtain ⟨hn, hshare⟩ := Bool.and_eq_true_iff.1 h
  have hmem := s.mem_share (c := c) (x := x) (per := 16) (by decide) (of_decide_eq_true hn) hshare
  refine (Tab.get_keep 0 (fun n => !(n ∈ s.share c x 16)) _ n).trans (if_neg ?_)
  simp [hmem]

theorem State.mem_ownDrawers {d : Nat} : d ∈ s.ownDrawers c x ↔ s.drawerInShare c x d = true := by
  rw [State.ownDrawers, List.mem_filter, List.mem_range]
  exact ⟨And.right, fun h => ⟨of_decide_eq_true (Bool.and_eq_true_iff.1 h).1, h⟩⟩

theorem State.ctxReset_of_idle (h : (s.context c x).st = .idle) : s.ctxReset c x = s.resetNow c x := by rw [State.ctxReset, h]

theorem exec_ctxReset_idle {req : Nat} (hc : c < 96) (hx : x < 4) (hok : s.ctlRefused c x true = false) (hidle : (s.context c x).st = .idle) :
    exec (.ctxReset c x req) s = .next (s.resetNow c x) := by
  refine (onCtx_eq hc hx _).trans (congrArg _ ?_)
  rw [if_neg (by simp [hok]), State.ctxReset_of_idle hidle]

/-- What an IDLE context, its core and the device are once it is reset, where nobody waits for its drawers and it owns no armed barrier. -/
theorem State.ctxReset_idle {req : Nat} (hc : c < 96) (hx : x < 4) (hok : s.ctlRefused c x true = false) (hidle : (s.context c x).st = .idle)
    (hwait : ∀ d, s.drawerInShare c x d = true → s.hasWaiter c d = false)
    (hbars : ∀ k, k < 304 → barArmed (s.barCfg k) = true → barOwner (s.barCfg k) ≠ 4 * c + x) :
    ∃ t, exec (.ctxReset c x req) s = .next t ∧ t.core c = s.resetCore c x ∧ (∀ d, d ≠ c → t.core d = s.core d)
      ∧ (∀ k, k < 320 → State.ctrOwned c x s k = true → (t.ctr k).orphan = true) ∧ ∀ a, t.readByte a = s.readByte a := by
  obtain ⟨u, hreset, hsweeps, hcore, hother⟩ := State.reset_calm hwait
  have hexec := exec_ctxReset_idle (req := req) hc hx hok hidle
  rw [hreset] at hexec
  obtain ⟨horphaned, howned⟩ := State.orphanOwned_spec (s := u) (c := c) (x := x) fun k hk => by
    rw [hsweeps.barCfg hk]
    exact hbars k hk
  generalize u.orphanOwned c x = v at hexec horphaned howned
  have hev := v.ctxEvent_eventsOnly c x 0x010B 2 0
  have hcores : ∀ d, (v.ctxEvent c x 0x010B 2 0).core d = u.core d := fun d =>
    (State.core_congr hev.cores d).trans (State.core_congr horphaned.cores d)
  refine ⟨_, hexec, (hcores c).trans hcore, fun d hd => (hcores d).trans (hother d hd), fun k hk hown => ?_, fun a => ?_⟩
  · have hsame : State.ctrOwned c x u k = State.ctrOwned c x s k := by rw [State.ctrOwned, State.ctrOwned, hsweeps.ctrCfg hk]
    have hctr := howned k hk (hsame.trans hown)
    rwa [← hev.get (State.ctr · k) fun _ _ _ => rfl] at hctr
  · have hmem : (v.ctxEvent c x 0x010B 2 0).mem = s.mem :=
      (hev.mem.trans horphaned.mem).trans (hsweeps.get State.mem fun _ _ _ => rfl)
    rw [State.readByte, State.readByte, hmem]

theorem State.ctxReset_idle_row {req : Nat} (hc : c < 96) (hx : x < 4) (hok : s.ctlRefused c x true = false) (hidle : (s.context c x).st = .idle)
    (hwait : ∀ d, s.drawerInShare c x d = true → s.hasWaiter c d = false)
    (hbars : ∀ k, k < 304 → barArmed (s.barCfg k) = true → barOwner (s.barCfg k) ≠ 4 * c + x) :
    ∃ t, exec (.ctxReset c x req) s = .next t
      ∧ t.context c x = { (s.context c x) with st := .idle, s := [], p := 0, heldAct := .none, resetting := false, fresh := true, saved := [] }
      ∧ (∀ n, s.ctrInShare c x n = true → (t.core c).counter n = 0)
      ∧ (∀ n, s.descInShare c x n = true → (t.core c).desc n = 0)
      ∧ (∀ d, s.drawerInShare c x d = true → (t.core c).hdr d = {}
          ∧ ((t.core c).drawer d).tag = (if s.inOpenWin c x d then .orphan else .empty) ∧ ((t.core c).drawer d).claim = false)
      ∧ (∀ n ∈ s.tilesOf c x, (t.core c).tile n = {}) ∧ (∀ n ∈ s.accsOf c x, (t.core c).acc n = {})
      ∧ ((t.core c).latch (s.latchNo c x)).valid = false
      ∧ (∀ y, y ≠ x → t.context c y = s.context c y) ∧ (∀ d, d ≠ c → t.core d = s.core d)
      ∧ (∀ d, s.drawerInShare c x d = false → (t.core c).drawer d = (s.core c).drawer d ∧ (t.core c).hdr d = (s.core c).hdr d)
      ∧ (∀ k, k < 320 → ctrArmed (s.ctrCfg k) = true → 4 * bits (s.ctrCfg k) 28 22 + bits (s.ctrCfg k) 30 29 = 4 * c + x →
          (t.ctr k).orphan = true)
      ∧ ∀ a, t.readByte a = s.readByte a := by
  obtain ⟨t, hexec, hcore, hother, hctrs, hmem⟩ := State.ctxReset_idle (req := req) hc hx hok hidle hwait hbars
  have hctx : ∀ y, t.context c y = if y = x then (s.context c x).wasReset else s.context c y := fun y => by
    rw [State.context, hcore, State.resetCore_context]
  refine ⟨t, hexec, ?_, fun n hn => ?_, fun n hn => ?_, fun d hd => ?_, fun n hn => ?_, fun n hn => ?_, ?_, fun y hy => ?_, hother,
    fun d hd => ?_, fun k hk harmed howner => hctrs k hk ?_, hmem⟩
  · rw [hctx, if_pos rfl]
    rfl
  · rw [hcore]
    exact s.resetCore_counter hn
  · rw [hcore]
    exact s.resetCore_desc hn
  · have hown := State.mem_ownDrawers.2 hd
    have horphan : d ∈ s.orphans c x ↔ s.inOpenWin c x d = true := by
      rw [State.orphans, List.mem_filter, hwait d hd, Bool.false_or]
      exact and_iff_right hown
    rw [hcore, State.resetCore_hdr, State.resetCore_drawer, if_pos hown, if_pos hown]
    refine ⟨rfl, ?_⟩
    by_cases hwin : s.inOpenWin c x d = true
    · rw [if_pos (horphan.2 hwin), if_pos hwin]
      exact ⟨rfl, rfl⟩
    · rw [if_neg fun h => hwin (horphan.1 h), if_neg hwin]
      exact ⟨rfl, rfl⟩
  · rw [hcore]
    exact Core.anvilReset_tile _ _ (s.latchNo c x) _ hn
  · rw [hcore]
    exact Core.anvilReset_acc _ _ (s.latchNo c x) _ hn
  · rw [hcore]
    exact congrArg RLatch.valid (Core.anvilReset_latch _ _ _ _)
  · rw [hctx, if_neg hy]
  · have hown : ¬ d ∈ s.ownDrawers c x := fun h => by simp [State.mem_ownDrawers.1 h] at hd
    rw [hcore, State.resetCore_drawer, State.resetCore_hdr, if_neg hown, if_neg hown]
    exact ⟨rfl, rfl⟩
  · simp [State.ctrOwned, harmed, howner]

end Sys2Proof.Machine
end

section
/-!
A change of a core's mode (10 R205): a context that has been reset, with no command of its own left, stands as it was reset through whatever ends
other contexts' commands; and the obligation about resets.
-/
namespace Sys2Proof.Machine

variable {s t u : State} {c y : Nat} {v : Ctx} {q : QCmd}

/-! ### A context without commands -/

/-- A core's context stands, and its commands are of contexts that had commands before. -/
def Core.within (y : Nat) (k l : Core) : Prop := l.context y = k.context y ∧ ∀ q ∈ l.q, ∃ p ∈ k.q, p.ctx = q.ctx

theorem Core.within_of {k l : Core} (hctx : l.context y = k.context y) (hq : l.q = k.q) : Core.within y k l :=
  ⟨hctx, fun q h => ⟨q, hq ▸ h, rfl⟩⟩

theorem Core.butDrawers.within {k l : Core} (h : l.butDrawers k) (y : Nat) : Core.within y k l := Core.within_of (h.context y) h.q

/-- Context `y` of core `c` stands at `v`, and no core that the state lists as `c` holds a command of it. -/
structure State.Calm (c y : Nat) (v : Ctx) (s : State) : Prop where
  context : s.context c y = v
  gone : ∀ e ∈ s.cores, e.1 = c → ∀ q ∈ e.2.q, q.ctx ≠ y

theorem State.Calm.queue (h : State.Calm c y v s) (hq : q ∈ (s.core c).q) : q.ctx ≠ y := h.gone _ (State.queue_listed hq) rfl q hq

theorem State.Calm.cmd? {d id : Nat} (h : State.Calm c y v s) (hq : (s.core d).cmd? id = some q) : d = c → q.ctx ≠ y := by
  rintro rfl
  exact h.queue (List.mem_of_find?_eq_some hq)

theorem State.Calm.of_cores (h : State.Calm c y v s) (hcores : t.cores = s.cores) : State.Calm c y v t :=
  ⟨by rw [State.context, State.core_congr hcores]; exact h.context, by rw [hcores]; exact h.gone⟩

theorem State.Calm.modCore (h : State.Calm c y v s) (d : Nat) {g : Core → Core} (hg : d = c → Core.within y (s.core c) (g (s.core c))) :
    State.Calm c y v (s.modCore d g) := by
  refine ⟨?_, fun e he hc q hq => ?_⟩
  · by_cases hd : c = d
    · subst hd
      rw [State.context, State.core_modCore]
      exact (hg rfl).1.trans h.context
    · rw [State.context, State.core_modCore_ne _ _ hd]
      exact h.context
  · rcases Tab.mem_of_mem_set he with rfl | ⟨he, -⟩
    · dsimp only at hc hq
      subst hc
      obtain ⟨p, hp, hctx⟩ := (hg rfl).2 q hq
      rw [← hctx]
      exact h.queue hp
    · exact h.gone e he hc q hq

theorem foldl_calm {α : Type} (g : State → α → State) (l : List α)
    (hg : ∀ t, State.Calm c y v t → ∀ a ∈ l, State.Calm c y v (g t a)) (h : State.Calm c y v s) : State.Calm c y v (l.foldl g s) := by
  induction l generalizing s with
  | nil => exact h
  | cons a l ih => exact ih (fun t ht b hb => hg t ht b (List.mem_cons_of_mem _ hb)) (hg s h a (List.mem_cons_self ..))

/-! ### Changes of cores -/

theorem State.Calm.modDrawer (h : State.Calm c y v s) (d e : Nat) (f : Drawer → Drawer) : State.Calm c y v (s.modCore d (fun k => k.modDrawer e f)) :=
  h.modCore d fun _ => Core.within_of rfl rfl

theorem State.Calm.modContext (h : State.Calm c y v s) {d x : Nat} (hx : d = c → x ≠ y) (g : Ctx → Ctx) :
    State.Calm c y v (s.modContext d x g) :=
  h.modCore d fun hd => Core.within_of (Core.context_setContext_ne _ _ (hx hd).symm) rfl

theorem mem_modFirst {α : Type} {p : α → Bool} {f : α → α} {l : List α} {a : α} (h : a ∈ modFirst p f l) : ∃ b ∈ l, a = b ∨ a = f b := by
  induction l with
  | nil => exact absurd h List.not_mem_nil
  | cons b l ih =>
    rw [modFirst] at h
    split at h
    · rcases List.mem_cons.1 h with rfl | h
      · exact ⟨b, List.mem_cons_self .., Or.inr rfl⟩
      · exact ⟨a, List.mem_cons_of_mem _ h, Or.inl rfl⟩
    · rcases List.mem_cons.1 h with rfl | h
      · exact ⟨a, List.mem_cons_self .., Or.inl rfl⟩
      · obtain ⟨b', hb, hab⟩ := ih h
        exact ⟨b', List.mem_cons_of_mem _ hb, hab⟩

theorem State.Calm.modCmd (h : State.Calm c y v s) (d id : Nat) {f : QCmd → QCmd} (hf : ∀ p, (f p).ctx = p.ctx) :
    State.Calm c y v (s.modCmd d id f) := by
  refine h.modCore d fun _ => ⟨rfl, fun q hq => ?_⟩
  obtain ⟨p, hp, rfl | rfl⟩ := mem_modFirst hq
  · exact ⟨q, hp, rfl⟩
  · exact ⟨p, hp, (hf p).symm⟩

theorem State.Calm.settleClosing (h : State.Calm c y v s) (d : Nat) : State.Calm c y v (s.settleClosing d) :=
  foldl_calm _ _ (fun t ht e _ => by
    split
    · exact ht.modDrawer d e _
    · exact ht) h

theorem State.Calm.putOut (h : State.Calm c y v s) (hint : Nat) (o : Nat × Nat × Header) : State.Calm c y v (s.putOut hint o) := by
  unfold State.putOut
  split
  · exact h.modCore o.1 fun _ => Core.within_of rfl rfl
  · refine h.of_cores ((foldl_cores (fun s g => State.cacheWrite { s with ecc := Tab.set 0 s.ecc g 0 } g _) (fun v g => ?_) _ _).trans rfl)
    exact State.cacheWrite_cores _ g _

theorem State.Calm.anvilTorn (h : State.Calm c y v s) (d : Nat) (q : QCmd) : State.Calm c y v (anvilTorn s d q) := by
  unfold Sys2Proof.Machine.anvilTorn
  dsimp only
  split
  · exact h.modCore d fun _ => Core.within_of rfl rfl
  · exact h.modCore d fun _ => Core.within_of rfl rfl
  · exact h

theorem Core.tearDrawers_butDrawers (k : Core) (q : QCmd) : (k.tearDrawers q).butDrawers k :=
  (foldl_butDrawers _ (fun k d => k.butDrawers_modDrawer d _) _ _).trans (foldl_butDrawers _ (fun k d => k.butDrawers_modDrawer d _) _ k)

/-! ### The end of a command of another context -/

section
variable {d : Nat}

theorem State.Calm.statusEvent (h : State.Calm c y v s) (d : Nat) (q : QCmd) (st : Nat) : State.Calm c y v (s.statusEvent d q st) :=
  h.of_cores (State.statusEvent_cores s d q st)

theorem State.Calm.ctxEvent (h : State.Calm c y v s) (d x code cls st : Nat) : State.Calm c y v (s.ctxEvent d x code cls st) :=
  h.of_cores (State.raise_cores _ _)

theorem State.Calm.signalOwn (h : State.Calm c y v s) (d : Nat) (q : QCmd) : State.Calm c y v (s.signalOwn d q) := by
  unfold State.signalOwn State.signalCounter State.addCounter
  exact (h.of_cores (State.perturb_cores s 3 d)).modCore d fun _ => ⟨rfl, fun q hq => ⟨q, hq, rfl⟩⟩

theorem State.Calm.dropped (h : State.Calm c y v s) (d : Nat) (q : QCmd) (st : Nat) : State.Calm c y v (s.dropped d q st) := by
  have hdrop : State.Calm c y v (s.modCore d (fun k => k.dropCmd q.id)) :=
    h.modCore d fun _ => ⟨rfl, fun p hp => ⟨p, (List.mem_filter.1 hp).1, rfl⟩⟩
  unfold State.dropped
  dsimp only
  split
  · exact hdrop.signalOwn d q
  · exact hdrop

/-- The state of a completion once its context has halted, or has been told of an abort, where it does. -/
def State.told (s : State) (d : Nat) (q : QCmd) (st : Nat) : State :=
  if halting st then s.haltCmd d q st
  else if st = stAborted then s.modContext d q.ctx (fun x => { x with lastOp := q.cmd.opcode, lastStatus := st })
  else s

theorem State.Calm.told (h : State.Calm c y v s) (hq : d = c → q.ctx ≠ y) (st : Nat) : State.Calm c y v (s.told d q st) := by
  unfold State.told
  split
  · exact (h.modContext hq _).of_cores (State.holdJob_cores _ _ _ _)
  split
  · exact h.modContext hq _
  · exact h

theorem State.complete_told (s : State) (d : Nat) (q : QCmd) (st : Nat) : s.complete d q st = match q.peer with
    | some (p, _) => ((((s.dropped d q st).statusEvent d q st).told d q st).settleClosing d).settleClosing p
    | none => (((s.dropped d q st).statusEvent d q st).told d q st).settleClosing d := rfl

theorem State.Calm.complete (h : State.Calm c y v s) (hq : d = c → q.ctx ≠ y) (st : Nat) : State.Calm c y v (s.complete d q st) := by
  have htold := (((h.dropped d q st).statusEvent d q st).told hq st).settleClosing d
  rw [State.complete_told]
  split
  · exact htold.settleClosing _
  · exact htold

theorem State.Calm.tarnishOuts (h : State.Calm c y v s) (q : QCmd) : State.Calm c y v (s.tarnishOuts q) :=
  foldl_calm _ _ (fun _ ht _ _ => ht.putOut _ _) h

theorem State.Calm.freeMacro (h : State.Calm c y v s) (q : QCmd) : State.Calm c y v (s.freeMacro q) :=
  foldl_calm _ _ (fun _ ht e _ => ht.modDrawer e.1 e.2 _) h

theorem State.Calm.stopCmd (h : State.Calm c y v s) (hq : d = c → q.ctx ≠ y) (st : Nat) : State.Calm c y v (s.stopCmd d q st) := by
  have htear : State.Calm c y v (s.modCore d (fun k => k.tearDrawers q)) := h.modCore d fun _ => (Core.tearDrawers_butDrawers _ q).within y
  exact (((htear.anvilTorn d q).freeMacro q).tarnishOuts q).complete hq st

theorem State.Calm.failTransfer (h : State.Calm c y v s) (hq : d = c → q.ctx ≠ y) (st : Nat) : State.Calm c y v (s.failTransfer d q st) := by
  have hflight : State.Calm c y v (s.dropFlight d q) := h.of_cores rfl
  exact hflight.stopCmd hq st

theorem State.Calm.putStatuses (h : State.Calm c y v s) (hq : d = c → q.ctx ≠ y) (sts : List Nat) :
    State.Calm c y v (s.putStatuses d q sts) := by
  unfold State.putStatuses
  exact h.modContext hq _

theorem State.Calm.macroEnds (h : State.Calm c y v s) (hq : d = c → q.ctx ≠ y) (st : Nat) : State.Calm c y v (s.macroEnds d q st) := by
  unfold State.macroEnds
  split
  · split
    · exact h
    split
    · exact h.putStatuses hq _
    · exact h.putStatuses hq _
  · exact h

theorem State.leaveGroup_cores (s : State) (q : QCmd) : (s.leaveGroup q).cores = s.cores := by
  unfold State.leaveGroup
  split
  · rfl
  split
  · rfl
  · rfl

theorem State.freeKeySets_cores (s : State) : s.freeKeySets.cores = s.cores := by
  unfold State.freeKeySets State.releaseSets
  dsimp only
  exact foldl_cores _ (fun u (k : KeySet) =>
    (foldl_cores State.freeRec (fun w n => w.setRec_cores n {}) _ (u.dropKeep k.dir (k.dir + k.len))).trans rfl) _ s

/-- What a command leaves that ends with its groups and key sets: the chunks it holds in the key inlet go. -/
theorem State.Calm.inlet (h : State.Calm c y v s) (d id : Nat) :
    State.Calm c y v (s.modCore d (fun k => { k with inlet := k.inlet.filter (fun e => e.1 != id) })) :=
  h.modCore d fun _ => Core.within_of rfl rfl

theorem State.Calm.endWaiting (h : State.Calm c y v s) (hq : d = c → q.ctx ≠ y) (st : Nat) : State.Calm c y v (s.endWaiting d q st) :=
  ((((h.macroEnds hq st).complete hq st).of_cores (State.leaveGroup_cores _ q)).of_cores (State.freeKeySets_cores _)).inlet d q.id

theorem State.Calm.outDrawers (h : State.Calm c y v s) (q : QCmd) (j : Nat) (f : Drawer → Drawer) : State.Calm c y v (s.outDrawers q j f) :=
  foldl_calm _ _ (fun _ ht e _ => ht.modDrawer e.1 e.2 f) h

theorem State.Calm.tarnishOut (h : State.Calm c y v s) (q : QCmd) (j : Nat) : State.Calm c y v (s.tarnishOut q j) := by
  unfold State.tarnishOut
  dsimp only
  generalize (if q.stage = .started then Drawer.tear else fun d => { d with tag := .torn }) = f
  have hout := h.outDrawers q j f
  have hin : State.Calm c y v (if q.outDr = [[]] then q.inDr.foldl (fun s d => s.modCore d.1 (fun k => k.modDrawer d.2 f)) (s.outDrawers q j f)
      else s.outDrawers q j f) := by
    split
    · exact foldl_calm _ _ (fun _ ht e _ => ht.modDrawer e.1 e.2 f) hout
    · exact hout
  split
  · exact hin.putOut _ _
  · exact hin

theorem State.scramble_cores (s : State) (q : QCmd) : (s.scramble q).cores = s.cores := by
  unfold State.scramble State.scrambleDr
  refine foldl_cores _ (fun u e => ?_) _ s
  generalize (List.range drawerBytes).map (fun i => BitVec.ofNat 8 (Config.freeValue (u.free + i))) = bs
  exact State.sameCores.trans (State.store_cores _ _ bs) (State.sameCores.refl u)

theorem State.Calm.finishMacro (h : State.Calm c y v s) (hq : d = c → q.ctx ≠ y) (sts : List Nat) :
    State.Calm c y v (s.finishMacro d q sts) := by
  have hfreed := (h.of_cores (s.scramble_cores q)).freeMacro q
  have hclosed : State.Calm c y v ((q.consumed sts).foldl (fun s d => s.modCore d.1 (fun k => k.modDrawer d.2 (fun v => { v with closing := true })))
      ((s.scramble q).freeMacro q)) := foldl_calm _ _ (fun _ ht e _ => ht.modDrawer e.1 e.2 _) hfreed
  have hdone := ((hclosed.putStatuses hq sts).complete hq (macroStatus sts)).inlet d q.id
  have hsettled := foldl_calm (fun s k => s.settleClosing k) (q.inDr.map (·.1)) (fun _ ht k _ => ht.settleClosing k) hdone
  exact (hsettled.of_cores (State.leaveGroup_cores _ q)).of_cores (State.freeKeySets_cores _)

theorem State.Calm.stopMacro (h : State.Calm c y v s) (hq : d = c → q.ctx ≠ y) (st : Nat) : State.Calm c y v (s.stopMacro d q st) :=
  (foldl_calm _ _ (fun _ ht j _ => ht.tarnishOut q j) h).finishMacro hq _

end

/-! ### Waiters released, and armed objects orphaned -/

theorem State.ackTo_cores (s : State) (owner dev opid core st : Nat) : (s.ackTo owner dev opid core st).cores = s.cores := by
  unfold State.ackTo State.sendPacket State.sendLen
  split
  · exact State.raise_cores _ _
  · rfl

theorem State.Calm.releaseOrphans (h : State.Calm c y v s) (d x : Nat) (os : List Nat) : State.Calm c y v (s.releaseOrphans d x os) := by
  unfold State.releaseOrphans
  dsimp only
  refine foldl_calm _ _ (fun t ht e _ => foldl_calm _ _ (fun t ht p _ => ?command) ht) (foldl_calm _ _ (fun t ht r _ => ?reader)
    (foldl_calm _ _ (fun t ht w _ => ?writer) (h.of_cores rfl)))
  case writer =>
    split
    · split
      case h_1 q hq => exact (ht.failTransfer (ht.cmd? hq) stOrphan).ctxEvent ..
      case h_2 => exact ht
    · exact (ht.of_cores (State.ackTo_cores ..)).ctxEvent ..
  case reader => exact (ht.of_cores (State.ackTo_cores ..)).ctxEvent ..
  case command =>
    split
    case isFalse => exact ht
    split
    · exact ht
    case h_2 q hq =>
      split
      · exact (ht.endWaiting (ht.cmd? hq) stOrphan).ctxEvent ..
      split
      · exact (ht.stopMacro (ht.cmd? hq) stOrphan).ctxEvent ..
      · exact (ht.stopCmd (ht.cmd? hq) stOrphan).ctxEvent ..

/-- A command that waits at a barrier is none of a context without commands. -/
theorem State.Calm.barCmds (h : State.Calm c y v s) {k : Nat} {e : Nat × QCmd} (he : e ∈ s.barCmds k) : e.1 = c → e.2.ctx ≠ y := by
  intro hc
  obtain ⟨p, hp, hx⟩ := List.mem_flatMap.1 he
  obtain ⟨x, -, hq⟩ := List.mem_flatMap.1 hx
  obtain ⟨r, hr, rfl⟩ := List.mem_map.1 hq
  exact h.gone p hp hc r (List.mem_filter.1 hr).1

theorem State.Calm.barRelease1 (h : State.Calm c y v s) {d : Nat} (hq : d = c → q.ctx ≠ y) (st : Nat) :
    State.Calm c y v (s.barRelease1 d q st) := by
  unfold State.barRelease1
  split
  · exact h.modCmd d q.id fun _ => rfl
  · exact h.modCmd d q.id fun _ => rfl
  · exact (h.modContext hq _).complete hq st

theorem State.Calm.barReleaseAll (h : State.Calm c y v s) (k st : Nat) (all : Bool) : State.Calm c y v (s.barReleaseAll k st all) := by
  refine foldl_calm _ _ (fun t ht e he => ?_) h
  split
  · exact ht.barRelease1 (h.barCmds he) st
  · split
    · exact ht.barRelease1 (h.barCmds he) st
    · exact ht
  · exact ht

theorem State.barEvent_cores (s : State) (code cls k core ctx : Nat) : (s.barEvent code cls k core ctx).cores = s.cores := State.raise_cores _ _

theorem State.Calm.orphanOwned (h : State.Calm c y v s) (d x : Nat) : State.Calm c y v (s.orphanOwned d x) := by
  rw [State.orphanOwned_eq]
  refine foldl_calm _ _ (fun t ht k _ => ?counter) (foldl_calm _ _ (fun t ht k _ => ?barrier) h)
  case barrier =>
    unfold State.orphanBar
    split
    · have hset : State.Calm c y v (t.setBar k { t.bar k with orphan := true }) := ht.of_cores rfl
      exact (hset.of_cores (State.barEvent_cores ..)).barReleaseAll k stOrphan true
    · exact ht
  case counter =>
    unfold State.orphanCtr
    split
    · have hset : State.Calm c y v (t.setCtr k { t.ctr k with orphan := true }) := ht.of_cores rfl
      exact hset.of_cores (State.raise_cores _ _)
    · exact ht

/-! ### A reset -/

theorem State.Calm.drawersReset (h : State.Calm c y v s) (d x : Nat) : State.Calm c y v (s.drawersReset d x) :=
  (h.of_cores (s.winsShut_cores d x)).modCore d fun _ => Core.within_of
    (Core.drawersReset_keeps (Core.context · y) (fun _ _ _ _ => rfl) _ _ _) (Core.drawersReset_keeps Core.q (fun _ _ _ _ => rfl) _ _ _)

/-- A context that has been reset: IDLE until the next start, its registers and predicates zero. -/
def Ctx.isReset (v : Ctx) : Prop := v.st = .idle ∧ v.s = [] ∧ v.p = 0 ∧ v.fresh = true

/-- The context whose core is reset is reset, and has no command left. -/
theorem State.coreReset_calm (s : State) (c x : Nat) : State.Calm c x (s.context c x).wasReset (s.coreReset c x) := by
  have hcore := s.coreReset_core c x
  have hq : ((s.coreReset c x).core c).q = (((s.core c).anvilReset (s.tilesOf c x) (s.accsOf c x) (s.latchNo c x)).q).filter
      (fun q => q.ctx != x) := by
    rw [hcore]
    rfl
  refine ⟨by rw [State.context, hcore, Core.context_setContext], fun e he hc q hmem => ?_⟩
  rw [State.coreReset_eq, State.modContext, State.modCore_modCore] at he
  rcases Tab.mem_of_mem_set he with rfl | ⟨-, hne⟩
  · have hfilter := (List.mem_filter.1 hmem).2
    simpa using hfilter
  · exact absurd hc hne

theorem State.Calm.coreReset (h : State.Calm c y v s) {x : Nat} (hx : x ≠ y) : State.Calm c y v (s.coreReset c x) := by
  have hanvil : State.Calm c y v ((s.resetAnvil c x).regsReset c x) := by
    rw [State.resetAnvil_eq]
    refine State.Calm.of_cores (h.modCore c fun _ => ?_) (State.regsReset_cores _ c x)
    exact Core.within_of (Core.anvilReset_keeps (Core.context · y) (fun _ _ _ => rfl) (fun _ _ _ => rfl) (fun _ _ _ => rfl) _ _ _ _)
      (Core.anvilReset_keeps Core.q (fun _ _ _ => rfl) (fun _ _ _ => rfl) (fun _ _ _ => rfl) _ _ _ _)
  rw [State.coreReset_eq]
  refine State.Calm.modContext (hanvil.modCore c fun _ => ⟨rfl, fun q hq => ?_⟩) (fun _ => hx) _
  exact ⟨q, (List.mem_filter.1 hq).1, rfl⟩

/-- A reset leaves its context reset and without commands. -/
theorem State.resetNow_calm (s : State) (c x : Nat) : ∃ v, v.isReset ∧ State.Calm c x v (s.resetNow c x) := by
  rw [State.resetNow_eq]
  generalize (s.drawersReset c x).releaseOrphans c x (s.orphans c x) = u
  exact ⟨_, ⟨rfl, rfl, rfl, rfl⟩, ((u.coreReset_calm c x).orphanOwned c x).ctxEvent ..⟩

/-- A reset leaves another context of its core that has no commands. -/
theorem State.Calm.resetNow (h : State.Calm c y v s) {x : Nat} (hx : x ≠ y) : State.Calm c y v (s.resetNow c x) := by
  rw [State.resetNow_eq]
  exact ((((h.drawersReset c x).releaseOrphans c x _).coreReset hx).orphanOwned c x).ctxEvent ..

/-- Contexts of a core reset in turn all end as reset. -/
theorem State.resets_calm (c : Nat) (l : List Nat) (s : State) :
    ∀ x ∈ l, ∃ v, v.isReset ∧ State.Calm c x v (l.foldl (fun s x => s.resetNow c x) s) := by
  have hkeeps : ∀ (l : List Nat) (s : State) (x : Nat), (∃ v, v.isReset ∧ State.Calm c x v s) →
      ∃ v, v.isReset ∧ State.Calm c x v (l.foldl (fun s x => s.resetNow c x) s) := by
    intro l
    induction l with
    | nil => exact fun s x h => h
    | cons z l ih =>
      rintro s x ⟨v, hv, h⟩
      refine ih _ x ?_
      by_cases hz : z = x
      · rw [hz]
        exact s.resetNow_calm c x
      · exact ⟨v, hv, h.resetNow hz⟩
  induction l generalizing s with
  | nil => exact fun x hx => absurd hx List.not_mem_nil
  | cons z l ih =>
    intro x hx
    rcases List.mem_cons.1 hx with rfl | hx
    · exact hkeeps l _ x (s.resetNow_calm c x)
    · exact ih _ x hx

/-! ### The obligation -/

theorem State.coreIdle_eq_true : s.coreIdle c = true ↔ ∀ x, x < 4 → (s.context c x).st = .idle := by
  simp [State.coreIdle, List.all_eq_true]

/-- Bit 0 of CORE_MODE is the mode of a core (10 R205). -/
theorem State.modeM_setRf (s : State) (c : Nat) (m : Bool) : (s.setRf .coreMode c 0 0 0 (b2n m)).modeM c = m := by
  rw [State.modeM, State.setRf, State.reg_setReg, bitOf_putBits _ _ (by decide) (by decide)]
  cases m <;> rfl

/-- A change of a core's mode resets the contexts it has under the old one (10 R204, R205). -/
theorem State.coreModeWrite_row {req : Nat} {m : Bool} (hc : c < 96) (hidle : ∀ x, x < 4 → (s.context c x).st = .idle) (hm : s.modeM c ≠ m) :
    ∃ t, exec (.coreModeWrite c req m) s = .next t ∧ t.modeM c = m
      ∧ ∀ x, x < 4 → (s.modeM c = true ∨ x = 0) → (t.context c x).st = .idle ∧ (t.context c x).s = [] ∧ (t.context c x).p = 0 ∧ (t.context c x).fresh = true := by
  have hexec : exec (.coreModeWrite c req m) s = .next (((if s.modeM c then List.range 4 else [0]).foldl (fun s x => s.resetNow c x) s).setRf
      .coreMode c 0 0 0 (b2n m)) := by
    refine (onCore_eq hc _).trans (congrArg _ ?_)
    rw [State.coreModeWrite, State.coreIdle_eq_true.2 hidle, if_neg (by decide), if_neg hm]
  have hreset := State.resets_calm c (if s.modeM c then List.range 4 else [0]) s
  generalize (if s.modeM c then List.range 4 else [0]).foldl (fun s x => s.resetNow c x) s = u at hexec hreset
  refine ⟨_, hexec, u.modeM_setRf c m, fun x hx hown => ?_⟩
  have hmem : x ∈ (if s.modeM c then List.range 4 else [0]) := by
    split
    case isTrue => exact List.mem_range.2 hx
    case isFalse hmode => exact List.mem_singleton.2 (hown.resolve_left hmode)
  obtain ⟨v, hv, hcalm⟩ := hreset x hmem
  have hctx : (u.setRf .coreMode c 0 0 0 (b2n m)).context c x = v := hcalm.context
  rw [hctx]
  exact hv

/-- A reset of a context that may have commands: its abort comes first (10 R226, R230). -/
theorem State.ctxReset_abort_row {x req : Nat} (hc : c < 96) (hx : x < 4) (hok : s.ctlRefused c x true = false)
    (hst : (s.context c x).st = .running ∨ (s.context c x).st = .halted ∨ (s.context c x).st = .preempted) :
    ∃ t, exec (.ctxReset c x req) s = .next t ∧ s.onlyContext t c x { (s.context c x) with st := .aborting, resetting := true } := by
  have hreset : s.ctxReset c x = s.modContext c x (fun y => { y with st := .aborting, resetting := true }) := by
    rw [State.ctxReset]
    rcases hst with h | h | h <;> rw [h]
  refine ⟨_, (onCtx_eq hc hx _).trans (congrArg _ ?_), s.modContext_onlyContext c x (fun y => { y with st := .aborting, resetting := true })⟩
  rw [if_neg (by simp [hok]), hreset]

theorem State.coreModeWrite_same {req : Nat} {m : Bool} (hc : c < 96) (hidle : ∀ x, x < 4 → (s.context c x).st = .idle) (hm : s.modeM c = m) :
    exec (.coreModeWrite c req m) s = .next s := by
  refine (onCore_eq hc _).trans (congrArg _ ?_)
  rw [State.coreModeWrite, State.coreIdle_eq_true.2 hidle, if_neg (by decide), if_pos hm]

/-- A mode change while a context is not IDLE is refused (10 R205, R235). -/
theorem State.coreModeWrite_refused {x req : Nat} {m : Bool} (hc : c < 96) (hx : x < 4) (hst : (s.context c x).st ≠ .idle) :
    ∃ t, exec (.coreModeWrite c req m) s = .next t ∧ s.refusedOnly t := by
  have hbusy : s.coreIdle c = false := by
    rw [Bool.eq_false_iff]
    exact fun h => hst (State.coreIdle_eq_true.1 h x hx)
  have hwrite : s.coreModeWrite c m req = s.refuseState .coreMode c 0 req := by
    rw [State.coreModeWrite, hbusy, Bool.not_false, if_pos rfl]
  refine ⟨_, (onCore_eq hc _).trans (congrArg _ hwrite), s.refuseState_refusedOnly .coreMode c 0 req 5⟩

/-- Settles O19: the reset of an IDLE context part by part; a mode change by what no reset of one context undoes of another. -/
theorem contextReset : Obligations.ContextReset := by
  unfold Obligations.ContextReset
  exact ⟨fun s c x req hc hx hok hidle hwait hbars => State.ctxReset_idle_row hc hx hok hidle hwait hbars,
    fun s c x req hc hx hok hst => State.ctxReset_abort_row hc hx hok hst,
    fun s c req m hc hidle hm => State.coreModeWrite_same hc hidle hm,
    fun s c req m hc hidle hm _ => State.coreModeWrite_row hc hidle hm,
    fun s c x req m hc hx hst => State.coreModeWrite_refused hc hx hst⟩

end Sys2Proof.Machine
end

section
/-!
The scalar operations of the control core and HRD (11, control-core opcodes; R240): each writes one scalar register, and what it writes is
its function of the registers as they stood.
-/
namespace Sys2Proof.Machine

variable {s : State} {c x : Nat} {op : Opcode} {f : CmdFields}

/-! ### A command that writes one scalar register -/

/-- A control-core command that takes effect as soon as it has issued, on its own core and at its completion. -/
def Opcode.promptControl (op : Opcode) : Prop := op.plainControl ∧ op ≠ .drtag

theorem Opcode.promptControl.ready (h : op.promptControl) (u : State) : controlReady u c (s.issuedEntry c x op f) = true := by
  obtain ⟨⟨-, hb, hn, -⟩, hd⟩ := h
  exact controlReady_of_plain hn hd hb u

/-- The row of a command that writes `v` to S[RD] and passes its checks. -/
theorem State.Quiet.register_row (hq : s.Quiet c x) (ht : s.Takes c x op f) (hpass : s.Passes c x op f ∧ (s.plan c x op f).peer = none)
    (hop : op.promptControl) {v : W64}
    (hrun : runControl op (s.begun c x op f) c (s.startedEntry c x op f)
      = ((s.begun c x op f).modContext c x (fun y => y.setReg f.rd v), stOk)) :
    ((s.runWord c x (encodeCmd op f)).context c x).reg f.rd = v
    ∧ (s.context c x).onlyReg ((s.runWord c x (encodeCmd op f)).context c x) f.rd
    ∧ s.scalarFrame (s.runWord c x (encodeCmd op f)) c x f := by
  obtain ⟨hctx, hstore, hdone, hkept⟩ := hq.context_effect ht hpass hop.1 (hop.ready _) _ hrun rfl hq.running
  rw [hctx]
  exact ⟨Ctx.reg_setReg _ _ _, ⟨fun n hn => Ctx.reg_setReg_ne _ _ hn, rfl⟩, hstore, hdone, hkept⟩

/-! ### The scalar operations -/

/-- The operations that write a function of their operands to S[RD], on no condition (11, control-core opcodes). -/
def scalarOps : List Opcode := [.movi, .mov, .add, .sub, .mul, .andOp, .orOp, .xor, .shl, .shr, .sar]

theorem promptControl_of_scalar (h : op ∈ scalarOps) : op.promptControl := by
  unfold Opcode.promptControl Opcode.plainControl
  revert op
  decide

theorem planOf_scalar (h : op ∈ scalarOps) (u : State) (d : Nat) (q : QCmd) : planOf op u d q = {} := by
  unfold scalarOps at h
  fin_cases h <;> rfl

theorem runControl_scalar (h : op ∈ scalarOps) (u : State) (d : Nat) (q : QCmd) : runControl op u d q
    = (u.modContext d q.ctx (fun y => y.setReg q.cmd.rd (aluResult op (u.context d q.ctx) q.cmd)), stOk) := by
  unfold scalarOps at h
  fin_cases h <;> rfl

/-- The row of a scalar operation whose result is `val` of S[RA], operand B and W2. -/
theorem scalarRow_of_result {mk : Nat → Nat → CmdFields → Instr} {val : W64 → W64 → W64 → W64} (hop : op ∈ scalarOps)
    (hmk : ∀ c x f s, exec (mk c x f) s = runRow op c x f s) (hres : ∀ y w, aluResult op y w = val (y.reg w.ra) (y.opB w) w.w2) :
    ScalarRow mk op val := by
  intro s c x f hq ht _
  have hprompt := promptControl_of_scalar hop
  have hpass := State.passes_of_empty (s := s) (c := c) (x := x) (op := op) (f := f) fun u _ => planOf_scalar hop ..
  have hctx : (s.begun c x op f).context c x = { (s.context c x) with pc := (s.context c x).pc + 32 } := by
    rw [State.begun_context (by rw [hprompt.1.1]; decide) hprompt.1.2.2.2.1, if_pos rfl]
  refine ⟨_, (hmk ..).trans hq.runRow_eq, hq.register_row ht hpass hprompt ?_⟩
  rw [runControl_scalar hop, hres]
  simp only [State.startedEntry_cmd, encodeCmd_rd, encodeCmd_ra, encodeCmd_w2, Ctx.opB_encodeCmd]
  rw [show (s.startedEntry c x op f).ctx = x from rfl, hctx]
  rfl

/-- Settles O1: each operation writes its function of the operands, and nothing but S[RD]. -/
theorem scalarCommandsWriteTheirResult : Obligations.ScalarCommandsWriteTheirResult := by
  unfold Obligations.ScalarCommandsWriteTheirResult
  and_intros
  all_goals exact scalarRow_of_result (by decide) (fun _ _ _ _ => rfl) (fun _ _ => rfl)

end Sys2Proof.Machine
end

section
/-!
HRD, HSET, HCOPY and HDROP (11 R240, R241): the fields of a header that is written and sealed, the row of a command that writes one header
slot, and the obligation about them.
-/
namespace Sys2Proof.Machine

variable {s t : State} {c x : Nat} {op : Opcode} {f : CmdFields}

/-! ### Fields of a word -/

/-- A field that shares no bit with a field that is written reads as it did. -/
theorem bits_putBits_apart {n : Nat} (v : BitVec n) {hi lo hi' lo' : Nat} (y : Nat) (hl : lo ≤ hi + 1) (hn : hi' < n)
    (h : hi' < lo ∨ hi < lo') : bits (putBits v hi lo y) hi' lo' = bits v hi' lo' := by
  refine Nat.eq_of_testBit_eq fun i => ?_
  simp only [bits, natBits, Nat.testBit_mod_two_pow, Nat.testBit_div_two_pow]
  by_cases hi : i < hi' + 1 - lo'
  case neg => simp [hi]
  case pos =>
    have hbit := bitOf_putBits v y hl (i := i + lo') (by omega)
    rw [if_neg (by omega)] at hbit
    exact congrArg (_ && ·) hbit

/-- The bits of a value under a mask of low ones are the value. -/
theorem mod_of_land_mask {v k : Nat} (h : v.land (2 ^ k - 1) = v) : v % 2 ^ k = v := by
  rw [← Nat.and_two_pow_sub_one_eq_mod]
  exact h

/-! ### A sealed header -/

/-- Sealing writes the upper half of the last word and nothing else (02 R40). -/
theorem Header.seal_words (h : Header) : h.seal.w1 = h.w1 ∧ h.seal.w2 = h.w2 ∧ h.seal.w3 = h.w3 ∧ h.seal.w4 = h.w4 ∧ h.seal.w5 = h.w5
    ∧ h.seal.w6 = h.w6 ∧ h.seal.w7 = putBits h.w7 63 32 h.computeCrc := by
  rw [Header.seal]
  exact ⟨rfl, rfl, rfl, rfl, rfl, rfl, rfl⟩

theorem crc32c_lt (bs : List Byte) : crc32c bs < 2 ^ 32 := by
  unfold crc32c crc crcValue
  exact Nat.mod_lt _ (by decide)

/-- The low half of a word is all that its first four bytes hold. -/
theorem take_natLE_congr {v w : Nat} (h : v % 2 ^ 32 = w % 2 ^ 32) : (natLE 8 v).take 4 = (natLE 8 w).take 4 := by
  have hbyte : ∀ {a b : Nat}, a % 256 = b % 256 → BitVec.ofNat 8 a = BitVec.ofNat 8 b := fun hab =>
    BitVec.eq_of_toNat_eq (by simpa only [BitVec.toNat_ofNat] using hab)
  have h0 := hbyte (show v % 256 = w % 256 by omega)
  have h1 := hbyte (show v / 256 % 256 = w / 256 % 256 by omega)
  have h2 := hbyte (show v / 256 / 256 % 256 = w / 256 / 256 % 256 by omega)
  have h3 := hbyte (show v / 256 / 256 / 256 % 256 = w / 256 / 256 / 256 % 256 by omega)
  simp only [natLE, List.take_succ_cons, List.take_zero, h0, h1, h2, h3]

/-- HCRC covers all that sealing leaves (02 R40). -/
theorem Header.computeCrc_seal (h : Header) : h.seal.computeCrc = h.computeCrc := by
  have hbytes : ∀ g : Header, g.bytes.take 60 =
      [g.w0, g.w1, g.w2, g.w3, g.w4, g.w5, g.w6].flatMap (fun w => natLE 8 w.toNat) ++ (natLE 8 g.w7.toNat).take 4 := fun g => by
    have hlen : ([g.w0, g.w1, g.w2, g.w3, g.w4, g.w5, g.w6].flatMap (fun w => natLE 8 w.toNat)).length = 56 := by simp [natLE_length]
    have hsplit : g.bytes = [g.w0, g.w1, g.w2, g.w3, g.w4, g.w5, g.w6].flatMap (fun w => natLE 8 w.toNat) ++ natLE 8 g.w7.toNat := by
      simp [Header.bytes, Header.words]
    rw [hsplit, List.take_append, hlen, List.take_of_length_le (by omega)]
  obtain ⟨h1, h2, h3, h4, h5, h6, h7⟩ := h.seal_words
  have hlow : h.seal.w7.toNat % 2 ^ 32 = h.w7.toNat % 2 ^ 32 := by
    rw [h7]
    exact putBits_toNat_mod h.w7 h.computeCrc (by decide) (by decide)
  rw [Header.computeCrc, Header.computeCrc, hbytes, hbytes, take_natLE_congr hlow, h.seal_w0, h1, h2, h3, h4, h5, h6]

/-- A sealed header carries its own check value. -/
theorem Header.seal_hcrc (h : Header) : h.seal.hcrc = h.seal.computeCrc := by
  obtain ⟨-, -, -, -, -, -, h7⟩ := h.seal_words
  have hlt : h.computeCrc < 2 ^ 32 := crc32c_lt _
  rw [Header.hcrc, h7, bits_putBits_self _ _ (by decide) (by decide), h.computeCrc_seal]
  exact Nat.mod_eq_of_lt hlt

/-- A sealed header of version 1 is live (11 R240). -/
theorem Header.seal_live {h : Header} (hv : h.version = 1) : h.seal.live = true := by
  have hversion : h.seal.version = 1 := by rw [Header.version, h.seal_w0, ← Header.version, hv]
  rw [Header.live, hversion, h.seal_hcrc, BEq.rfl, BEq.rfl]
  rfl

/-! ### What HSET writes -/

/-- The words of a header that HSET has written (11 R240). -/
theorem hsetHeader_words (fn v : Nat) (h : Header) : ∃ len,
    (hsetHeader fn v h).w0 = putBits (hsetField fn v h).w0 7 0 1 ∧ (hsetHeader fn v h).w1 = (hsetField fn v h).w1
      ∧ (hsetHeader fn v h).w3 = putBits (putBits (hsetField fn v h).w3 55 48 1) 47 0 len := by
  rw [hsetHeader, Header.seal]
  exact ⟨_, rfl, rfl, rfl⟩

theorem hsetHeader_live (fn v : Nat) (h : Header) : (hsetHeader fn v h).live = true := by
  rw [hsetHeader]
  exact Header.seal_live (by rw [Header.version]; exact bits_putBits_self (hsetField fn v h).w0 1 (by decide) (by decide))

theorem hsetHeader_layout (fn v : Nat) (h : Header) : (hsetHeader fn v h).layout = 1 := by
  obtain ⟨len, -, -, hw3⟩ := hsetHeader_words fn v h
  rw [Header.layout, hw3, bits_putBits_apart _ _ (by decide) (by decide) (by decide), bits_putBits_self _ _ (by decide) (by decide)]
  rfl

/-- A field of W0 above VERSION that HSET writes reads as written. -/
theorem bits_hsetHeader_w0 {fn v hi lo : Nat} {h : Header} (hf : (hsetField fn v h).w0 = putBits h.w0 hi lo v)
    (hl : 7 < lo ∧ lo ≤ hi ∧ hi < 64) (hv : v.land (2 ^ (hi + 1 - lo) - 1) = v) : bits (hsetHeader fn v h).w0 hi lo = v := by
  obtain ⟨hlo, hle, hhi⟩ := hl
  obtain ⟨len, hw0, -, -⟩ := hsetHeader_words fn v h
  rw [hw0, bits_putBits_apart _ _ (by decide) hhi (Or.inr hlo), hf, bits_putBits_self _ _ hle hhi, mod_of_land_mask hv]

theorem bits_hsetHeader_w1 {fn v hi lo : Nat} {h : Header} (hf : (hsetField fn v h).w1 = putBits h.w1 hi lo v)
    (hl : lo ≤ hi ∧ hi < 64) (hv : v.land (2 ^ (hi + 1 - lo) - 1) = v) : bits (hsetHeader fn v h).w1 hi lo = v := by
  obtain ⟨len, -, hw1, -⟩ := hsetHeader_words fn v h
  rw [hw1, hf, bits_putBits_self _ _ hl.1 hl.2, mod_of_land_mask hv]

/-- A word's bit, as a number, is the field of that bit alone. -/
theorem b2n_bitOf {n : Nat} (v : BitVec n) (i : Nat) : b2n (bitOf v i) = bits v i i := by
  rw [bits, natBits, bitOf, BitVec.getLsbD, Nat.testBit_eq_decide_div_mod_eq, show i + 1 - i = 1 by omega, b2n]
  have := Nat.mod_two_eq_zero_or_one (v.toNat / 2 ^ i)
  simp only [decide_eq_true_eq]
  split <;> omega

/-- HRD reads what HSET wrote (11 R240). -/
theorem hrdField_hsetHeader {fn v : Nat} (hfn : fn ≤ 7) (hv : v.land (hsetMask fn) = v) (h : Header) : hrdField fn (hsetHeader fn v h) = v := by
  interval_cases fn <;> simp only [hrdField, hsetMask] at hv ⊢
  · rw [Header.limbs, bits_hsetHeader_w0 (by rw [hsetField]) (by decide) hv]
  · rw [Header.scale, bits_hsetHeader_w1 (by rw [hsetField]) (by decide) hv]
  · rw [Header.budget, bits_hsetHeader_w1 (by rw [hsetField]) (by decide) hv]
  · rw [Header.tarnish, b2n_bitOf, bits_hsetHeader_w0 (by rw [hsetField]) (by decide) hv]
  · rw [Header.domain, bits_hsetHeader_w0 (by rw [hsetField]) (by decide) hv]
  · rw [Header.polys, bits_hsetHeader_w0 (by rw [hsetField]) (by decide) hv]
  · rw [Header.profile, bits_hsetHeader_w0 (by rw [hsetField]) (by decide) hv]
  · rw [Header.slots, bits_hsetHeader_w1 (by rw [hsetField]) (by decide) hv]

/-! ### The row of a command that writes one header slot -/

/-- A control-core command whose effect is one header slot leaves that slot and a program counter moved on, once it has completed. -/
theorem State.Quiet.headerWritten_of_complete (hq : s.Quiet c x) (ht : s.Takes c x op f) (he : op.engine < 4) (hr : op ≠ .rsig)
    (hl : op ≠ .lsdecide) (hpeer : (s.plan c x op f).peer = none) (h : Header) :
    s.headerWritten (((s.begun c x op f).modCore c (fun k => k.setHdr f.num h)).complete c (s.startedEntry c x op f) stOk) c x f h := by
  obtain ⟨cs, hbegun, hcs⟩ := State.begun_core (s := s) (c := c) (x := x) (f := f) he hr
  obtain ⟨hhdrs, hdescs, htiles, haccs, -⟩ := State.begun_sameStore (s := s) (c := c) (x := x) (f := f) he hr
  generalize hu : (s.begun c x op f).modCore c (fun k => k.setHdr f.num h) = u
  have hcore : u.core c = ((s.begun c x op f).core c).setHdr f.num h := by rw [← hu, State.core_modCore]
  have hctx : ∀ y, u.context c y = (s.begun c x op f).context c y := fun y => by
    rw [State.context, hcore]
    rfl
  have hkept : s.Kept u := hu ▸ (State.begun_kept he hr hl).trans (State.kept_of (State.modCore_rest _ c _) fun _ _ => rfl)
  have hwork := State.complete_keepsWork (t := u) (c := c) (q := s.startedEntry c x op f) (st := stOk) (by decide) (by decide) hpeer
  obtain ⟨hhdrs', hdescs', htiles', haccs', -⟩ := hwork.store
  have hhdr : ∀ d, ((u.complete c (s.startedEntry c x op f) stOk).core c).hdr d = ((s.core c).setHdr f.num h).hdr d := fun d => by
    rw [Core.hdr, ← hhdrs', hcore, Core.setHdr, Core.hdr, Core.setHdr, hhdrs]
  rw [hcore] at hdescs' htiles' haccs'
  refine ⟨?_, fun d hd => ?_, State.Quiet.completed_context he hr hpeer (hctx x), (hdescs.trans hdescs').symm, (htiles.trans htiles').symm,
    (haccs.trans haccs').symm, ?_, hkept.trans (State.complete_kept _ c _ hpeer)⟩
  · rw [hhdr, Core.hdr_setHdr]
  · rw [hhdr, Core.hdr_setHdr_ne _ _ hd]
  · refine State.complete_done u _ _ _ ?_ hpeer (by simp) (by simp) ?_ ?_ (fun d hd => ?_) (fun y hy => ?_) (by simp) ht.mode _ fun n => ?_
    · rw [hcore]
      exact State.begun_q he hr
    · rw [hctx, State.begun_context he hr, if_pos rfl]
    · rw [hctx, State.begun_context he hr, if_pos rfl, hq.running]
    · rw [← hu, State.core_modCore_ne _ _ hd, State.begun_other he hr hd]
    · rw [hctx, State.begun_context he hr, if_neg hy]
    · rw [hcore, hbegun]
      exact hcs n

/-- A command that writes a header made of its core's slots to slot NUM, and passes its checks. -/
theorem State.Quiet.header_row (hq : s.Quiet c x) (ht : s.Takes c x op f) (hpass : s.Passes c x op f ∧ (s.plan c x op f).peer = none)
    (hop : op.promptControl) {h : Header}
    (hrun : runControl op (s.begun c x op f) c (s.startedEntry c x op f) = ((s.begun c x op f).modCore c (fun k => k.setHdr f.num h), stOk)) :
    s.headerWritten (s.runWord c x (encodeCmd op f)) c x f h := by
  rw [hq.plain_row ht hpass.1 hop.1 (hop.ready _) hrun]
  obtain ⟨he, -, -, hr, -, hl⟩ := hop.1
  exact hq.headerWritten_of_complete ht (by rw [he]; decide) hr hl hpass.2 h

theorem State.begun_hdr (he : op.engine < 4) (hr : op ≠ .rsig) (d : Nat) : ((s.begun c x op f).core c).hdr d = (s.core c).hdr d := by
  obtain ⟨hhdrs, -⟩ := State.begun_sameStore (s := s) (c := c) (x := x) (f := f) he hr
  rw [Core.hdr, ← hhdrs]
  rfl

theorem State.checkedIn.drawerInShare {w : Cmd} {u : State} (h : s.checkedIn c x w u) (d : Nat) :
    u.drawerInShare c x d = s.drawerInShare c x d := by
  rw [State.drawerInShare, State.drawerOwner, h.modeM]
  rfl

theorem State.checkedIn.hdr {w : Cmd} {u : State} (h : s.checkedIn c x w u) (d : Nat) : (u.core c).hdr d = (s.core c).hdr d := by
  rcases h with rfl | rfl <;> simp [State.claimed, State.arrived, Core.hdr, Core.setContext]

/-! ### HRD, HSET, HCOPY -/

theorem State.Quiet.hrd_row (hq : s.Quiet c x) (ht : s.Takes c x .hrd f) (hshare : s.drawerInShare c x f.num = true) (hfn : f.fn ≤ 7) :
    ((s.runWord c x (encodeCmd .hrd f)).context c x).reg f.rd = BitVec.ofNat 64 (hrdField f.fn ((s.core c).hdr f.num))
    ∧ (s.context c x).onlyReg ((s.runWord c x (encodeCmd .hrd f)).context c x) f.rd
    ∧ s.scalarFrame (s.runWord c x (encodeCmd .hrd f)) c x f := by
  have hpass := State.passes_of_empty (s := s) (c := c) (x := x) (op := .hrd) (f := f) fun u hu => Plan.checks_of_all _ (by
    simp [State.entry, encodeCmd_num, hu.drawerInShare, hshare, hfn])
  refine hq.register_row ht hpass (by unfold Opcode.promptControl Opcode.plainControl; decide) ?_
  simp only [runControl, State.startedEntry_cmd, encodeCmd_fn, encodeCmd_num, encodeCmd_rd]
  rw [State.begun_hdr (by decide) (by decide)]
  rfl

theorem State.Quiet.hset_row (hq : s.Quiet c x) (ht : s.Takes c x .hset f) (hshare : s.drawerInShare c x f.num = true) (hfn : f.fn ≤ 12) {v : Nat}
    (hv : ((s.context c x).reg f.ra).toNat = v) (hmask : v.land (hsetMask f.fn) = v)
    (hkeep : hsetRefused f.fn v ((s.core c).hdr f.num) = false) :
    s.headerWritten (s.runWord c x (encodeCmd .hset f)) c x f (hsetHeader f.fn v ((s.core c).hdr f.num)) := by
  have hreg : ∀ y : Ctx, y.s = (s.context c x).s → (y.reg f.ra).toNat = v := fun y hy => by rw [← hv, Ctx.reg, hy]; rfl
  have hpass := State.passes_of_empty (s := s) (c := c) (x := x) (op := .hset) (f := f) fun u hu => Plan.checks_of_all _ (by
    have hu' := hreg (u.context c x) (by rw [hu.context])
    have hbits : v &&& hsetMask f.fn = v := hmask
    simp [State.entry, encodeCmd_num, encodeCmd_ra, hu.drawerInShare, hu.hdr, hshare, hfn, hu', hbits, hkeep])
  refine hq.header_row ht hpass (by unfold Opcode.promptControl Opcode.plainControl; decide) ?_
  have hbegun := hreg ((s.begun c x .hset f).context c x) (by rw [State.begun_context (by decide) (by decide), if_pos rfl])
  rw [← State.begun_hdr (s := s) (c := c) (x := x) (op := .hset) (f := f) (by decide) (by decide)]
  simp only [runControl, State.startedEntry_cmd, encodeCmd_fn, encodeCmd_num, encodeCmd_ra]
  rw [show (s.startedEntry c x .hset f).ctx = x from rfl, hbegun]
  rfl

theorem State.Quiet.hcopy_row (hq : s.Quiet c x) (ht : s.Takes c x .hcopy f) (hshare : s.drawerInShare c x f.num = true)
    (hsrc : s.drawerInShare c x (bits f.w3 7 0) = true) :
    s.headerWritten (s.runWord c x (encodeCmd .hcopy f)) c x f ((s.core c).hdr (bits f.w3 7 0)) := by
  have hm : (encodeCmd .hcopy f).m = bits f.w3 7 0 := by rw [Cmd.m, encodeCmd_w3]
  have hpass := State.passes_of_empty (s := s) (c := c) (x := x) (op := .hcopy) (f := f) fun u hu => Plan.checks_of_all _ (by
    simp [State.entry, encodeCmd_num, hm, hu.drawerInShare, hshare, hsrc])
  refine hq.header_row ht hpass (by unfold Opcode.promptControl Opcode.plainControl; decide) ?_
  rw [← State.begun_hdr (s := s) (c := c) (x := x) (op := .hcopy) (f := f) (by decide) (by decide)]
  simp only [runControl, State.startedEntry_cmd, encodeCmd_num, hm]
  rfl

/-! ### HDROP -/

/-- The plan of an HDROP that passes: its one result header has fewer limbs (11 R241). -/
theorem planHdrop_ok {q : QCmd} (hv : (planHdrop s c q).v = .ok) : (planHdrop s c q).peer = none
    ∧ (planHdrop s c q).lat.outs = [(c, q.cmd.num, (((s.core c).hdr q.cmd.num).withLimbs (bits q.cmd.w2 7 0)).seal)] := by
  unfold planHdrop at hv ⊢
  dsimp only at hv ⊢
  obtain ⟨-, he1⟩ := Plan.checks_ok hv
  rw [he1] at hv ⊢
  obtain ⟨-, he2⟩ := Plan.header_ok hv
  rw [he2] at hv ⊢
  split at hv
  case h_1 => cases hv
  case h_2 => exact ⟨rfl, rfl⟩

/-- The commit of HDROP writes its result header and completes (11 R241). -/
theorem State.Quiet.tryCommit_hdrop (hq : s.Quiet c x) {h : Header} (hout : (s.plan c x .hdrop f).lat.outs = [(c, f.num, h)]) :
    (s.begun c x .hdrop f).tryCommit c ((s.core c).serial + 1)
      = ((s.begun c x .hdrop f).modCore c (fun k => k.setHdr f.num h)).complete c (s.startedEntry c x .hdrop f) stOk := by
  have hqueue := State.begun_q (s := s) (c := c) (x := x) (op := .hdrop) (f := f) (by decide) (by decide)
  have hfind : ((s.begun c x .hdrop f).core c).cmd? ((s.core c).serial + 1) = some (s.startedEntry c x .hdrop f) := by
    rw [Core.cmd?, hqueue]
    simp
  have hlive : (s.begun c x .hdrop f).coreLive c = true := by rw [State.begun_coreLive (by decide) (by decide), hq.live]
  have hstage : (s.startedEntry c x .hdrop f).stage = .started := rfl
  have heng : (s.startedEntry c x .hdrop f).eng = 0 := State.issuedEntry_eng (s := s) (c := c) (x := x)
  have hbehind : tmulBehind (s.begun c x .hdrop f) c (s.startedEntry c x .hdrop f) = false := by simp [tmulBehind, hqueue]
  have hrun : runControl .hdrop (s.begun c x .hdrop f) c (s.startedEntry c x .hdrop f) = (s.begun c x .hdrop f, stOk) := rfl
  have hwrite : (s.begun c x .hdrop f).writeOuts (s.startedEntry c x .hdrop f) = (s.begun c x .hdrop f).modCore c (fun k => k.setHdr f.num h) := by
    have hout' : (s.startedEntry c x .hdrop f).lat.outs = [(c, f.num, h)] := hout
    rw [State.writeOuts, hout', List.foldl_cons, List.foldl_nil, State.putOut, if_pos hq.core]
  unfold State.tryCommit
  rw [hfind]
  simp only [State.entry_op, hstage, hlive, hbehind, Bool.not_false, and_self, if_true]
  unfold State.commitCmd
  simp only [heng, hrun, hwrite, reduceCtorEq, if_false, if_true]

theorem State.Quiet.hdrop_row (hq : s.Quiet c x) (ht : s.Takes c x .hdrop f) (hp : s.Passes c x .hdrop f) :
    s.headerWritten (s.runWord c x (encodeCmd .hdrop f)) c x f (((s.core c).hdr f.num).withLimbs (bits f.w2 7 0)).seal := by
  obtain ⟨hpeer, hout⟩ : (s.plan c x .hdrop f).peer = none
      ∧ (s.plan c x .hdrop f).lat.outs = [(c, f.num, (((s.core c).hdr f.num).withLimbs (bits f.w2 7 0)).seal)] := by
    have hok := planHdrop_ok (s := s.claimed c x (encodeCmd .hdrop f)) (c := c) (q := s.entry c x (encodeCmd .hdrop f)) hp.2
    rw [show (s.entry c x (encodeCmd .hdrop f)).cmd = encodeCmd .hdrop f from rfl, State.hdr_claimed, encodeCmd_num, encodeCmd_w2] at hok
    exact hok
  have hstart := hq.tryStart_control (f := f) (op := .hdrop) (by decide) (by decide)
    (controlReady_of_plain (by decide) (by decide) (by decide) _)
  unfold State.posted at hstart
  rw [hq.runWord_eq ht hp (by decide), if_pos (by decide), hstart, State.commitAll_succ, hq.tryCommit_hdrop hout]
  have hw := hq.headerWritten_of_complete (f := f) ht (by decide) (by decide) (by decide) hpeer
    (((s.core c).hdr f.num).withLimbs (bits f.w2 7 0)).seal
  rw [State.commitAll_gone]
  · exact hw
  · obtain ⟨-, -, -, -, -, -, hdone, -⟩ := hw
    rw [Core.cmd?, hdone.queue]
    rfl

theorem Header.withLimbs_words (h : Header) (l : Nat) : (h.withLimbs l).w0 = putBits h.w0 39 32 l ∧ (h.withLimbs l).w1 = h.w1 := by
  rw [Header.withLimbs]
  exact ⟨rfl, rfl⟩

/-- HDROP keeps BUDGET and leaves the limbs it names (11 R241). -/
theorem Header.withLimbs_seal_fields (h : Header) (w : W64) :
    (h.withLimbs (bits w 7 0)).seal.budget = h.budget ∧ (h.withLimbs (bits w 7 0)).seal.limbs = bits w 7 0 := by
  obtain ⟨hw0, hw1⟩ := h.withLimbs_words (bits w 7 0)
  have hlimbs : bits w 7 0 % 2 ^ (39 + 1 - 32) = bits w 7 0 := Nat.mod_mod _ _
  obtain ⟨hs1, -⟩ := (h.withLimbs (bits w 7 0)).seal_words
  refine ⟨?_, ?_⟩
  · rw [Header.budget, hs1, hw1, ← Header.budget]
  · rw [Header.limbs, Header.seal_w0, hw0, bits_putBits_self _ _ (by decide) (by decide), hlimbs]

/-- Settles O3: HRD writes a register, the others one header slot; what is read of a header written is its fields one by one. -/
theorem headerCommands : Obligations.HeaderCommands := by
  unfold Obligations.HeaderCommands
  refine ⟨fun s c x f hq ht hpre => ⟨_, hq.runRow_eq, hq.hrd_row ht hpre.1 hpre.2⟩, fun s c x f hq ht hpre => ⟨_, hq.runRow_eq, ?_⟩,
    fun s c x f hq ht hpre => ⟨_, hq.runRow_eq, hq.hcopy_row ht hpre.1 hpre.2⟩, fun s c x f hq ht hp => ⟨_, hq.runRow_eq, ?_⟩⟩
  · obtain ⟨hshare, hfn, hmask, hkeep⟩ := hpre
    have hw := hq.hset_row ht hshare hfn rfl hmask hkeep
    obtain ⟨hslot, -⟩ := id hw
    refine ⟨hw, fun h7 => ?_, ?_, ?_⟩
    · rw [hslot, hrdField_hsetHeader h7 hmask]
    · rw [hslot, hsetHeader_live]
    · rw [hslot, hsetHeader_layout]
  · have hw := hq.hdrop_row ht hp
    obtain ⟨hbudget, hlimbs⟩ := ((s.core c).hdr f.num).withLimbs_seal_fields f.w2
    obtain ⟨hslot, -⟩ := id hw
    refine ⟨hw, ?_, ?_⟩
    · rw [hslot, hbudget]
    · rw [hslot, hlimbs]

end Sys2Proof.Machine
end

section
/-!
What reads of stacked memory, signals and the work of cores leave alone: the units a transfer reads are sound in the state it starts
from where they were sound before its issue (12 R252; 13 R277, R280; 24 R519).
-/
namespace Sys2Proof.Machine

variable {s t u : State} {c x : Nat} {op : Opcode} {f : CmdFields}

/-! ### Registers that a read of stacked memory writes -/

/-- The registers of a stack that a read of it writes: hits and misses, errors, and the fault record (13 R277, R280). -/
def readRegs : List RegName :=
  [.hitLo, .hitHi, .missLo, .missHi, .eccCorr, .eccUncorr, .hbmFault, .hbmFaultAddrLo, .hbmFaultAddrHi]

/-- The address of such a register of one of the twelve stacks. -/
def readReg (a : Nat) : Prop := ∃ r ∈ readRegs, ∃ i, i < 12 ∧ a = RegKey.addr ⟨r, i, 0⟩

theorem readReg_stackReg {a : Nat} (h : readReg a) : stackReg a := by
  obtain ⟨r, hr, i, hi, rfl⟩ := h
  refine stackReg_addr ?_ hi
  revert r
  decide

/-- `t` differs from `s`, cores and peening slots apart, by reads of stacked memory that arrived sound, by events and by counts of
perturbed signals. -/
structure State.onlyRead (s t : State) : Prop where
  rest : { t with cores := s.cores, router := s.router, regs := s.regs, peen := s.peen, keep := s.keep, groupLines := s.groupLines } = s
  regs : ∀ a, ¬ eventCounter a → ¬ readReg a → ¬ appliedAddr a → Tab.find? t.regs a = Tab.find? s.regs a

namespace State.onlyRead

theorem refl (s : State) : s.onlyRead s := ⟨rfl, fun _ _ _ _ => rfl⟩

theorem trans (h : s.onlyRead t) (g : t.onlyRead u) : s.onlyRead u := by
  refine ⟨?_, fun a he hr hp => (g.regs a he hr hp).trans (h.regs a he hr hp)⟩
  have hrest := h.rest
  rw [← g.rest] at hrest
  exact hrest

/-- A part of the state that is none of these. -/
theorem get {α : Type} (h : s.onlyRead t) (g : State → α)
    (hg : ∀ u cs r v p k m, g { u with cores := cs, router := r, regs := v, peen := p, keep := k, groupLines := m } = g u) : g t = g s := by
  rw [← hg t s.cores s.router s.regs s.peen s.keep s.groupLines]
  exact congrArg g h.rest

theorem mem (h : s.onlyRead t) : t.mem = s.mem := h.get State.mem fun _ _ _ _ _ _ _ => rfl
theorem badpar (h : s.onlyRead t) : t.badpar = s.badpar := h.get State.badpar fun _ _ _ _ _ _ _ => rfl
theorem linkBad (h : s.onlyRead t) : t.linkBad = s.linkBad := h.get State.linkBad fun _ _ _ _ _ _ _ => rfl
theorem ecc (h : s.onlyRead t) : t.ecc = s.ecc := h.get State.ecc fun _ _ _ _ _ _ _ => rfl
theorem assay (h : s.onlyRead t) : t.assay = s.assay := h.get State.assay fun _ _ _ _ _ _ _ => rfl
theorem waitw (h : s.onlyRead t) : t.waitw = s.waitw := h.get State.waitw fun _ _ _ _ _ _ _ => rfl

theorem traffic (h : s.onlyRead t) : s.sameTraffic t :=
  ⟨h.get State.bars fun _ _ _ _ _ _ _ => rfl, h.get State.ctrs fun _ _ _ _ _ _ _ => rfl, h.get State.sigs fun _ _ _ _ _ _ _ => rfl,
    h.get State.out fun _ _ _ _ _ _ _ => rfl⟩

theorem readBytes (h : s.onlyRead t) (a n : Nat) : t.readBytes a n = s.readBytes a n :=
  State.readBytes_congr fun _ _ => by rw [State.readByte, h.mem, State.readByte]

end State.onlyRead

/-! ### What keeps to it -/

theorem State.eventsOnly.onlyRead (h : s.eventsOnly t) : s.onlyRead t :=
  ⟨congrArg (fun v : State => { v with cores := s.cores, peen := s.peen, keep := s.keep, groupLines := s.groupLines }) h.1,
    fun a he _ _ => h.2 a he⟩

theorem State.modCore_onlyRead (s : State) (d : Nat) (g : Core → Core) : s.onlyRead (s.modCore d g) :=
  ⟨rfl, fun _ _ _ _ => rfl⟩

/-- What changes cores, perturbation counts and peening slots. -/
theorem State.butCores.onlyRead (h : t.butCores s) (hregs : ∀ a, ¬ appliedAddr a → Tab.find? t.regs a = Tab.find? s.regs a) : s.onlyRead t :=
  ⟨congrArg (fun v : State => { v with cores := s.cores, router := s.router, regs := s.regs, peen := s.peen, keep := s.keep,
                                       groupLines := s.groupLines }) h, fun a _ _ hp => hregs a hp⟩

theorem State.signalIssue_onlyRead (s : State) (c : Nat) (q : QCmd) : s.onlyRead (s.signalIssue c q) :=
  (s.signalIssue_rest c q).onlyRead fun a ha => by
    unfold State.signalIssue
    split
    · exact s.perturb_regs 3 c a ha
    · rfl

theorem State.setReg_onlyRead (s : State) {r : RegName} {i : Nat} (v : W32) (hr : r ∈ readRegs) (hi : i < 12) :
    s.onlyRead (s.setReg r i 0 v) :=
  ⟨rfl, fun _ _ ha _ => s.find?_setReg_ne r i 0 v fun e => ha ⟨r, hr, i, hi, e⟩⟩

theorem State.count64_onlyRead (s : State) {lo hi : RegName} {i : Nat} (hlo : lo ∈ readRegs) (hhi : hi ∈ readRegs) (h : i < 12) :
    s.onlyRead (s.count64 lo hi i) :=
  (s.setReg_onlyRead _ hlo h).trans (State.setReg_onlyRead _ _ hhi h)

theorem State.makeKeep_onlyRead (s : State) (g : Nat) : s.onlyRead (s.makeKeep g) := by
  unfold State.makeKeep
  split
  · exact .refl s
  split <;> exact ⟨rfl, fun _ _ _ _ => rfl⟩

theorem State.lastRead_onlyRead (s : State) (g : Nat) (m : Option (Nat × Nat × Nat)) : s.onlyRead (s.lastRead g m) := by
  unfold State.lastRead
  split
  · exact .refl s
  · split <;> exact ⟨rfl, fun _ _ _ _ => rfl⟩
  · exact ⟨rfl, fun _ _ _ _ => rfl⟩
  · dsimp only
    split <;> exact ⟨rfl, fun _ _ _ _ => rfl⟩

theorem State.cacheRead_onlyRead (s : State) (g hint : Nat) (m : Option (Nat × Nat × Nat)) (h : inHbm (64 * g) = true) :
    s.onlyRead (s.cacheRead g hint m) := by
  have hst := s.stackOf_lt h
  unfold State.cacheRead
  dsimp only
  generalize hu : (if (decide (g ∈ s.keep) || (s.groupLine g).isSome) = true then s.count64 .hitLo .hitHi (s.stackOf (64 * g))
    else s.count64 .missLo .missHi (s.stackOf (64 * g))) = u
  have hcount : s.onlyRead u := by
    rw [← hu]
    split <;> exact s.count64_onlyRead (by decide) (by decide) hst
  split
  · exact hcount
  generalize hv : (if hint = 1 then u.makeKeep g else u) = v
  have hkeep : s.onlyRead v := by
    rw [← hv]
    split
    · exact hcount.trans (u.makeKeep_onlyRead g)
    · exact hcount
  split
  · exact hkeep
  · exact hkeep.trans (v.lastRead_onlyRead g m)

theorem State.readOutcome_onlyRead (s : State) {a : Nat} (h : inHbm a = true) (sev kind : Nat) : s.onlyRead (s.readOutcome a sev kind) := by
  have hst : (s.stackAt a).1 < 12 := s.stackOf_lt h
  unfold State.readOutcome
  split
  · exact .refl s
  · exact (s.setReg_onlyRead _ (by decide) hst).trans (State.raise_eventsOnly _ _).onlyRead
  · refine State.onlyRead.trans ?_ ((State.setReg_onlyRead _ _ (by decide) hst).trans (State.raise_eventsOnly _ _).onlyRead)
    unfold State.recordHbmFault
    dsimp only
    split
    · exact .refl s
    · exact ((s.setReg_onlyRead _ (by decide) hst).trans (State.setReg_onlyRead _ _ (by decide) hst)).trans
        (State.setReg_onlyRead _ _ (by decide) hst)

/-- A granule that arrives sound: no uncorrectable error, and its link has not failed (13 R277, R278). -/
def State.granuleSound (s : State) (a : Nat) : Prop := s.severity a ≠ 2 ∧ ¬ (a / 64 ∈ s.linkBad)

theorem State.hbmRead_sound_iff (s : State) (a hint : Nat) : (s.hbmRead a hint).2 = false ↔ s.granuleSound a := by
  simp [State.hbmRead, State.granuleSound]

/-- A read of a granule that arrives sound, whatever its hint. -/
theorem State.hbmRead_onlyRead {a : Nat} (h : inHbm a = true) (hs : s.granuleSound a) (hint : Nat) : s.onlyRead (s.hbmRead a hint).1 := by
  have hgran : inHbm (64 * (a / 64)) = true := by
    have ha : a < 0x9000000000 := of_decide_eq_true h
    exact decide_eq_true (by omega)
  have hread := (s.cacheRead_onlyRead (a / 64) hint none hgran).trans (State.readOutcome_onlyRead _ h (s.severity a) 1)
  have hlinks : ∀ l : List Nat, l = s.linkBad → l.filter (· != a / 64) = l := by
    rintro l rfl
    exact List.filter_eq_self.2 fun g hg => bne_iff_ne.2 fun e => hs.2 (e ▸ hg)
  have hstate : (s.hbmRead a hint).1 = (s.cacheRead (a / 64) hint).readOutcome a (s.severity a) 1 := by
    unfold State.hbmRead
    dsimp only
    rw [hlinks _ hread.linkBad]
  rwa [hstate]

/-! ### What it leaves to see -/

/-- Events and perturbed signals are counted below the registers of the dies (22 R476). -/
theorem regs_above_counts {a : Nat} (h : controlBase + 0x100000 ≤ a) : ¬ eventCounter a ∧ ¬ appliedAddr a := by
  refine ⟨?_, ?_⟩
  · rintro ⟨r, hr, rfl⟩
    have hlow : ∀ v ∈ [RegName.alarmCoalesced, .errorCoalesced, .traceDrop, .logDrop, .logSuppressed],
        RegKey.addr ⟨v, 0, 0⟩ < controlBase + 0x100000 := by decide
    have := hlow r hr
    omega
  · rintro ⟨k, hk, rfl⟩
    rw [RegKey.addr_eq .pnApplied 0 k 983040 512 4 rfl rfl rfl] at h
    omega

namespace State.onlyRead

theorem reg {r : RegName} {i n : Nat} (h : s.onlyRead t) (hlow : controlBase + 0x100000 ≤ RegKey.addr ⟨r, i, n⟩)
    (hread : ¬ readReg (RegKey.addr ⟨r, i, n⟩)) : t.reg r i n = s.reg r i n :=
  State.regK_congr (h.regs _ (regs_above_counts hlow).1 hread (regs_above_counts hlow).2)

theorem coreReg {r : RegName} (h : s.onlyRead t) (hr : r.block = .core) (i n : Nat) : t.reg r i n = s.reg r i n := by
  refine h.reg ?_ fun hread => ?_
  · rw [RegKey.addr_core hr]
    omega
  · obtain ⟨-, hread⟩ := readReg_stackReg hread
    rw [RegKey.addr_core hr] at hread
    omega

theorem win (h : s.onlyRead t) (d w : Nat) : t.win d w = s.win d w :=
  State.win_congr fun _ hr => h.coreReg (winReg_place (List.mem_cons_of_mem _ hr)).1 d w

theorem myDev (h : s.onlyRead t) : t.myDev = s.myDev := by
  refine State.myDev_congr (h.regs _ fabId_not_eventCounter (fun hread => ?_) fabId_not_peen)
  obtain ⟨-, hread⟩ := readReg_stackReg hread
  rw [RegKey.addr_eq .fabId 0 0 3145728 32768 0 rfl rfl rfl] at hread
  omega

theorem coreLive (h : s.onlyRead t) (d : Nat) : t.coreLive d = s.coreLive d := by
  have hreg : t.reg .sbStatus = s.reg .sbStatus := by
    refine State.regK_congr (h.regs _ ?_ (fun hread => ?_) sbStatus_not_peen)
    · rintro ⟨r, hr, he⟩
      revert r
      decide
    · obtain ⟨hread, -⟩ := readReg_stackReg hread
      rw [RegKey.addr_eq .sbStatus 0 0 0 256 0 rfl rfl rfl] at hread
      omega
  rw [State.coreLive, State.coreLive, hreg]

theorem hbmMap (h : s.onlyRead t) {d : Nat} (hd : d < 4) : t.reg .hbmMap d = s.reg .hbmMap d := by
  refine h.reg ?_ fun hread => ?_
  · rw [RegKey.addr_eq .hbmMap d 0 0x100000 0x80 0 rfl rfl rfl]
    omega
  · obtain ⟨hread, -⟩ := readReg_stackReg hread
    rw [RegKey.addr_eq .hbmMap d 0 0x100000 0x80 0 rfl rfl rfl] at hread
    omega

theorem mtStatus (h : s.onlyRead t) (i : Nat) : t.reg .mtStatus i = s.reg .mtStatus i := by
  have haddr : RegKey.addr ⟨.mtStatus, i, 0⟩ = controlBase + 0x200000 + i * 0x10000 + RegName.mtStatus.offset + 0 :=
    RegKey.addr_eq .mtStatus i 0 0x200000 _ _ rfl rfl rfl
  have hoff : ∀ r ∈ readRegs, r.block = .hbm ∧ r.offset < RegName.mtStatus.offset := by decide
  have hend : RegName.mtStatus.offset < 0x10000 := by decide
  refine h.reg (by omega) ?_
  rintro ⟨r, hr, j, -, he⟩
  obtain ⟨hb, ho⟩ := hoff r hr
  have hraddr : RegKey.addr ⟨r, j, 0⟩ = controlBase + 0x200000 + j * 0x10000 + r.offset + r.stride * 0 :=
    RegKey.addr_eq r j 0 _ _ _ (congrArg Block.base hb) rfl rfl
  omega

/-- A stack that was online is online. -/
theorem stackOnline (h : s.onlyRead t) {a : Nat} (ha : inHbm a = true) : t.stackOnline a = s.stackOnline a := by
  have hlt : a < 0x9000000000 := of_decide_eq_true ha
  have hmap : t.reg .hbmMap (a / dieRange) = s.reg .hbmMap (a / dieRange) :=
    h.hbmMap (Nat.div_lt_of_lt_mul (by simp only [dieRange]; omega))
  have hstack : t.stackOf a = s.stackOf a := by simp only [State.stackOf, State.stackAt, State.rf, hmap]
  rw [State.stackOnline, State.stackOnline, hstack, State.rf, State.rf, h.mtStatus]

theorem granuleSound (h : s.onlyRead t) (a : Nat) : t.granuleSound a ↔ s.granuleSound a := by
  rw [State.granuleSound, State.granuleSound, State.severity, State.severity, h.ecc, h.linkBad]

theorem xferFar (h : s.onlyRead t) (op : Opcode) (w : Cmd) : t.xferFar op w = s.xferFar op w := by
  rw [State.xferFar, State.xferFar, h.myDev]

theorem parityHit (h : s.onlyRead t) (d : Nat) (ds : List Nat) : t.parityHit d ds = s.parityHit d ds := by
  rw [State.parityHit, State.parityHit, h.badpar]

end State.onlyRead

end Sys2Proof.Machine
end

section
/-!
The issue and the start of a transfer on a quiet core (10 R214; 11 R244; 09 R189): what its claims, the read of a header and its signal
leave, and that with its drawers ready it starts at once.
-/
namespace Sys2Proof.Machine

variable {s t u : State} {c x : Nat} {op : Opcode} {f : CmdFields}

/-! ### The issue -/

/-- The reads of an issue touch no core. -/
theorem State.headerRead_core (d : Nat) : (s.headerRead c x op f).core d = (s.claimed c x (encodeCmd op f)).core d :=
  State.core_congr (State.issueReads_readKeeps ..).cores d

/-- The core on which a command has issued, whatever its engine. -/
theorem State.issued_core_any : ∃ cs,
    (s.issued c x op f).core c =
      { ((s.core c).setContext x { (s.context c x) with pc := (s.context c x).pc + 32 }) with
        serial := (s.core c).serial + 1, arrivals := (s.core c).arrivals + 1, lastDisp := x, q := [s.issuedEntry c x op f], counters := cs }
    ∧ ∀ n, Tab.get 0 cs n = (s.core c).counter n - f.claims n + CmdFields.early f n := by
  have hbase : ((s.headerRead c x op f).modCmd c ((s.core c).serial + 1) (fun _ => s.issuedEntry c x op f)).core c =
      { ((s.core c).setContext x { (s.context c x) with pc := (s.context c x).pc + 32 }) with
        serial := (s.core c).serial + 1, arrivals := (s.core c).arrivals + 1, lastDisp := x, q := [s.issuedEntry c x op f],
        counters := takeClaims (encodeCmd op f).waits (s.core c).counters } := by
    rw [State.modCmd, State.core_modCore, State.headerRead_core]
    simp [State.claimed, State.arrived, Core.modCmd, modFirst, State.entry, Core.setContext]
  have hclaims : ∀ n, Tab.get 0 (takeClaims (encodeCmd op f).waits (s.core c).counters) n = (s.core c).counter n - f.claims n := fun n => by
    rw [takeClaims_get, claimSum_encode]
    rfl
  unfold State.issued
  rw [QCmd.signalIssue_core, State.plannedEntry_cmd, encodeCmd_sigMode, encodeCmd_sigCtr, encodeCmd_sigDelta, hbase]
  by_cases hm : f.sigMode.toNat = 2
  · rw [if_pos ⟨rfl, hm⟩]
    refine ⟨_, rfl, fun n => ?_⟩
    rw [Tab.get_set, CmdFields.early]
    by_cases hn : f.sigCtr.toNat = n
    · rw [if_pos hn.symm, if_pos ⟨hm, hn⟩, ← hn]
      exact congrArg (· + BitVec.ofNat 16 f.sigDelta.toNat) (hclaims _)
    · rw [if_neg (Ne.symm hn), if_neg fun h => hn h.2, hclaims]
      exact (BitVec.add_zero _).symm
  · rw [if_neg fun h => hm h.2]
    refine ⟨_, rfl, fun n => ?_⟩
    rw [CmdFields.early, if_neg fun h => hm h.1, hclaims]
    exact (BitVec.add_zero _).symm

theorem State.issued_other_any {d : Nat} (hd : d ≠ c) : (s.issued c x op f).core d = s.core d := by
  rw [State.issued, QCmd.signalIssue_core, if_neg fun h => hd h.1, State.modCmd, State.core_modCore_ne _ _ hd, State.headerRead_core,
    State.claimed, State.arrived, State.core_modCore_ne _ _ hd, State.core_modCore_ne _ _ hd]

theorem State.issued_drawer_any (e d : Nat) : ((s.issued c x op f).core e).drawer d = (s.core e).drawer d := by
  by_cases he : e = c
  · obtain ⟨cs, hcore, -⟩ := State.issued_core_any (s := s) (c := c) (x := x) (op := op) (f := f)
    rw [he, hcore]
    rfl
  · rw [State.issued_other_any he]

theorem State.issued_onlyRead (hread : (s.claimed c x (encodeCmd op f)).onlyRead (s.headerRead c x op f)) : s.onlyRead (s.issued c x op f) :=
  (((s.modCore_onlyRead c _).trans (State.modCore_onlyRead _ c _)).trans hread).trans
    ((State.modCore_onlyRead _ c _).trans (State.signalIssue_onlyRead _ c _))

/-- The slots latched are those of the tables, which the reads of an issue do not touch. -/
theorem State.startedEntry_of_issued (hread : (s.claimed c x (encodeCmd op f)).onlyRead (s.headerRead c x op f)) :
    { s.issuedEntry c x op f with stage := .started } = s.startedEntry c x op f := by
  have htables : (s.headerRead c x op f).tables = s.tables := hread.get State.tables fun _ _ _ _ _ _ _ => rfl
  have htable : ∀ n, (s.headerRead c x op f).table n = s.table n := fun n => State.table_congr htables n
  simp only [State.issuedEntry, State.plannedEntry, State.startedEntry, State.latchSlots, htable]

/-! ### The start -/

/-- A transfer that is the one command of its core starts where its drawers are ready and no window write waits for what it writes. -/
theorem State.startEngine_transfer {q : QCmd} (hq : (t.core c).q = [q]) (hst : q.stage = .issued) (heng : q.eng = 4)
    (hsrc : ∀ e ∈ q.sources c, ((t.core e.1).drawer e.2).ready = true) (hdst : ∀ d ∈ q.dsts, ((t.core c).drawer d).open_ = true)
    (hassay : t.assay.testing = false) (hwin : ∀ w ∈ t.waitw, w.owner = c → ∀ d ∈ q.dsts, ¬ d ∈ touched w.off w.data.length) :
    t.startEngine c q = t.started c q := by
  have hbefore : t.startsBefore c q = [] := by simp [State.startsBefore, hq]
  have hfree : t.engineFree c q = true := by simp [State.engineFree, heng, hq, hst]
  have horphan : ((q.sources c ++ q.dsts.map fun d => (c, d)).any fun e => ((t.core e.1).drawer e.2).tag == .orphan) = false := by
    refine List.any_eq_false.2 fun e he => ?_
    rcases List.mem_append.1 he with he | he
    · simp [State.ready_not_torn _ (hsrc e he)]
    · obtain ⟨d, hd, rfl⟩ := List.mem_map.1 he
      rcases State.open_tag _ (hdst d hd) with h | h <;> simp [h]
  have htorn : ((q.sources c).any fun e => ((t.core e.1).drawer e.2).tag == .torn) = false :=
    List.any_eq_false.2 fun e he => by simp [State.ready_not_torn _ (hsrc e he)]
  have htags : t.tagsReady c q = true := by
    rw [State.tagsReady, Bool.and_eq_true, List.all_eq_true, List.all_eq_true]
    exact ⟨hsrc, hdst⟩
  have hwriter : q.dsts.all (fun d => !t.writerAhead c q d) = true := by
    refine List.all_eq_true.2 fun d hd => ?_
    simp only [State.writerAhead, hbefore, List.any_nil, Bool.false_or, Bool.not_eq_true', List.any_eq_false, Bool.and_eq_true, beq_iff_eq,
      decide_eq_true_eq]
    exact fun w hw h => hwin w hw h.1.1 d hd h.2
  have hcan : t.canStart c q = true := by simp [State.canStart, htags, hfree, hassay, hwriter, State.leaseAhead, hbefore]
  have hturn : t.startTurn c q = true := by
    refine Bool.or_eq_true_iff.2 (Or.inr (List.all_eq_true.2 fun y hy => ?_))
    have hne : ¬ q.ctx = y := fun e => rotationBefore_ne hy e.symm
    simp [Core.nextStart, Core.queueOf, hq, hne]
  unfold State.startEngine
  dsimp only
  rw [horphan, htorn, hcan, hturn]
  rfl

section
variable (hread : (s.claimed c x (encodeCmd op f)).onlyRead (s.headerRead c x op f))
include hread

/-- A transfer at its start: the core it found, but for the claims of its drawers and the engine's turn. -/
theorem State.claimedDests_core_any : ∃ cs sv,
    ((s.claimedDests c x op f).core c).butDrawers { (s.frontCore c x op f cs) with served := sv }
      ∧ ∀ n, Tab.get 0 cs n = (s.core c).counter n - f.claims n + CmdFields.early f n := by
  obtain ⟨cs, h1, h2⟩ := State.issued_core_any (s := s) (c := c) (x := x) (op := op) (f := f)
  refine ⟨cs, Tab.set 3 (s.core c).served (s.issuedEntry c x op f).eng x, ?_, h2⟩
  have hclaim := foldl_butDrawers (fun k d => k.modDrawer d (fun v => { v with claim := true })) (fun _ _ => rfl)
    (s.issuedEntry c x op f).dsts ((s.issued c x op f).core c)
  rw [h1] at hclaim
  rw [State.claimedDests, State.started, State.core_modCore, h1, hclaim.eq_with]
  simp only [Core.modCmd, modFirst, State.issuedEntry_id, beq_self_eq_true, if_true, State.frontCore]
  rw [← State.startedEntry_of_issued hread]
  rfl

theorem State.claimedDests_onlyRead : s.onlyRead (s.claimedDests c x op f) := by
  rw [State.claimedDests, State.started]
  exact (State.issued_onlyRead hread).trans (State.modCore_onlyRead _ c _)

omit hread in
theorem State.claimedDests_drawer_any (d : Nat) : ((s.claimedDests c x op f).core c).drawer d =
    if d ∈ (s.plan c x op f).dsts then { ((s.core c).drawer d) with claim := true } else (s.core c).drawer d := by
  have hf := Core.drawer_foldl_modDrawer (fun v => { v with claim := true }) (fun _ => rfl) (s.issuedEntry c x op f).dsts
    ((s.issued c x op f).core c) d
  rw [State.issued_drawer_any] at hf
  rw [State.claimedDests, State.started, State.core_modCore]
  exact hf

omit hread in
theorem State.claimedDests_other_any {d : Nat} (hd : d ≠ c) : (s.claimedDests c x op f).core d = s.core d := by
  rw [State.claimedDests, State.started, State.core_modCore_ne _ _ hd, State.issued_other_any hd]

theorem State.claimedDests_q_any : ((s.claimedDests c x op f).core c).q = [s.startedEntry c x op f] := by
  obtain ⟨cs, sv, hcore, -⟩ := State.claimedDests_core_any hread
  exact hcore.q

/-- On a quiet core a transfer whose drawers are ready starts at once (09 R189; 11 R244). -/
theorem State.Quiet.tryStart_transfer (hq : s.Quiet c x) (he : op.engine = 4) (hs : s.Starts c x op f) :
    (s.issued c x op f).tryStart c ((s.core c).serial + 1) = s.claimedDests c x op f := by
  obtain ⟨cs, hcore, -⟩ := State.issued_core_any (s := s) (c := c) (x := x) (op := op) (f := f)
  have hr := State.issued_onlyRead hread
  have hqueue : ((s.issued c x op f).core c).q = [s.issuedEntry c x op f] := by rw [hcore]
  have hfind : ((s.issued c x op f).core c).cmd? ((s.core c).serial + 1) = some (s.issuedEntry c x op f) := by
    rw [Core.cmd?, hqueue]
    simp [State.issuedEntry_id]
  have hgo : ((s.issued c x op f).context c x).goesOn (s.issuedEntry c x op f) = true := by
    have hctx : (s.issued c x op f).context c x = (s.frontCore c x op f cs).context x := by
      rw [State.context, hcore]
      rfl
    rw [hctx, State.frontCore_context, if_pos rfl]
    simp [Ctx.goesOn, hq.running]
  have hlive : (s.issued c x op f).coreLive c = true := by rw [hr.coreLive, hq.live]
  have heng : (s.issuedEntry c x op f).eng = 4 := State.issuedEntry_eng.trans he
  have hstart : (s.issued c x op f).startEngine c (s.issuedEntry c x op f) = s.claimedDests c x op f := by
    refine State.startEngine_transfer hqueue rfl heng (fun e hmem => ?_) (fun d hd => ?_) ?_ fun w hw ho d hd hmem => ?_
    · rw [State.issued_drawer_any]
      exact List.all_eq_true.1 hs.sources e hmem
    · rw [State.issued_drawer_any]
      exact (Bool.and_eq_true_iff.1 (List.all_eq_true.1 hs.dests d hd)).1
    · rw [hr.assay, hs.assay]
    · rw [hr.waitw] at hw
      have hfree := List.all_eq_true.1 hs.window w hw
      simp only [Bool.or_eq_true, bne_iff_ne, ne_eq, ho, not_true_eq_false, false_or] at hfree
      simpa [hmem] using List.all_eq_true.1 hfree d hd
  unfold State.tryStart
  rw [hfind]
  have hctx : (s.issuedEntry c x op f).ctx = x := rfl
  have hstage : (s.issuedEntry c x op f).stage = .issued := rfl
  simp only [hstage, hctx, heng, hgo, hlive, hstart, ne_eq, not_true_eq_false, Bool.not_true, Bool.false_eq_true, or_self, if_false,
    OfNat.ofNat_ne_zero, Nat.reduceEqDiff]

/-- What the row of a transfer does once it has started, where it does not stay under way. -/
theorem State.Quiet.runWord_transfer (hq : s.Quiet c x) (ht : s.Takes c x op f) (hp : s.Passes c x op f) (he : op.engine = 4)
    (hs : s.Starts c x op f) {v : State} (hrun : runTransfer op (s.claimedDests c x op f) c (s.startedEntry c x op f) = v)
    (hgone : (v.core c).q = []) : s.runWord c x (encodeCmd op f) = v := by
  have hqueue := State.claimedDests_q_any hread
  have hfind : ((s.claimedDests c x op f).core c).cmd? ((s.core c).serial + 1) = some (s.startedEntry c x op f) := by
    rw [Core.cmd?, hqueue]
    simp
  have hlive : (s.claimedDests c x op f).coreLive c = true := by rw [(State.claimedDests_onlyRead hread).coreLive, hq.live]
  have hstage : (s.startedEntry c x op f).stage = .started := rfl
  have heng : (s.startedEntry c x op f).eng = 4 := (State.issuedEntry_eng (s := s) (c := c) (x := x)).trans he
  have hbehind : tmulBehind (s.claimedDests c x op f) c (s.startedEntry c x op f) = false := by simp [tmulBehind, hqueue]
  have hcommit : (s.claimedDests c x op f).tryCommit c ((s.core c).serial + 1) = v := by
    unfold State.tryCommit
    rw [hfind]
    simp only [State.entry_op, hstage, hlive, hbehind, Bool.not_false, and_self, if_true]
    unfold State.commitCmd
    rw [heng]
    exact hrun
  have hb : op ≠ .barrier := by
    rintro rfl
    exact absurd he (by decide)
  rw [hq.runWord_eq ht hp hb, if_neg (by omega), if_neg (by omega), hq.tryStart_transfer hread he hs, State.commitAll_succ, hcommit,
    State.commitAll_gone]
  rw [Core.cmd?, hgone]
  rfl

end

end Sys2Proof.Machine
end

section
/-!
The end of a transfer (09 R191; 10 R215, R216; 14 R304): what its result headers, its tags, its completion counter and its completion leave
of the core it started from.
-/
namespace Sys2Proof.Machine

variable {s t u r : State} {c x : Nat} {op : Opcode} {f : CmdFields} {q : QCmd} {os : List (Nat × Nat × Header)} {extra : Nat → W16}

/-- A part of the core that completing does not change. -/
theorem State.complete_get {α : Type} (g : Core → α) (hd : ∀ k v, g { k with drawers := v } = g k) (hq : ∀ k v, g { k with q := v } = g k)
    (hc : ∀ k v, g { k with counters := v } = g k) : g ((t.complete c q stOk).core c) = g (t.core c) := by
  rw [(State.complete_core t c q stOk (by decide) (by decide) c).get g hd, State.dropped_core]
  split
  · exact (hc _ _).trans (hq _ _)
  · exact hq _ _

theorem State.complete_drawer (hp : q.peer = none) (d : Nat) : ((t.complete c q stOk).core c).drawer d = (t.core c).drawer d
    ∨ ((t.core c).drawer d).closing = true ∧ ((t.complete c q stOk).core c).drawer d = ((t.core c).drawer d).emptied := by
  have hdrop : ((t.dropped c q stOk).core c).drawer d = (t.core c).drawer d := by
    rw [State.dropped_core]
    split <;> rfl
  rw [State.complete_ok _ _ _ hp, ← hdrop]
  exact State.settleClosing_drawer _ c d

theorem State.complete_other (hp : q.peer = none) {d : Nat} (hd : d ≠ c) : (t.complete c q stOk).core d = t.core d := by
  rw [State.complete_ok _ _ _ hp, State.settleClosing_other _ hd, State.dropped_other _ _ _ hd]

/-! ### A transfer about to complete -/

/-- The core of a transfer that is about to complete: as it started, with its result headers in their slots, its tags set, and amounts
added to counters. -/
structure State.AtEnd (s r : State) (c x : Nat) (op : Opcode) (f : CmdFields) (q : QCmd) (os : List (Nat × Nat × Header)) (extra : Nat → W16) :
    Prop where
  peer : q.peer = none
  cmd : q.cmd = encodeCmd op f
  core : ∃ cs, r.core c = { ((((s.claimedDests c x op f).core c).withHdrs os).commitDrawers (s.startedEntry c x op f)) with
      counters := cs, q := [q] }
    ∧ ∀ n, Tab.get 0 cs n = ((s.claimedDests c x op f).core c).counter n + extra n

namespace State.AtEnd

variable (h : s.AtEnd r c x op f q os extra) (hread : (s.claimed c x (encodeCmd op f)).onlyRead (s.headerRead c x op f))
include h

/-- A drawer of the core once the transfer has committed (09 R191). -/
theorem drawer (hapart : ∀ d ∈ (s.plan c x op f).dsts, ¬ d ∈ (s.plan c x op f).cons) (d : Nat) : (r.core c).drawer d =
    if d ∈ (s.plan c x op f).dsts then { ((s.core c).drawer d) with tag := .full, claim := false }
    else if d ∈ (s.plan c x op f).cons ∧ ¬ d ∈ (s.plan c x op f).held then { ((s.core c).drawer d) with closing := true }
    else (s.core c).drawer d := by
  obtain ⟨cs, hcore, -⟩ := h.core
  have hcommit : (r.core c).drawer d = ((((s.claimedDests c x op f).core c).withHdrs os).commitDrawers (s.startedEntry c x op f)).drawer d := by
    rw [hcore]
    rfl
  rw [hcommit, Core.drawer_commitDrawers, Core.withHdrs_get (Core.drawer · d) fun _ _ => rfl, State.claimedDests_drawer_any]
  change (if d ∈ (s.plan c x op f).cons ∧ ¬ d ∈ (s.plan c x op f).held then _ else if d ∈ (s.plan c x op f).dsts then _ else _) = _
  by_cases hd : d ∈ (s.plan c x op f).dsts
  · simp [hd, hapart d hd]
  · simp only [hd, if_false]
    split
    · exact congrArg (fun v : Drawer => { v with closing := true }) (if_neg hd)
    · rfl

theorem tagsLeft (hs : s.Starts c x op f) (hapart : ∀ d ∈ (s.plan c x op f).dsts, ¬ d ∈ (s.plan c x op f).cons) :
    s.tagsLeft (r.complete c q stOk) c (s.plan c x op f) := by
  refine ⟨fun d hd => ?_, fun d hc hh => ?_, fun d hd hc hcl => ?_⟩
  · have hopen := List.all_eq_true.1 hs.dests d hd
    simp only [Bool.and_eq_true, Bool.not_eq_true'] at hopen
    have hr := h.drawer hapart d
    rw [if_pos hd] at hr
    have he := (State.complete_drawer (t := r) (c := c) h.peer d).resolve_right (by simp [hr, hopen.2])
    simp [he, hr]
  · have hr := h.drawer hapart d
    rw [if_neg fun hd => hapart d hd hc, if_pos ⟨hc, hh⟩] at hr
    rcases State.complete_drawer h.peer d with he | ⟨-, he⟩
    · exact .inr (by rw [he, hr])
    · exact .inl (by rw [he]; rfl)
  · have hr := h.drawer hapart d
    rw [if_neg hd, if_neg fun hcons => hc hcons.1] at hr
    rw [(State.complete_drawer h.peer d).resolve_right (by simp [hr, hcl]), hr]

include hread

/-- A part of the core that headers, tags, counters and the queue are no part of is what the issue left. -/
theorem complete_part {α : Type} (g : Core → α) (hd : ∀ k v, g { k with drawers := v } = g k) (hq : ∀ k v, g { k with q := v } = g k)
    (hc : ∀ k v, g { k with counters := v } = g k) (hh : ∀ k v, g { k with hdrs := v } = g k) (hv : ∀ k v, g { k with served := v } = g k) :
    g ((r.complete c q stOk).core c) = g (s.frontCore c x op f []) := by
  obtain ⟨cs, hcore, -⟩ := h.core
  obtain ⟨cs', sv, hfront, -⟩ := State.claimedDests_core_any hread
  calc g ((r.complete c q stOk).core c)
      = g (r.core c) := State.complete_get g hd hq hc
    _ = g ((((s.claimedDests c x op f).core c).withHdrs os).commitDrawers (s.startedEntry c x op f)) := by
      rw [hcore]
      exact (hq { ((((s.claimedDests c x op f).core c).withHdrs os).commitDrawers (s.startedEntry c x op f)) with counters := cs } [q]).trans
        (hc _ cs)
    _ = g ((s.claimedDests c x op f).core c) := by
      rw [(Core.commitDrawers_butDrawers _ _).get g hd, Core.withHdrs_get g hh]
    _ = g { (s.frontCore c x op f cs') with served := sv } := hfront.get g hd
    _ = g (s.frontCore c x op f []) := (hv _ _).trans (hc (s.frontCore c x op f []) cs')

theorem complete_context (y : Nat) : (r.complete c q stOk).context c y
    = if y = x then { (s.context c x) with pc := (s.context c x).pc + 32 } else s.context c y :=
  (h.complete_part hread (Core.context · y) (fun _ _ => rfl) (fun _ _ => rfl) (fun _ _ => rfl) (fun _ _ => rfl) fun _ _ => rfl).trans
    (s.frontCore_context (op := op) (f := f) [] y)

theorem complete_descs : ((r.complete c q stOk).core c).descs = (s.core c).descs :=
  h.complete_part hread Core.descs (fun _ _ => rfl) (fun _ _ => rfl) (fun _ _ => rfl) (fun _ _ => rfl) fun _ _ => rfl

theorem complete_tiles : ((r.complete c q stOk).core c).tiles = (s.core c).tiles :=
  h.complete_part hread Core.tiles (fun _ _ => rfl) (fun _ _ => rfl) (fun _ _ => rfl) (fun _ _ => rfl) fun _ _ => rfl

theorem complete_hdrs : ((r.complete c q stOk).core c).hdrs = ((s.core c).withHdrs os).hdrs := by
  obtain ⟨cs, hcore, -⟩ := h.core
  obtain ⟨cs', sv, hfront, -⟩ := State.claimedDests_core_any hread
  have hstart : ((s.claimedDests c x op f).core c).hdrs = (s.core c).hdrs := hfront.get Core.hdrs fun _ _ => rfl
  calc ((r.complete c q stOk).core c).hdrs
      = (r.core c).hdrs := State.complete_get Core.hdrs (fun _ _ => rfl) (fun _ _ => rfl) fun _ _ => rfl
    _ = ((((s.claimedDests c x op f).core c).withHdrs os).commitDrawers (s.startedEntry c x op f)).hdrs := by rw [hcore]
    _ = (((s.claimedDests c x op f).core c).withHdrs os).hdrs := (Core.commitDrawers_butDrawers _ _).get Core.hdrs fun _ _ => rfl
    _ = ((s.core c).withHdrs os).hdrs := Core.withHdrs_hdrs_congr hstart os

omit hread in
theorem complete_q : ((r.complete c q stOk).core c).q = [] := by
  obtain ⟨cs, hcore, -⟩ := h.core
  exact State.complete_q _ _ _ _ (by decide) (by decide) (by rw [hcore])

/-- What the completion of a transfer leaves of its core, its counters and the other cores. -/
theorem done (hq : s.Quiet c x) (ht : s.Takes c x op f) (ho : ∀ d, d ≠ c → r.core d = s.core d) :
    s.Done (r.complete c q stOk) c x f ((s.context c x).pc + 32) .running (fun n => (s.core c).counter n + extra n) := by
  obtain ⟨cs, hcore, hcount⟩ := h.core
  obtain ⟨cs', sv, hfront, hcount'⟩ := State.claimedDests_core_any hread
  have hctx : ∀ y, r.context c y = if y = x then { (s.context c x) with pc := (s.context c x).pc + 32 } else s.context c y := fun y => by
    rw [← h.complete_context hread y]
    exact (State.complete_get (Core.context · y) (fun _ _ => rfl) (fun _ _ => rfl) fun _ _ => rfl).symm
  have hcounter : ∀ n, (r.core c).counter n = (s.core c).counter n + extra n - f.claims n + CmdFields.early f n := fun n => by
    have hn : (r.core c).counter n = ((s.claimedDests c x op f).core c).counter n + extra n := by
      rw [← hcount n, hcore]
      rfl
    have hn' : ((s.claimedDests c x op f).core c).counter n = (s.core c).counter n - f.claims n + CmdFields.early f n := by
      rw [← hcount' n]
      exact hfront.counter n
    rw [hn, hn']
    generalize (s.core c).counter n = a, f.claims n = b, CmdFields.early f n = d, extra n = e
    bv_omega
  refine State.complete_done _ _ _ _ (by rw [hcore]) h.peer (by rw [h.cmd]; simp) (by rw [h.cmd]; simp) ?_ ?_ ho ?_ (by rw [h.cmd]; simp)
    ht.mode _ hcounter
  · rw [hctx, if_pos rfl]
  · rw [hctx, if_pos rfl]
    exact hq.running
  · intro y hy
    rw [hctx, if_neg hy]

end State.AtEnd

end Sys2Proof.Machine
end

section
/-!
The units that a transfer moves (12 R252; 13 R277, R286; 09 R193, R200): sound sources are read as they stand, and what is written lands in
visit order, in stacked memory, in the own scratchpad or in a window.
-/
namespace Sys2Proof.Machine

variable {s t u : State} {c x : Nat} {op : Opcode} {f : CmdFields}

/-! ### Reading sound units -/

/-- A source unit that stops no transfer: its stack online and its granule sound, or its bytes of right parity. -/
def State.unitSound (s : State) (a : Int) : Prop :=
  if inHbm a.toNat then s.stackOnline a.toNat = true ∧ s.granuleSound a.toNat
  else s.badpar.find? (fun b => decide (a.toNat ≤ b) && decide (b < a.toNat + 64)) = none

theorem State.onlyRead.unitSound (h : s.onlyRead t) (a : Int) : t.unitSound a ↔ s.unitSound a := by
  unfold State.unitSound
  split
  case isTrue ha => rw [h.stackOnline ha, h.granuleSound]
  case isFalse => rw [h.badpar]

/-- One unit read, unless the reading has stopped. -/
def Gather.read (hint : Nat) (g : Gather) (a : Int) : Gather :=
  match g.stop with
  | some _ => g
  | none =>
    let n := a.toNat
    if inHbm n then
      if !g.st.stackOnline n then { g with stop := some (stBounds, none) }
      else
      let r := g.st.hbmRead n hint
      if r.2 then { g with st := r.1, stop := some (stParity, none) }
      else { g with st := r.1, units := g.units ++ [g.st.readBytes n 64] }
    else match g.st.badpar.find? (fun b => decide (n ≤ b) && decide (b < n + 64)) with
      | some b => { g with stop := some (stParity, some b) }
      | none => { g with units := g.units ++ [g.st.readBytes n 64] }

theorem State.gather_eq (s : State) (hint : Nat) (as : List Int) : s.gather hint as = as.foldl (Gather.read hint) { st := s } := by
  unfold State.gather Gather.read
  rfl

theorem Gather.foldl_read_stopped {hint : Nat} {g : Gather} (h : g.stop ≠ none) (as : List Int) : as.foldl (Gather.read hint) g = g := by
  refine foldl_fixed _ g as fun a _ => ?_
  unfold Gather.read
  split
  · rfl
  · contradiction

theorem Gather.read_sound {hint : Nat} {g : Gather} {a : Int} (hg : g.stop = none) (h : g.st.unitSound a) :
    ∃ t, g.read hint a = { st := t, units := g.units ++ [g.st.readBytes a.toNat 64] } ∧ g.st.onlyRead t ∧ t.cores = g.st.cores := by
  unfold State.unitSound at h
  unfold Gather.read
  rw [hg]
  dsimp only
  split at h
  case isTrue ha =>
    obtain ⟨honline, hsound⟩ := h
    rw [if_pos ha, if_neg (by simp [honline]), if_neg (by simp [(State.hbmRead_sound_iff g.st a.toNat hint).2 hsound])]
    exact ⟨_, rfl, State.hbmRead_onlyRead ha hsound hint, (g.st.hbmRead_readKeeps ..).cores⟩
  case isFalse ha =>
    rw [if_neg ha, h]
    exact ⟨g.st, rfl, .refl _, rfl⟩

theorem Gather.read_unsound {hint : Nat} {g : Gather} {a : Int} (hg : g.stop = none) (h : ¬ g.st.unitSound a) : (g.read hint a).stop ≠ none := by
  unfold State.unitSound at h
  unfold Gather.read
  rw [hg]
  dsimp only
  split at h
  case isTrue ha =>
    rw [if_pos ha]
    split
    · exact Option.some_ne_none _
    · rename_i honline
      have hbad : (g.st.hbmRead a.toNat hint).2 = true := by
        rw [← Bool.not_eq_false, State.hbmRead_sound_iff]
        exact fun hs => h ⟨by simpa using honline, hs⟩
      rw [if_pos hbad]
      exact Option.some_ne_none _
  case isFalse ha =>
    rw [if_neg ha]
    split
    · exact Option.some_ne_none _
    · contradiction

/-- A reading that does not stop has read sound units alone. -/
theorem State.unitSound_of_gather {hint : Nat} {as : List Int} (h : (s.gather hint as).stop = none) : ∀ a ∈ as, s.unitSound a := by
  have hfold : ∀ (as : List Int) (g : Gather), s.onlyRead g.st → g.stop = none → (as.foldl (Gather.read hint) g).stop = none →
      ∀ a ∈ as, s.unitSound a := by
    intro as
    induction as with
    | nil => exact fun _ _ _ _ _ ha => absurd ha List.not_mem_nil
    | cons b as ih =>
      intro g hg hstop hend
      rw [List.foldl_cons] at hend
      have hb : g.st.unitSound b := by
        by_contra hb
        have hstopped := Gather.read_unsound (hint := hint) hstop hb
        rw [Gather.foldl_read_stopped hstopped] at hend
        exact hstopped hend
      obtain ⟨t, ht, hread, -⟩ := Gather.read_sound (hint := hint) hstop hb
      refine List.forall_mem_cons.2 ⟨(hg.unitSound b).1 hb, ih _ ?_ ?_ hend⟩
      · rw [ht]
        exact hg.trans hread
      · rw [ht]
  rw [State.gather_eq] at h
  exact hfold as _ (.refl s) rfl h

/-- Sound units are read in visit order, as they stand. -/
theorem State.gather_of_sound (hint : Nat) {as : List Int} (h : ∀ a ∈ as, s.unitSound a) : ∃ t,
    s.gather hint as = { st := t, units := as.map (fun a => s.readBytes a.toNat 64) } ∧ s.onlyRead t ∧ t.cores = s.cores := by
  have hfold : ∀ (as : List Int) (g : Gather), s.onlyRead g.st → g.st.cores = s.cores → g.stop = none →
      (∀ a ∈ as, s.unitSound a) → ∃ t, as.foldl (Gather.read hint) g = { st := t, units := g.units ++ as.map (fun a => s.readBytes a.toNat 64) }
        ∧ s.onlyRead t ∧ t.cores = s.cores := by
    intro as
    induction as with
    | nil =>
      intro g hg hcores hstop _
      refine ⟨g.st, ?_, hg, hcores⟩
      rw [List.foldl_nil, List.map_nil, List.append_nil, ← hstop]
    | cons b as ih =>
      intro g hg hcores hstop hall
      obtain ⟨hb, has⟩ := List.forall_mem_cons.1 hall
      obtain ⟨v, hv, hread, hsame⟩ := Gather.read_sound (hint := hint) hstop ((hg.unitSound b).2 hb)
      obtain ⟨t, ht, hst, hct⟩ := ih (g.read hint b) (by rw [hv]; exact hg.trans hread) (by rw [hv]; exact hsame.trans hcores) (by rw [hv]) has
      refine ⟨t, ?_, hst, hct⟩
      rw [List.foldl_cons, ht, hv, hg.readBytes]
      simp
  obtain ⟨t, ht, hst, hct⟩ := hfold as { st := s } (.refl s) rfl rfl h
  exact ⟨t, by rw [State.gather_eq, ht]; rfl, hst, hct⟩

/-! ### What writing changes -/

/-- `t` differs from `s` by what writes change: memory, parity and errors, the injection registers, and the lines of the caches. -/
def State.wrote (s t : State) : Prop :=
  { t with mem := s.mem, badpar := s.badpar, regs := s.regs, ecc := s.ecc, keep := s.keep, groupLines := s.groupLines } = s

theorem State.wrote.trans (h : s.wrote t) (g : t.wrote u) : s.wrote u := by
  unfold State.wrote at *
  rw [← h, ← g]

/-- A part of the state that writes do not change. -/
theorem State.wrote.get {α : Type} (h : s.wrote t) (g : State → α)
    (hg : ∀ u m b r e k l, g { u with mem := m, badpar := b, regs := r, ecc := e, keep := k, groupLines := l } = g u) : g t = g s := by
  rw [← hg t s.mem s.badpar s.regs s.ecc s.keep s.groupLines]
  exact congrArg g h

theorem State.wrote.cores (h : s.wrote t) : t.cores = s.cores := h.get State.cores fun _ _ _ _ _ _ _ => rfl

theorem State.wrote.traffic (h : s.wrote t) : s.sameTraffic t :=
  ⟨h.get State.bars fun _ _ _ _ _ _ _ => rfl, h.get State.ctrs fun _ _ _ _ _ _ _ => rfl, h.get State.sigs fun _ _ _ _ _ _ _ => rfl,
    h.get State.out fun _ _ _ _ _ _ _ => rfl⟩

theorem State.storesOnly.wrote (h : s.storesOnly t) : s.wrote t := by
  have hrest := congrArg (fun v : State => { v with ecc := s.ecc, keep := s.keep, groupLines := s.groupLines }) h
  exact hrest

theorem State.cacheWrite_wrote (s : State) (g hint : Nat) :
    s.wrote (s.cacheWrite g hint) ∧ (s.cacheWrite g hint).mem = s.mem ∧ (s.cacheWrite g hint).regs = s.regs := by
  unfold State.cacheWrite State.makeKeep
  repeat' split
  all_goals exact ⟨rfl, rfl, rfl⟩

/-- A write to stacked memory, whatever its hint, writes its bytes and no register (13 R277, R280). -/
theorem State.hbmStore_wrote (s : State) (a hint : Nat) (bs : List Byte) : s.wrote (s.hbmStore a hint bs)
    ∧ (s.hbmStore a hint bs).mem = (s.writeBytes a bs).mem ∧ (s.hbmStore a hint bs).regs = s.regs := by
  have hfold : ∀ (l : List Nat) (t : State), s.wrote t →
      (let v := l.foldl (fun s g => State.cacheWrite { s with ecc := Tab.set 0 s.ecc g 0 } g hint) t
      s.wrote v ∧ v.mem = t.mem ∧ v.regs = t.regs) := by
    intro l
    induction l with
    | nil => exact fun t h => ⟨h, rfl, rfl⟩
    | cons g l ih =>
      intro t h
      obtain ⟨hw, hmem, hregs⟩ := State.cacheWrite_wrote { t with ecc := Tab.set 0 t.ecc g 0 } g hint
      obtain ⟨h1, h2, h3⟩ := ih _ ((h.trans (u := { t with ecc := Tab.set 0 t.ecc g 0 }) rfl).trans hw)
      exact ⟨h1, h2.trans hmem, h3.trans hregs⟩
  exact hfold (granules a bs.length) (s.writeBytes a bs) rfl

theorem State.readByte_hbmStore (s : State) (a hint : Nat) (bs : List Byte) (b : Nat) :
    (s.hbmStore a hint bs).readByte b = (s.writeBytes a bs).readByte b := by
  rw [State.readByte, (s.hbmStore_wrote a hint bs).2.1, State.readByte]

/-! ### Units written in visit order -/

/-- Units written at addresses in visit order: a later unit stands (12 R252). -/
def State.writeUnits (s : State) (ws : List (Int × List Byte)) : State := ws.foldl (fun u e => u.writeBytes e.1.toNat e.2) s

theorem State.readByte_writeBytes_congr (h : ∀ a, t.readByte a = s.readByte a) (a : Nat) (bs : List Byte) (b : Nat) :
    (t.writeBytes a bs).readByte b = (s.writeBytes a bs).readByte b := by
  rw [State.readByte_writeBytes, State.readByte_writeBytes, h]

/-- Steps that each write their unit write the units. -/
theorem State.readByte_foldl_writes {step : State → Int × List Byte → State}
    (hstep : ∀ u e a, (step u e).readByte a = (u.writeBytes e.1.toNat e.2).readByte a) (ws : List (Int × List Byte))
    (h : ∀ a, t.readByte a = s.readByte a) (a : Nat) : (ws.foldl step t).readByte a = (s.writeUnits ws).readByte a := by
  unfold State.writeUnits
  induction ws generalizing s t with
  | nil => exact h a
  | cons e ws ih => exact ih fun b => (hstep t e b).trans (State.readByte_writeBytes_congr h _ _ b)

theorem foldl_wrote {step : State → Int × List Byte → State} (hstep : ∀ u e, State.wrote u (step u e)) (ws : List (Int × List Byte))
    (s : State) : s.wrote (ws.foldl step s) := by
  induction ws generalizing s with
  | nil => exact rfl
  | cons e ws ih => exact (hstep s e).trans (ih _)

/-- One unit written, unless the writing has stopped. -/
def Scatter.write (c id hint : Nat) (g : Scatter) (e : Int × List Byte) : Scatter :=
  match g.stop with
  | some _ => g
  | none =>
    let n := e.1.toNat
    match regionOf e.1 with
    | some 0 => if g.st.stackOnline n then { g with st := g.st.hbmStore n hint e.2 } else { g with stop := some stBounds }
    | some (o + 1) =>
      if o = c then { g with st := g.st.store n e.2 }
      else
        let w : WaitWrite := { dev := g.st.myDev, core := c, cmdId := id, owner := o, off := n - spBase o, data := e.2 }
        if g.waits.isEmpty then
          let r := g.st.winWrite o w.dev c w.off e.2
          match r.2 with
          | .landed => { g with st := r.1 }
          | .waits => { g with waits := [{ w with accepted := !g.st.portsHeld o }] }
          | .refused st => { g with st := r.1, stop := some st }
        else { g with waits := g.waits ++ [w] }
    | none => g

theorem State.scatter_eq (s : State) (c id hint : Nat) (ws : List (Int × List Byte)) :
    s.scatter c id hint ws = ws.foldl (Scatter.write c id hint) { st := s } := by
  unfold State.scatter Scatter.write
  rfl

/-- Units that each step writes where it may, and may still where another has been written. -/
theorem Scatter.foldl_write {id hint : Nat} {ok : State → Int × List Byte → Prop} {step : State → Int × List Byte → State}
    (hstep : ∀ u e, ok u e → Scatter.write c id hint { st := u } e = { st := step u e }) (hkeep : ∀ u e e', ok u e' → ok (step u e) e')
    {ws : List (Int × List Byte)} (h : ∀ e ∈ ws, ok s e) : s.scatter c id hint ws = { st := ws.foldl step s } := by
  rw [State.scatter_eq]
  induction ws generalizing s with
  | nil => rfl
  | cons e ws ih =>
    obtain ⟨he, hws⟩ := List.forall_mem_cons.1 h
    rw [List.foldl_cons, hstep s e he, List.foldl_cons]
    exact ih fun e' he' => hkeep s e e' (hws e' he')

/-- A destination in stacked memory, its stacks online, or in the own scratchpad takes every unit (12 R252; 13 R286). -/
theorem State.scatter_near {id hint : Nat} {ws : List (Int × List Byte)}
    (h : (∀ e ∈ ws, regionOf e.1 = some 0 ∧ s.stackOnline e.1.toNat = true) ∨ ∀ e ∈ ws, regionOf e.1 = some (1 + c)) :
    ∃ t, s.scatter c id hint ws = { st := t } ∧ s.wrote t ∧ ∀ a, t.readByte a = (s.writeUnits ws).readByte a := by
  rcases h with h | h
  · have honline : ∀ (u : State) (e e' : Int × List Byte), regionOf e'.1 = some 0 ∧ u.stackOnline e'.1.toNat = true →
        regionOf e'.1 = some 0 ∧ (u.hbmStore e.1.toNat hint e.2).stackOnline e'.1.toNat = true := fun u e e' ⟨hr, ho⟩ => by
      have hregs := (u.hbmStore_wrote e.1.toNat hint e.2).2.2
      refine ⟨hr, ?_⟩
      rw [← ho]
      simp only [State.stackOnline, State.stackOf, State.stackAt, State.rf_congr hregs]
    refine ⟨_, Scatter.foldl_write (step := fun u e => u.hbmStore e.1.toNat hint e.2) (fun u e ⟨hr, ho⟩ => ?_) honline h,
      foldl_wrote (fun u e => (u.hbmStore_wrote _ hint _).1) ws s,
      State.readByte_foldl_writes (fun u e a => u.readByte_hbmStore _ hint _ a) ws fun _ => rfl⟩
    simp only [Scatter.write, hr, ho, if_true]
  · refine ⟨_, Scatter.foldl_write (ok := fun _ e => regionOf e.1 = some (1 + c)) (step := fun u e => u.store e.1.toNat e.2) (fun u e hr => ?_)
        (fun _ _ _ hr => hr) h,
      foldl_wrote (fun u e => (u.store_storesOnly _ _).wrote) ws s, State.readByte_foldl_writes (fun u e a => ?_) ws fun _ => rfl⟩
    · simp only [Scatter.write, hr, Nat.add_comm 1 c, if_true]
    · rw [State.readByte, State.store_mem, State.readByte]

end Sys2Proof.Machine
end

section
/-!
A transfer into a window of another core of the device (09 R193, R194): its writes land there as they would from the state before its issue.
-/
namespace Sys2Proof.Machine

variable {s t u : State} {c x o off : Nat} {bs : List Byte}

/-- A window write into core `o` meets the same tests in two states. -/
structure State.sameOwner (s t : State) (o : Nat) : Prop where
  core : t.core o = s.core o
  win : ∀ w, w < 16 → t.win o w = s.win o w
  myDev : t.myDev = s.myDev
  assay : t.assay = s.assay

/-! ### A write that lands changes its owner alike -/

theorem State.winLand_coresOnly (s : State) (o off : Nat) (bs : List Byte) : (s.store (spBase o + off) bs).coresOnly (s.winLand o off bs) := by
  obtain ⟨g, l, heq⟩ := (s.store (spBase o + off) bs).recordLanded_eq_modDrawers o off bs.length
  rw [State.winLand_eq, heq]
  exact (State.modDrawers_spec ..).1

theorem State.winLand_sameWindows (s : State) (o off : Nat) (bs : List Byte) : (∀ w, w < 16 → (s.winLand o off bs).win o w = s.win o w)
    ∧ (s.winLand o off bs).assay = s.assay := by
  have hrest := s.winLand_coresOnly o off bs
  have hregs := hrest.get State.regs fun _ _ => rfl
  refine ⟨fun w hw => ?_, ?_⟩
  · rw [← s.store_win (spBase o + off) bs o hw]
    exact State.win_congr fun r _ => State.regK_congr (by rw [hregs])
  · rw [hrest.get State.assay fun _ _ => rfl]
    exact (s.store_storesOnly ..).get State.assay fun _ _ _ _ => rfl

/-- A core with the granules recorded of `n` bytes that land in a window of it, where there is one. -/
def Core.landed (k : Core) (v : Option Win) (off n : Nat) : Core :=
  match v with
  | none => k
  | some v => (touched off n).foldl (fun k d => k.modDrawer d (v.recorded off n d)) k

/-- The record of a landed write depends on the owner's drawers and windows alone. -/
theorem State.recordLanded_core (s : State) (o off n : Nat) :
    (s.recordLanded o off n).core o = (s.core o).landed ((s.winAt o (off / drawerBytes)).map (s.win o)) off n := by
  unfold State.recordLanded
  cases s.winAt o (off / drawerBytes) with
  | none => rfl
  | some w => exact (State.modDrawers_spec ..).2.1

theorem State.sameOwner.winLand (h : s.sameOwner t o) (off : Nat) (bs : List Byte) :
    (s.winLand o off bs).sameOwner (t.winLand o off bs) o := by
  obtain ⟨hwt, hat⟩ := t.winLand_sameWindows o off bs
  obtain ⟨hws, has⟩ := s.winLand_sameWindows o off bs
  have hwins : ∀ w, w < 16 → (t.store (spBase o + off) bs).win o w = (s.store (spBase o + off) bs).win o w := fun w hw => by
    rw [State.store_win _ _ _ o hw, State.store_win _ _ _ o hw, h.win w hw]
  refine ⟨?_, fun w hw => by rw [hwt w hw, hws w hw, h.win w hw], ?_, by rw [hat, has, h.assay]⟩
  · rw [State.winLand_eq, State.winLand_eq, State.recordLanded_core, State.recordLanded_core, State.winAt_congr hwins,
      State.core_store, State.core_store, h.core]
    exact congrArg (fun v => (s.core o).landed v off bs.length) (Option.map_congr fun w hw => hwins w (State.winAt_lt hw))
  · rw [(t.winLand_landed o off bs).myDev, (s.winLand_landed o off bs).myDev, h.myDev]

/-- A write that one state lands the other lands. -/
theorem State.sameOwner.winWrite (h : s.sameOwner t o) {dev src : Nat} (hland : (s.winWrite o dev src off bs).2 = .landed) :
    s.winWrite o dev src off bs = (s.winLand o off bs, .landed) ∧ t.winWrite o dev src off bs = (t.winLand o off bs, .landed) := by
  have hheld : s.portsHeld o = false := by
    by_contra hheld
    rw [State.winWrite_held (by simpa using hheld)] at hland
    cases hland
  have htest : s.winTest o dev src off bs.length = .landed := by
    cases htest : s.winTest o dev src off bs.length with
    | landed => rfl
    | waits => rw [State.winWrite_waits htest] at hland; cases hland
    | refused st => rw [State.winWrite_refused hheld htest] at hland; cases hland
  refine ⟨State.winWrite_landed hheld htest, State.winWrite_landed ?_ ?_⟩
  · rw [State.portsHeld, h.assay, ← State.portsHeld, hheld]
  · rw [State.winTest_congr h.core h.win h.myDev, htest]

/-! ### The units of a transfer -/

theorem regionOf_own {a : Int} {o : Nat} (h : regionOf a = some (o + 1)) : spBase o + (a.toNat - spBase o) = a.toNat := by
  unfold regionOf at h
  dsimp only at h
  split at h
  · cases h
  split at h
  · cases h
  split at h
  · have ho : 1 + (a.toNat - 0xC000000000) / 0x2000000 = o + 1 := Option.some.inj h
    have hdiv := Nat.div_mul_le_self (a.toNat - 0xC000000000) 0x2000000
    have hoe : (a.toNat - 0xC000000000) / 0x2000000 = o := by omega
    rw [hoe] at hdiv
    unfold spBase
    omega
  · cases h

/-- A writing that has stopped, or of which a write waits, stays so. -/
def Scatter.ended (g : Scatter) : Prop := g.stop ≠ none ∨ g.waits ≠ []

theorem Scatter.ended.write {g : Scatter} (h : g.ended) (id hint : Nat) (e : Int × List Byte) : (Scatter.write c id hint g e).ended := by
  unfold Scatter.write
  split
  case h_1 => exact h
  case h_2 hstop =>
    have hwaits : g.waits ≠ [] := h.resolve_left (not_not.2 hstop)
    have hempty : ¬ g.waits.isEmpty = true := fun he => hwaits (List.isEmpty_iff.1 he)
    dsimp only
    split
    · split
      · exact .inr hwaits
      · exact .inl (Option.some_ne_none _)
    · split
      · exact .inr hwaits
      · exact .inr (List.append_ne_nil_of_right_ne_nil _ (List.cons_ne_nil _ _))
    · exact h

theorem Scatter.ended.foldl_write (ws : List (Int × List Byte)) {g : Scatter} (h : g.ended) (id hint : Nat) :
    (ws.foldl (Scatter.write c id hint) g).ended := by
  induction ws generalizing g with
  | nil => exact h
  | cons e ws ih => exact ih (h.write id hint e)

/-- One unit written to another core's scratchpad: it lands, or the writing has ended. -/
theorem Scatter.write_window {id hint : Nat} {e : Int × List Byte} (hr : regionOf e.1 = some (o + 1)) (ho : o ≠ c)
    (hgo : ¬ (Scatter.write c id hint { st := s } e).ended) :
    (s.winWrite o s.myDev c (e.1.toNat - spBase o) e.2).2 = .landed := by
  cases hres : (s.winWrite o s.myDev c (e.1.toNat - spBase o) e.2).2 with
  | landed => rfl
  | waits =>
    refine absurd (Or.inr ?_) hgo
    simp [Scatter.write, hr, ho, hres]
  | refused st =>
    refine absurd (Or.inl ?_) hgo
    simp [Scatter.write, hr, ho, hres]

theorem Scatter.write_window_landed {id hint : Nat} {e : Int × List Byte} (hr : regionOf e.1 = some (o + 1)) (ho : o ≠ c) {v : State}
    (hland : s.winWrite o s.myDev c (e.1.toNat - spBase o) e.2 = (v, .landed)) : Scatter.write c id hint { st := s } e = { st := v } := by
  simp [Scatter.write, hr, ho, hland]

/-- Units that all land from one state all land from another that the owner's windows meet alike, and change the owner alone. -/
theorem State.sameOwner.scatter {id hint : Nat} {ws : List (Int × List Byte)} (h : s.sameOwner u o) (ho : o ≠ c)
    (hr : ∀ e ∈ ws, regionOf e.1 = some (o + 1)) (hgo : ¬ (s.scatter c id hint ws).ended) : ∃ t, u.scatter c id hint ws = { st := t }
      ∧ (∀ a, t.readByte a = (u.writeUnits ws).readByte a) ∧ ∀ d, d ≠ o → t.core d = u.core d := by
  rw [State.scatter_eq] at hgo ⊢
  induction ws generalizing s u with
  | nil => exact ⟨u, rfl, fun _ => rfl, fun _ _ => rfl⟩
  | cons e ws ih =>
    obtain ⟨he, hws⟩ := List.forall_mem_cons.1 hr
    rw [List.foldl_cons] at hgo ⊢
    obtain ⟨hs, hu⟩ := h.winWrite (Scatter.write_window he ho fun hend => hgo (hend.foldl_write ws id hint))
    rw [Scatter.write_window_landed he ho hs] at hgo
    rw [← h.myDev] at hu
    rw [Scatter.write_window_landed he ho hu]
    obtain ⟨t, ht, hbytes, hcores⟩ := ih (h.winLand _ _) hws hgo
    have hl := u.winLand_landed o (e.1.toNat - spBase o) e.2
    refine ⟨t, ht, fun a => ?_, fun d hd => (hcores d hd).trans (hl.others d hd)⟩
    rw [hbytes]
    refine State.readByte_foldl_writes (fun _ _ _ => rfl) ws (fun b => ?_) a
    rw [hl.byte, regionOf_own he, State.readByte, State.store_mem, State.readByte]

end Sys2Proof.Machine
end

section
/-!
The commit of a transfer (09 R191; 11 R245; 14 R304): its result headers, its tags and its completion counter.
-/
namespace Sys2Proof.Machine

variable {s t u v w : State} {c x : Nat} {op : Opcode} {f : CmdFields} {q : QCmd} {os : List (Nat × Nat × Header)}

/-! ### Before the completion -/

/-- What a transfer of operation `op` leaves when its units have moved and it is about to complete. -/
def State.moved (s : State) (op : Opcode) (c : Nat) (q : QCmd) : State :=
  let t := (s.writeOuts q).modCore c (fun k => k.commitDrawers q)
  if op = .xput ∨ op = .xget then t.signalCounter c q.cmd.xCctr 1 else t

theorem State.finishTransfer_eq (s : State) (c : Nat) (hop : q.cmd.op? = some op) :
    s.finishTransfer c q = (s.moved op c q).complete c q stOk := by
  unfold State.finishTransfer State.moved
  rw [hop]
  cases op <;> rfl

/-- What XPUT and XGET add to counters when they complete (14 R304). -/
def transferCount (op : Opcode) (f : CmdFields) (n : Nat) : W16 := if (op = .xput ∨ op = .xget) ∧ n = bits f.opa 23 16 then 1 else 0

theorem encodeCmd_xCctr (op : Opcode) (f : CmdFields) : (encodeCmd op f).xCctr = bits f.opa 23 16 := encodeCmd_opa op f _ _ (by decide)
theorem encodeCmd_xHint (op : Opcode) (f : CmdFields) : (encodeCmd op f).xHint = bits f.opa 25 24 := encodeCmd_opa op f _ _ (by decide)
theorem encodeCmd_xHdr (op : Opcode) (f : CmdFields) : (encodeCmd op f).xHdr = bits f.opa 15 8 := encodeCmd_opa op f _ _ (by decide)
theorem encodeCmd_xDir (op : Opcode) (f : CmdFields) : (encodeCmd op f).xDir = bits f.opa 7 7 := encodeCmd_opa op f _ _ (by decide)

/-- The core of a transfer that is about to complete, from the core with its result headers in their slots. -/
theorem State.moved_core (hread : (s.claimed c x (encodeCmd op f)).onlyRead (s.headerRead c x op f))
    (hw : (v.writeOuts (s.startedEntry c x op f)).core c = ((s.claimedDests c x op f).core c).withHdrs os) :
    ∃ cs, (v.moved op c (s.startedEntry c x op f)).core c
        = { ((((s.claimedDests c x op f).core c).withHdrs os).commitDrawers (s.startedEntry c x op f)) with
            counters := cs, q := [s.startedEntry c x op f] }
      ∧ ∀ n, Tab.get 0 cs n = ((s.claimedDests c x op f).core c).counter n + transferCount op f n := by
  have hqueue : ((((s.claimedDests c x op f).core c).withHdrs os).commitDrawers (s.startedEntry c x op f)).q = [s.startedEntry c x op f] := by
    rw [Core.commitDrawers_q, Core.withHdrs_get Core.q fun _ _ => rfl, State.claimedDests_q_any hread]
  have hcount : ∀ n, ((((s.claimedDests c x op f).core c).withHdrs os).commitDrawers (s.startedEntry c x op f)).counter n
      = ((s.claimedDests c x op f).core c).counter n := fun n => by
    rw [(Core.commitDrawers_butDrawers _ _).counter, Core.withHdrs_get (Core.counter · n) fun _ _ => rfl]
  unfold State.moved transferCount
  dsimp only
  by_cases hop : op = .xput ∨ op = .xget
  · rw [if_pos hop, State.core_signalCounter, if_pos rfl, State.core_modCore, hw, State.startedEntry_cmd, encodeCmd_xCctr]
    refine ⟨_, by rw [Core.setCounter, ← hqueue], fun n => ?_⟩
    rw [Tab.get_set, hcount]
    by_cases hn : n = bits f.opa 23 16
    · rw [if_pos hn, if_pos ⟨hop, hn⟩, hn]
      rfl
    · rw [if_neg hn, if_neg fun h => hn h.2]
      exact (hcount n).trans (BitVec.add_zero _).symm
  · rw [if_neg hop, State.core_modCore, hw]
    refine ⟨_, by rw [← hqueue], fun n => ?_⟩
    rw [if_neg fun h => hop h.1]
    exact (hcount n).trans (BitVec.add_zero _).symm

/-- Where its result headers stand in their slots, a transfer that reads no peer is at its end. -/
theorem State.moved_atEnd (hread : (s.claimed c x (encodeCmd op f)).onlyRead (s.headerRead c x op f))
    (hpeer : (s.plan c x op f).peer = none)
    (hw : (v.writeOuts (s.startedEntry c x op f)).core c = ((s.claimedDests c x op f).core c).withHdrs os) :
    s.AtEnd (v.moved op c (s.startedEntry c x op f)) c x op f (s.startedEntry c x op f) os (transferCount op f) :=
  ⟨hpeer, rfl, State.moved_core hread hw⟩

theorem State.moved_other {d : Nat} (hd : d ≠ c) : (v.moved op c q).core d = (v.writeOuts q).core d := by
  unfold State.moved
  dsimp only
  split
  · rw [State.core_signalCounter, if_neg hd, State.core_modCore_ne _ _ hd]
  · rw [State.core_modCore_ne _ _ hd]

theorem State.signalCounter_rest (s : State) (c n d : Nat) : (s.signalCounter c n d).butCores s :=
  (State.modCore_rest _ c _).trans (State.perturb_rest s 3 c)

theorem State.moved_rest (v : State) (op : Opcode) (c : Nat) (q : QCmd) : (v.moved op c q).butCores (v.writeOuts q) := by
  unfold State.moved
  dsimp only
  split
  · exact (State.signalCounter_rest _ c _ _).trans (State.modCore_rest _ c _)
  · exact State.modCore_rest _ c _

theorem State.butCores.readByte (h : t.butCores s) (a : Nat) : t.readByte a = s.readByte a := by
  rw [State.readByte, h.mem, State.readByte]

theorem State.butCores.traffic (h : t.butCores s) : s.sameTraffic t := ⟨h.bars, h.ctrs, h.sigs, h.out⟩

/-! ### What the completion leaves -/

/-- What a transfer leaves once it has completed: its tags, its queue, contexts and counters, its result headers `os` in their slots, and
what goes between the parts of the device. -/
structure State.transferLeaves (s t : State) (c x : Nat) (op : Opcode) (f : CmdFields) (os : List (Nat × Nat × Header)) : Prop where
  tags : s.tagsLeft t c (s.plan c x op f)
  done : s.Done t c x f ((s.context c x).pc + 32) .running (fun n => (s.core c).counter n + transferCount op f n)
  hdrs : (t.core c).hdrs = ((s.core c).withHdrs os).hdrs
  descs : (t.core c).descs = (s.core c).descs
  tiles : (t.core c).tiles = (s.core c).tiles
  context : t.context c x = { (s.context c x) with pc := (s.context c x).pc + 32 }
  traffic : s.sameTraffic t

theorem State.AtEnd.leaves (h : s.AtEnd v c x op f q os (transferCount op f))
    (hread : (s.claimed c x (encodeCmd op f)).onlyRead (s.headerRead c x op f)) (hq : s.Quiet c x) (ht : s.Takes c x op f)
    (hs : s.Starts c x op f) (hapart : ∀ d ∈ (s.plan c x op f).dsts, ¬ d ∈ (s.plan c x op f).cons)
    (hother : ∀ d, d ≠ c → v.core d = s.core d) (htraffic : s.sameTraffic v) : s.transferLeaves (v.complete c q stOk) c x op f os where
  tags := h.tagsLeft hs hapart
  done := h.done hread hq ht hother
  hdrs := h.complete_hdrs hread
  descs := h.complete_descs hread
  tiles := h.complete_tiles hread
  context := (h.complete_context hread x).trans (if_pos rfl)
  traffic := htraffic.trans (State.complete_kept v c q h.peer).traffic

end Sys2Proof.Machine
end

section
/-!
Transfers between two sides of this device (11 R243, R245; 12 R252; 09 R193): what their plans found, the units they copy, and the rows of
XFER, XPUT, XGET and XOBJ.
-/
namespace Sys2Proof.Machine

variable {s t u v w : State} {c x : Nat} {op : Opcode} {f : CmdFields} {q : QCmd} {os : List (Nat × Nat × Header)}

/-! ### Regions -/

/-- The units of a side lie in its region (12 R252). -/
theorem Desc.region_addrs {d : Desc} {n r : Nat} (h : d.region n = some r) : ∀ a ∈ d.addrs, regionOf a = some r := by
  unfold Desc.region at h
  split at h
  · cases h
  · split at h
    case isFalse => cases h
    case isTrue hall =>
      obtain rfl := Option.some.inj h
      intro a ha
      have := List.all_eq_true.1 hall a ha
      simp only [Bool.and_eq_true, beq_iff_eq] at this
      exact this.1

theorem Desc.region_base (d : Desc) {n r : Nat} (h : d.region n = some r) : regionOf (d.base : Int) = some r := by
  unfold Desc.region at h
  split at h
  case h_1 => cases h
  case h_2 r' hr =>
    split at h
    · rw [hr, Option.some.inj h]
    · cases h

/-! ### Their plans -/

/-- The operations that move units by two descriptors. -/
def unitTransfers : List Opcode := [.xfer, .xput, .xget, .xobj]

theorem unitTransfers_engine : ∀ op ∈ unitTransfers, op.engine = 4 := by decide

/-- What a plan of a transfer on this device has found: a destination it may write; and for XOBJ its header. -/
theorem planOf_near {m : State} (hop : op ∈ unitTransfers) (hfar : m.xferFar op q.cmd = false) (hv : (planOf op m c q).v = .ok) :
    planOf op m c q = (if op = .xobj then planXobj m c q (xferDescs op q).1 (xferDescs op q).2
        else xferPlan c q (xferDescs op q).1 (xferDescs op q).2)
      ∧ m.sideOk c q.ctx (xferDescs op q).2 = true := by
  obtain ⟨cs, hplan⟩ : ∃ cs, planOf op m c q = .checks cs (planLocal m c q (xferDescs op q).1 (xferDescs op q).2
      (if op = .xobj then planXobj m c q (xferDescs op q).1 (xferDescs op q).2
        else xferPlan c q (xferDescs op q).1 (xferDescs op q).2)) := by
    simp only [unitTransfers, List.mem_cons, List.not_mem_nil, or_false] at hop
    rcases hop with rfl | rfl | rfl | rfl <;> simp only [planOf, planTransfer, hfar, Bool.false_eq_true, if_false] <;> exact ⟨_, rfl⟩
  rw [hplan] at hv ⊢
  obtain ⟨-, he1⟩ := Plan.checks_ok hv
  rw [he1] at hv ⊢
  unfold planLocal at hv ⊢
  obtain ⟨hall, he2⟩ := Plan.checks_ok hv
  have hside := hall (_, stBounds) (List.mem_cons_of_mem _ (List.mem_cons_of_mem _ (List.mem_cons_of_mem _ (List.mem_cons_self ..))))
  simp only [Bool.and_eq_true] at hside
  exact ⟨he2, hside.1.2⟩

/-- A plan behind header checks 1 to 5 that is not refused and does not wait. -/
theorem Plan.header5_ok {m : State} {h : Header} {p : Plan} (hv : (Plan.header5 m h p).v = .ok) : Plan.header5 m h p = p := by
  unfold Plan.header5 at hv ⊢
  dsimp only at hv ⊢
  split at hv
  case isTrue => cases hv
  case isFalse h1 =>
    split at hv
    case isTrue => cases hv
    case isFalse h2 =>
      split at hv
      case h_1 => cases hv
      case h_2 => rw [if_neg h1, if_neg h2]

/-- The header of an object transfer that passes: read from stacked memory, sound, for a slot; or a slot's, for stacked memory (11 R245). -/
theorem planXobj_ok {m : State} {sd dd : Desc} (hv : (planXobj m c q sd dd).v = .ok) : ∃ a, xobjHeader q = some a ∧ ∃ o,
    planXobj m c q sd dd = { xferPlan c q sd dd with lat := { (xferPlan c q sd dd).lat with outs := [o] } }
    ∧ (q.cmd.xDir = 0 → m.granuleSound a ∧ o = (c, q.cmd.xHdr, Header.ofBytes (m.readBytes a 64)))
    ∧ (q.cmd.xDir ≠ 0 → o = (96, a, (m.core c).hdr q.cmd.xHdr)) := by
  have hfin : ∀ (h : Header) (o : Nat × Nat × Header) (cs : List (Bool × Nat)),
      (Plan.checks cs { xferPlan c q sd dd with v := if h.tarnish then .tarnish stTarnished else .ok,
                                                lat := { (xferPlan c q sd dd).lat with outs := [o] } }).v = .ok →
      Plan.checks cs { xferPlan c q sd dd with v := if h.tarnish then .tarnish stTarnished else .ok,
                                               lat := { (xferPlan c q sd dd).lat with outs := [o] } }
        = { xferPlan c q sd dd with lat := { (xferPlan c q sd dd).lat with outs := [o] } } := by
    intro h o cs hv
    obtain ⟨-, he⟩ := Plan.checks_ok hv
    rw [he] at hv ⊢
    cases ht : h.tarnish with
    | true => simp [ht] at hv
    | false => rfl
  unfold planXobj at hv ⊢
  dsimp only at hv ⊢
  split at hv
  case h_1 => cases hv
  case h_2 a ha =>
    refine ⟨a, ha, ?_⟩
    obtain ⟨-, he1⟩ := Plan.checks_ok hv
    rw [he1] at hv ⊢
    split at hv
    case isTrue hdir =>
      obtain ⟨hsound, he2⟩ := Plan.checks_ok hv
      rw [if_pos hdir, he2]
      rw [he2] at hv
      have he3 := Plan.header5_ok hv
      rw [he3] at hv ⊢
      refine ⟨_, hfin _ _ _ hv, fun _ => ⟨?_, rfl⟩, fun h => absurd hdir h⟩
      simpa [State.granuleSound] using hsound _ (List.mem_cons_self ..)
    case isFalse hdir =>
      rw [if_neg hdir]
      exact ⟨_, hfin _ _ _ hv, fun h => absurd h hdir, fun _ => rfl⟩

theorem regionOf_hbm {a : Int} (h : regionOf a = some 0) : inHbm a.toNat = true := by
  unfold regionOf at h
  dsimp only at h
  split at h
  · cases h
  split at h
  case isTrue ha => exact ha
  case isFalse =>
    split at h
    · exact absurd (Option.some.inj h) (by omega)
    · cases h

/-- The side of an XOBJ that lies in stacked memory (11 R245). -/
def QCmd.xobjBody (q : QCmd) : Desc := if q.cmd.xDir = 0 then q.desc q.cmd.xSd else q.desc q.cmd.xDd

theorem xobjHeader_eq (q : QCmd) : xobjHeader q =
    if q.xobjBody.region 64 = some 0 ∧ 64 ≤ q.xobjBody.base then some (q.xobjBody.base - 64) else none := rfl

/-- An object's header in stacked memory stands below its body, which stands there too. -/
theorem xobjHeader_some {a : Nat} (h : xobjHeader q = some a) : a = q.xobjBody.base - 64 ∧ inHbm a = true := by
  rw [xobjHeader_eq] at h
  split at h
  case isFalse => cases h
  case isTrue hr =>
    have hbase : q.xobjBody.base < 0x9000000000 := of_decide_eq_true (regionOf_hbm (Desc.region_base _ hr.1))
    obtain rfl := Option.some.inj h
    exact ⟨rfl, decide_eq_true (by omega)⟩

theorem State.claimed_onlyRead (s : State) (w : Cmd) : s.onlyRead (s.claimed c x w) :=
  (s.modCore_onlyRead c _).trans (State.modCore_onlyRead _ c _)

/-- The plan of a transfer whose two sides are on this device, from what it needs to pass. -/
theorem State.plan_near (hop : op ∈ unitTransfers) (hp : s.Passes c x op f) (hfar : s.xferFar op (encodeCmd op f) = false) :
    s.plan c x op f = (if op = .xobj
        then planXobj (s.claimed c x (encodeCmd op f)) c (s.entry c x (encodeCmd op f)) (s.xferD c x op f).1 (s.xferD c x op f).2
        else xferPlan c (s.entry c x (encodeCmd op f)) (s.xferD c x op f).1 (s.xferD c x op f).2)
      ∧ (s.claimed c x (encodeCmd op f)).sideOk c x (s.xferD c x op f).2 = true := by
  refine planOf_near hop ?_ hp.2
  exact ((s.claimed_onlyRead _).xferFar ..).trans hfar

/-! ### The read of a header at the issue -/

theorem State.headerRead_of_ne_xobj (he : op.engine = 4) (hx : op ≠ .xobj) : s.headerRead c x op f = s.claimed c x (encodeCmd op f) := by
  have hnone : xobjReads (s.claimed c x (encodeCmd op f)) c (s.entry c x (encodeCmd op f)) = none := by
    unfold xobjReads
    rw [State.entry_op?]
    simp [hx]
  rw [State.headerRead, State.issueReads, if_neg (by omega), hnone]

/-- A transfer that passes has read at most a sound header (11 R245; 13 R277). -/
theorem State.headerRead_onlyRead (hop : op ∈ unitTransfers) (hp : s.Passes c x op f) (hfar : s.xferFar op (encodeCmd op f) = false) :
    (s.claimed c x (encodeCmd op f)).onlyRead (s.headerRead c x op f) := by
  have he := unitTransfers_engine op hop
  by_cases hx : op = .xobj
  case neg =>
    rw [State.headerRead_of_ne_xobj he hx]
    exact .refl _
  case pos =>
    subst hx
    obtain ⟨hplan, -⟩ := State.plan_near hop hp hfar
    have hv := hp.2
    rw [hplan, if_pos rfl] at hv
    obtain ⟨a, ha, o, -, hread, -⟩ := planXobj_ok hv
    rw [State.headerRead, State.issueReads, if_neg (by omega)]
    split
    case h_2 => exact .refl _
    case h_1 b hb =>
      unfold xobjReads at hb
      dsimp only at hb
      split at hb
      case isFalse => cases hb
      case isTrue hcond =>
        rw [ha] at hb
        have hab : a = b := by
          simp only [Option.bind_some] at hb
          split at hb
          · exact Option.some.inj hb
          · cases hb
        rw [← hab]
        exact State.hbmRead_onlyRead (xobjHeader_some ha).2 (hread hcond.2.1).1 _

/-! ### The units copied -/

theorem runTransfer_local (hop : op ∈ unitTransfers) (hfar : s.xferFar op q.cmd = false) (hremote : q.remote = 0) :
    runTransfer op s c q = runLocal op s c q := by
  simp only [unitTransfers, List.mem_cons, List.not_mem_nil, or_false] at hop
  rcases hop with rfl | rfl | rfl | rfl <;> simp [runTransfer, hfar, hremote]

/-- The units of a transfer's sources, each with the address it goes to. -/
def State.unitsOf (s : State) (d : Desc × Desc) : List (Int × List Byte) := d.2.addrs.zip (d.1.addrs.map fun a => s.readBytes a.toNat 64)

theorem State.copied_eq (s : State) (d : Desc × Desc) : s.copied d = s.writeUnits (s.unitsOf d) := rfl

/-- A started transfer with sound sources reads its units as they stood before its issue, and what it writes is theirs. -/
theorem State.runLocal_eq (hread : (s.claimed c x (encodeCmd op f)).onlyRead (s.headerRead c x op f)) (hop : op ∈ unitTransfers)
    (hfar : s.xferFar op (encodeCmd op f) = false) (hclean : s.readsClean (bits f.opa 25 24) (s.xferD c x op f).1.addrs) :
    ∃ g, s.onlyRead g ∧ g.cores = (s.claimedDests c x op f).cores
      ∧ ∀ v, g.scatter c ((s.core c).serial + 1) (bits f.opa 25 24) (s.unitsOf (s.xferD c x op f)) = { st := v } →
        runTransfer op (s.claimedDests c x op f) c (s.startedEntry c x op f) = v.finishTransfer c (s.startedEntry c x op f) := by
  have hstart := State.claimedDests_onlyRead hread
  have hsound : ∀ a ∈ (s.xferD c x op f).1.addrs, (s.claimedDests c x op f).unitSound a := fun a ha =>
    (hstart.unitSound a).2 (State.unitSound_of_gather hclean a ha)
  obtain ⟨g, hg, hgread, hcores⟩ := State.gather_of_sound (bits f.opa 25 24) hsound
  have hunits : (s.xferD c x op f).1.addrs.map (fun a => (s.claimedDests c x op f).readBytes a.toNat 64)
      = (s.xferD c x op f).1.addrs.map fun a => s.readBytes a.toNat 64 := List.map_congr_left fun a _ => hstart.readBytes _ _
  rw [hunits] at hg
  refine ⟨g, hstart.trans hgread, hcores, fun v hv => ?_⟩
  rw [runTransfer_local hop (by rw [hstart.xferFar, State.startedEntry_cmd, hfar]) rfl]
  unfold runLocal
  dsimp only
  rw [State.startedEntry_cmd, encodeCmd_xHint, State.startedEntry_id, show xferDescs op (s.startedEntry c x op f) = s.xferD c x op f from rfl, hg]
  dsimp only
  rw [show (s.xferD c x op f).2.addrs.zip _ = s.unitsOf (s.xferD c x op f) from rfl, hv]
  rfl

/-- A transfer into stacked memory or into its own scratchpad has copied its units when it is about to complete (12 R252). -/
theorem State.runTransfer_near (hop : op ∈ unitTransfers) (hx : LocalXfer op s c x f) :
    ∃ v, runTransfer op (s.claimedDests c x op f) c (s.startedEntry c x op f) = v.finishTransfer c (s.startedEntry c x op f)
      ∧ v.cores = (s.claimedDests c x op f).cores ∧ s.sameTraffic v ∧ ∀ a, v.readByte a = (s.copied (s.xferD c x op f)).readByte a := by
  obtain ⟨hp, -, hfar, hclean, hregion⟩ := hx
  obtain ⟨g, hg, hcores, hrun⟩ := State.runLocal_eq (State.headerRead_onlyRead hop hp hfar) hop hfar hclean
  have hdest : ∀ {r : Nat}, (s.xferD c x op f).2.region 64 = some r → ∀ e ∈ s.unitsOf (s.xferD c x op f), regionOf e.1 = some r :=
    fun hr e he => Desc.region_addrs hr _ (List.of_mem_zip he).1
  have hplace : (∀ e ∈ s.unitsOf (s.xferD c x op f), regionOf e.1 = some 0 ∧ g.stackOnline e.1.toNat = true)
      ∨ ∀ e ∈ s.unitsOf (s.xferD c x op f), regionOf e.1 = some (1 + c) := by
    refine hregion.imp (fun hr e he => ⟨hdest hr e he, ?_⟩) fun hr => hdest hr
    obtain ⟨-, hside⟩ := State.plan_near hop hp hfar
    rw [State.sideOk, hr] at hside
    have honline := (Bool.and_eq_true_iff.1 (List.all_eq_true.1 hside _ (List.of_mem_zip he).1)).2
    have hin := regionOf_hbm (hdest hr e he)
    rwa [(s.claimed_onlyRead _).stackOnline hin, ← hg.stackOnline hin] at honline
  obtain ⟨v, hv, hwrote, hbytes⟩ := State.scatter_near (id := (s.core c).serial + 1) (hint := bits f.opa 25 24) hplace
  refine ⟨v, hrun v hv, hwrote.cores.trans hcores, hg.traffic.trans hwrote.traffic, fun a => ?_⟩
  rw [hbytes, State.copied_eq]
  exact State.readByte_foldl_writes (fun _ _ _ => rfl) _ (fun b => by rw [State.readByte, hg.mem, State.readByte]) a

/-! ### The rows -/

/-- The result headers of a command: `os` for slots of core `c`, and the rest for stacked memory. -/
structure QCmd.headersTo (q : QCmd) (c : Nat) (os : List (Nat × Nat × Header)) : Prop where
  core : ∀ v, (State.writeOuts v q).core c = (v.core c).withHdrs os
  other : ∀ v d, d ≠ c → (State.writeOuts v q).core d = v.core d
  traffic : ∀ v, State.sameTraffic v (v.writeOuts q)

theorem QCmd.headersTo_slots (hc : c < 96) (h : ∀ o ∈ q.lat.outs, o.1 = c) : q.headersTo c q.lat.outs where
  core v := (v.writeOuts_frame hc h).1
  other v := (v.writeOuts_frame hc h).2.1
  traffic v := by
    have hrest := (v.writeOuts_frame hc h).2.2
    exact ⟨hrest.get State.bars fun _ _ => rfl, hrest.get State.ctrs fun _ _ => rfl, hrest.get State.sigs fun _ _ => rfl,
      hrest.get State.out fun _ _ => rfl⟩

/-- A header for stacked memory is written below its object (11 R245). -/
theorem State.writeOuts_stacked {a : Nat} {h : Header} (hq : q.lat.outs = [(96, a, h)]) (v : State) :
    v.writeOuts q = v.hbmStore a (q.cmd.opa 25 24) h.bytes := by
  rw [State.writeOuts, hq, List.foldl_cons, List.foldl_nil, State.putOut, if_neg (show ¬ 96 < 96 by decide)]

theorem QCmd.headersTo_stacked {a : Nat} {h : Header} (hq : q.lat.outs = [(96, a, h)]) : q.headersTo c [] where
  core v := by
    rw [State.writeOuts_stacked hq, State.core_congr (v.hbmStore_wrote ..).1.cores]
    rfl
  other v d _ := by rw [State.writeOuts_stacked hq, State.core_congr (v.hbmStore_wrote ..).1.cores]
  traffic v := by
    rw [State.writeOuts_stacked hq]
    exact (v.hbmStore_wrote ..).1.traffic

/-- A started command consumes none of the drawers it writes: those are FULL, these are not (09 R189). -/
theorem State.Starts.apart (hs : s.Starts c x op f) (hcons : ∀ d ∈ (s.plan c x op f).cons, d ∈ (s.plan c x op f).srcs) :
    ∀ d ∈ (s.plan c x op f).dsts, ¬ d ∈ (s.plan c x op f).cons := by
  intro d hd hc
  have hsource : (c, d) ∈ (s.startedEntry c x op f).sources c :=
    List.mem_append_left _ (List.mem_map.2 ⟨d, hcons d hc, rfl⟩)
  have hfull := State.ready_not_torn _ (List.all_eq_true.1 hs.sources _ hsource)
  rcases State.open_tag _ (Bool.and_eq_true_iff.1 (List.all_eq_true.1 hs.dests d hd)).1 with h | h
  · rw [h] at hfull
    cases hfull
  · rw [h] at hfull
    cases hfull

theorem State.plan_near_drawers (hop : op ∈ unitTransfers) (hp : s.Passes c x op f) (hfar : s.xferFar op (encodeCmd op f) = false) :
    (s.plan c x op f).peer = none ∧ ∀ d ∈ (s.plan c x op f).cons, d ∈ (s.plan c x op f).srcs := by
  have hdrawers : ∀ (q : QCmd) (sd dd : Desc), ∀ d ∈ (xferPlan c q sd dd).cons, d ∈ (xferPlan c q sd dd).srcs := fun q sd dd d hd => by
    unfold xferPlan at hd ⊢
    dsimp only at hd ⊢
    split at hd
    · exact hd
    · exact absurd hd List.not_mem_nil
  obtain ⟨hplan, -⟩ := State.plan_near hop hp hfar
  have hv := hp.2
  rw [hplan] at hv ⊢
  split at hv
  case isTrue hx =>
    obtain ⟨a, -, o, ho, -⟩ := planXobj_ok hv
    rw [if_pos hx, ho]
    exact ⟨rfl, hdrawers _ (s.xferD c x op f).1 (s.xferD c x op f).2⟩
  case isFalse hx =>
    rw [if_neg hx]
    exact ⟨rfl, hdrawers _ _ _⟩

/-- The row of a transfer into stacked memory or into its own scratchpad: its units copied, its result headers written, its tags set, and
its completion counted. -/
theorem State.Quiet.near_row (hq : s.Quiet c x) (ht : s.Takes c x op f) (hop : op ∈ unitTransfers) (hx : LocalXfer op s c x f)
    (hos : (s.startedEntry c x op f).headersTo c os) :
    s.transferLeaves (s.runWord c x (encodeCmd op f)) c x op f os
      ∧ ∃ v : State, (∀ a, v.readByte a = (s.copied (s.xferD c x op f)).readByte a)
        ∧ ∀ a, (s.runWord c x (encodeCmd op f)).readByte a = (v.writeOuts (s.startedEntry c x op f)).readByte a := by
  obtain ⟨hp, hs, hfar, -, -⟩ := id hx
  have hread := State.headerRead_onlyRead hop hp hfar
  obtain ⟨hpeer, hcons⟩ := State.plan_near_drawers hop hp hfar
  obtain ⟨v, hrun, hcores, htraffic, hbytes⟩ := State.runTransfer_near hop hx
  have hend : s.AtEnd (v.moved op c (s.startedEntry c x op f)) c x op f (s.startedEntry c x op f) os (transferCount op f) :=
    State.moved_atEnd hread hpeer (by rw [hos.core, State.core_congr hcores])
  have hother : ∀ d, d ≠ c → (v.moved op c (s.startedEntry c x op f)).core d = s.core d := fun d hd => by
    rw [State.moved_other hd, hos.other v d hd, State.core_congr hcores, State.claimedDests_other_any hd]
  have hrest := State.moved_rest v op c (s.startedEntry c x op f)
  rw [hq.runWord_transfer hread ht hp (unitTransfers_engine op hop) hs (hrun.trans (State.finishTransfer_eq v c (State.entry_op ..))) hend.complete_q]
  exact ⟨hend.leaves hread hq ht hs (hs.apart hcons) hother ((htraffic.trans (hos.traffic v)).trans hrest.traffic),
    v, hbytes, fun a => ((State.complete_kept _ c _ hend.peer).mem a).trans (hrest.readByte a)⟩

end Sys2Proof.Machine
end

section
/-!
The rows of XFER, XPUT, XGET and XOBJ on this device, as the obligation states them (11 R243, R245; 12 R252; 09 R193; 14 R304).
-/
namespace Sys2Proof.Machine

variable {s t u v w : State} {c x : Nat} {op : Opcode} {f : CmdFields} {q : QCmd} {os : List (Nat × Nat × Header)}

/-! ### XFER, XPUT and XGET -/

/-- A transfer of units alone has no result header. -/
theorem State.startedEntry_outs_of_ne_xobj (hop : op ∈ unitTransfers) (hx : op ≠ .xobj) (hp : s.Passes c x op f)
    (hfar : s.xferFar op (encodeCmd op f) = false) : (s.startedEntry c x op f).lat.outs = [] := by
  obtain ⟨hplan, -⟩ := State.plan_near hop hp hfar
  obtain ⟨houts, -⟩ := State.startedEntry_lat (s := s) (c := c) (x := x) (f := f) op
  rw [houts, hplan, if_neg hx]
  rfl

theorem State.writeOuts_none (hq : q.lat.outs = []) (v : State) : v.writeOuts q = v := by
  rw [State.writeOuts, hq]
  rfl

theorem QCmd.headersTo_none (hc : c < 96) (hq : q.lat.outs = []) : q.headersTo c [] := by
  have h := QCmd.headersTo_slots (q := q) hc fun o ho => absurd ho (by simp [hq])
  rwa [hq] at h

theorem localRow_of_units {mk : Nat → Nat → CmdFields → Instr} (hmk : ∀ c x f s, exec (mk c x f) s = runRow op c x f s)
    (hop : op ∈ unitTransfers) (hx : op ≠ .xobj) : LocalRow mk op := by
  intro s c x f hq ht hpre
  obtain ⟨hp, -, hfar, -, -⟩ := id hpre
  have houts := State.startedEntry_outs_of_ne_xobj hop hx hp hfar
  obtain ⟨hleaves, v, hv, hbytes⟩ := hq.near_row ht hop hpre (QCmd.headersTo_none hq.core houts)
  rw [State.writeOuts_none houts] at hbytes
  exact ⟨_, (hmk c x f s).trans hq.runRow_eq, fun a => (hbytes a).trans (hv a), hleaves.tags, hleaves.done, hleaves.hdrs, hleaves.descs,
    hleaves.tiles, hleaves.context, hleaves.traffic.out, hleaves.traffic.sigs⟩

/-! ### XOBJ -/

theorem xobj_mem_unitTransfers : Opcode.xobj ∈ unitTransfers := by decide

/-- A transfer that is neither XPUT nor XGET adds to no counter. -/
theorem State.transferLeaves.done_plain {r : State} (h : s.transferLeaves r c x op f os) (hop : ¬ (op = .xput ∨ op = .xget)) :
    s.Done r c x f ((s.context c x).pc + 32) .running (s.core c).counter := by
  have hcount : (fun n => (s.core c).counter n + transferCount op f n) = (s.core c).counter := funext fun n => by
    rw [transferCount, if_neg fun h => hop h.1]
    exact BitVec.add_zero _
  rw [← hcount]
  exact h.done

/-- The result header of an XOBJ that passes: read below its source, or taken from its slot (11 R245). -/
theorem State.startedEntry_outs_xobj (hx : LocalXfer .xobj s c x f) :
    (bits f.opa 7 7 = 0 → (s.startedEntry c x .xobj f).lat.outs
      = [(c, bits f.opa 15 8, Header.ofBytes (s.readBytes ((s.xferD c x .xobj f).1.base - 64) 64))])
    ∧ (bits f.opa 7 7 = 1 → (s.startedEntry c x .xobj f).lat.outs
      = [(96, (s.xferD c x .xobj f).2.base - 64, (s.core c).hdr (bits f.opa 15 8))]) := by
  obtain ⟨hp, -, hfar, -, -⟩ := hx
  obtain ⟨hplan, -⟩ := State.plan_near xobj_mem_unitTransfers hp hfar
  obtain ⟨houts, -⟩ := State.startedEntry_lat (s := s) (c := c) (x := x) (f := f) .xobj
  have hv := hp.2
  rw [hplan, if_pos rfl] at hv
  obtain ⟨a, ha, o, ho, hread, hput⟩ := planXobj_ok hv
  have hxdir : (s.entry c x (encodeCmd .xobj f)).cmd.xDir = bits f.opa 7 7 := encodeCmd_xDir .xobj f
  have hxhdr : (s.entry c x (encodeCmd .xobj f)).cmd.xHdr = bits f.opa 15 8 := encodeCmd_xHdr .xobj f
  rw [hxdir] at hread hput
  rw [houts, hplan, if_pos rfl, ho]
  have hbase : a = (if bits f.opa 7 7 = 0 then (s.xferD c x .xobj f).1 else (s.xferD c x .xobj f).2).base - 64 := by
    rw [(xobjHeader_some ha).1, QCmd.xobjBody, hxdir]
    rfl
  refine ⟨fun hdir => ?_, fun hdir => ?_⟩
  · rw [(hread hdir).2, hxhdr, hbase, if_pos hdir, (s.claimed_onlyRead _).readBytes]
  · rw [hput (by omega), hxhdr, hbase, if_neg (by omega), State.hdr_claimed]

/-- XOBJ from stacked memory: the body copied, the header read into its slot (11 R245). -/
theorem State.Quiet.xobj_get_row (hq : s.Quiet c x) (ht : s.Takes c x .xobj f) (hx : LocalXfer .xobj s c x f) (hdir : bits f.opa 7 7 = 0) :
    s.transferLeaves (s.runWord c x (encodeCmd .xobj f)) c x .xobj f
        [(c, bits f.opa 15 8, Header.ofBytes (s.readBytes ((s.xferD c x .xobj f).1.base - 64) 64))]
      ∧ ∀ a, (s.runWord c x (encodeCmd .xobj f)).readByte a = (s.copied (s.xferD c x .xobj f)).readByte a := by
  have houts := (State.startedEntry_outs_xobj hx).1 hdir
  have hslots : ∀ o ∈ (s.startedEntry c x .xobj f).lat.outs, o.1 = c := by
    rw [houts]
    simp
  obtain ⟨hleaves, v, hv, hbytes⟩ := hq.near_row ht xobj_mem_unitTransfers hx (QCmd.headersTo_slots hq.core hslots)
  rw [houts] at hleaves
  exact ⟨hleaves, fun a => (hbytes a).trans (((v.writeOuts_frame hq.core hslots).2.2.get (State.readByte · a) fun _ _ => rfl).trans (hv a))⟩

/-- XOBJ to stacked memory: the body copied, and then the header below it (11 R245). -/
theorem State.Quiet.xobj_put_row (hq : s.Quiet c x) (ht : s.Takes c x .xobj f) (hx : LocalXfer .xobj s c x f) (hdir : bits f.opa 7 7 = 1) :
    s.transferLeaves (s.runWord c x (encodeCmd .xobj f)) c x .xobj f []
      ∧ ∀ a, (s.runWord c x (encodeCmd .xobj f)).readByte a = ((s.copied (s.xferD c x .xobj f)).writeBytes
          ((s.xferD c x .xobj f).2.base - 64) ((s.core c).hdr (bits f.opa 15 8)).bytes).readByte a := by
  have houts := (State.startedEntry_outs_xobj hx).2 hdir
  obtain ⟨hleaves, v, hv, hbytes⟩ := hq.near_row ht xobj_mem_unitTransfers hx (QCmd.headersTo_stacked houts)
  refine ⟨hleaves, fun a => ?_⟩
  rw [hbytes, State.writeOuts_stacked houts, State.readByte_hbmStore]
  exact State.readByte_writeBytes_congr hv _ _ a

/-! ### XFER into a window -/

/-- What the state before a transfer meets of another core's windows, its gathering state meets too. -/
theorem State.onlyRead.sameOwner {o : Nat} (h : s.onlyRead t) (hcore : t.core o = s.core o) : s.sameOwner t o :=
  ⟨hcore, fun w _ => h.win o w, h.myDev, h.assay⟩

/-- XFER into a window of another core: its writes land there, and it completes (09 R193). -/
theorem State.Quiet.xfer_window_row (hq : s.Quiet c x) (ht : s.Takes c x .xfer f) (hp : s.Passes c x .xfer f) (hs : s.Starts c x .xfer f)
    (hfar : s.xferFar .xfer (encodeCmd .xfer f) = false) (hclean : s.readsClean (bits f.opa 25 24) (s.xferD c x .xfer f).1.addrs) {o : Nat}
    (ho : o ≠ c) (hr : (s.xferD c x .xfer f).2.region 64 = some (1 + o))
    (hgo : ¬ (s.scatter c ((s.core c).serial + 1) (bits f.opa 25 24) (s.unitsOf (s.xferD c x .xfer f))).ended) :
    (∀ a, (s.runWord c x (encodeCmd .xfer f)).readByte a = (s.copied (s.xferD c x .xfer f)).readByte a)
      ∧ ((s.runWord c x (encodeCmd .xfer f)).core c).q = []
      ∧ (s.runWord c x (encodeCmd .xfer f)).context c x = { (s.context c x) with pc := (s.context c x).pc + 32 }
      ∧ ∀ d, d ≠ c → d ≠ o → (s.runWord c x (encodeCmd .xfer f)).core d = s.core d := by
  have hop : Opcode.xfer ∈ unitTransfers := by decide
  have hread := State.headerRead_onlyRead hop hp hfar
  have houts := State.startedEntry_outs_of_ne_xobj hop (by decide) hp hfar
  obtain ⟨hpeer, -⟩ := State.plan_near_drawers hop hp hfar
  obtain ⟨g, hg, hcores, hrun⟩ := State.runLocal_eq hread hop hfar hclean
  have hgcore : ∀ d, d ≠ c → g.core d = s.core d := fun d hd => by rw [State.core_congr hcores, State.claimedDests_other_any hd]
  have hdest : ∀ e ∈ s.unitsOf (s.xferD c x .xfer f), regionOf e.1 = some (o + 1) := fun e he => by
    rw [Nat.add_comm]
    exact Desc.region_addrs hr _ (List.of_mem_zip he).1
  obtain ⟨v, hv, hbytes, hothers⟩ := (hg.sameOwner (hgcore o ho)).scatter ho hdest hgo
  have hend : s.AtEnd (v.moved .xfer c (s.startedEntry c x .xfer f)) c x .xfer f (s.startedEntry c x .xfer f) [] (transferCount .xfer f) :=
    State.moved_atEnd hread hpeer (by
      rw [State.writeOuts_none houts, hothers c (Ne.symm ho), State.core_congr hcores]
      rfl)
  have hrest := State.moved_rest v .xfer c (s.startedEntry c x .xfer f)
  rw [State.writeOuts_none houts] at hrest
  rw [hq.runWord_transfer hread ht hp rfl hs ((hrun v hv).trans (State.finishTransfer_eq v c (State.entry_op ..))) hend.complete_q]
  refine ⟨fun a => ?_, hend.complete_q, (hend.complete_context hread x).trans (if_pos rfl), fun d hd hdo => ?_⟩
  · rw [(State.complete_kept _ c _ hpeer).mem, hrest.readByte, hbytes, State.copied_eq]
    exact State.readByte_foldl_writes (fun _ _ _ => rfl) _ (fun b => by rw [State.readByte, hg.mem, State.readByte]) a
  · rw [State.complete_other hpeer hd, State.moved_other hd, State.writeOuts_none houts, hothers d hdo, hgcore d hd]

end Sys2Proof.Machine
end

section
/-!
QREAD copies whole drawers of a peer of its quad (09 R197), and the obligation about local transfers.
-/
namespace Sys2Proof.Machine

variable {s t u v w : State} {c x p : Nat} {op : Opcode} {f : CmdFields} {q : QCmd} {os : List (Nat × Nat × Header)}

/-! ### Drawers copied from another core -/

/-- Drawer `e.1` of core `p` copied to drawer `e.2` of core `c`. -/
def State.copyDrawer (p c : Nat) (s : State) (e : Nat × Nat) : State :=
  s.store (drawerAddr c e.2) (s.readBytes (drawerAddr p e.1) drawerBytes)

/-- `n` drawers of core `p` from `src` copied in order to those of core `c` from `dst`. -/
def State.copyDrawers (s : State) (p c src dst n : Nat) : State := ((drawerRun src n).zip (drawerRun dst n)).foldl (State.copyDrawer p c) s

theorem drawerRun_succ (d n : Nat) : drawerRun d (n + 1) = drawerRun d n ++ [n + d] := by
  rw [drawerRun, List.range_succ, List.map_append, drawerRun]
  rfl

theorem State.copyDrawers_succ (s : State) (p c src dst n : Nat) :
    s.copyDrawers p c src dst (n + 1) = State.copyDrawer p c (s.copyDrawers p c src dst n) (src + n, dst + n) := by
  have hlen : (drawerRun src n).length = (drawerRun dst n).length := by simp [drawerRun]
  rw [State.copyDrawers, drawerRun_succ, drawerRun_succ, List.zip_append hlen, List.foldl_append, Nat.add_comm n src, Nat.add_comm n dst]
  rw [List.zip_cons_cons, List.zip_nil_right, List.foldl_cons, List.foldl_nil, State.copyDrawers]

theorem State.readBytes_length (s : State) (a n : Nat) : (s.readBytes a n).length = n := by simp [State.readBytes]

/-- A byte of a drawer. -/
def inDrawer (c d a : Nat) : Prop := drawerAddr c d ≤ a ∧ a < drawerAddr c d + drawerBytes

/-- Drawers of different cores share no byte, and neither do two drawers of one core. -/
theorem inDrawer_apart {c p d e a : Nat} (hd : d < 288) (he : e < 288) (h : c ≠ p ∨ d ≠ e) (ha : inDrawer c d a) : ¬ inDrawer p e a := by
  simp only [inDrawer, drawerAddr, spBase, drawerBytes] at ha ⊢
  rcases Nat.lt_trichotomy c p with hcp | hcp | hcp
  · omega
  · rcases h with h | h <;> omega
  · omega

theorem inDrawer_add {c d i : Nat} (hi : i < drawerBytes) : inDrawer c d (drawerAddr c d + i) := ⟨by omega, by omega⟩

/-- `n` drawers of core `c` from `dst` hold in `t` what those of core `p` from `src` held in `s`, and the rest of memory stands. -/
structure State.drawersCopied (s t : State) (p c src dst n : Nat) : Prop where
  copied : ∀ i, i < n → t.readBytes (drawerAddr c (dst + i)) drawerBytes = s.readBytes (drawerAddr p (src + i)) drawerBytes
  rest : ∀ a, (∀ i, i < n → ¬ inDrawer c (dst + i) a) → t.readByte a = s.readByte a

theorem State.drawersCopied.congr {src dst n : Nat} (h : s.drawersCopied t p c src dst n) (hs : ∀ a, u.readByte a = s.readByte a)
    (ht : ∀ a, v.readByte a = t.readByte a) : u.drawersCopied v p c src dst n where
  copied i hi := by
    rw [State.readBytes_congr fun j _ => ht _, h.copied i hi, State.readBytes_congr fun j _ => hs _]
  rest a ha := by rw [ht, hs, h.rest a ha]

/-- The copy of drawers of another core: each as it stood, and nothing else (09 R197). -/
theorem State.copyDrawers_spec (s : State) (hp : c ≠ p) {src dst n : Nat} (hsrc : src + n ≤ 288) (hdst : dst + n ≤ 288) :
    s.drawersCopied (s.copyDrawers p c src dst n) p c src dst n := by
  induction n with
  | zero => exact ⟨fun _ hi => absurd hi (Nat.not_lt_zero _), fun _ _ => rfl⟩
  | succ n ih =>
    obtain ⟨hcopied, hrest⟩ := ih (by omega) (by omega)
    generalize hm : s.copyDrawers p c src dst n = m at hcopied hrest
    have hlast : m.readBytes (drawerAddr p (src + n)) drawerBytes = s.readBytes (drawerAddr p (src + n)) drawerBytes :=
      State.readBytes_congr fun i hi => hrest _ fun j hj => inDrawer_apart (by omega) (by omega) (.inl (Ne.symm hp)) (inDrawer_add hi)
    have hout : ∀ a, ¬ inDrawer c (dst + n) a → (s.copyDrawers p c src dst (n + 1)).readByte a = m.readByte a := fun a ha => by
      rw [State.copyDrawers_succ, hm, State.copyDrawer, State.readByte_store, State.readBytes_length]
      exact if_neg ha
    refine ⟨fun i hi => ?_, fun a ha => ?_⟩
    · by_cases hin : i = n
      · have hself := m.readBytes_store_self (drawerAddr c (dst + n)) (m.readBytes (drawerAddr p (src + n)) drawerBytes)
        rw [State.readBytes_length] at hself
        rw [hin, State.copyDrawers_succ, hm, State.copyDrawer, hself, hlast]
      · rw [← hcopied i (by omega)]
        exact State.readBytes_congr fun j hj => hout _ (inDrawer_apart (by omega) (by omega) (.inr (by omega)) (inDrawer_add hj))
    · rw [hout a (ha n (by omega)), hrest a fun i hi => ha i (by omega)]

theorem State.copyDrawers_storesOnly (s : State) (p c src dst n : Nat) : s.storesOnly (s.copyDrawers p c src dst n) :=
  foldl_storesOnly _ (fun _ _ => State.store_storesOnly _ _ _) _ s

/-! ### The plan and the run -/

/-- What the plan of a QREAD that passes has found: another core, and two runs of drawers. -/
theorem State.plan_qread (hp : s.Passes c x .qread f) :
    s.plan c x .qread f = { dsts := drawerRun (bits f.w2 53 46) (bits f.w2 45 40),
                            peer := some (c / 4 * 4 + bits f.w2 63 62, drawerRun (bits f.w2 61 54) (bits f.w2 45 40)) }
      ∧ c / 4 * 4 + bits f.w2 63 62 ≠ c ∧ bits f.w2 61 54 + bits f.w2 45 40 ≤ 288 ∧ bits f.w2 53 46 + bits f.w2 45 40 ≤ 288 := by
  have hplan : s.plan c x .qread f = planQread (s.claimed c x (encodeCmd .qread f)) c (s.entry c x (encodeCmd .qread f)) := rfl
  have hv := hp.2
  rw [hplan] at hv ⊢
  obtain ⟨hall, he⟩ := Plan.checks_ok hv
  have hshape := hall (_, stShape) (List.mem_cons_of_mem _ (List.mem_cons_self ..))
  obtain ⟨hne, -, hcount⟩ := of_decide_eq_true hshape
  have hcount' : bits f.w2 45 40 ≤ 32 := hcount
  have hsrc : bits f.w2 61 54 < 2 ^ (61 + 1 - 54) := Nat.mod_lt _ (by decide)
  have hdst : bits f.w2 53 46 < 2 ^ (53 + 1 - 46) := Nat.mod_lt _ (by decide)
  exact ⟨he, hne, by omega, by omega⟩

theorem runQread_eq {src dst n : Nat} {d : QCmd} (hpeer : d.peer = some (p, drawerRun src n)) (hdst : d.dsts = drawerRun dst n)
    (hparity : s.parityHit p (drawerRun src n) = none) : runQread s c d = (s.copyDrawers p c src dst n).finishTransfer c d := by
  unfold runQread
  rw [hpeer]
  dsimp only
  rw [hparity, hdst]
  rfl

/-! ### Completion beside a peer -/

/-- A command that read a peer none of whose drawers is closing completes as one that read none. -/
theorem State.complete_peer {ds : List Nat} (hpeer : q.peer = some (p, ds)) (hq : (t.core c).q = [q]) (hp : p ≠ c)
    (hclosing : ∀ d, ((t.core p).drawer d).closing = false) : t.complete c q stOk
      = (t.modCmd c q.id fun _ => { q with peer := none }).complete c { q with peer := none } stOk := by
  have hdrop : (t.modCmd c q.id fun _ => { q with peer := none }).modCore c (fun k => k.dropCmd q.id) = t.modCore c fun k => k.dropCmd q.id := by
    rw [State.modCmd, State.modCore_modCore, State.modCore, State.modCore]
    simp [Core.dropCmd, Core.modCmd, modFirst, hq]
  have hdropped : (t.modCmd c q.id fun _ => { q with peer := none }).dropped c { q with peer := none } stOk = t.dropped c q stOk := by
    rw [State.dropped, hdrop]
    rfl
  have hother : ∀ d, (((t.dropped c q stOk).settleClosing c).core p).drawer d = (t.core p).drawer d := fun d => by
    rw [State.settleClosing_other _ hp, State.dropped_other _ _ _ hp]
  have hself : t.complete c q stOk = ((t.dropped c q stOk).settleClosing c).settleClosing p := by
    unfold State.complete
    simp only [hpeer, show halting stOk = false by decide, show ¬ stOk = stAborted by decide, Bool.false_eq_true, if_false,
      State.statusEvent_ok]
    rfl
  rw [hself, State.settleClosing_none _ p fun d => by rw [hother, hclosing], State.complete_ok _ c { q with peer := none } rfl, hdropped]

/-- Where its result headers stand in their slots, a transfer that read a peer, none of whose drawers is closing, is at its end: it completes
as one that read none. -/
theorem State.moved_atEnd_peer {ds : List Nat} (hread : (s.claimed c x (encodeCmd op f)).onlyRead (s.headerRead c x op f))
    (hpeer : (s.startedEntry c x op f).peer = some (p, ds)) (hp : p ≠ c)
    (hclosing : ∀ d, (((v.writeOuts (s.startedEntry c x op f)).core p).drawer d).closing = false)
    (hw : (v.writeOuts (s.startedEntry c x op f)).core c = ((s.claimedDests c x op f).core c).withHdrs os) :
    ∃ r q, (v.moved op c (s.startedEntry c x op f)).complete c (s.startedEntry c x op f) stOk = r.complete c q stOk
      ∧ s.AtEnd r c x op f q os (transferCount op f) ∧ r.butCores (v.writeOuts (s.startedEntry c x op f))
      ∧ ∀ d, d ≠ c → r.core d = (v.writeOuts (s.startedEntry c x op f)).core d := by
  obtain ⟨cs, hcore, hcounts⟩ := State.moved_core (v := v) hread hw
  refine ⟨_, _, State.complete_peer hpeer (by rw [hcore]) hp fun d => by rw [State.moved_other hp, hclosing], ⟨rfl, rfl, cs, ?_, hcounts⟩,
    (State.modCore_rest _ c _).trans (State.moved_rest v op c _), fun d hd => ?_⟩
  · rw [State.modCmd, State.core_modCore, hcore]
    simp [Core.modCmd, modFirst]
  · rw [State.modCmd, State.core_modCore_ne _ _ hd, State.moved_other hd]

/-- QREAD's row: drawers of the peer copied as they stood, and its completion as of a command that read no peer (09 R197). -/
theorem State.Quiet.qread_row {src dst n : Nat} (hq : s.Quiet c x) (ht : s.Takes c x .qread f) (hp : s.Passes c x .qread f)
    (hs : s.Starts c x .qread f) (hplan : s.plan c x .qread f = { dsts := drawerRun dst n, peer := some (p, drawerRun src n) }) (hne : p ≠ c)
    (hsrc : src + n ≤ 288) (hdst : dst + n ≤ 288) (hparity : s.parityHit p (drawerRun src n) = none)
    (hclosing : ∀ d, ((s.core p).drawer d).closing = false) :
    s.transferLeaves (s.runWord c x (encodeCmd .qread f)) c x .qread f []
      ∧ s.drawersCopied (s.runWord c x (encodeCmd .qread f)) p c src dst n := by
  have hread : (s.claimed c x (encodeCmd .qread f)).onlyRead (s.headerRead c x .qread f) := by
    rw [State.headerRead_of_ne_xobj rfl (by decide)]
    exact .refl _
  have hstart := State.claimedDests_onlyRead hread
  have hpeer : (s.startedEntry c x .qread f).peer = some (p, drawerRun src n) := congrArg Plan.peer hplan
  have hdsts : (s.startedEntry c x .qread f).dsts = drawerRun dst n := congrArg Plan.dsts hplan
  have houts : (s.startedEntry c x .qread f).lat.outs = [] := congrArg (fun v : Plan => v.lat.outs) hplan
  have hapart : ∀ d ∈ (s.plan c x .qread f).dsts, ¬ d ∈ (s.plan c x .qread f).cons := fun d _ => by
    rw [hplan]
    exact List.not_mem_nil
  obtain ⟨m, hm⟩ : ∃ m, m = (s.claimedDests c x .qread f).copyDrawers p c src dst n := ⟨_, rfl⟩
  have hcopied := (s.claimedDests c x .qread f).copyDrawers_spec (Ne.symm hne) hsrc hdst
  have hwrote := ((s.claimedDests c x .qread f).copyDrawers_storesOnly p c src dst n).wrote
  rw [← hm] at hcopied hwrote
  have hrun : runTransfer .qread (s.claimedDests c x .qread f) c (s.startedEntry c x .qread f)
      = (m.moved .qread c (s.startedEntry c x .qread f)).complete c (s.startedEntry c x .qread f) stOk := by
    rw [← State.finishTransfer_eq m c (State.entry_op ..), hm, ← runQread_eq hpeer hdsts ((hstart.parityHit ..).trans hparity)]
    rfl
  have hout := State.writeOuts_none houts m
  have hcores : ∀ d, d ≠ c → m.core d = s.core d := fun d hd => by rw [State.core_congr hwrote.cores, State.claimedDests_other_any hd]
  obtain ⟨r, q, hcomplete, hend, hrest, hother⟩ := State.moved_atEnd_peer (v := m) (os := []) hread hpeer hne
    (fun d => by rw [hout, hcores p hne, hclosing]) (by rw [hout, State.core_congr hwrote.cores]; rfl)
  rw [hout] at hrest hother
  rw [hq.runWord_transfer hread ht hp rfl hs (hrun.trans hcomplete) hend.complete_q]
  refine ⟨hend.leaves hread hq ht hs hapart (fun d hd => (hother d hd).trans (hcores d hd))
    ((hstart.traffic.trans hwrote.traffic).trans hrest.traffic), hcopied.congr (fun a => ?_) fun a => ?_⟩
  · rw [State.readByte, ← hstart.mem, State.readByte]
  · exact ((State.complete_kept r c _ hend.peer).mem a).trans (hrest.readByte a)

/-! ### The obligation -/

/-- Settles O13: a transfer copies the units it found at its issue, and its completion leaves its tags and its counter. -/
theorem localTransfersCopy : Obligations.LocalTransfersCopy := by
  unfold Obligations.LocalTransfersCopy
  refine ⟨localRow_of_units (fun _ _ _ _ => rfl) (by decide) (by decide), localRow_of_units (fun _ _ _ _ => rfl) (by decide) (by decide),
    localRow_of_units (fun _ _ _ _ => rfl) (by decide) (by decide), ?_, ?_, ?_, ?_⟩
  · intro s c x f hq ht ⟨hp, hs, hfar, hclean, ⟨o, hr, ho⟩, hstop, hwaits⟩
    obtain ⟨hbytes, hqueue, hctx, hothers⟩ := hq.xfer_window_row ht hp hs hfar hclean ho hr fun hend =>
      hend.elim (fun h => h hstop) fun h => h hwaits
    refine ⟨_, hq.runRow_eq, hbytes, hqueue, hctx, fun d hd hdr => hothers d hd fun hdo => hdr (hdo ▸ hr)⟩
  · intro s c x f hq ht ⟨hx, hdir⟩
    obtain ⟨hleaves, hbytes⟩ := hq.xobj_get_row ht hx hdir
    refine ⟨_, hq.runRow_eq, hbytes, ?_, fun d hd => ?_, hleaves.tags, hleaves.done_plain (by decide), hleaves.descs⟩
    · rw [Core.hdr_congr hleaves.hdrs]
      exact Core.hdr_setHdr ..
    · rw [Core.hdr_congr hleaves.hdrs]
      exact Core.hdr_setHdr_ne _ _ hd
  · intro s c x f hq ht ⟨hx, hdir⟩
    obtain ⟨hleaves, hbytes⟩ := hq.xobj_put_row ht hx hdir
    exact ⟨_, hq.runRow_eq, hbytes, hleaves.hdrs, hleaves.tags, hleaves.done_plain (by decide), hleaves.descs⟩
  · intro s c x f hq ht ⟨hp, hs, hparity, hclosing⟩
    obtain ⟨hplan, hne, hsrc, hdst⟩ := State.plan_qread hp
    obtain ⟨hleaves, hcopied⟩ := hq.qread_row ht hp hs hplan hne hsrc hdst hparity hclosing
    exact ⟨_, hq.runRow_eq, hcopied.copied, hcopied.rest, hleaves.tags, hleaves.done_plain (by decide), hleaves.hdrs⟩

end Sys2Proof.Machine
end
